-- ==== Sys2Proof/Word.lean ====
section
/-! DEFINITION. The word types of the device: 32-bit register words (R5), bytes and byte strings (R3). -/
namespace Sys2Proof

/-- A register word: every register is 32 bits wide (R5). -/
abbrev Word := BitVec 32

/-- A byte of a memory, a message or a packet. -/
abbrev Byte := BitVec 8

/-- A byte string, lowest address first (R3). -/
abbrev Bytes := List Byte

end Sys2Proof
end

