-- ==== Sys2Proof/Syntax.lean ====
section
/-! DEFINITION. The commands of the block: one constructor per row of spec/opcode_table.json, in the order of the table.
An operand is what the sender supplies: a port, a value written, the bytes of a message or a packet, a physical result. -/
namespace Sys2Proof

/-- Who makes an access on the host's behalf: the service port, or a device or bridge on the fabric by its address
(R441, R448). -/
inductive Requester where
  | service
  | fabric (src : BitVec 16)
deriving DecidableEq, Repr

/-- How a Seedbank store ends (R383, R390): its header verify passes, or a row (512 the header) fails twice, after a
time in units of 10 µs. -/
inductive StoreEnd where
  | ok
  | rowFail (row time : Nat)
deriving DecidableEq, Repr

/-- How a non-volatile copy reads at recall (R391): as it was written, with an uncorrectable word or a DATA_CRC
mismatch, or with a header that fails its checks. -/
inductive CopyRead where
  | good | badData | noHeader
deriving DecidableEq, Repr

/-- A requester of the Granary (Table 3.2): a scheduled engine of Table 2.5, or an unscheduled requester. -/
inductive GrnReq where
  | engine (e : Fin 8)
  | linkRx (p : Fin 4)
  | linkFwd (p : Fin 4)
  | dmcUnsched | burin | sowing
  | thrEnc (i : Fin 2)
  | steward | mgmt | logger | gleaner
deriving DecidableEq, Repr

/-- What a port finds of its lanes in ALIGN (R241, R242), one bit a lane: the lanes that hold AM lock within the skew limit, and
those whose alignment markers report precoding. -/
structure AlignLanes where
  lock : BitVec 8
  precode : BitVec 8
deriving DecidableEq, Repr

/-- What the error check of a Granary access finds (R76, R77, R79): nothing, a correctable or an uncorrectable word, or an
uncorrectable entry of the plot map (0), the poison flags (1) or the plot state table (2). -/
inductive GrnErr where
  | clean
  | corrected (word : Fin 8)
  | uncorrectable (word : Fin 8)
  | table (t : Fin 3) (entry : Fin 16384)
deriving DecidableEq, Repr

/-- How the words of a DRAM line check (R324): all correct, some corrected, or uncorrectable; `inCheck` says that the fault
lies in the check line. -/
inductive DramCheck where
  | clean
  | corrected (inCheck : Bool)
  | uncorrectable (inCheck : Bool)
deriving DecidableEq, Repr

/-- How DRAM training ends (R338): every channel passes down to a fastest point, with the first failure's channel and step
when that is not HIGH; a channel fails LOW or does not answer; or the configurations differ or are not supported. -/
inductive TrainOut where
  | pass (opMax : Fin 3) (channel : Fin 16) (step : Fin 5)
  | failLow (channel : Fin 16) (step : Fin 5)
  | mismatch
deriving DecidableEq, Repr

/-- The outcome of DRAM training with the configuration that MR8 reports: density code 1 to 4 of DMC_CONFIG, and two
ranks. -/
structure Training where
  out : TrainOut
  density : Fin 5
  twoRanks : Bool
deriving DecidableEq, Repr

/-- What an MR4 read of a channel reports (R333): the raw value, the refresh multiplier it asks for, and whether it lies
above the operating limit. -/
structure Mr4 where
  raw : BitVec 8
  rate : Fin 5
  hot : Bool
deriving DecidableEq, Repr

/-- Whose countdown to QUIET or SLEEP has ended (Table 9.7): the transmit direction's own, or the partner's. -/
inductive PowerDir where
  | tx | rxQuiet | rxSleep
deriving DecidableEq, Repr


/-- A command to the device: the rows of spec/opcode_table.json. -/
inductive Instr where
  /-- R7. A host write to a register that has no row of its own, performed under its access code and R5/R6. An aligned or unaligned
  address of the register space, checked by R5. -/
  | registerWrite (who : Requester) (addr : BitVec 32) (value : Word)
  /-- R309. A tick boundary arrives from the tick source. The device applies the decision, advances the frame number and starts
  slot 0. `running`: the headland tasks, by table index, that are still running. -/
  | tickBoundary (running : List (Fin 64))
  /-- R17. A furrow slot, the drain or a headland slot begins, and each scheduled engine's record for that slot is started. -/
  | furrowSlotStart (slot : Fin 560)
  /-- R51. A slot ends. Any engine that has not finished its record is cut and its work discarded. `needs`: for an engine that has
  not finished, the cycles it still needed. -/
  | furrowSlotEnd (needs : List (Fin 8 × Nat))
  /-- R37. The drain ends. Due headland tasks are considered in priority order and started, or deferred when they do not fit.
  `mr4`: what the THERMAL task's MR4 reads report, by channel. -/
  | headlandStart (mr4 : List (Fin 16 × Mr4))
  /-- R38. 512 cycles before the boundary, a running task that claims a scheduled resource is stopped and its resources released.
  `running`: the started headland tasks that have not ended. -/
  | headlandTaskAbort (running : List (Fin 64))
  /-- R19. At the commit lead before the projected boundary, the candidate is frozen, the vote is cast and the first-band fill starts. -/
  | commitPoint
  /-- R53. VALIDATE stages a plan from DRAM or a flash slot and starts its validation. `value` is the word written to FPL_STAGE_CTRL. -/
  | fplStageValidate (value : Word)
  /-- R53. ABORT discards the staged plan and disarms any pending switch. `value` is the word written to FPL_STAGE_CTRL. -/
  | fplStageAbort (value : Word)
  /-- R49. Validation of a staged plan completes with VALID or REFUSED. -/
  | planValidationDone
  /-- R56. ARM arms a switch at the frame in FPL_SWITCH_AT; arming is refused when that frame is not later than the current one, or
  when the switch is cold without COLD_OK. `value` is the word written to FPL_SWITCH_CTRL. -/
  | fplSwitchArm (value : Word)
  /-- R53. NEXT arms a switch at the next boundary. `value` is the word written to FPL_SWITCH_CTRL. -/
  | fplSwitchNext (value : Word)
  /-- R53. DISARM cancels an armed switch. `value` is the word written to FPL_SWITCH_CTRL. -/
  | fplSwitchDisarm (value : Word)
  /-- R55. A cold switch's reload completes and the device rejoins the commit. -/
  | coldSwitchDone
  /-- R70. A client requests a plot, which is granted from its partition or the general pool when it has credit. `client` is a
  CLIENT of Table 3.2. -/
  | plotRequest (client : Fin 32)
  /-- R70. A client releases a plot. It becomes FREE, IN_FLIGHT while accesses are outstanding, or is handed over. `outstanding`
  accesses of readers run on; `receiver` is the client it is handed to. -/
  | plotRelease (client : Fin 32) (plot : Fin 16384) (outstanding : Nat) (receiver : Option (Fin 32))
  /-- R70. The last outstanding access to an IN_FLIGHT plot completes, and the plot becomes FREE. -/
  | plotAccessComplete (plot : Fin 16384)
  /-- R70. A receiving client accepts a handed-over plot. -/
  | plotHandoverAccept (client : Fin 32) (plot : Fin 16384)
  /-- R70. A handed-over plot is not accepted within 1 ms and returns to the giver. -/
  | plotHandoverTimeout (plot : Fin 16384)
  /-- R71. A client without credit has waited 1 ms, or each further ms, for a plot. -/
  | grnAllocStall (client : Fin 32)
  /-- R85. A requester accesses a Granary line, subject to readiness, retirement, rights, ECC and poison. A read of `len` bytes, or
  a write, from byte `off` of a line; `poisonIn`: the data written come from a poisoned DRAM response; `rivals` are the other
  unscheduled requesters active for the bank. -/
  | granaryAccess (req : GrnReq) (plot : Fin 16384) (line off : Fin 64) (len : Nat) (write : Option Bytes) (poisonIn : Bool) (err : GrnErr) (rivals : List GrnReq)
  /-- R75. A corrected word is written back in the next unscheduled cycle of its bank. -/
  | eccWriteback
  /-- R80. The S3 self-test of all physical plots completes, extends the retire list, and may hold at S2. `fails` are the physical
  plots that fail. -/
  | granaryBist (fails : List (Fin 16384))
  /-- R86. At the end of the drain, the plot state is snapshotted and checked against the counters and the client records. -/
  | plotAudit
  /-- R82. A write queues a targeted self-test of the plot behind a logical plot. `value` is the word written. -/
  | grnSelftestReq (value : Word)
  /-- R82. A queued plot test starts, taking a spare and copying the logical plot's contents. `bad` are the uncorrectable words
  (line, word) met in the copy. -/
  | plotSelftest (bad : List (Fin 64 × Fin 8))
  /-- R83. The March C- test ends and its result is classed. `figure` is ARG2 of the result as R457 lays it out. -/
  | plotSelftestDone (fail : Bool) (figure : Word)
  /-- R8. A read of the RC grant counter returns it and clears it. -/
  | grnClientGrantsRead
  /-- R109. A Sheaf block arrives and is checked, then accepted into a slot, replaced, forwarded or discarded. Operands: the
  arrival port and the whole message with its 16-byte header. -/
  | sheafBlockReceive (port : Fin 4) (msg : Bytes)
  /-- R106. A frame record arrives and becomes pending, is discarded as stale, or is taken with RESYNC. Operands as for
  SHEAF_BLOCK_RECEIVE. -/
  | frameRecordReceive (port : Fin 4) (msg : Bytes)
  /-- R108. An update record arrives and is opened with its expected set, or discarded. Operands as for SHEAF_BLOCK_RECEIVE. -/
  | updateRecordReceive (port : Fin 4) (msg : Bytes)
  /-- R110. Every block of an update has been accepted and its slot writes issued, so the update is complete. `plate` is the
  plate's index in the plan. -/
  | updateComplete (plate : Fin 32)
  /-- R116. The copy of the new shown map into the new arriving map ends, and publication resumes. -/
  | mapCopyDone (plate : Fin 32)
  /-- R106. The host asks that the next frame record be handled as RESYNC. -/
  | pltCtrlResync
  /-- R118. The host discards the pending frame record. -/
  | pltCtrlDropPending
  /-- R123. A scheduled DRAM stream record reads a block row of the shown map into DRAM staging. `line` is the first line of the
  DRAM staging partition that the row takes; `checks` names lines, by address, whose words do not check. -/
  | dmcStreamRecord (slot : Fin 560) (line : Nat) (checks : List (Nat × DramCheck))
  /-- R123. Every line of a staged block row has arrived, and the row is marked input-complete. `fill` tells a row of a FILL record
  from one of a RUN record. -/
  | streamRowStaged (row : Nat) (fill : Bool)
  /-- R124. A decode record dispatches a row's blocks to free decode pipes in a fixed order. -/
  | thrDecRecord (slot : Fin 560)
  /-- R129. A decode pipe finishes a Sheaf block, checking its header, stream, length and CRC. `cycles` is the pipe time in THR
  cycles, at most T of R121. -/
  | thrBlockDecode (pipe : Fin 8) (cycles : Nat)
  /-- R134. A doorbell write submits job descriptors. -/
  | thrJobTailWrite (value : Word)
  /-- R139. A waiting job starts on a claimed pipe of the required kind. -/
  | thrJobStart (pipe : Fin 10)
  /-- R136. A job pipe completes one Sheaf block and writes it to DST when it fits. -/
  | thrJobBlock (pipe : Fin 10)
  /-- R140. JOB_ABORT ends every running job with ABORTED at its next block. -/
  | thrCtrlJobAbort
  /-- R140. A ring-size write; an invalid value stops job fetch and sets RING_BAD. -/
  | thrJobRingSizeWrite (value : Word)
  /-- R146. A band-writer record places decoded rows into the band rings, scaling where a plate is scaled. -/
  | pltBwRecord (slot : Fin 560)
  /-- R146. A decoded block arriving over the route is converted, conditioned and placed. -/
  | bandWriteBlock
  /-- R156. A drill record starts composing a furrow, or priming the reach store in the headland. -/
  | drillRecord (slot : Fin 560)
  /-- R155. A drill loads two new window rows per plate into its reach store once they are input-complete. A slot from 541 on is
  the prime. -/
  | drillReachLoad (drill : Fin 24) (slot : Fin 560)
  /-- R157. A lane finishes a ray. The residue check runs and the colour head tone-maps it and sends it to the Etcher. `check`: the
  residue check failed; `spareIdle`: the spare lane is idle; `cycle`: when the last sample was issued. -/
  | drillRayComplete (hx : Fin 960) (dir : Fin 144) (lane : Fin 9) (check spareIdle : Bool) (cycle : Nat)
  /-- R174. A write queues a scan test of a drill lane. -/
  | drlLaneTest (value : Word)
  /-- R158. A lane scan test ends and its result is classed. `idx` is 9d + j; `vector` is the first failing scan vector. -/
  | drillLaneTestDone (idx : Fin 216) (fail : Bool) (vector : Word)
  /-- R171. ARM arms the inactive bank with a tag. -/
  | drlTmArm (value : Word)
  /-- R171. DISARM cancels the arm. -/
  | drlTmDisarm (value : Word)
  /-- R172. LOAD starts copying a tone-map image into the inactive bank; it is refused while the bank is armed or a load runs. -/
  | drlTmLoad (value : Word)
  /-- R172. The image copy ends. The bank is written when every check passes; otherwise DRL_TM_LOAD_FAIL is reported. -/
  | drlTmLoadDone
  /-- R174. An access to DRL_TM_DATA moves a tone-curve entry pair and advances DRL_TM_ADDR. -/
  | drlTmDataAccess (write : Option Word)
  /-- R172. A write to a tone-map mode, scale, white or matrix register changes the inactive bank, or is refused with DRL_TM_BUSY.
  `reg` counts DRL_TM_MODE, DRL_TM_SRGB_WHITE, DRL_MTX_0 to DRL_MTX_4. -/
  | drlTmBankWrite (reg : Fin 7) (value : Word)
  /-- R180. RELOAD checks and stages the current Hogel image. -/
  | hglCtrlReload
  /-- R180. RELOAD_FACTORY checks and stages the factory Hogel image. -/
  | hglCtrlReloadFactory
  /-- R195. CKPT_NOW starts a checkpoint at the next window. -/
  | hglCtrlCkptNow
  /-- R177. The Hogel prefetch engine fetches a furrow's entries and limits their fields. -/
  | hglPrefetchRecord (slot : Fin 560)
  /-- R181. One sector of the current Hogel image is read, erased and programmed. `fail` says that the program or erase failed. -/
  | flashSectorRewrite (fail : Bool)
  /-- R185. A fold window reaches F = 256 ticks; the bank changes, or the window is extended. -/
  | foldWindowEnd
  /-- R186. The fold engine folds one portion of 54,675 cells into the masters and computes their gains. -/
  | foldPortion
  /-- R195. The trailer is programmed and verified, the stress record is updated and a store is requested. `fail` names a failed
  program (false) or erase (true). -/
  | checkpointProgramDone (fail : Option Bool)
  /-- R201. The colour stage applies gains and defect handling, encodes 12-bit codes and forms stress sums. -/
  | etcColRecord (slot : Fin 560)
  /-- R214. The transmitter sends FURROW and ROW packets, or a TICK packet in slot 0. `cut`: rows (driver, row) whose packets a cut
  of the record keeps from being sent. -/
  | etcTxRecord (slot : Fin 541) (cut : List (Fin 16 × Fin 12))
  /-- R216. An ETC_TX record ends. Stale rows are counted and stress sums are accumulated or discarded. -/
  | etcTxRecordEnd
  /-- R221. The row-scan pins select and write a furrow's 12 rows. -/
  | etcRowScan (furrow : Fin 540)
  /-- R217. A STATUS packet from a driver updates driver state, errors and panel temperature. `lane` is the return lane, `packet`
  the whole packet. -/
  | statusPacketReceive (lane : Fin 2) (packet : Bytes)
  /-- R219. A driver's lane leaves the active state. -/
  | panelDriverLost (driver : Fin 16)
  /-- R219. A returning lane is sent CONFIG, TICK and STATUS_REQ. -/
  | panelDriverRestored (driver : Fin 16)
  /-- R225. A sense window opens. SENSE_REQ packets are sent and SEEK and selection steps run. -/
  | senseWindow (slot : Fin 560)
  /-- R226. The window ends, and requests without results fail. -/
  | senseWindowEnd
  /-- R226. A SENSE_RES packet arrives, and its entries are matched to requests by TAG. -/
  | senseResReceive (lane : Fin 2) (packet : Bytes)
  /-- R227. UP starts the panel supply up sequence. -/
  | etcSupplyUp
  /-- R227. DOWN runs a discharge and the down sequence. -/
  | etcSupplyDown
  /-- R228. CLEAR_LOCKOUT leaves LOCKOUT for OFF. -/
  | etcSupplyClearLockout
  /-- R227. PGOOD of the group being raised rises, and the T_SEQ wait starts. -/
  | supplyPgoodRise (group : Fin 4)
  /-- R227. T_SEQ elapses, and the sequence moves to the next group or step. -/
  | supplySeqDelayEnd
  /-- R228. PGOOD does not rise within T_PG, so the down sequence runs. -/
  | supplyPgoodTimeout
  /-- R228. PGOOD is low for more than 2 µs while its group is on. -/
  | supplyPgoodFault (group : Fin 4)
  /-- R228. The auto-retry delay ends and the up sequence runs again, or lockout follows. -/
  | supplyRetryTimer
  /-- R222. 50 µs of ALL_OPEN end, and the row pins go low. -/
  | dischargeAllOpenEnd
  /-- R231. A write of BLANK makes the next boundary discharge and hold, or resume. `value` is the word written to ETC_CTRL. -/
  | etcCtrlBlank (value : Word)
  /-- R229. PFAIL_N is low or VDD_IO dips, so the panel power-loss sequence and the Seedbank store start. -/
  | powerLossTrigger
  /-- R229. ALL_OPEN ends, the row pins and PSEQ go low, and ETC_DISCHARGE is reported. -/
  | powerLossSequenceEnd
  /-- R242. Signal energy on a lane for 1 µs moves a port from DETECT to WAKE. -/
  | laneSignalDetect (port : Fin 4) (lanes : BitVec 8)
  /-- R243. A 1 ms attempt ends without signal, and the failure count and backoff advance. -/
  | trainAttemptEnd (port : Fin 4)
  /-- R243. The backoff wait ends and a new attempt starts. -/
  | trainBackoffEnd (port : Fin 4)
  /-- R242. The lanes lock and check PRBS13Q, and the port enters EQ. -/
  | wakeLock (port : Fin 4) (lanes : BitVec 8)
  /-- R242. No lane locks within 2 ms, so the port returns to DETECT. -/
  | wakeTimeout (port : Fin 4)
  /-- R238. A TRAIN EQ block's request adjusts the transmit taps and is acknowledged. Operand: the 32 bytes of the control block. -/
  | eqRequestReceive (lane : Fin 32) (block : Bytes)
  /-- R240. A 2^20-symbol histogram completes and the lane's figure of merit is updated. Operands: samples per bin decided as level
  0, 1, 2, 3, 256 bins each, and what the receiver has adapted to (R239). -/
  | fomHistogramDone (lane : Fin 50) (counts : List Nat) (ctle : BitVec 4) (dfe : BitVec 8) (taps : List (BitVec 10))
  /-- R242. Every lane is qualified with RX_READY or dropped, and the port enters ALIGN. -/
  | eqDone (port : Fin 4)
  /-- R242. After 20 ms, lanes that are not ready are dropped. -/
  | eqTimeout (port : Fin 4)
  /-- R242. The lanes hold AM lock within the skew limit, and the port enters HANDSHAKE. -/
  | alignDone (port : Fin 4) (lanes : AlignLanes)
  /-- R242. After 1 ms, lanes that are not aligned are dropped. -/
  | alignTimeout (port : Fin 4) (lanes : AlignLanes)
  /-- R245. A HANDSHAKE block is received; widths are set, latency is sampled and the port enters ACTIVE. -/
  | handshakeReceive (port : Fin 4) (block : Bytes)
  /-- R246. 10 ms pass without a HANDSHAKE, and after 3 such waits PEER_SILENT is set. -/
  | handshakeSilence (port : Fin 4)
  /-- R246. Once per second a silent port repeats ALIGN and a HANDSHAKE attempt. -/
  | peerSilentRetry (port : Fin 4)
  /-- R244. Loss of signal for 1 µs returns the port to DETECT. Lane 8p + l of port p, or 32 + m of the panel. -/
  | lossOfSignal (lane : Fin 50)
  /-- R249. An uncorrectable codeword is counted; 16 within 1 ms mark the lane WEAK and retrain the port. -/
  | fecUncorrectable (lane : Fin 50)
  /-- R249. More than 2^20 corrected symbols in 1 s mark the lane WEAK. -/
  | laneCorrectedLimit (lane : Fin 50) (symbols : Nat)
  /-- R250. A lane self-test ends and is classed; a PERMANENT lane is EXCLUDED. -/
  | laneSelftestDone (lane : Fin 50) (errors : Nat)
  /-- R248. RETRAIN takes the port to DETECT. -/
  | lnePortRetrain (port : Fin 4)
  /-- R250. CLEAR_EXCLUDE clears EXCLUDED on every lane of the port. -/
  | lnePortClearExclude (port : Fin 4)
  /-- R242. A write of ENABLE disables the port or restarts its training. -/
  | lnePortEnableWrite (port : Fin 4) (enable : Bool)
  /-- R255. Setting TEST claims the port and takes it out of ACTIVE. -/
  | lnePortModeWrite (port : Fin 4) (test : Bool)
  /-- R255. A write sets a lane loop in TEST mode and is ignored in NORMAL. -/
  | lneLaneLoopWrite (lane : Fin 50) (value : Word)
  /-- R254. CLEAR clears the PRBS error and bit counts. -/
  | lnePrbsClear (lane : Fin 50)
  /-- R254. INJECT inverts one transmitted bit. -/
  | lnePrbsInject (lane : Fin 50)
  /-- R8. A read of the RC bit-error count returns it and clears it. -/
  | lnePrbsErrRead (lane : Fin 50)
  /-- R254. A read of the bits-checked low word latches the high word. -/
  | lnePrbsBitsLoRead (lane : Fin 50)
  /-- R250. A write queues a lane self-test. -/
  | lneSelftestReq (value : Word)
  /-- R280. An idle STANDBY direction asks for QUIET after 2 µs with nothing to send. -/
  | directionQuietRequest (port : Fin 4)
  /-- R280. After 10 ms in QUIET, the direction asks for SLEEP. -/
  | directionSleepRequest (port : Fin 4)
  /-- R253. A direction with a flit to send asks for wake. -/
  | directionWakeRequest (port : Fin 4)
  /-- R280. A sleeping direction wakes once per second to send an LCTL NOP. -/
  | sleepLivenessWake (port : Fin 4)
  /-- R253. The QUIET or SLEEP countdown ends and the pattern or idle begins. -/
  | powerEntryComplete (port : Fin 4) (dir : PowerDir)
  /-- R253. The 10 µs minimum residency ends, and a pending wake starts. -/
  | sleepResidencyEnd (port : Fin 4)
  /-- R252. The short retrain after sleep ends, and blocks resume. `none`: the transmit direction; `some ok`: the receive
  direction, and whether it regained lock. -/
  | wakeRetrainEnd (port : Fin 4) (rx : Option Bool)
  /-- R256. A TRAIN LOOP block with ENTER sets the far-end loop when FE_ALLOW is set. -/
  | feLoopRequest (lane : Fin 32) (block : Bytes)
  /-- R256. After 10 µs without signal or after 60 s, the partner leaves the FE loop. -/
  | feLoopEnd (lane : Fin 32)
  /-- R257. A panel lane's training sequence ends and it is trained. -/
  | panelLaneTrainDone (lane : Fin 18)
  /-- R257. Three polls without STATUS take an out lane out of ACTIVE; `ret` is the return lane, of the two, that RET_MAP names
  for the driver polled. -/
  | panelLaneNoStatus (lane : Fin 16) (ret : Fin 2)
  /-- R258. A failed panel lane is retried after backoff, and ABSENT is set after 3 failures. -/
  | panelLaneRetry (lane : Fin 18)
  /-- R258. RETRAIN retrains a panel lane. -/
  | lnePlRetrain (lane : Fin 18)
  /-- R264. A flit is received and accepted, discarded as a duplicate, or answered with a replay request. Operands: the 256 bytes,
  and whether a block of them arrived marked bad (R237). -/
  | flitReceive (port : Fin 4) (flit : Bytes) (bad : Bool)
  /-- R264. The expected flit has not arrived 8 µs after the request, so the request is repeated. -/
  | nakRepeatTimer (port : Fin 4)
  /-- R265. An acknowledgement or freed slot unreported for 0.5 µs sends an LCTL NOP. -/
  | ackNopTimer (port : Fin 4)
  /-- R266. The oldest unacknowledged flit has waited 8 µs, so a replay starts. -/
  | replayTimeout (port : Fin 4)
  /-- R271. A CREDIT_SYNC snapshot is applied and acknowledged. Operand: the payload of the LCTL flit (Table 10.3). -/
  | creditSyncReceive (port : Fin 4) (payload : Bytes)
  /-- R272. A CREDIT_SYNC_ACK is received; when both sides are applied, the sync completes and MSG flits resume. -/
  | creditSyncAckReceive (port : Fin 4) (id : Byte)
  /-- R270. CREDIT_SYNC is resent every 10 µs until the sync completes. -/
  | creditSyncResend (port : Fin 4)
  /-- R272. A sync not complete within 1 ms sets RETRAIN. -/
  | creditSyncTimeout (port : Fin 4)
  /-- R270. SYNC_NOW starts a credit synchronisation. -/
  | lnkPortSyncNow (port : Fin 4)
  /-- R290. A write of the slot allocations is kept for the next sync, or ignored when it breaks R268. Operands: the pair of values
  written. -/
  | lnkPortAllocWrite (port : Fin 4) (alloc01 alloc23 : Word)
  /-- R276. A whole message header is received and checked, then delivered or routed. The message whose bytes are next in the
  receive slots of the virtual channel. -/
  | messageReceive (port : Fin 4) (vc : Fin 4)
  /-- R277. Once 48 bytes are staged and the route is decided, cut-through forwarding starts. -/
  | messageForwardStart (port : Fin 4) (vc : Fin 4)
  /-- R279. Every 1 ms, the VC2/VC3 input weights are recomputed from the distinct sources seen. -/
  | sourceWeightPeriod
  /-- R282. A root candidate starts an epoch or repeats its beacon every 100 ms. -/
  | beaconOriginate
  /-- R282. A better beacon sets the parent and is forwarded with HOPS + 1. -/
  | beaconReceive (port : Fin 4) (msg : Bytes)
  /-- R282. 4 ms after the epoch's first beacon, the root sends its first ASSIGN. -/
  | assignStart
  /-- R283. An ASSIGN is answered with ACCEPT on the parent port, or REFUSE otherwise. -/
  | assignReceive (port : Fin 4) (msg : Bytes)
  /-- R283. An ACCEPT confirms the offered address on a port. -/
  | acceptReceive (port : Fin 4) (msg : Bytes)
  /-- R283. A REFUSE marks the port STANDBY. -/
  | refuseReceive (port : Fin 4)
  /-- R283. A DONE records the CHILD interval and bridges, and offering continues. -/
  | doneReceive (port : Fin 4) (msg : Bytes)
  /-- R284. A LOST at the root starts a new epoch. -/
  | lostReceive
  /-- R284. An ASSIGN unanswered for 1 ms is re-offered, then the port becomes STANDBY. -/
  | assignTimeout
  /-- R284. No DONE 10 s after ACCEPT marks the port STANDBY. -/
  | doneTimeout
  /-- R282. REDISCOVER starts an epoch at the root, or sends LOST elsewhere. -/
  | lnkCtrlRediscover
  /-- R288. A management request is queued, or answered BUSY when the queue is full. Operand: the whole message with its 16-byte header. -/
  | mgmtReqReceive (msg : Bytes)
  /-- R287. The request at the head of the queue is performed and answered. -/
  | mgmtReqPerform
  /-- R300. A TICK is used to place the next boundary and is flooded onward. Operands: the arrival port and the whole message with
  its 16-byte header. -/
  | tickMessageReceive (port : Fin 4) (msg : Bytes)
  /-- R309. A DECISION is recorded for its boundary, flooded, and used to choose the commit parent. -/
  | decisionReceive (port : Fin 4) (msg : Bytes)
  /-- R305. A child's vote is recorded, or discarded as late. -/
  | voteReceive (port : Fin 4) (msg : Bytes)
  /-- R311. A MEMBER message sets the device's MEMBER flag. -/
  | memberReceive (msg : Bytes)
  /-- R305. All member children have voted or the deadline is reached, so the combined vote is sent to the parent. -/
  | voteDeadline
  /-- R306. The root decides COMMIT, REPEAT or FORCED and floods the DECISION. -/
  | rootDecide
  /-- R297. A candidate without TICKs for its rank's count claims mastership. -/
  | masterClaim
  /-- R307. A root candidate that has missed its rank's count of decisions takes the root role. -/
  | rootTakeover
  /-- R299. An active GENLOCK edge adjusts the master's tick length. -/
  | genlockEdge
  /-- R299. An expected GENLOCK edge is missing or invalid, and 3 in a row put the master in holdover. -/
  | genlockEdgeMissed
  /-- R327. A request for a DRAM line is accepted into its channel queue, or waits for an entry. One 64-byte line; bit j of `mask`
  writes byte j; `check` is what the read of a masked write finds. -/
  | dramRequest (client : Fin 32) (stream : Bool) (addr : BitVec 40) (write : Option Bytes) (mask : BitVec 64) (poisonIn : Bool) (check : DramCheck)
  /-- R324. Read data returns and its words are checked, corrected or poisoned. -/
  | dramReadResponse (channel : Fin 16) (check : DramCheck)
  /-- R332. The refresh interval elapses and the channel's debt grows. -/
  | refreshInterval (channel : Fin 16)
  /-- R333. No MR4 read within 1 s raises the multiplier to at least 2. -/
  | mr4Stale (channel : Fin 16)
  /-- R331. A bank idle for PAGE_IDLE cycles is precharged. -/
  | pageIdleTimer (channel bank : Fin 16)
  /-- R335. Queues empty for SR_IDLE start a self-refresh entry. -/
  | selfRefreshIdle
  /-- R335. The minimum residency ends, the channels exit and held requests are served. -/
  | selfRefreshExit
  /-- R336. REQ asks for an operating-point change, refused outside OP_FLOOR and OP_MAX. `value` is the word written to DMC_FREQ_CTRL. -/
  | dmcFreqReq (value : Word)
  /-- R336. In a change window with empty queues, the self-refresh entry of a frequency change starts. -/
  | freqChangeEntry
  /-- R337. The PLL has relocked, the channels exit self-refresh and the change completes. -/
  | freqChangeDone
  /-- R336. The change window closes before the entry commit point, and the change is deferred. -/
  | freqWindowClose
  /-- R339. A write queues a DRAM row test. `value` is the word written. -/
  | dmcSelftestReq (value : Word)
  /-- R339. A row pattern test ends, the contents are restored and the result classed. `fail` is the failing pattern, 0 for the first. -/
  | dramRowTestDone (channel bank : Fin 16) (row : Fin 131072) (fail : Option (Fin 5))
  /-- R346. A doorbell write starts command fetch, or is ignored as RING_BAD. -/
  | burTailWrite (value : Word)
  /-- R348. A NOP command writes nothing and ends DONE. -/
  | burNop
  /-- R351. A FILL command writes COLOUR over the destination rectangle. `segments` is how many segments of the command at BUR_HEAD
  are performed before the next command of the model. -/
  | burFill (segments : Nat)
  /-- R352. A COPY command moves a rectangle, with direction and transform. `segments` as for BUR_FILL. -/
  | burCopy (segments : Nat)
  /-- R354. A STIPPLE command expands A1 glyphs into colour, or ends MODE in normal service. `segments` as for BUR_FILL. -/
  | burStipple (segments : Nat)
  /-- R349. RESUME leaves the halted state. -/
  | burCtrlResume
  /-- R356. ABORT ends the running command with ABORTED at a segment boundary. -/
  | burCtrlAbort
  /-- R356. A write of EN enables fetch, or disables the engine and aborts a running command. -/
  | burCtrlEnWrite (en : Bool)
  /-- R350. A ring-size write is taken, or sets RING_BAD. -/
  | burRingSizeWrite (value : Word)
  /-- R350. A write of the ring base resets head and tail. -/
  | burRingLoWrite (value : Word)
  /-- R364. A sensor conversion result is checked and updates the bands, rate, hold and level. `temp` is the converter's result in
  1/256 °C. -/
  | thmConversionResult (sensor : Fin 24) (temp : Int)
  /-- R364. A conversion without a result in 80 µs fails the sensor. -/
  | thmConversionTimeout (sensor : Fin 24)
  /-- R362. Before a plan runs, all sensors are converted every 10 ms and the panel every 100 ms. `panel` says that the panel round
  of every 100 ms is due too. -/
  | thmPeriodicConversion (panel : Bool)
  /-- R362. A write queues a host conversion. `value` is the word written. -/
  | thmConvReq (value : Word)
  /-- R365. A write queues a sensor self-test. `value` is the word written. -/
  | thmSelftestReq (value : Word)
  /-- R365. A sensor's reference conversion ends and the result is classed. `reading` is the reference reading in 1/256 °C, none
  when the conversion gave no result. -/
  | thmSelftestDone (sensor : Fin 24) (pass : Bool) (reading : Option Int)
  /-- R363. A sensor not converted for 500 ms is marked STALE. -/
  | thmSensorStale (sensor : Fin 24)
  /-- R370. After 2 s without reasons, the level asked for falls one step. -/
  | thmLevelRelease
  /-- R371. A rate step ends after 1 s without an exceedance. -/
  | thmRateStepEnd
  /-- R372. The hold is released after 10 s of valid readings. -/
  | thmHoldRelease
  /-- R375. After 10 s below 100 °C, OVERTEMP clears and the up sequence runs. -/
  | thmOvertempClear
  /-- R374. After 10 s at HOT or below, OP_MAX is requested. -/
  | thmOpRestore
  /-- R368. No valid panel reading for 1 s is reported. -/
  | thmPanelUnknown
  /-- R376. The analog comparator trips, pads go to S0 defaults and the domains are held in reset. `sites` are the comparators that
  tripped. -/
  | thermalTrip (sites : BitVec 24)
  /-- R385. STORE requests a Seedbank store, queued behind a running one. -/
  | sbkCtrlStore
  /-- R397. GLEAN requests a Gleaner pass. -/
  | sbkCtrlGlean
  /-- R383. A store's header verify ends and the store is completed; a queued store then starts. `result` is the outcome of the verifies. -/
  | sbkStoreComplete (result : StoreEnd)
  /-- R391. Recall chooses a valid copy and copies it into the SRAM. `a` and `b` are how the two copies read. -/
  | sbkRecall (a b : CopyRead)
  /-- R381. An SBK_DATA access moves one SRAM word under the access limits and advances SBK_ADDR. `ue`: the addressed SRAM word
  holds an uncorrectable error. -/
  | sbkDataAccess (req : Requester) (write : Option Word) (ue : Bool)
  /-- R395. The candidate is compared with the read password. -/
  | sbkPwUnlockR
  /-- R395. The candidate is compared with the write password. -/
  | sbkPwUnlockW
  /-- R395. The candidate is stored as the read password. -/
  | sbkPwSetR
  /-- R395. The candidate is stored as the write password. -/
  | sbkPwSetW
  /-- R395. LOCK closes both guards. -/
  | sbkPwLock
  /-- R402. A read of the counter low word latches the high word. -/
  | sbkCntLoRead
  /-- R394. Each second, the operating-seconds counter is bumped. -/
  | operatingSecond
  /-- R397. A Gleaner pass ends, and re-stores are requested for weak rows. Weak rows found in copy A and copy B. -/
  | gleanPassDone (weakA weakB : Nat)
  /-- R404. VDD_AON rises and the device is reset entirely. -/
  | powerOnReset
  /-- R404. RESET_N is low for 1 µs, causing a PIN reset. `cool` says that every trip comparator reads below 110 °C (R376). -/
  | pinReset (cool : Bool)
  /-- R444. A write of the reset command requests a SOFT reset. `value` is the word written. -/
  | gblReset (value : Word)
  /-- R404. The Steward watchdog is unserved for 2 s, causing a WATCHDOG reset. -/
  | watchdogExpiry
  /-- R404. After the power-loss sequence, PFAIL_N has been high for 10 ms, causing a restart. -/
  | pfailRestart
  /-- R405. The down sequence of a requested reset ends and the reset takes effect. -/
  | resetEffect
  /-- R407. A reset is released; the straps are sampled, recall runs when FINAL is set and the mode is chosen. `strap` is BOOT_SRC
  as sampled; `a` and `b` are how the Seedbank copies read, should recall run. -/
  | resetRelease (strap : Fin 4) (a b : CopyRead)
  /-- R408. A stage's work completes and the next stage is reached, or the device holds. `training` is how DRAM training ends, for S3. -/
  | stageAdvance (training : Training)
  /-- R409. RESUME_STAGE retries the failed stage. -/
  | updCtrlResumeStage
  /-- R434. RECOVERY_REQ sets the flag and takes a SOFT reset. -/
  | updCtrlRecoveryReq
  /-- R436. LOAD_GO checks the service-port load and runs it in recovery mode. -/
  | updCtrlLoadGo
  /-- R437. SOW_ABORT clears the sowing bitmap unless an activation is ARMED. -/
  | updCtrlSowAbort
  /-- R436. A word of the service-port load is taken. -/
  | updLoadDataWrite (value : Word)
  /-- R437. A read of the ACT_FRAME low word latches the high word. -/
  | updActFrameLoRead
  /-- R424. A sown block is checked, forwarded to child ports and programmed. Operands: the arrival port and the whole message with
  its 16-byte header. -/
  | sowBlockReceive (port : Fin 4) (msg : Bytes)
  /-- R424. A block is programmed and acknowledged by the children, so an ACK is sent to the parent. `verified` is false when the
  program failed its verify twice (R418). -/
  | sowBlockProgrammed (block : Fin 8704) (verified : Bool)
  /-- R425. A child's ACK for a block is recorded. -/
  | sowAckReceive (port : Fin 4) (msg : Bytes)
  /-- R425. A block unacknowledged for 1 s is resent, or the port is marked lagging. -/
  | sowResendTimer (port : Fin 4) (block : Fin 8704)
  /-- R427. A QUERY is answered with a unicast STATUS. -/
  | sowQueryReceive (msg : Bytes)
  /-- R429. An ARM verifies the parts, sets ARMED and requests a store, or is refused. -/
  | sowArmReceive (msg : Bytes)
  /-- R429. A CANCEL returns the armed record to its previous state. -/
  | sowCancelReceive (msg : Bytes)
  /-- R431. The trial firmware meets its three conditions, and the slot is confirmed. -/
  | healthConfirm
  /-- R432. 60 s pass without confirmation, so the device falls back to the confirmed slot. -/
  | healthTimeout
  /-- R414. The Steward redraws the proof text after a change of stage, port state or address. -/
  | proofRedraw
  /-- R440. A service-port register write transaction with a rising address. `cut` says that CS_N rose within the word after the
  last of `words`. -/
  | spiRegWrite (addr : BitVec 32) (words : List Word) (cut : Bool)
  /-- R440. A service-port register read transaction with a rising address. `n` is the number of words clocked out; `cut` as for
  SPI_REG_WRITE. -/
  | spiRegRead (addr : BitVec 32) (n : Nat) (cut : Bool)
  /-- R440. A service-port register write transaction, all words to one address. `cut` as for SPI_REG_WRITE. -/
  | spiRegWriteFixed (addr : BitVec 32) (words : List Word) (cut : Bool)
  /-- R440. A service-port register read transaction, all words from one address. -/
  | spiRegReadFixed (addr : BitVec 32) (n : Nat) (cut : Bool)
  /-- R440. A service-port memory write transaction. -/
  | spiMemWrite (addr : BitVec 40) (words : List Word) (cut : Bool)
  /-- R440. A service-port memory read transaction. `late` is the first word that the memory does not supply in time. -/
  | spiMemRead (addr : BitVec 40) (n : Nat) (cut : Bool) (late : Option Nat)
  /-- R440. A STATUS transaction returns the last transaction's status and word count. -/
  | spiStatus
  /-- R440. A transaction with an unknown opcode ends with FRAMING. -/
  | spiUnknownOpcode
  /-- R448. CLAIM takes the mailbox when it is free. -/
  | mbxClaim (who : Requester)
  /-- R448. RELEASE frees the mailbox for its holder. -/
  | mbxRelease (who : Requester)
  /-- R448. A holder idle for 10 s loses the mailbox. -/
  | mbxIdleRelease
  /-- R449. The IDENTIFY command returns the IDs, generations, stage and address. A GO with this opcode, and IRQ; the arguments
  stand in the ARG registers and the buffer. -/
  | mbxIdentify (who : Requester) (irq : Bool)
  /-- R449. The SHUTDOWN command runs the down sequence and a CLEAN store, and sets FINAL. -/
  | mbxShutdown (who : Requester) (irq : Bool)
  /-- R449. The STORE command runs a Seedbank store. -/
  | mbxStore (who : Requester) (irq : Bool)
  /-- R449. The FLASH_READ command reads flash bytes into the buffer. -/
  | mbxFlashRead (who : Requester) (irq : Bool)
  /-- R449. The PLAN_WRITE command programs a Field Plan slot from DRAM. `fail` says that a program or erase failed its verify
  twice (R418). -/
  | mbxPlanWrite (who : Requester) (irq fail : Bool)
  /-- R449. The PLAN_SELECT command writes PLAN_SLOT and stores it. -/
  | mbxPlanSelect (who : Requester) (irq : Bool)
  /-- R449. The FEATURE_ENABLE command claims a resource for a feature. -/
  | mbxFeatureEnable (who : Requester) (irq : Bool)
  /-- R449. The FEATURE_DISABLE command releases a claim. -/
  | mbxFeatureDisable (who : Requester) (irq : Bool)
  /-- R449. The THR_JOB command places a job descriptor in the Steward's ring. -/
  | mbxThrJob (who : Requester) (irq : Bool)
  /-- R456. The SELFTEST command queues a targeted self-test of an element. -/
  | mbxSelftest (who : Requester) (irq : Bool)
  /-- R449. The LOG_READ command copies critical or flash log entries into the buffer. -/
  | mbxLogRead (who : Requester) (irq : Bool)
  /-- R450. The LOG_EXPORT command sends the log region as BULK messages. -/
  | mbxLogExport (who : Requester) (irq : Bool)
  /-- R449. The DIAG_CAPTURE command re-encodes a plate's shown version into DRAM. -/
  | mbxDiagCapture (who : Requester) (irq : Bool)
  /-- R449. The CAL_WRITE command checks and programs a Hogel Table image. `fail` as for MBX_PLAN_WRITE. -/
  | mbxCalWrite (who : Requester) (irq fail : Bool)
  /-- R449. The CLEAR_LOG command empties the critical log when the write guard is open. -/
  | mbxClearLog (who : Requester) (irq : Bool)
  /-- R446. A write claims a pin for SOFTWARE, releases it, or is refused. -/
  | gblGpioOwnWrite (pin : Fin 16) (value : Word)
  /-- R452. The host consumes event records by moving its reader index. -/
  | gblEvqRdWrite (value : Word)
  /-- R8. A read of the RC lost count returns it and clears it. -/
  | gblEvqLostRead
  /-- R453. Waiting records are sent as an EVENT message on a batch, a period or a critical record. -/
  | eventMessageSend
  /-- R458. The Steward appends event, boot or retire entries to the flash log. `fail` says that the program failed its verify
  twice (R418). -/
  | flashLogAppend (fail : Bool)
  /-- R62. A read of the frame number low word latches the high word. -/
  | fplFrameLoRead
  /-- R199. A read of the STRESS_FRAMES low word latches the high word. -/
  | hglStressFramesLoRead
  /-- R199. A read returns a curve entry and advances HGL_CURVE_ADDR. -/
  | hglCurveDataRead
  /-- R262. A receiver that is out of step receives a good IDLE control block, and the next data block starts a flit again. -/
  | idleBlockReceive (port : Fin 4)
  /-- R387. VDD_NVM falls while a Seedbank store is running, leaving that copy interrupted and without a valid header. `rows` rows
  of the running store were programmed. -/
  | vddNvmLoss (rows : Nat)
  /-- R252. Energy has woken a sleeping receiver's detector and no valid short retrain has followed within 200 µs, so
  LNE_SLEEP_WAKE_FAIL is reported and the port goes to DETECT. -/
  | wakeDetectTimeout (port : Fin 4)
  /-- R257. An out panel lane has ended its training sequence, but no STATUS from the mapped driver arrives within 10 ms of the
  STATUS_REQ, so the training fails. -/
  | panelLaneTrainTimeout (lane : Fin 18)
deriving DecidableEq, Repr

end Sys2Proof
end

