-- ==== Sys2Proof/Decode.lean ====
section
/-! DEFINITION. The command that a word of spec/opcode_table.json spells, and the service-port transaction that the bits on SPI_MOSI
spell (R439, R440, Table 17.1). -/
namespace Sys2Proof

/-- No row of spec/opcode_table.json has bits. -/
def decodeTableWord (_nbits _w : Nat) : Option Instr := none

/-! ### The wire of the service port (R439) -/

/-- A number from bits, most significant first: every byte on the wire is sent so, and an opcode or an address most significant byte
first. -/
def wireNat (bits : List Bool) : Nat := bits.foldl (fun n b => 2 * n + cond b 1 0) 0

/-- A data word: four bytes, least significant first. -/
def wireWord (bits : List Bool) : Word :=
  BitVec.ofNat 32 (((List.range 4).map (fun k => wireNat ((bits.drop (8 * k)).take 8) * 256 ^ k)).sum)

/-- The whole data words of a number of words. -/
def wireWords : Nat → List Bool → List Word
  | 0, _ => []
  | n + 1, bits => wireWord (bits.take 32) :: wireWords n (bits.drop 32)

/-- A write after its opcode: an address of `n` bytes, then words; the flag says that the last word was cut (R440). -/
def wireWrite (n : Nat) (bits : List Bool) (mk : Nat → List Word → Bool → Instr) : Option Instr :=
  let data := bits.drop (8 * n)
  if bits.length < 8 * n then none
  else some (mk (wireNat (bits.take (8 * n))) (wireWords (data.length / 32) data) (data.length % 32 != 0))

/-- A read after its opcode: an address of `n` bytes and dummy bytes, then words clocked out. -/
def wireRead (n dummy : Nat) (bits : List Bool) (mk : Nat → Nat → Bool → Instr) : Option Instr :=
  let out := bits.length - 8 * (n + dummy)
  if bits.length < 8 * n then none
  else some (mk (wireNat (bits.take (8 * n))) (out / 32) (out % 32 != 0))

/-- R439, Table 17.1: the transaction that the bits between the fall and the rise of SPI_CS_N spell. One that ends within its
opcode or its address is none (DESIGN CHOICE, log entry 309); memory data that came too late is not seen on SPI_MOSI. -/
def decodeSpi (bits : List Bool) : Option Instr :=
  let rest := bits.drop 8
  if bits.length < 8 then none
  else match wireNat (bits.take 8) with
    | 0x01 => wireWrite 4 rest (fun a ws cut => .spiRegWrite (BitVec.ofNat 32 a) ws cut)
    | 0x03 => wireRead 4 8 rest (fun a n cut => .spiRegRead (BitVec.ofNat 32 a) n cut)
    | 0x06 => wireWrite 4 rest (fun a ws cut => .spiRegWriteFixed (BitVec.ofNat 32 a) ws cut)
    | 0x07 => wireRead 4 8 rest (fun a n cut => .spiRegReadFixed (BitVec.ofNat 32 a) n cut)
    | 0x11 => wireWrite 5 rest (fun a ws cut => .spiMemWrite (BitVec.ofNat 40 a) ws cut)
    | 0x13 => wireRead 5 32 rest (fun a n cut => .spiMemRead (BitVec.ofNat 40 a) n cut none)
    | 0x05 => some .spiStatus
    | _ => some .spiUnknownOpcode

/-- The bits of a number of `n` bytes on the wire. -/
def wireBits (n v : Nat) : List Bool := ((List.range (8 * n)).map (fun k => v.testBit k)).reverse

/-- The bits of data words on the wire. -/
def wireData (ws : List Word) : List Bool :=
  ws.flatMap (fun w => (List.range 4).flatMap (fun k => wireBits 1 (w.toNat / 256 ^ k)))

end Sys2Proof
end

