-- ==== Sys2Proof/Machine/Bits.lean ====
section
/-! DEFINITION. Bit fields, byte order (R3), fixed-point conversion (R4), serial arithmetic (R9, R10), saturating
counters and the two CRCs the spec names. -/
namespace Sys2Proof.Machine

/-- Field [hi:lo] of a value (Table 0.1). -/
def fld (x hi lo : Nat) : Nat := (x / 2 ^ lo) % 2 ^ (hi + 1 - lo)

/-- Bit n of a value as 0 or 1. -/
def bit (x n : Nat) : Nat := (x / 2 ^ n) % 2

/-- The value with field [hi:lo] replaced by `v`. -/
def putFld (x hi lo v : Nat) : Nat :=
  x - fld x hi lo * 2 ^ lo + (v % 2 ^ (hi + 1 - lo)) * 2 ^ lo

/-- One as a bit. -/
def b2n (b : Bool) : Nat := if b then 1 else 0

/-- `n` kept at most at the largest `w`-bit value (saturating counters). -/
def satN (w n : Nat) : Nat := min n (2 ^ w - 1)

/-- The signed value of a `w`-bit two's complement field (R4). -/
def toS (w n : Nat) : Int := if n % 2 ^ w < 2 ^ (w - 1) then (n % 2 ^ w : Nat) else ((n % 2 ^ w : Nat) : Int) - 2 ^ w

/-- The `w`-bit two's complement field of an integer (R4). -/
def ofS (w : Nat) (i : Int) : Nat := (i % (2 ^ w : Nat)).toNat

/-- An integer limited to the range of `w`-bit two's complement (R4). -/
def clampS (w : Nat) (i : Int) : Int := max (-(2 ^ (w - 1) : Nat)) (min i ((2 ^ (w - 1) : Nat) - 1))

/-- An integer limited to the range of `w` unsigned bits (R4). -/
def clampU (w : Nat) (i : Int) : Nat := min i.toNat (2 ^ w - 1)

/-- R4: a quotient rounded to the nearest integer, ties away from zero. -/
def roundDiv (num : Int) (den : Nat) : Int :=
  if den = 0 then 0
  else if 0 ≤ num then ((2 * num.toNat + den) / (2 * den) : Nat)
  else -(((2 * (-num).toNat + den) / (2 * den) : Nat) : Int)

/-- R4: an unsigned quotient rounded to nearest, ties away from zero. -/
def roundDivN (num den : Nat) : Nat := if den = 0 then 0 else (2 * num + den) / (2 * den)

/-- The quotient rounded up. -/
def ceilDiv (n d : Nat) : Nat := if d = 0 then 0 else (n + d - 1) / d

/-- R9: `a` is later than `b` for a wrapping quantity of width `w`. -/
def later (w a b : Nat) : Bool :=
  let d := (a + 2 ^ w - b % 2 ^ w) % 2 ^ w
  decide (1 ≤ d) && decide (d ≤ 2 ^ (w - 1) - 1)

/-- R9, R10: a value that may be accepted as newer; the half-window case is never newer. -/
def newer (w arriving held : Nat) : Bool := later w arriving held

/-- Serial increment. -/
def succW (w a : Nat) : Nat := (a + 1) % 2 ^ w

/-- Little-endian value of a byte string (R3). -/
def le : Bytes → Nat
  | [] => 0
  | b :: t => b.toNat + 256 * le t

/-- Little-endian bytes of a value, `n` of them (R3). -/
def toLe : Nat → Nat → Bytes
  | 0, _ => []
  | n + 1, v => BitVec.ofNat 8 v :: toLe n (v / 256)

/-- The big-endian value of a byte string. -/
def be (l : Bytes) : Nat := l.foldl (fun a b => a * 256 + b.toNat) 0

/-- Byte `i` of a string, 0 beyond its end. -/
def byteAt (l : Bytes) (i : Nat) : Nat := (l.getD i 0#8).toNat

/-- `n` bytes from offset `off`. -/
def sub (l : Bytes) (off n : Nat) : Bytes := (l.drop off).take n

/-- The little-endian field of `n` bytes at offset `off` of a string. -/
def leAt (l : Bytes) (off n : Nat) : Nat := le (sub l off n)

/-- The bytes of a string with those at `off` replaced by `new`. -/
def putBytes (l : Bytes) (off : Nat) (new : Bytes) : Bytes := l.take off ++ new ++ l.drop (off + new.length)

/-- All bytes of the range are zero. -/
def zeroAt (l : Bytes) (off n : Nat) : Bool := (sub l off n).all (fun b => b == 0#8)

/-- One byte through a reflected CRC of width 32. -/
def crcByte (poly : Nat) (c : Nat) (b : Byte) : Nat :=
  (List.range 8).foldl (fun c _ => if c % 2 = 1 then (c / 2) ^^^ poly else c / 2) (c ^^^ b.toNat)

/-- CRC-32C (Castagnoli), reflected, initial value and final inversion all ones. -/
def crc32c (l : Bytes) : Nat := (l.foldl (crcByte 0x82F63B78) 0xFFFFFFFF) ^^^ 0xFFFFFFFF

/-- CRC-16 of Table 4.3: polynomial 0x1021, initial value 0xFFFF, no reflection, no final XOR. -/
def crc16 (l : Bytes) : Nat :=
  l.foldl (fun c b => (List.range 8).foldl (fun c _ =>
    if 0x8000 ≤ c then (2 * c % 0x10000) ^^^ 0x1021 else 2 * c % 0x10000) (c ^^^ (b.toNat * 256))) 0xFFFF

/-- The smallest `k` with 2^k at least `n`. -/
def log2Ceil (n : Nat) : Nat := (List.range 41).find? (fun k => decide (n ≤ 2 ^ k)) |>.getD 41

/-- A power of two between two bounds. -/
def pow2In (n lo hi : Nat) : Bool := decide (lo ≤ n) && decide (n ≤ hi) && (List.range 32).any (fun k => n == 2 ^ k)

/-- The list with element `i` changed by `f`. -/
def modAt {α : Type} (l : List α) (i : Nat) (f : α → α) : List α :=
  l.mapIdx (fun j a => if j = i then f a else a)

/-- Number of set bits among the low `w`. -/
def popCount (w n : Nat) : Nat := ((List.range w).filter (fun i => bit n i == 1)).length

/-- The set bits among the low `w`, lowest first. -/
def setBits (w n : Nat) : List Nat := (List.range w).filter (fun i => bit n i == 1)

end Sys2Proof.Machine
end

