-- ==== Sys2Proof/Machine/Crypto.lean ====
section
/-! DEFINITION. The cryptographic checks that a manifest rests on (R422): SHA-256 and SHA-512 as FIPS 180-4 gives them, and
the verification of an Ed25519 signature as RFC 8032 gives it. -/
namespace Sys2Proof.Machine

/-! ### SHA-2 -/

/-- The round constants of SHA-512; their upper halves are those of SHA-256. -/
def shaK : List Nat :=
  [0x428a2f98d728ae22, 0x7137449123ef65cd, 0xb5c0fbcfec4d3b2f, 0xe9b5dba58189dbbc, 0x3956c25bf348b538] ++
  [0x59f111f1b605d019, 0x923f82a4af194f9b, 0xab1c5ed5da6d8118, 0xd807aa98a3030242, 0x12835b0145706fbe] ++
  [0x243185be4ee4b28c, 0x550c7dc3d5ffb4e2, 0x72be5d74f27b896f, 0x80deb1fe3b1696b1, 0x9bdc06a725c71235] ++
  [0xc19bf174cf692694, 0xe49b69c19ef14ad2, 0xefbe4786384f25e3, 0x0fc19dc68b8cd5b5, 0x240ca1cc77ac9c65] ++
  [0x2de92c6f592b0275, 0x4a7484aa6ea6e483, 0x5cb0a9dcbd41fbd4, 0x76f988da831153b5, 0x983e5152ee66dfab] ++
  [0xa831c66d2db43210, 0xb00327c898fb213f, 0xbf597fc7beef0ee4, 0xc6e00bf33da88fc2, 0xd5a79147930aa725] ++
  [0x06ca6351e003826f, 0x142929670a0e6e70, 0x27b70a8546d22ffc, 0x2e1b21385c26c926, 0x4d2c6dfc5ac42aed] ++
  [0x53380d139d95b3df, 0x650a73548baf63de, 0x766a0abb3c77b2a8, 0x81c2c92e47edaee6, 0x92722c851482353b] ++
  [0xa2bfe8a14cf10364, 0xa81a664bbc423001, 0xc24b8b70d0f89791, 0xc76c51a30654be30, 0xd192e819d6ef5218] ++
  [0xd69906245565a910, 0xf40e35855771202a, 0x106aa07032bbd1b8, 0x19a4c116b8d2d0c8, 0x1e376c085141ab53] ++
  [0x2748774cdf8eeb99, 0x34b0bcb5e19b48a8, 0x391c0cb3c5c95a63, 0x4ed8aa4ae3418acb, 0x5b9cca4f7763e373] ++
  [0x682e6ff3d6b2b8a3, 0x748f82ee5defb2fc, 0x78a5636f43172f60, 0x84c87814a1f0ab72, 0x8cc702081a6439ec] ++
  [0x90befffa23631e28, 0xa4506cebde82bde9, 0xbef9a3f7b2c67915, 0xc67178f2e372532b, 0xca273eceea26619c] ++
  [0xd186b8c721c0c207, 0xeada7dd6cde0eb1e, 0xf57d4f7fee6ed178, 0x06f067aa72176fba, 0x0a637dc5a2c898a6] ++
  [0x113f9804bef90dae, 0x1b710b35131c471b, 0x28db77f523047d84, 0x32caab7b40c72493, 0x3c9ebe0a15c9bebc] ++
  [0x431d67c49c100d4c, 0x4cc5d4becb3e42b6, 0x597f299cfc657e2a, 0x5fcb6fab3ad6faec, 0x6c44198c4a475817]

/-- The initial hash value of SHA-512; the upper halves are that of SHA-256. -/
def shaH : List Nat :=
  [0x6a09e667f3bcc908, 0xbb67ae8584caa73b, 0x3c6ef372fe94f82b, 0xa54ff53a5f1d36f1] ++
  [0x510e527fade682d1, 0x9b05688c2b3e6c1f, 0x1f83d9abfb41bd6b, 0x5be0cd19137e2179]

/-- Rotation of a `w`-bit word to the right. -/
def rotr (w n x : Nat) : Nat := x / 2 ^ n + (x % 2 ^ n) * 2 ^ (w - n)

/-- One family member: word width, rounds, and the rotations of the four functions. -/
structure ShaKind where
  w : Nat
  rounds : Nat
  s0 : Nat × Nat × Nat
  s1 : Nat × Nat × Nat
  e0 : Nat × Nat × Nat
  e1 : Nat × Nat × Nat

/-- SHA-256 and SHA-512. -/
def sha256Kind : ShaKind := ⟨32, 64, (7, 18, 3), (17, 19, 10), (2, 13, 22), (6, 11, 25)⟩
def sha512Kind : ShaKind := ⟨64, 80, (1, 8, 7), (19, 61, 6), (28, 34, 39), (14, 18, 41)⟩

/-- The message schedule, newest word first. -/
def shaSchedule (k : ShaKind) : Nat → List Nat → List Nat
  | 0, w => w
  | n + 1, w =>
    let g (i : Nat) : Nat := w.getD (i - 1) 0
    let sm (r : Nat × Nat × Nat) (x : Nat) : Nat := (rotr k.w r.1 x ^^^ rotr k.w r.2.1 x) ^^^ (x / 2 ^ r.2.2)
    shaSchedule k n (((sm k.s1 (g 2) + g 7 + sm k.s0 (g 15) + g 16) % 2 ^ k.w) :: w)

/-- One round on (a, …, h) with a schedule word and a constant. -/
def shaRound (k : ShaKind) (v : List Nat) (w c : Nat) : List Nat :=
  match v with
  | [a, b, c', d, e, f, g, h] =>
    let big (r : Nat × Nat × Nat) (x : Nat) : Nat := (rotr k.w r.1 x ^^^ rotr k.w r.2.1 x) ^^^ rotr k.w r.2.2 x
    let ch := (e &&& f) ^^^ ((2 ^ k.w - 1 - e) &&& g)
    let maj := ((a &&& b) ^^^ (a &&& c')) ^^^ (b &&& c')
    let t1 := h + big k.e1 e + ch + c + w
    let t2 := big k.e0 a + maj
    [(t1 + t2) % 2 ^ k.w, a, b, c', (d + t1) % 2 ^ k.w, e, f, g]
  | _ => v

/-- One block of 16 words. -/
def shaBlock (k : ShaKind) (h : List Nat) (ws : List Nat) : List Nat :=
  let sched := (shaSchedule k (k.rounds - 16) ws.reverse).reverse
  let v := (List.zip sched (shaK.map (fun c => c / 2 ^ (64 - k.w)))).foldl (fun v e => shaRound k v e.1 e.2) h
  (List.zip h v).map (fun e => (e.1 + e.2) % 2 ^ k.w)

/-- The padded message in blocks of 16 words. -/
def shaBlocks (k : ShaKind) (m : Bytes) : List (List Nat) :=
  let bw := k.w / 8
  let zeros := (16 * bw - (m.length + 1 + 2 * bw) % (16 * bw)) % (16 * bw)
  let p := m ++ [0x80#8] ++ List.replicate zeros 0#8 ++ (toLe (2 * bw) (8 * m.length)).reverse
  (List.range (p.length / (16 * bw))).map (fun b =>
    (List.range 16).map (fun i => be (sub p ((16 * b + i) * bw) bw)))

/-- The hash. -/
def sha (k : ShaKind) (m : Bytes) : Bytes :=
  ((shaBlocks k m).foldl (shaBlock k) (shaH.map (fun x => x / 2 ^ (64 - k.w)))).flatMap (fun x => (toLe (k.w / 8) x).reverse)

/-- SHA-256 and SHA-512. -/
def sha256 (m : Bytes) : Bytes := sha sha256Kind m
def sha512 (m : Bytes) : Bytes := sha sha512Kind m

/-! ### Ed25519 (RFC 8032) -/

/-- The field prime, the group order and the curve constant. -/
def edP : Nat := 2 ^ 255 - 19
def edL : Nat := 2 ^ 252 + 27742317777372353535851937790883648493
def edD : Nat := 37095705934669439343138083508754565189542113879843219016388785533085940283555

/-- A power in the field, by the bits of the exponent from the lowest. -/
def edPow : Nat → Nat → Nat → Nat → Nat
  | 0, _, _, acc => acc
  | n + 1, b, e, acc => edPow n (b * b % edP) (e / 2) (if e % 2 = 1 then acc * b % edP else acc)

/-- The inverse in the field. -/
def edInv (x : Nat) : Nat := edPow 256 (x % edP) (edP - 2) 1

/-- A difference in the field. -/
def edSub (a b : Nat) : Nat := (a + edP - b % edP) % edP

/-- A point in extended homogeneous coordinates. -/
structure EdPoint where
  x : Nat
  y : Nat
  z : Nat
  t : Nat

/-- The neutral point and the base point. -/
def edZero : EdPoint := ⟨0, 1, 1, 0⟩
def edBaseX : Nat := 15112221349535400772501151409588531511454012693041857206046113283949847762202
def edBaseY : Nat := 46316835694926478169428394003475163141307993866256225615783033603165251855960
def edBase : EdPoint := ⟨edBaseX, edBaseY, 1, edBaseX * edBaseY % edP⟩

/-- The sum of two points. -/
def EdPoint.add (p q : EdPoint) : EdPoint :=
  let a := edSub p.y p.x * edSub q.y q.x % edP
  let b := (p.y + p.x) * (q.y + q.x) % edP
  let c := p.t * (2 * edD) % edP * q.t % edP
  let d := p.z * 2 * q.z % edP
  let e := edSub b a
  let f := edSub d c
  let g := (d + c) % edP
  let h := (b + a) % edP
  ⟨e * f % edP, g * h % edP, f * g % edP, e * h % edP⟩

/-- A multiple of a point, by the bits of the factor from the lowest. -/
def edMul : Nat → Nat → EdPoint → EdPoint → EdPoint
  | 0, _, _, acc => acc
  | n + 1, k, p, acc => edMul n (k / 2) (p.add p) (if k % 2 = 1 then acc.add p else acc)

/-- Two points are the same. -/
def EdPoint.same (p q : EdPoint) : Bool :=
  p.x * q.z % edP == q.x * p.z % edP && p.y * q.z % edP == q.y * p.z % edP

/-- A point from its 32 bytes (RFC 8032, section 5.1.3). -/
def edDecode (b : Bytes) : Option EdPoint :=
  let v := le b
  let y := v % 2 ^ 255
  let sign := v / 2 ^ 255
  if edP ≤ y then none
  else
    let u := edSub (y * y) 1
    let w := (edD * (y * y % edP) + 1) % edP
    let x2 := u * edInv w % edP
    let r := edPow 256 x2 ((edP + 3) / 8) 1
    let x := if r * r % edP = x2 then r else r * edPow 256 2 ((edP - 1) / 4) 1 % edP
    if x * x % edP ≠ x2 then none
    else if x = 0 ∧ sign = 1 then none
    else
      let x := if x % 2 = sign then x else (edP - x) % edP
      some ⟨x, y, 1, x * y % edP⟩

/-- RFC 8032, section 5.1.7: a signature verifies under a public key. A signature whose S is not below the group order is
rejected (R422). -/
def edVerify (key msg sig : Bytes) : Bool :=
  let s := le (sub sig 32 32)
  match edDecode key, edDecode (sub sig 0 32) with
  | some a, some r =>
    let k := le (sha512 (sub sig 0 32 ++ key ++ msg)) % edL
    decide (s < edL) && decide (sig.length = 64) &&
      (edMul 4 8 (edMul 256 s edBase edZero) edZero).same
        (edMul 4 8 (r.add (edMul 256 k a edZero)) edZero)
  | _, _ => false

end Sys2Proof.Machine
end

