-- ==== Sys2Proof/Machine/Float.lean ====
section
/-! DEFINITION. IEEE 754 binary16 and binary32 arithmetic with round to nearest even (R146, R151, R162, R163, R170), on
exact values `± m × 2^e`. -/
namespace Sys2Proof.Machine

/-- A floating-point value: not a number, an infinity, or `± m × 2^e`. -/
inductive Fl where
  | nan
  | inf (neg : Bool)
  | fin (neg : Bool) (m : Nat) (e : Int)
deriving DecidableEq, Repr

/-- Zero and one. -/
def Fl.zero : Fl := .fin false 0 0
def Fl.one : Fl := .fin false 1 0

/-- Bits of a number. -/
def bitLen (n : Nat) : Nat := if n = 0 then 0 else Nat.log2 n + 1

/-- A value `± m × 2^e` (`m` exact, or with a lowest bit that stands for a lost remainder) rounded to `p` bits with lowest
exponent `emin` and largest exponent `emax`, to nearest even. -/
def roundFl (p : Nat) (emin emax : Int) (neg : Bool) (m : Nat) (e : Int) : Fl :=
  if m = 0 then .fin neg 0 0
  else
    let s : Int := max ((bitLen m : Int) - p) (emin - e)
    if s ≤ 0 then (if (bitLen m : Int) + e > emax then .inf neg else .fin neg m e)
    else
      let k := s.toNat
      let q := m / 2 ^ k
      let r := m % 2 ^ k
      let q := if 2 ^ (k - 1) < r || (r = 2 ^ (k - 1) && q % 2 = 1) then q + 1 else q
      if (bitLen q : Int) + (e + s) > emax then .inf neg else .fin neg q (e + s)

/-- Rounding to binary32 and binary16. -/
def round32 : Bool → Nat → Int → Fl := roundFl 24 (-149) 128
def round16 : Bool → Nat → Int → Fl := roundFl 11 (-24) 16

/-- A finite value as a signed integer times a power of two. -/
def signedM (neg : Bool) (m : Nat) : Int := if neg then -(m : Int) else m

/-- The exact sum, as sign, magnitude and exponent. -/
def addExact (n1 : Bool) (m1 : Nat) (e1 : Int) (n2 : Bool) (m2 : Nat) (e2 : Int) : Bool × Nat × Int :=
  let e := min e1 e2
  let v := signedM n1 m1 * 2 ^ (e1 - e).toNat + signedM n2 m2 * 2 ^ (e2 - e).toNat
  (if v = 0 then n1 && n2 else decide (v < 0), v.natAbs, e)

/-- Sum, product and quotient in binary32. -/
def Fl.add : Fl → Fl → Fl
  | .nan, _ => .nan
  | _, .nan => .nan
  | .inf a, .inf b => if a = b then .inf a else .nan
  | .inf a, _ => .inf a
  | _, .inf b => .inf b
  | .fin a m e, .fin b n f => let r := addExact a m e b n f; round32 r.1 r.2.1 r.2.2

/-- The value with its sign changed. -/
def Fl.neg : Fl → Fl
  | .nan => .nan
  | .inf a => .inf (!a)
  | .fin a m e => .fin (!a) m e

def Fl.sub (a b : Fl) : Fl := a.add b.neg

def Fl.mul : Fl → Fl → Fl
  | .nan, _ => .nan
  | _, .nan => .nan
  | .inf a, .inf b => .inf (a != b)
  | .inf a, .fin b m _ => if m = 0 then .nan else .inf (a != b)
  | .fin a m _, .inf b => if m = 0 then .nan else .inf (a != b)
  | .fin a m e, .fin b n f => round32 (a != b) (m * n) (e + f)

def Fl.div : Fl → Fl → Fl
  | .nan, _ => .nan
  | _, .nan => .nan
  | .inf _, .inf _ => .nan
  | .inf a, .fin b _ _ => .inf (a != b)
  | .fin a _ _, .inf b => .fin (a != b) 0 0
  | .fin a m e, .fin b n f =>
    if n = 0 then (if m = 0 then .nan else .inf (a != b))
    else
      let k := 32 + bitLen n
      let q := m * 2 ^ k / n
      let r := m * 2 ^ k % n
      round32 (a != b) (2 * q + if r = 0 then 0 else 1) (e - f - k - 1)

/-- `a < b`; false when either is not a number. -/
def Fl.lt : Fl → Fl → Bool
  | .nan, _ => false
  | _, .nan => false
  | .inf a, .inf b => a && !b
  | .inf a, .fin _ _ _ => a
  | .fin _ _ _, .inf b => !b
  | .fin a m e, .fin b n f =>
    let k := min e f
    decide (signedM a m * 2 ^ (e - k).toNat < signedM b n * 2 ^ (f - k).toNat)

/-- `a ≤ b`; false when either is not a number. -/
def Fl.le (a b : Fl) : Bool := a != .nan && b != .nan && !(b.lt a)

/-- The larger and the smaller of two values; not a number when either is not. -/
def Fl.max (a b : Fl) : Fl := if a = .nan || b = .nan then .nan else if a.lt b then b else a
def Fl.min (a b : Fl) : Fl := if a = .nan || b = .nan then .nan else if b.lt a then b else a

/-- A value is zero. -/
def Fl.isZero : Fl → Bool
  | .fin _ m _ => m == 0
  | _ => false

/-- A binary16 read. -/
def fl16 (b : Nat) : Fl :=
  let neg := bit b 15 == 1
  let ex := fld b 14 10
  let fr := fld b 9 0
  if ex = 31 then (if fr = 0 then .inf neg else .nan)
  else if ex = 0 then .fin neg fr (-24)
  else .fin neg (1024 + fr) ((ex : Int) - 25)

/-- The bits of a value rounded to binary16. -/
def bits16 (x : Fl) : Nat :=
  match x with
  | .nan => 0x7E00
  | .inf a => b2n a * 2 ^ 15 + 0x7C00
  | .fin a m e =>
    match round16 a m e with
    | .fin _ q f =>
      if q = 0 then b2n a * 2 ^ 15
      else
        let k := f + 24
        -- the value in units of 2^-24
        let u := if 0 ≤ k then q * 2 ^ k.toNat else q / 2 ^ (-k).toNat
        if u < 1024 then b2n a * 2 ^ 15 + u
        else
          let s := bitLen u - 11
          b2n a * 2 ^ 15 + (s + 1) * 2 ^ 10 + (u / 2 ^ s) % 1024
    | .inf _ => b2n a * 2 ^ 15 + 0x7C00
    | .nan => 0x7E00

/-- The quotient of a finite value by an integer, rounded once. -/
def Fl.divExact (x : Fl) (den : Nat) : Fl :=
  match x with
  | .fin a m e =>
    if den = 0 then .nan
    else
      let k := 32 + bitLen den
      let q := m * 2 ^ k / den
      let r := m * 2 ^ k % den
      round32 a (2 * q + if r = 0 then 0 else 1) (e - k - 1)
  | y => y

/-- A rational `num / den` rounded to binary32. -/
def flRat (neg : Bool) (num den : Nat) : Fl := (Fl.fin neg num 0).divExact den

/-- A value from 0 to 1 as a u1.15 fraction, rounded to nearest, ties away from zero (R4), after the limits of R170. -/
def flToU15 (x : Fl) : Nat :=
  match x with
  | .fin false m e =>
    let n := if 0 ≤ e + 15 then m * 2 ^ (e + 15).toNat else roundDivN m (2 ^ (-(e + 15)).toNat)
    min n 0x8000
  | .inf false => 0x8000
  | _ => 0

/-- The floor of a value times 2^k, 0 for values that are not finite. -/
def flFloor (x : Fl) (k : Nat) : Int :=
  match x with
  | .fin a m e =>
    let f := e + k
    let v := signedM a m
    if 0 ≤ f then v * 2 ^ f.toNat else v / 2 ^ (-f).toNat
  | _ => 0

end Sys2Proof.Machine
end

