-- ==== Sys2Proof/Machine/Events.lean ====
section
/-! DEFINITION. The event codes of every block (R13; Tables 2.24, 3.13, 4.15, 5.4, 5.13, 6.15, 7.16, 8.16, 9.20, 10.15,
11.14, 12.17, 13.10, 14.10, 15.13, 16.19, 17.15), under the spec's own names. -/
namespace Sys2Proof.Machine.Ev

/-- Table 17.15: An access reached an unmapped address, with the requester and the address (R26) -/
abbrev GBL_ADDR_UNMAPPED : Nat := 0x0101
/-- Table 17.15: A GPIO claim was refused (R60, R446) -/
abbrev GBL_PIN_BUSY : Nat := 0x0102
/-- Table 17.15: A reader was overtaken, with the reader (0 host, 1 fabric) and the count (R452) -/
abbrev GBL_EVQ_OVERRUN : Nat := 0x0103
/-- Table 17.15: A service-port transaction began with an unknown opcode (R440) -/
abbrev GBL_SPI_ERROR : Nat := 0x0104
/-- Table 17.15: Records beyond the early buffer were lost (R454) -/
abbrev GBL_EARLY_LOST : Nat := 0x0105
/-- Table 2.24: An engine was cut at a slot end (R51) -/
abbrev FPL_SLOT_OVERRUN : Nat := 0x0201
/-- Table 2.24: The third overrun slot of a tick (R59) -/
abbrev FPL_FRAME_DEGRADED : Nat := 0x0202
/-- Table 2.24: The commit lead is shorter than the first-band fill time plus 2 µs (R20) -/
abbrev FPL_COMMIT_LEAD_SHORT : Nat := 0x0203
/-- Table 2.24: The commit point would precede the end of the drain (R36) -/
abbrev FPL_COMMIT_LEAD_LONG : Nat := 0x0204
/-- Table 2.24: Header CRC failure -/
abbrev FPL_HDR_CHECK : Nat := 0x0205
/-- Table 2.24: Section CRC failure -/
abbrev FPL_SECTION_CHECK : Nat := 0x0206
/-- Table 2.24: Bad magic, version, layout, operation or source -/
abbrev FPL_FORMAT : Nat := 0x0207
/-- Table 2.24: TARGET_ID does not match the device -/
abbrev FPL_TARGET_MISMATCH : Nat := 0x0208
/-- Table 2.24: R35 is broken -/
abbrev FPL_TIMING_INVALID : Nat := 0x0209
/-- Table 2.24: A record does not fit its slot -/
abbrev FPL_CONTRACT_SLOT : Nat := 0x020A
/-- Table 2.24: A drill WCET is below the bound of R52 -/
abbrev FPL_CONTRACT_DRILL : Nat := 0x020B
/-- Table 2.24: A resource has two owners -/
abbrev FPL_RESOURCE_CONFLICT : Nat := 0x020C
/-- Table 2.24: The Granary map is inconsistent -/
abbrev FPL_GRANARY_MAP : Nat := 0x020D
/-- Table 2.24: A cold switch was armed without COLD_OK -/
abbrev FPL_COLD_REQUIRED : Nat := 0x020E
/-- Table 2.24: The switch frame passed before the plan was valid, or was not later than the current frame when the switch was
armed (R56) -/
abbrev FPL_SWITCH_MISSED : Nat := 0x020F
/-- Table 2.24: A new plan is in force -/
abbrev FPL_SWITCHED : Nat := 0x0210
/-- Table 2.24: A boundary arrived before the drain ended -/
abbrev FPL_TICK_EARLY : Nat := 0x0211
/-- Table 2.24: The headland was shorter than H -/
abbrev FPL_HEADLAND_SHORT : Nat := 0x0212
/-- Table 2.24: A headland task ran past the boundary -/
abbrev FPL_HEADLAND_OVERRUN : Nat := 0x0213
/-- Table 2.24: 8 consecutive degraded ticks -/
abbrev FPL_PLAN_UNSOUND : Nat := 0x0214
/-- Table 2.24: The variant in force changed -/
abbrev FPL_VARIANT_CHANGE : Nat := 0x0215
/-- Table 2.24: A mandatory section is absent -/
abbrev FPL_SECTION_MISSING : Nat := 0x0216
/-- Table 2.24: The drill ranges do not cover the panel exactly once -/
abbrev FPL_DRILL_BIND : Nat := 0x0217
/-- Table 2.24: R45 or R46 is broken -/
abbrev FPL_THROTTLE_INVALID : Nat := 0x0218
/-- Table 3.13: The plot audit failed and the state was rebuilt (R87) -/
abbrev GRN_PLOT_AUDIT : Nat := 0x0301
/-- Table 3.13: A correctable error was corrected and written back (R76) -/
abbrev GRN_ECC_CORRECTED : Nat := 0x0302
/-- Table 3.13: A line was poisoned (R77, R79) -/
abbrev GRN_ECC_UNCORRECTABLE : Nat := 0x0303
/-- Table 3.13: A consumer met a poisoned line (R78) -/
abbrev GRN_POISON_CONSUMED : Nat := 0x0304
/-- Table 3.13: A physical plot was retired (R83) -/
abbrev GRN_PLOT_RETIRED : Nat := 0x0305
/-- Table 3.13: No spare was available, or the retire list is full (R82, R83) -/
abbrev GRN_SPARES_EXHAUSTED : Nat := 0x0306
/-- Table 3.13: A partition claim was refused (R60) -/
abbrev GRN_PARTITION_BUSY : Nat := 0x0307
/-- Table 3.13: A logical plot moved to another physical plot (R82) -/
abbrev GRN_MIGRATED : Nat := 0x0308
/-- Table 3.13: A targeted self-test ended (R83) -/
abbrev GRN_SELFTEST_RESULT : Nat := 0x0309
/-- Table 3.13: A client has waited 1 ms for a plot (R71) -/
abbrev GRN_ALLOC_STALL : Nat := 0x030A
/-- Table 3.13: An audit rebuild removed a plot from a client (R87) -/
abbrev GRN_PLOT_REVOKED : Nat := 0x030B
/-- Table 3.13: More than 64 plots failed the S3 self-test (R80) -/
abbrev GRN_BIST_FAIL : Nat := 0x030C
/-- Table 3.13: An access arrived before the S3 self-test completed (R80) -/
abbrev GRN_NOT_READY : Nat := 0x030D
/-- Table 3.13: An access reached a RETIRED logical plot (R84) -/
abbrev GRN_RETIRED_ACCESS : Nat := 0x030E
/-- Table 3.13: An access lay outside the requester's plots (R85) -/
abbrev GRN_ACCESS_VIOLATION : Nat := 0x030F
/-- Table 3.13: A handed-over plot was not accepted within 1 ms (R70) -/
abbrev GRN_HANDOVER_TIMEOUT : Nat := 0x0310
/-- Table 4.15: A Sheaf header failed its check at arrival (R100) -/
abbrev PLT_HEADER_DROP : Nat := 0x0401
/-- Table 4.15: A frame or update record failed its check (R103) -/
abbrev PLT_RECORD_CHECK : Nat := 0x0402
/-- Table 4.15: A block matched no open update (R109) -/
abbrev PLT_ORPHAN_BLOCK : Nat := 0x0403
/-- Table 4.15: A block lay outside its update's expected set (R109) -/
abbrev PLT_STRAY_BLOCK : Nat := 0x0404
/-- Table 4.15: A block arrived twice in one update (R109) -/
abbrev PLT_DUP_BLOCK : Nat := 0x0405
/-- Table 4.15: FORMAT or DECOMP_LEN did not match the plate (R109) -/
abbrev PLT_FORMAT_MISMATCH : Nat := 0x0406
/-- Table 4.15: An update record or block was not later than APPLIED_SEQ (R108, R109) -/
abbrev PLT_STALE_UPDATE : Nat := 0x0407
/-- Table 4.15: A frame record was not later than the candidate (R106) -/
abbrev PLT_STALE_FRAME : Nat := 0x0408
/-- Table 4.15: A pending frame record was replaced (R106) -/
abbrev PLT_FRAME_SKIPPED : Nat := 0x0409
/-- Table 4.15: An update was abandoned (R111, R112) -/
abbrev PLT_UPDATE_ABANDONED : Nat := 0x040A
/-- Table 4.15: No slot was free for an update's block (R105) -/
abbrev PLT_POOL_EXHAUSTED : Nat := 0x040B
/-- Table 4.15: A frame-record entry was invalid (R107) -/
abbrev PLT_DESCRIPTOR_INVALID : Nat := 0x040C
/-- Table 4.15: A PLATE_ID had no plate record (R107, R108, R109) -/
abbrev PLT_UNKNOWN_PLATE : Nat := 0x040D
/-- Table 4.15: A REQUIRED plate was incomplete at the commit point (R114) -/
abbrev PLT_NOT_READY : Nat := 0x040E
/-- Table 4.15: A plate was shown as its previous version or skipped (R114) -/
abbrev PLT_PLATE_SUBSTITUTED : Nat := 0x040F
/-- Table 4.15: LIN_F16 texels were conditioned (R92) -/
abbrev PLT_TEXEL_CLAMPED : Nat := 0x0410
/-- Table 4.15: A frame record was taken as RESYNC (R106) -/
abbrev PLT_RESYNC : Nat := 0x0411
/-- Table 5.4: A decode failure of Table 5.4 -/
abbrev THR_ILLEGAL_CODE : Nat := 0x0501
/-- Table 5.4: A decode failure of Table 5.4 -/
abbrev THR_DISTANCE_BEYOND_HISTORY : Nat := 0x0502
/-- Table 5.4: A decode failure of Table 5.4 -/
abbrev THR_LENGTH_OVERRUN : Nat := 0x0503
/-- Table 5.4: A decode failure of Table 5.4 -/
abbrev THR_BLOCK_CHECK : Nat := 0x0504
/-- Table 5.4: A decode failure of Table 5.4 -/
abbrev THR_HEADER_CHECK : Nat := 0x0505
/-- Table 5.4: A decode failure of Table 5.4 -/
abbrev THR_LENGTH_SHORT : Nat := 0x0506
/-- Table 5.4: A decode failure of Table 5.4 -/
abbrev THR_INPUT_EXHAUSTED : Nat := 0x0507
/-- Table 5.13: A pipe claim was refused (R60) -/
abbrev THR_PIPE_BUSY : Nat := 0x0508
/-- Table 5.13: A job was stopped for the fill or the boundary (R138) -/
abbrev THR_PIPE_PREEMPTED : Nat := 0x0509
/-- Table 5.13: A shown map held ABSENT entries (R125) -/
abbrev THR_BLOCK_ABSENT : Nat := 0x050A
/-- Table 5.13: A Sheaf block held more than one DEFLATE block (R122) -/
abbrev THR_MULTI_BLOCK : Nat := 0x050B
/-- Table 5.13: A job with IRQ set ended DONE -/
abbrev THR_JOB_DONE : Nat := 0x050C
/-- Table 5.13: A job ended other than DONE (R137) -/
abbrev THR_JOB_FAULT : Nat := 0x050D
/-- Table 6.15: A scaled plate's source line exceeded 8,192 texels (R152) -/
abbrev DRL_SCALER_SHORT : Nat := 0x0601
/-- Table 6.15: A lane's residue check failed (R157) -/
abbrev DRL_LANE_CHECK : Nat := 0x0602
/-- Table 6.15: A spare lane replaced a failed lane (R158) -/
abbrev DRL_LANE_SPARED : Nat := 0x0603
/-- Table 6.15: A drill lost a lane with its spare already in use (R158) -/
abbrev DRL_SPARE_EXHAUSTED : Nat := 0x0604
/-- Table 6.15: The lane floor changed (R158) -/
abbrev DRL_LANE_FLOOR : Nat := 0x0605
/-- Table 6.15: e was limited to ±2.75 (R160) -/
abbrev DRL_DISP_LIMIT : Nat := 0x0606
/-- Table 6.15: An offset was clamped at ±16 texels (R161) -/
abbrev DRL_APRON_CLAMP : Nat := 0x0607
/-- Table 6.15: The matrix output was limited (R170) -/
abbrev DRL_GAMUT_CLIP : Nat := 0x0608
/-- Table 6.15: A tone-map bank became active (R171) -/
abbrev DRL_TM_SWAPPED : Nat := 0x0609
/-- Table 6.15: A tone-map image failed its checks (R172) -/
abbrev DRL_TM_LOAD_FAIL : Nat := 0x060A
/-- Table 6.15: A bank write was refused (R172, R174) -/
abbrev DRL_TM_BUSY : Nat := 0x060B
/-- Table 6.15: A lane scan test ended, with its class (R157, R158) -/
abbrev DRL_SELFTEST_RESULT : Nat := 0x060C
/-- Table 7.16: Masters rebuilt at start, with case and L (R197), or a poisoned count replaced (R189) -/
abbrev HGL_STRESS_RECONCILED : Nat := 0x0701
/-- Table 7.16: A row or the header came from the factory image (R179) -/
abbrev HGL_ROW_FROM_FACTORY : Nat := 0x0702
/-- Table 7.16: A row was loaded as neutral entries (R179) -/
abbrev HGL_ROW_NEUTRAL : Nat := 0x0703
/-- Table 7.16: The image's DEVICE_ID differs from the fused ID (R179) -/
abbrev HGL_TABLE_MISMATCH : Nat := 0x0704
/-- Table 7.16: A reload completed (R180) -/
abbrev HGL_TABLE_RELOADED : Nat := 0x0705
/-- Table 7.16: Entry fields were limited or ignored (R177) -/
abbrev HGL_CAL_LIMIT : Nat := 0x0706
/-- Table 7.16: A window was extended (R187) -/
abbrev HGL_FOLD_LATE : Nat := 0x0707
/-- Table 7.16: An accumulator saturated (R184) -/
abbrev HGL_ACC_SATURATED : Nat := 0x0708
/-- Table 7.16: A master saturated (R186) -/
abbrev HGL_MASTER_SATURATED : Nat := 0x0709
/-- Table 7.16: A driver had no valid reading in a window (R188) -/
abbrev HGL_TEMP_UNKNOWN : Nat := 0x070A
/-- Table 7.16: A furrow had no fresh frame in a window (R186) -/
abbrev HGL_STRESS_ESTIMATED : Nat := 0x070B
/-- Table 7.16: Cells fell below the target efficiency (R190) -/
abbrev HGL_GAIN_FLOOR : Nat := 0x070C
/-- Table 7.16: A sense result was missing (R194) -/
abbrev HGL_SENSE_FAIL : Nat := 0x070D
/-- Table 7.16: A subpixel was named dead (R194) -/
abbrev HGL_EMITTER_DEAD : Nat := 0x070E
/-- Table 7.16: A hogel ran out of DEAD records (R194) -/
abbrev HGL_DEAD_OVERFLOW : Nat := 0x070F
/-- Table 7.16: A checkpoint image completed (R195) -/
abbrev HGL_CKPT_DONE : Nat := 0x0710
/-- Table 7.16: A checkpoint failed, with reason (R195) -/
abbrev HGL_CKPT_FAIL : Nat := 0x0711
/-- Table 7.16: A flash rewrite of the current image failed (R181) -/
abbrev HGL_ROW_WRITE_FAIL : Nat := 0x0712
/-- Table 8.16: Furrows were newly marked owed (R210) -/
abbrev ETC_POLARITY_IMBALANCE : Nat := 0x0801
/-- Table 8.16: Rows were re-driven from stored codes (R216) -/
abbrev ETC_STALE_ROWS : Nat := 0x0802
/-- Table 8.16: A PGOOD fell while its group was on (R228) -/
abbrev ETC_SUPPLY_FAULT : Nat := 0x0803
/-- Table 8.16: A PGOOD did not rise within T_PG (R228) -/
abbrev ETC_SUPPLY_TIMEOUT : Nat := 0x0804
/-- Table 8.16: Three supply failures within 60 s (R228) -/
abbrev ETC_SUPPLY_LOCKOUT : Nat := 0x0805
/-- Table 8.16: The up sequence completed (R227) -/
abbrev ETC_SUPPLY_ON : Nat := 0x0806
/-- Table 8.16: A discharge ran; cause 1 POWER_FAIL, 2 SUPPLY, 3 BLANK, 4 MODE, 5 DOWN (R211, R229) -/
abbrev ETC_DISCHARGE : Nat := 0x0807
/-- Table 8.16: A driver's lane left the active state; reason 1 LANE, 2 MAP (R218, R219) -/
abbrev ETC_DRIVER_LOST : Nat := 0x0808
/-- Table 8.16: A driver was brought back into service (R219) -/
abbrev ETC_DRIVER_RESTORED : Nat := 0x0809
/-- Table 8.16: A driver reported discarded packets (R217) -/
abbrev ETC_DRIVER_ERR : Nat := 0x080A
/-- Table 8.16: A return packet failed its check (R217) -/
abbrev ETC_RETURN_CHECK : Nat := 0x080B
/-- Table 8.16: The waveform set in force changed (R220) -/
abbrev ETC_WAVE_CHANGE : Nat := 0x080C
/-- Table 8.16: Sense steps did not fit in the window (R225) -/
abbrev ETC_SENSE_SHORT : Nat := 0x080D
/-- Table 9.20: A port reached ACTIVE, with widths and latency (R245) -/
abbrev LNE_PORT_UP : Nat := 0x0901
/-- Table 9.20: A port left ACTIVE; reason 1 LOS, 2 ERRORS, 3 RETRAIN, 4 DISABLE, 5 TEST, 6 WAKE_FAIL (R244, R249, R252) -/
abbrev LNE_PORT_DOWN : Nat := 0x0902
/-- Table 9.20: 3 consecutive training failures (R243) -/
abbrev LNE_PORT_ABSENT : Nat := 0x0903
/-- Table 9.20: No HANDSHAKE in 3 × 10 ms (R246) -/
abbrev LNE_PEER_SILENT : Nat := 0x0904
/-- Table 9.20: A training state timed out or lost signal, with state and lanes dropped (Table 9.6, R244) -/
abbrev LNE_TRAIN_TIMEOUT : Nat := 0x0905
/-- Table 9.20: A direction runs below MAX_WIDTH (R245) -/
abbrev LNE_WIDTH_DEGRADED : Nat := 0x0906
/-- Table 9.20: A port or panel lane claim was refused (R60, R255) -/
abbrev LNE_LANE_BUSY : Nat := 0x0907
/-- Table 9.20: Uncorrectable codewords in the tick (R249) -/
abbrev LNE_FEC_UNCORRECTABLE : Nat := 0x0908
/-- Table 9.20: A lane's corrected-symbol rate is too high (R249) -/
abbrev LNE_LANE_WEAK : Nat := 0x0909
/-- Table 9.20: Reason 1 SELF_LOOP, 2 VERSION (R246) -/
abbrev LNE_PEER_REFUSED : Nat := 0x090A
/-- Table 9.20: A waking direction did not regain lock (R252) -/
abbrev LNE_SLEEP_WAKE_FAIL : Nat := 0x090B
/-- Table 9.20: An FE loop began (1) or ended (0) (R256) -/
abbrev LNE_FE_LOOP : Nat := 0x090C
/-- Table 9.20: A lane self-test ended, with its class (R250) -/
abbrev LNE_SELFTEST_RESULT : Nat := 0x090D
/-- Table 9.20: A panel lane reached ACTIVE (R258) -/
abbrev LNE_PANEL_LANE_UP : Nat := 0x090E
/-- Table 9.20: A panel lane left ACTIVE or failed to train; reason 1 LOS, 2 NO_STATUS, 3 RETRAIN, 4 SELFTEST (R258) -/
abbrev LNE_PANEL_LANE_DOWN : Nat := 0x090F
/-- Table 10.15: Held credits disagreed with the snapshot (R271) -/
abbrev LNK_CREDIT_MISMATCH : Nat := 0x0A01
/-- Table 10.15: A sync did not complete in 1 ms (R272) -/
abbrev LNK_SYNC_TIMEOUT : Nat := 0x0A02
/-- Table 10.15: RX_NEXT was outside the retained flits (R272) -/
abbrev LNK_SYNC_INVALID : Nat := 0x0A03
/-- Table 10.15: The partner reported RESET or a new FUSED_ID (R270) -/
abbrev LNK_PEER_RESET : Nat := 0x0A04
/-- Table 10.15: 16 replays without progress (R266) -/
abbrev LNK_RETRY_EXHAUSTED : Nat := 0x0A05
/-- Table 10.15: Replays in the tick (R266) -/
abbrev LNK_REPLAY : Nat := 0x0A06
/-- Table 10.15: Receive slots reduced for lack of plots (R268) -/
abbrev LNK_CREDIT_SHORT : Nat := 0x0A07
/-- Table 10.15: A message broke R276 -/
abbrev LNK_MSG_INVALID : Nat := 0x0A08
/-- Table 10.15: A message's TTL ran out (R276) -/
abbrev LNK_TTL_EXPIRED : Nat := 0x0A09
/-- Table 10.15: The root had no route for DST (R285) -/
abbrev LNK_UNREACHABLE : Nat := 0x0A0A
/-- Table 10.15: Content for a port not ACTIVE (R286) -/
abbrev LNK_REGION_DROP : Nat := 0x0A0B
/-- Table 10.15: An epoch completed (R283) -/
abbrev LNK_TREE_CHANGED : Nat := 0x0A0C
/-- Table 10.15: No address was left (R284) -/
abbrev LNK_ADDR_EXHAUSTED : Nat := 0x0A0D
/-- Table 10.15: A port gave no discovery answer (R284) -/
abbrev LNK_DISC_TIMEOUT : Nat := 0x0A0E
/-- Table 10.15: A message ended with ABORT (R274) -/
abbrev LNK_MSG_ABORTED : Nat := 0x0A0F
/-- Table 10.15: A write from a device address was refused (R288) -/
abbrev LNK_MGMT_DENIED : Nat := 0x0A10
/-- Table 11.14: A child was excluded after 3 missed votes (R311) -/
abbrev WAL_MEMBER_ABSENT : Nat := 0x0B01
/-- Table 11.14: A child became a member (R311) -/
abbrev WAL_MEMBER_REJOINED : Nat := 0x0B02
/-- Table 11.14: The frame number was corrected (R303) -/
abbrev WAL_TOKEN_MISMATCH : Nat := 0x0B03
/-- Table 11.14: The root decided FORCED (R306) -/
abbrev WAL_FORCED_COMMIT : Nat := 0x0B04
/-- Table 11.14: The root decided REPEAT, with FIRST_NR (R306) -/
abbrev WAL_REPEAT : Nat := 0x0B05
/-- Table 11.14: No DECISION at a boundary (R309) -/
abbrev WAL_DECISION_MISSED : Nat := 0x0B06
/-- Table 11.14: The device entered isolation (R310) -/
abbrev WAL_ISOLATED : Nat := 0x0B07
/-- Table 11.14: 3 consecutive TICKs missed (R298) -/
abbrev WAL_MASTER_LOST : Nat := 0x0B08
/-- Table 11.14: The device became tick master (R297) -/
abbrev WAL_MASTER_CLAIMED : Nat := 0x0B09
/-- Table 11.14: The device became commit root (R307) -/
abbrev WAL_ROOT_TAKEOVER : Nat := 0x0B0A
/-- Table 11.14: The device gave up a role; 1 MASTER, 2 ROOT (R298, R307) -/
abbrev WAL_YIELD : Nat := 0x0B0B
/-- Table 11.14: A boundary moved by more than 1 µs (R300) -/
abbrev WAL_TICK_STEP : Nat := 0x0B0C
/-- Table 11.14: GENLOCK edges missing or invalid (R299) -/
abbrev WAL_GENLOCK_LOST : Nat := 0x0B0D
/-- Table 11.14: GENLOCK regained (R299) -/
abbrev WAL_GENLOCK_LOCKED : Nat := 0x0B0E
/-- Table 11.14: The device lies deeper than D_max (R308) -/
abbrev WAL_DEPTH_EXCEEDED : Nat := 0x0B0F
/-- Table 11.14: A DECISION arrived at or after its boundary (R309) -/
abbrev WAL_LATE_MESSAGE : Nat := 0x0B10
/-- Table 11.14: Members voted with different candidate tags (R306) -/
abbrev WAL_TAG_SPLIT : Nat := 0x0B11
/-- Table 12.17: A line was corrected and its write-back queued (R324) -/
abbrev DMC_ECC_CORRECTED : Nat := 0x0C01
/-- Table 12.17: A line was returned with poison (R324, R325) -/
abbrev DMC_ECC_UNCORRECTABLE : Nat := 0x0C02
/-- Table 12.17: A poisoned line was written to a window without ECC (R325) -/
abbrev DMC_POISON_UNPROTECTED : Nat := 0x0C03
/-- Table 12.17: An urgent refresh burst ran (R332, R334) -/
abbrev DMC_REFRESH_URGENT : Nat := 0x0C04
/-- Table 12.17: A channel's refresh multiplier changed (R333) -/
abbrev DMC_REFRESH_RATE : Nat := 0x0C05
/-- Table 12.17: MR4 reported a temperature above the operating limit (R333) -/
abbrev DMC_DRAM_HOT : Nat := 0x0C06
/-- Table 12.17: A frequency change completed (R337) -/
abbrev DMC_FREQ_CHANGED : Nat := 0x0C07
/-- Table 12.17: A change window closed before the entry commit point (R336) -/
abbrev DMC_FREQ_DEFERRED : Nat := 0x0C08
/-- Table 12.17: A target point lay outside OP_FLOOR and OP_MAX (R336) -/
abbrev DMC_FREQ_REFUSED : Nat := 0x0C09
/-- Table 12.17: A channel failed training at LOW (R338) -/
abbrev DMC_TRAIN_FAIL : Nat := 0x0C0A
/-- Table 12.17: Training limited the fastest point (R338) -/
abbrev DMC_TRAIN_CAPPED : Nat := 0x0C0B
/-- Table 12.17: Channel densities differ or are not supported (R338) -/
abbrev DMC_CONFIG_MISMATCH : Nat := 0x0C0C
/-- Table 12.17: A row test ended, with its class (R339) -/
abbrev DMC_SELFTEST_RESULT : Nat := 0x0C0D
/-- Table 12.17: A row was remapped to a spare (R340) -/
abbrev DMC_ROW_RETIRED : Nat := 0x0C0E
/-- Table 12.17: A PERMANENT row found no free remap entry (R340) -/
abbrev DMC_RETIRE_FULL : Nat := 0x0C0F
/-- Table 13.10: A command broke its encoding (R348) -/
abbrev BUR_INVALID : Nat := 0x0D01
/-- Table 13.10: A command named formats it cannot use (R348) -/
abbrev BUR_FORMAT : Nat := 0x0D02
/-- Table 13.10: A rectangle broke R344 -/
abbrev BUR_LIMIT : Nat := 0x0D03
/-- Table 13.10: A transformed copy had overlapping footprints (R353) -/
abbrev BUR_OVERLAP_ROTATE : Nat := 0x0D04
/-- Table 13.10: A STIPPLE arrived in normal service (R355) -/
abbrev BUR_MODE : Nat := 0x0D05
/-- Table 13.10: A memory access was refused or failed (R349) -/
abbrev BUR_ACCESS : Nat := 0x0D06
/-- Table 13.10: A read returned poison (R349) -/
abbrev BUR_POISON : Nat := 0x0D07
/-- Table 13.10: A command was stopped (R356) -/
abbrev BUR_ABORTED : Nat := 0x0D08
/-- Table 13.10: A command with IRQ set ended DONE (R347) -/
abbrev BUR_CMD_DONE : Nat := 0x0D09
/-- Table 13.10: A ring register write was invalid (R350) -/
abbrev BUR_RING_BAD : Nat := 0x0D0A
/-- Table 14.10: The die band changed (R368) -/
abbrev THM_BAND_CHANGE : Nat := 0x0E01
/-- Table 14.10: The panel band changed (R368) -/
abbrev THM_PANEL_BAND : Nat := 0x0E02
/-- Table 14.10: The level asked for changed (R370) -/
abbrev THM_LEVEL_CHANGE : Nat := 0x0E03
/-- Table 14.10: A sensor rose faster than the limit (R371) -/
abbrev THM_RATE_LIMIT : Nat := 0x0E04
/-- Table 14.10: A sensor failed, with reason (R364) -/
abbrev THM_SENSOR_FAIL : Nat := 0x0E05
/-- Table 14.10: The hottest sensor failed while throttling (R372) -/
abbrev THM_HOTTEST_LOST : Nat := 0x0E06
/-- Table 14.10: A sensor self-test ended, with its class (R365) -/
abbrev THM_SELFTEST_RESULT : Nat := 0x0E07
/-- Table 14.10: A sensor went 500 ms without conversion (R363) -/
abbrev THM_SENSOR_STALE : Nat := 0x0E08
/-- Table 14.10: No valid panel reading for 1 s (R368) -/
abbrev THM_PANEL_UNKNOWN : Nat := 0x0E09
/-- Table 14.10: A reading reached 115 °C (R375) -/
abbrev THM_OVERTEMP : Nat := 0x0E0A
/-- Table 14.10: The analog trip had fired before this start (R376) -/
abbrev THM_TRIP_RECORDED : Nat := 0x0E0B
/-- Table 15.13: An access arrived during recall (R392) -/
abbrev SBK_NOT_READY : Nat := 0x0F01
/-- Table 15.13: A store completed, with generation and copy (R383) -/
abbrev SBK_STORE_DONE : Nat := 0x0F02
/-- Table 15.13: A store ended without a header (R390) -/
abbrev SBK_STORE_FAIL : Nat := 0x0F03
/-- Table 15.13: Recall completed, with copy and generation (R391) -/
abbrev SBK_RECALL_DONE : Nat := 0x0F04
/-- Table 15.13: Recall was a fallback, with the copy taken, its GEN and the reason (R391) -/
abbrev SBK_RECALL_FALLBACK : Nat := 0x0F05
/-- Table 15.13: Neither copy was valid (R391) -/
abbrev SBK_RECALL_EMPTY : Nat := 0x0F06
/-- Table 15.13: An interrupted increment was completed (R394) -/
abbrev SBK_COUNTER_RECONCILED : Nat := 0x0F07
/-- Table 15.13: An unlock failed (R396) -/
abbrev SBK_PW_WRONG : Nat := 0x0F08
/-- Table 15.13: 8 wrong attempts, or an unlock while locked (R396) -/
abbrev SBK_LOCKED : Nat := 0x0F09
/-- Table 15.13: An access was not allowed (R381, R395) -/
abbrev SBK_ACCESS_DENIED : Nat := 0x0F0A
/-- Table 15.13: A Gleaner pass ended (R397) -/
abbrev SBK_GLEAN_DONE : Nat := 0x0F0B
/-- Table 15.13: Weak rows were found, with counts per copy (R397) -/
abbrev SBK_WEAK_ROWS : Nat := 0x0F0C
/-- Table 15.13: The stores counter reached 1,800,000 (R398) -/
abbrev SBK_ENDURANCE : Nat := 0x0F0D
/-- Table 15.13: An SRAM word was uncorrectable (R393) -/
abbrev SBK_ECC_UNCORRECTABLE : Nat := 0x0F0E
/-- Table 15.13: A write found the held-write queue full (R382), or an SRAM write or store request was refused after a power-fail
trigger or while FINAL is set (R386, R389) -/
abbrev SBK_BUSY : Nat := 0x0F0F
/-- Table 15.13: The settings block failed its check (R401) -/
abbrev SBK_SETTINGS_INVALID : Nat := 0x0F10
/-- Table 17.15: A mailbox command ended OK (R449) -/
abbrev UPD_MBX_DONE : Nat := 0x1001
/-- Table 17.15: A mailbox command ended other than OK, with OPCODE and STATUS (R449) -/
abbrev UPD_MBX_FAILED : Nat := 0x1002
/-- Table 16.19: A stage was reached, with the time (R408) -/
abbrev UPD_STAGE_REACHED : Nat := 0x1081
/-- Table 16.19: A stage failed, with the holding event (R409) -/
abbrev UPD_STAGE_HELD : Nat := 0x1082
/-- Table 16.19: A slot failed boot checks, with the step (R419, R436) -/
abbrev UPD_BOOT_INVALID : Nat := 0x1083
/-- Table 16.19: A manifest failed, with the condition (R422) -/
abbrev UPD_MANIFEST_BAD : Nat := 0x1084
/-- Table 16.19: A manifest's GEN was not later than the active GEN (R422) -/
abbrev UPD_STALE : Nat := 0x1085
/-- Table 16.19: A sown block failed its CRC (R424) -/
abbrev UPD_SOW_BLOCK_BAD : Nat := 0x1086
/-- Table 16.19: A session was refused (R424) -/
abbrev UPD_SOW_REFUSED : Nat := 0x1087
/-- Table 16.19: A child port was marked lagging (R425) -/
abbrev UPD_SOW_LAGGING : Nat := 0x1088
/-- Table 16.19: The image is complete (R425) -/
abbrev UPD_SOW_COMPLETE : Nat := 0x1089
/-- Table 16.19: A session resumed, with the sectors erased (R426) -/
abbrev UPD_SOW_RESUMED : Nat := 0x108A
/-- Table 16.19: A flash program or erase failed twice (R418) -/
abbrev UPD_FLASH_FAIL : Nat := 0x108B
/-- Table 16.19: An activation was armed (R429) -/
abbrev UPD_ARMED : Nat := 0x108C
/-- Table 16.19: An ARM was refused, with the reason (R429) -/
abbrev UPD_ARM_REFUSED : Nat := 0x108D
/-- Table 16.19: An armed activation was cancelled (R429) -/
abbrev UPD_CANCELLED : Nat := 0x108E
/-- Table 16.19: The trial firmware confirmed its health (R431) -/
abbrev UPD_HEALTH_CONFIRMED : Nat := 0x108F
/-- Table 16.19: The device returned to the confirmed slot; reason 1 TIMEOUT, 2 TRIES, 3 BOOT (R419, R432) -/
abbrev UPD_FALLBACK : Nat := 0x1090
/-- Table 16.19: Settings of an older format were replaced (R433) -/
abbrev UPD_SETTINGS_RESET : Nat := 0x1091
/-- Table 16.19: Settings of a newer format were not applied (R433) -/
abbrev UPD_SETTINGS_NEWER : Nat := 0x1092
/-- Table 16.19: The default plan was loaded (R412) -/
abbrev UPD_PLAN_DEFAULT : Nat := 0x1093
/-- Table 16.19: Recovery mode was entered, with the cause (R434) -/
abbrev UPD_RECOVERY : Nat := 0x1094
/-- Table 16.19: The last reset was a WATCHDOG reset (R404) -/
abbrev UPD_WATCHDOG : Nat := 0x1095
/-- Table 16.19: The ROM font was used (R414) -/
abbrev UPD_PROOF_FONT : Nat := 0x1096

end Sys2Proof.Machine.Ev
end

