-- ==== Sys2Proof/Machine/Deflate.lean ====
section
/-! DEFINITION. The DEFLATE decoder and encoder of the Thresher (R99, R128, R131, R132), and the byte-plane shuffle. -/
namespace Sys2Proof.Machine

/-! ### The shuffle with left prediction (R99) -/

/-- The stream input of texel bytes: one byte plane after the other, each byte less its left neighbour. -/
def shuffle (t : Bytes) (b : Nat) : Bytes :=
  let n := t.length / b
  (List.range (n * b)).map (fun i =>
    let p := i / n
    let k := i % n
    t.getD (k * b + p) 0#8 - if k % 16 = 0 then 0#8 else t.getD ((k - 1) * b + p) 0#8)

/-- One byte plane decoded: each byte is its difference plus the byte to its left in the row of 16. -/
def unplane : Nat → Byte → Bytes → Bytes
  | _, _, [] => []
  | i, left, d :: l =>
    let v := d + if i % 16 = 0 then 0#8 else left
    v :: unplane (i + 1) v l

/-- The texel bytes of a decoded stream. -/
def unshuffle (s : Bytes) (b : Nat) : Bytes :=
  let n := s.length / b
  let planes := (List.range b).map (fun p => unplane 0 0#8 (sub s (p * n) n))
  (List.range (n * b)).map (fun i => (planes.getD (i % b) []).getD (i / b) 0#8)

/-! ### Decoding -/

/-- A decoder failure: event of Table 5.4 and the bit at which the code word or field concerned starts. -/
structure InflFail where
  ev : Nat
  bit : Nat
deriving DecidableEq, Repr

/-- The decoder's progress: next bit, output newest byte first, its length, DEFLATE blocks begun. -/
structure Infl where
  pos : Nat
  out : Bytes
  n : Nat
  blocks : Nat
deriving DecidableEq, Repr

/-- How a decoding ends: the progress at that point, and the failure if there is one. -/
structure InflEnd where
  st : Infl
  fail : Option InflFail
deriving DecidableEq, Repr

/-- A bit of the input, low bit of each byte first. -/
def inBit (d : Bytes) (i : Nat) : Nat := bit (byteAt d (i / 8)) (i % 8)

/-- `n` bits from a position, low bit first; none beyond the input. -/
def inBits (d : Bytes) (pos n : Nat) : Option Nat :=
  if 8 * d.length < pos + n then none
  else some ((List.range n).foldl (fun v i => v + inBit d (pos + i) * 2 ^ i) 0)

/-- Number of codes of a length. -/
def codeCount (lens : List Nat) (l : Nat) : Nat := (lens.filter (fun x => x == l)).length

/-- The symbols of a code length, in ascending order. -/
def symsOf (lens : List Nat) (l : Nat) : List Nat := (List.range lens.length).filter (fun i => lens.getD i 0 == l)

/-- The code space used, in units of 2^-15. -/
def kraft (lens : List Nat) : Nat := (lens.map (fun l => if l = 0 then 0 else 2 ^ (15 - l))).sum

/-- The code is neither over-subscribed nor incomplete. -/
def codeComplete (lens : List Nat) : Bool := kraft lens == 2 ^ 15

/-- A symbol read with the canonical code of `lens` (RFC 1951); `code` and `first` are the bits so far and the first code of
the length. A failure is an exhausted input or a pattern without a symbol. -/
def readSym (d : Bytes) (lens : List Nat) : Nat → Nat → Nat → Nat → Nat → Except Nat (Nat × Nat)
  | 0, _, _, _, _ => .error Ev.THR_ILLEGAL_CODE
  | fuel + 1, l, pos, code, first =>
    match inBits d pos 1 with
    | none => .error Ev.THR_INPUT_EXHAUSTED
    | some b =>
      let code := 2 * code + b
      let c := codeCount lens l
      if code < first + c then .ok ((symsOf lens l).getD (code - first) 0, pos + 1)
      else readSym d lens fuel (l + 1) (pos + 1) code ((first + c) * 2)

/-- A symbol from a position; a pattern longer than every code has no symbol. -/
def getSym (d : Bytes) (lens : List Nat) (pos : Nat) : Except InflFail (Nat × Nat) :=
  match readSym d lens (lens.foldl max 0) 1 pos 0 0 with
  | .ok r => .ok r
  | .error e => .error ⟨e, pos⟩

/-- A field of `n` bits from a position. -/
def getBits (d : Bytes) (pos n : Nat) : Except InflFail (Nat × Nat) :=
  match inBits d pos n with
  | some v => .ok (v, pos + n)
  | none => .error ⟨Ev.THR_INPUT_EXHAUSTED, pos⟩

/-- Base and extra bits of length symbol 257 + i. -/
def lenTable : List (Nat × Nat) :=
  [(3, 0), (4, 0), (5, 0), (6, 0), (7, 0), (8, 0), (9, 0), (10, 0), (11, 1), (13, 1), (15, 1), (17, 1), (19, 2), (23, 2),
   (27, 2), (31, 2), (35, 3), (43, 3), (51, 3), (59, 3), (67, 4), (83, 4), (99, 4), (115, 4), (131, 5), (163, 5), (195, 5),
   (227, 5), (258, 0)]

/-- Base and extra bits of distance symbol i. -/
def distTable : List (Nat × Nat) :=
  [(1, 0), (2, 0), (3, 0), (4, 0), (5, 1), (7, 1), (9, 2), (13, 2), (17, 3), (25, 3), (33, 4), (49, 4), (65, 5), (97, 5),
   (129, 6), (193, 6), (257, 7), (385, 7), (513, 8), (769, 8), (1025, 9), (1537, 9), (2049, 10), (3073, 10), (4097, 11),
   (6145, 11), (8193, 12), (12289, 12), (16385, 13), (24577, 13)]

/-- `len` bytes copied from `dist` back, overlapping copies replicated (R121); the output is newest first. -/
def copyBack (dist : Nat) : Nat → Bytes → Bytes
  | 0, out => out
  | n + 1, out => copyBack dist n (out.getD (dist - 1) 0#8 :: out)

/-- The codes of one compressed DEFLATE block up to its end symbol (R128, Table 5.4), the output limited to `cap` bytes. -/
def inflCodes (d : Bytes) (lit dist : List Nat) (cap : Nat) : Nat → Infl → InflEnd
  | 0, s => ⟨s, some ⟨Ev.THR_INPUT_EXHAUSTED, s.pos⟩⟩
  | fuel + 1, s =>
    match getSym d lit s.pos with
    | .error f => ⟨s, some f⟩
    | .ok (sym, p1) =>
      if sym < 256 then
        if cap ≤ s.n then ⟨s, some ⟨Ev.THR_LENGTH_OVERRUN, s.pos⟩⟩
        else inflCodes d lit dist cap fuel { s with pos := p1, out := BitVec.ofNat 8 sym :: s.out, n := s.n + 1 }
      else if sym = 256 then ⟨{ s with pos := p1 }, none⟩
      else if 285 < sym || dist.all (fun l => l == 0) then ⟨s, some ⟨Ev.THR_ILLEGAL_CODE, s.pos⟩⟩
      else
        let (lb, le') := lenTable.getD (sym - 257) (0, 0)
        match getBits d p1 le' with
        | .error f => ⟨s, some f⟩
        | .ok (x, p2) =>
          let len := lb + x
          if cap < s.n + len then ⟨s, some ⟨Ev.THR_LENGTH_OVERRUN, s.pos⟩⟩
          else match getSym d dist p2 with
          | .error f => ⟨s, some f⟩
          | .ok (ds, p3) =>
            if 29 < ds then ⟨s, some ⟨Ev.THR_ILLEGAL_CODE, p2⟩⟩
            else
              let (db, de) := distTable.getD ds (0, 0)
              match getBits d p3 de with
              | .error f => ⟨s, some f⟩
              | .ok (y, p4) =>
                let dst := db + y
                if s.n < dst then ⟨s, some ⟨Ev.THR_DISTANCE_BEYOND_HISTORY, p2⟩⟩
                else inflCodes d lit dist cap fuel { s with pos := p4, out := copyBack dst len s.out, n := s.n + len }

/-- The fixed codes of RFC 1951. -/
def fixedLit : List Nat := List.replicate 144 8 ++ List.replicate 112 9 ++ List.replicate 24 7 ++ List.replicate 8 8
def fixedDist : List Nat := List.replicate 32 5

/-- Order of the code-length code's lengths. -/
def clOrder : List Nat := [16, 17, 18, 0, 8, 7, 9, 6, 10, 5, 11, 4, 12, 3, 13, 2, 14, 1, 15]

/-- The run-length coded code lengths (R128), newest first, until `total` stand. -/
def readLens (d : Bytes) (cl : List Nat) (total : Nat) : Nat → Nat → List Nat → Except InflFail (List Nat × Nat)
  | 0, pos, _ => .error ⟨Ev.THR_INPUT_EXHAUSTED, pos⟩
  | fuel + 1, pos, acc =>
    if total ≤ acc.length then .ok (acc.reverse, pos)
    else match getSym d cl pos with
    | .error f => .error f
    | .ok (sym, p1) =>
      if sym < 16 then readLens d cl total fuel p1 (sym :: acc)
      else if sym = 16 ∧ acc = [] then .error ⟨Ev.THR_ILLEGAL_CODE, pos⟩
      else
        let (base, ext) := if sym = 16 then (3, 2) else if sym = 17 then (3, 3) else (11, 7)
        match getBits d p1 ext with
        | .error f => .error f
        | .ok (x, p2) =>
          if total < acc.length + base + x then .error ⟨Ev.THR_ILLEGAL_CODE, pos⟩
          else readLens d cl total fuel p2 (List.replicate (base + x) (if sym = 16 then acc.headD 0 else 0) ++ acc)

/-- A distance code that R128 accepts: complete, empty, or one code of length 1. -/
def distOk (dist : List Nat) : Bool :=
  codeComplete dist || dist.all (fun l => l == 0) || (dist.filter (fun l => l != 0)) == [1]

/-- The codes of a dynamic block (R128). -/
def readDynamic (d : Bytes) (pos : Nat) : Except InflFail (List Nat × List Nat × Nat) :=
  match getBits d pos 5 with
  | .error f => .error f
  | .ok (hl, p1) =>
    if 29 < hl then .error ⟨Ev.THR_ILLEGAL_CODE, pos⟩
    else match getBits d p1 5 with
    | .error f => .error f
    | .ok (hd, p2) =>
      if 29 < hd then .error ⟨Ev.THR_ILLEGAL_CODE, p1⟩
      else match getBits d p2 4 with
      | .error f => .error f
      | .ok (hc, p3) =>
        let n := hc + 4
        match (List.range n).find? (fun i => (inBits d (p3 + 3 * i) 3).isNone) with
        | some i => .error ⟨Ev.THR_INPUT_EXHAUSTED, p3 + 3 * i⟩
        | none =>
          let p4 := p3 + 3 * n
          let cl := (List.range 19).map (fun sy => match clOrder.findIdx? (fun o => o == sy) with
            | some i => if i < n then (inBits d (p3 + 3 * i) 3).getD 0 else 0
            | none => 0)
          if !codeComplete cl then .error ⟨Ev.THR_ILLEGAL_CODE, p4⟩
          else match readLens d cl (hl + 257 + hd + 1) 330 p4 [] with
          | .error f => .error f
          | .ok (lens, p5) =>
            let lit := lens.take (hl + 257)
            let dist := lens.drop (hl + 257)
            if lit.getD 256 0 = 0 || !codeComplete lit || !distOk dist then .error ⟨Ev.THR_ILLEGAL_CODE, p5⟩
            else .ok (lit, dist, p5)

/-- A stored DEFLATE block from the bit after its header. Its LEN field comes first in the stream, so a LEN that takes the output
too far is found before NLEN is read (Table 5.4). -/
def inflStored (d : Bytes) (cap : Nat) (s : Infl) : InflEnd :=
  let p := ceilDiv s.pos 8 * 8
  match getBits d p 16 with
  | .error f => ⟨s, some f⟩
  | .ok (len, p1) =>
    if cap < s.n + len then ⟨s, some ⟨Ev.THR_LENGTH_OVERRUN, p⟩⟩
    else match getBits d p1 16 with
    | .error f => ⟨s, some f⟩
    | .ok (nlen, p2) =>
      if nlen ≠ 0xFFFF - len then ⟨s, some ⟨Ev.THR_ILLEGAL_CODE, p⟩⟩
      else
        let bs := sub d (p2 / 8) len
        let s' := { s with out := bs.reverse ++ s.out, n := s.n + bs.length, pos := p2 + 8 * bs.length }
        if bs.length < len then ⟨s', some ⟨Ev.THR_INPUT_EXHAUSTED, 8 * d.length⟩⟩ else ⟨s', none⟩

/-- The DEFLATE blocks of a stream, up to the one with BFINAL. -/
def inflBlocks (d : Bytes) (cap : Nat) : Nat → Infl → InflEnd
  | 0, s => ⟨s, some ⟨Ev.THR_INPUT_EXHAUSTED, s.pos⟩⟩
  | fuel + 1, s =>
    match getBits d s.pos 1, getBits d (s.pos + 1) 2 with
    | .error f, _ => ⟨s, some f⟩
    | _, .error f => ⟨s, some f⟩
    | .ok (fin, _), .ok (btype, p) =>
      let s1 := { s with pos := p, blocks := s.blocks + 1 }
      let r : InflEnd :=
        match btype with
        | 0 => inflStored d cap s1
        | 1 => inflCodes d fixedLit fixedDist cap (8 * d.length + 1) s1
        | 2 => match readDynamic d p with
          | .error f => ⟨s1, some f⟩
          | .ok (lit, dist, p') => inflCodes d lit dist cap (8 * d.length + 1) { s1 with pos := p' }
        | _ => ⟨s1, some ⟨Ev.THR_ILLEGAL_CODE, s.pos + 1⟩⟩
      match r.fail with
      | some _ => r
      | none => if fin = 1 then r else inflBlocks d cap fuel r.st

/-- A payload decoded (R129 steps 2 and 3). -/
def inflate (d : Bytes) (cap : Nat) : InflEnd :=
  let r := inflBlocks d cap (8 * d.length + 1) ⟨0, [], 0, 0⟩
  match r.fail with
  | some _ => r
  | none => if r.st.n < cap then ⟨r.st, some ⟨Ev.THR_LENGTH_SHORT, r.st.pos + 7⟩⟩ else r

/-! ### Encoding (R131, R132) -/

/-- A symbol of the encoder's pass: a literal, or a match of a length and a distance. -/
inductive DefSym where
  | lit (b : Nat)
  | mat (len dist : Nat)
deriving DecidableEq, Repr

/-- The hash of the three bytes at `i` (R131). -/
def encHash (l : Bytes) (i : Nat) : Nat :=
  ((byteAt l i * 16) ^^^ (byteAt l (i + 1) * 4) ^^^ byteAt l (i + 2)) % 1024

/-- Length of the common prefix at `c` and `i`, at most `m`. -/
def commonPrefix (l : Bytes) (c i : Nat) : Nat → Nat → Nat
  | 0, k => k
  | m + 1, k => if byteAt l (c + k) = byteAt l (i + k) then commonPrefix l c i m (k + 1) else k

/-- The greedy pass of R131 over the chunk `l` of `n` bytes, from `i`, with the hash heads. -/
def encPass (l : Bytes) (n : Nat) : Nat → Nat → List (Nat × Nat) → List DefSym
  | 0, _, _ => []
  | fuel + 1, i, head =>
    if n ≤ i then []
    else
      let hashed := decide (i + 2 < n)
      let h := encHash l i
      let c := if hashed then sget 0 head h else 0
      let len := if c = 0 then 0 else commonPrefix l (c - 1) i (min 258 (n - i)) 0
      let head := if hashed then sset 0 head h (i + 1) else head
      if 3 ≤ len then
        let head := (List.range' (i + 1) (len - 1)).foldl
          (fun m j => if j + 2 < n then sset 0 m (encHash l j) (j + 1) else m) head
        .mat len (i + 1 - c) :: encPass l n fuel (i + len) head
      else .lit (byteAt l i) :: encPass l n fuel (i + 1) head

/-- Length and distance symbols with their extra bits. -/
def lenSym (len : Nat) : Nat × Nat × Nat :=
  if len = 258 then (285, 0, 0)
  else
    let i := ((List.range 28).filter (fun i => (lenTable.getD i (0, 0)).1 ≤ len)).length - 1
    (257 + i, (lenTable.getD i (0, 0)).2, len - (lenTable.getD i (0, 0)).1)
def distSym (d : Nat) : Nat × Nat × Nat :=
  let i := ((List.range 30).filter (fun i => (distTable.getD i (0, 0)).1 ≤ d)).length - 1
  (i, (distTable.getD i (0, 0)).2, d - (distTable.getD i (0, 0)).1)

/-- Frequencies of `n` symbols in a list. -/
def freqs (n : Nat) (l : List Nat) : List Nat := (List.range n).map (fun i => (l.filter (fun x => x == i)).length)

/-- The literal/length and the distance symbols of a pass, the end symbol included. -/
def litSyms (l : List DefSym) : List Nat :=
  l.map (fun s => match s with
    | .lit b => b
    | .mat len _ => (lenSym len).1) ++ [256]
def distSyms (l : List DefSym) : List Nat :=
  l.filterMap (fun s => match s with
    | .lit _ => none
    | .mat _ d => some (distSym d).1)

/-- An item of package-merge: weight, and the symbols it holds. Items are kept in ascending weight, at equal weights single
symbols before packages and lower symbols first. -/
def pmInsert (x : Nat × List Nat) : List (Nat × List Nat) → List (Nat × List Nat)
  | [] => [x]
  | y :: l => if y.1 ≤ x.1 then y :: pmInsert x l else x :: y :: l

/-- Consecutive pairs packaged; an odd last item is dropped. -/
def pmPairs : List (Nat × List Nat) → List (Nat × List Nat)
  | a :: b :: l => (a.1 + b.1, a.2 ++ b.2) :: pmPairs l
  | _ => []

/-- The list of a package-merge level: the symbols merged with the packages of the level before. -/
def pmMerge : List (Nat × List Nat) → List (Nat × List Nat) → List (Nat × List Nat)
  | [], b => b
  | a :: as, b => pmInsertAll (a :: as) b
where
  /-- Every package inserted behind items of equal weight. -/
  pmInsertAll (a : List (Nat × List Nat)) (b : List (Nat × List Nat)) : List (Nat × List Nat) :=
    b.foldl (fun m x => pmInsert x m) a

/-- Code lengths by package-merge, limited to `limit` bits (R132). A single used symbol gets length 1. -/
def pmLengths (limit : Nat) (fr : List Nat) : List Nat :=
  let used := (List.range fr.length).filter (fun i => 0 < fr.getD i 0)
  match used with
  | [] => fr.map (fun _ => 0)
  | [k] => (List.range fr.length).map (fun i => if i = k then 1 else 0)
  | _ =>
    let singles := used.foldl (fun m i => pmInsert (fr.getD i 0, [i]) m) []
    let last := (List.range (limit - 1)).foldl (fun m _ => pmMerge singles (pmPairs m)) singles
    let chosen := (last.take (2 * used.length - 2)).flatMap (·.2)
    (List.range fr.length).map (fun i => (chosen.filter (fun x => x == i)).length)

/-- The canonical code of a symbol, most significant bit first. -/
def codeOf (lens : List Nat) (sym : Nat) : List Bool :=
  let l := lens.getD sym 0
  let first := (List.range' 1 (l - 1)).foldl (fun c k => (c + codeCount lens k) * 2) 0
  let code := first + ((List.range sym).filter (fun i => lens.getD i 0 == l)).length
  (List.range l).map (fun i => bit code (l - 1 - i) == 1)

/-- A field of `n` bits, low bit first. -/
def bitsOf (n v : Nat) : List Bool := (List.range n).map (fun i => bit v i == 1)

/-- The bits of a pass under two codes, with the end symbol. -/
def symBits (lit dist : List Nat) (l : List DefSym) : List Bool :=
  l.flatMap (fun s => match s with
    | .lit b => codeOf lit b
    | .mat len d =>
      let (ls, ln, lx) := lenSym len
      let (ds, dn, dx) := distSym d
      codeOf lit ls ++ bitsOf ln lx ++ codeOf dist ds ++ bitsOf dn dx) ++ codeOf lit 256

/-- Runs of a list of code lengths: (value, run). -/
def runsOf : List Nat → List (Nat × Nat)
  | [] => []
  | v :: l => match runsOf l with
    | (w, k) :: t => if v = w then (v, k + 1) :: t else (v, 1) :: (w, k) :: t
    | [] => [(v, 1)]

/-- A zero run as code-length symbols, greedily at its longest (R132). -/
def zeroRun : Nat → Nat → List (Nat × Nat × Nat)
  | 0, _ => []
  | fuel + 1, k =>
    if k = 0 then []
    else if 11 ≤ k then (18, 7, min 138 k - 11) :: zeroRun fuel (k - min 138 k)
    else if 3 ≤ k then (17, 3, k - 3) :: zeroRun fuel 0
    else (0, 0, 0) :: zeroRun fuel (k - 1)

/-- A run of a non-zero length: once literally, then repeats of 3 to 6. -/
def valueRun (v : Nat) : Nat → Nat → List (Nat × Nat × Nat)
  | 0, _ => []
  | fuel + 1, k =>
    if k = 0 then []
    else if 3 ≤ k then (16, 2, min 6 k - 3) :: valueRun v fuel (k - min 6 k)
    else (v, 0, 0) :: valueRun v fuel (k - 1)

/-- The code lengths run-length coded: (symbol, extra bits, value). -/
def rle (lens : List Nat) : List (Nat × Nat × Nat) :=
  (runsOf lens).flatMap (fun r => if r.1 = 0 then zeroRun (r.2 + 1) r.2 else (r.1, 0, 0) :: valueRun r.1 r.2 (r.2 - 1))

/-- A list of lengths without its trailing zeros, but with at least `k` entries. -/
def trimLens (k : Nat) (l : List Nat) : List Nat :=
  let n := ((List.range l.length).filter (fun i => l.getD i 0 != 0)).foldl (fun m i => max m (i + 1)) k
  l.take n

/-- The dynamic DEFLATE block of a pass (R132). -/
def dynamicBits (l : List DefSym) : List Bool :=
  let lit := trimLens 257 (pmLengths 15 (freqs 286 (litSyms l)))
  let ds := distSyms l
  let dist := if ds = [] then [1] else trimLens 1 (pmLengths 15 (freqs 30 ds))
  let rl := rle (lit ++ dist)
  let cl := pmLengths 7 (freqs 19 (rl.map (·.1)))
  let ordered := clOrder.map (fun o => cl.getD o 0)
  let hc := (trimLens 4 ordered).length
  bitsOf 1 1 ++ bitsOf 2 2 ++ bitsOf 5 (lit.length - 257) ++ bitsOf 5 (dist.length - 1) ++ bitsOf 4 (hc - 4) ++
    (ordered.take hc).flatMap (bitsOf 3) ++
    rl.flatMap (fun e => codeOf cl e.1 ++ bitsOf e.2.1 e.2.2) ++ symBits lit dist l

/-- The fixed DEFLATE block of a pass. -/
def fixedBits (l : List DefSym) : List Bool := bitsOf 1 1 ++ bitsOf 2 1 ++ symBits fixedLit fixedDist l

/-- The stored DEFLATE block of a chunk. -/
def storedBits (c : Bytes) : List Bool :=
  bitsOf 3 1 ++ List.replicate 5 false ++ bitsOf 16 c.length ++ bitsOf 16 (0xFFFF - c.length) ++
    c.flatMap (fun b => bitsOf 8 b.toNat)

/-- Bits packed into bytes, low bit first, the last byte padded with 0. -/
def packBits (l : List Bool) : Bytes :=
  (List.range (ceilDiv l.length 8)).map (fun i =>
    BitVec.ofNat 8 ((List.range 8).foldl (fun v j => v + b2n (l.getD (8 * i + j) false) * 2 ^ j) 0))

/-- The payload of a chunk: the cheapest of stored, fixed and dynamic, in this order on a tie (R132). -/
def deflate (c : Bytes) : Bytes :=
  let l := encPass c c.length (c.length + 1) 0 []
  let st := storedBits c
  let fx := fixedBits l
  let dy := dynamicBits l
  packBits (if st.length ≤ fx.length && st.length ≤ dy.length then st else if fx.length ≤ dy.length then fx else dy)

end Sys2Proof.Machine
end

