-- ==== Sys2Proof/Machine/Registers.lean ====
section
/-! DEFINITION. The register map: one name per register of the spec's register-map tables (Tables 2.15, 3.6, 4.10, 5.8,
6.7, 7.9, 8.9, 9.11, 9.14, 9.17, 9.18, 10.9, 10.10, 11.7, 12.8, 13.5, 14.5, 15.7, 16.13, 17.3 and 17.6), at its absolute
address (Table 0.4, Table 17.13), with its access code (Table 0.2), its reset value and the mask of the bits that a host
write changes (reserved and read-only fields are outside the mask, R6, R7). A bank of registers takes its index within the
bank. -/
namespace Sys2Proof.Machine

/-- Access codes of Table 0.2 (R7); a W1S field acts when written and is not stored, so it is outside `mask`. -/
inductive Acc where
  | rw | ro | wo | w1c | rc
deriving DecidableEq, Repr

/-- One register of a register map: access code, reset value, writable bits. -/
structure RegInfo where
  acc : Acc
  reset : Nat
  mask : Nat
deriving DecidableEq, Repr

/-- Table 2.15, RO, reset 0x00000000: PLAN_ID of the running plan; 0 under built-in timing -/
abbrev FPL_PLAN_ID : Nat := 0x10000
/-- Table 2.15, RO, reset 0x00000000: PLAN_GEN of the running plan -/
abbrev FPL_PLAN_GEN : Nat := 0x10004
/-- Table 2.15, RO, reset 0x00000300: Running state -/
abbrev FPL_STATUS : Nat := 0x10008
/-- Table 2.15, RW, reset 0x00000003: Tick source selection -/
abbrev FPL_TICK_SRC : Nat := 0x1000C
/-- Table 2.15, RO, reset 0x00000174: [15:0] L ÷ 64; [31:16] reserved -/
abbrev FPL_TIMING : Nat := 0x10010
/-- Table 2.15, RO, reset 0x0002EE00: Commit lead in cycles -/
abbrev FPL_COMMIT_LEAD : Nat := 0x10014
/-- Table 2.15, RO, reset 0x00000000: Length of the last tick in cycles -/
abbrev FPL_TICK_LEN_LAST : Nat := 0x10018
/-- Table 2.15, RO, reset 0x00000000: Length of the last headland in cycles -/
abbrev FPL_HEADLAND_LAST : Nat := 0x1001C
/-- Table 2.15, RO, reset 0x00000000: Frame number [31:0]; reading it latches FPL_FRAME_HI -/
abbrev FPL_FRAME_LO : Nat := 0x10020
/-- Table 2.15, RO, reset 0x00000000: [15:0] latched frame number [47:32] -/
abbrev FPL_FRAME_HI : Nat := 0x10024
/-- Table 2.15, RO, reset 0x00000000: Current slot and cycle -/
abbrev FPL_SLOT_NOW : Nat := 0x10028
/-- Table 2.15, RW, reset 0x00000000: Staging source: DRAM address [31:0] -/
abbrev FPL_STAGE_ADDR_LO : Nat := 0x10030
/-- Table 2.15, RW, reset 0x00000000: [7:0] DRAM address [39:32] -/
abbrev FPL_STAGE_ADDR_HI : Nat := 0x10034
/-- Table 2.15, RW, reset 0x00000000: Staging control -/
abbrev FPL_STAGE_CTRL : Nat := 0x10038
/-- Table 2.15, RO, reset 0x00000000: Staging status -/
abbrev FPL_STAGE_STATUS : Nat := 0x1003C
/-- Table 2.15, RW, reset 0x00000000: Switch frame [31:0] -/
abbrev FPL_SWITCH_AT_LO : Nat := 0x10040
/-- Table 2.15, RW, reset 0x00000000: [15:0] switch frame [47:32] -/
abbrev FPL_SWITCH_AT_HI : Nat := 0x10044
/-- Table 2.15, RW, reset 0x00000000: Switch control -/
abbrev FPL_SWITCH_CTRL : Nat := 0x10048
/-- Table 2.15, RO, reset 0x00000000: [9:0] overrun slots in the last tick -/
abbrev FPL_OVERRUN_LAST : Nat := 0x10050
/-- Table 2.15, RO, reset 0x00000000: FPL_SLOT_OVERRUN events, saturating at 0xFFFF_FFFF -/
abbrev FPL_OVERRUN_TOTAL : Nat := 0x10054
/-- Table 2.15, RO, reset 0x00000000: Degraded ticks, saturating -/
abbrev FPL_DEGRADED_TOTAL : Nat := 0x10058
/-- Table 2.15, RO, reset 0x00000000: Task deferrals, saturating -/
abbrev FPL_HEADLAND_DEFER_TOTAL : Nat := 0x1005C
/-- Table 2.15, RO, reset 0x00002000: Level, variant and budget -/
abbrev FPL_THROTTLE : Nat := 0x10060
/-- Table 2.15, RW, reset 0x00000000: [7:0] INDEX; [11:8] CLASS -/
abbrev FPL_OWN_QUERY : Nat := 0x10064
/-- Table 2.15, RO, reset 0x00000000: [15:0] owner feature in the plan; [31:16] current holder; 0 means none -/
abbrev FPL_OWN_RESULT : Nat := 0x10068
/-- Table 2.15, W1C, reset 0x00000000: Sticky event bits -/
abbrev FPL_EVENT_STATUS : Nat := 0x10070
/-- Table 3.6, RO, reset 0x00000000: State of the store -/
abbrev GRN_STATUS : Nat := 0x20000
/-- Table 3.6, RO, reset 0x00000000: [14:0] FREE logical plots -/
abbrev GRN_COUNT_FREE : Nat := 0x20004
/-- Table 3.6, RO, reset 0x00000000: [14:0] ALLOCATED logical plots -/
abbrev GRN_COUNT_ALLOCATED : Nat := 0x20008
/-- Table 3.6, RO, reset 0x00000000: [14:0] IN_FLIGHT logical plots -/
abbrev GRN_COUNT_IN_FLIGHT : Nat := 0x2000C
/-- Table 3.6, RO, reset 0x00000000: [14:0] RETIRED logical plots -/
abbrev GRN_COUNT_RETIRED : Nat := 0x20010
/-- Table 3.6, RO, reset 0x00000000: [6:0] FREE plots in the spare pool -/
abbrev GRN_SPARE_FREE : Nat := 0x20014
/-- Table 3.6, RO, reset 0x00000000: Result of the last audit -/
abbrev GRN_AUDIT_LAST : Nat := 0x20018
/-- Table 3.6, RO, reset 0x00000000: Failed audits, saturating -/
abbrev GRN_AUDIT_FAIL_TOTAL : Nat := 0x2001C
/-- Table 3.6, RO, reset 0x00000000: Corrected errors, saturating -/
abbrev GRN_ECC_CE_TOTAL : Nat := 0x20020
/-- Table 3.6, RO, reset 0x00000000: Uncorrectable errors, saturating -/
abbrev GRN_ECC_UE_TOTAL : Nat := 0x20024
/-- Table 3.6, RO, reset 0x00000000: Location of the last ECC error -/
abbrev GRN_ECC_LAST : Nat := 0x20028
/-- Table 3.6, RO, reset 0x00000000: GRN_POISON_CONSUMED events, saturating -/
abbrev GRN_POISON_TOTAL : Nat := 0x2002C
/-- Table 3.6, RW, reset 0x00000000: [5:0] PART_ID to query -/
abbrev GRN_PART_QUERY : Nat := 0x20030
/-- Table 3.6, RO, reset 0x00000000: [13:0] FIRST; [23:16] CLIENT; [24] valid -/
abbrev GRN_PART_BASE : Nat := 0x20034
/-- Table 3.6, RO, reset 0x00000000: [14:0] COUNT; [30:16] plots allocated -/
abbrev GRN_PART_STATE : Nat := 0x20038
/-- Table 3.6, RW, reset 0x00000000: [4:0] client of Table 3.2 -/
abbrev GRN_CLIENT_SEL : Nat := 0x20040
/-- Table 3.6, RW, reset 0x00000400: [14:0] general-pool cap of the selected client -/
abbrev GRN_CLIENT_CAP : Nat := 0x20044
/-- Table 3.6, RO, reset 0x00000000: [14:0] plots held; [30:16] of which from the general pool -/
abbrev GRN_CLIENT_HELD : Nat := 0x20048
/-- Table 3.6, RC, reset 0x00000000: Unscheduled grants to the selected client's requesters since the last read, saturating -/
abbrev GRN_CLIENT_GRANTS : Nat := 0x2004C
/-- Table 3.6, RW, reset 0x00000000: [13:0] logical plot -/
abbrev GRN_MAP_QUERY : Nat := 0x20050
/-- Table 3.6, RO, reset 0x00000000: Plot map entry -/
abbrev GRN_MAP_RESULT : Nat := 0x20054
/-- Table 3.6, WO, reset 0x00000000: [13:0] logical plot; queues a targeted self-test -/
abbrev GRN_SELFTEST_REQ : Nat := 0x20058
/-- Table 3.6, RO, reset 0x00000000: Last self-test result -/
abbrev GRN_SELFTEST_LAST : Nat := 0x2005C
/-- Table 3.6, RO, reset 0x00000000: Requests dropped with a full queue, saturating -/
abbrev GRN_SELFTEST_DROPPED_TOTAL : Nat := 0x20060
/-- Table 3.6, RW, reset 0x00000000: [6:0] retire-list index: 0 to 63 the Seedbank list, 64 to 127 the volatile extension (R83) -/
abbrev GRN_RETIRE_IDX : Nat := 0x20064
/-- Table 3.6, RO, reset 0x00000000: [13:0] physical plot at GRN_RETIRE_IDX; [31] valid -/
abbrev GRN_RETIRE_LIST : Nat := 0x20068
/-- Table 3.6, W1C, reset 0x00000000: Sticky event bits -/
abbrev GRN_EVENT_STATUS : Nat := 0x20070
/-- Table 4.10, RO, reset 0x00000010: Ingest state -/
abbrev PLT_STATUS : Nat := 0x30000
/-- Table 4.10, RO, reset 0x00000000: [15:0] candidate tag; [31:16] pending tag -/
abbrev PLT_TAGS : Nat := 0x30004
/-- Table 4.10, RO, reset 0x00000000: [15:0] tag of the frame shown -/
abbrev PLT_SHOWN_TAG : Nat := 0x30008
/-- Table 4.10, RW, reset 0x00000000: Control -/
abbrev PLT_CTRL : Nat := 0x3000C
/-- Table 4.10, RO, reset 0x00000000: Bit k: plate k complete at the last commit point -/
abbrev PLT_READY_LAST : Nat := 0x30010
/-- Table 4.10, RO, reset 0x00000000: Bit k: plate k substituted at the last commit point -/
abbrev PLT_SUBST_LAST : Nat := 0x30014
/-- Table 4.10, RO, reset 0x00000000: Bit k: the previous version of plate k is resident -/
abbrev PLT_RESIDENT : Nat := 0x30018
/-- Table 4.10, RW, reset 0x00000000: [4:0] plate index k -/
abbrev PLT_SEL : Nat := 0x30020
/-- Table 4.10, RO, reset 0x00000000: [15:0] APPLIED_SEQ; [31:16] candidate LAST_SEQ -/
abbrev PLT_SEQ : Nat := 0x30024
/-- Table 4.10, RO, reset 0x00000000: Open and held updates -/
abbrev PLT_UPD_STATE : Nat := 0x30028
/-- Table 4.10, RO, reset 0x00000000: [20:0] free slots -/
abbrev PLT_POOL : Nat := 0x3002C
/-- Table 4.10, RO, reset 0x00000000: [20:0] 2·N_p -/
abbrev PLT_POOL_SIZE : Nat := 0x30030
/-- Table 4.10, RO, reset 0x00000000: [20:0] ABSENT entries in the arriving map -/
abbrev PLT_ABSENT : Nat := 0x30034
/-- Table 4.10, RO, reset 0x00000000: Blocks accepted, saturating -/
abbrev PLT_BLOCKS_TOTAL : Nat := 0x30040
/-- Table 4.10, RO, reset 0x00000000: Blocks and records discarded, saturating -/
abbrev PLT_DROP_TOTAL : Nat := 0x30044
/-- Table 4.10, RO, reset 0x00000000: Updates abandoned, saturating -/
abbrev PLT_ABANDON_TOTAL : Nat := 0x30048
/-- Table 4.10, RO, reset 0x00000000: Plate substitutions, saturating -/
abbrev PLT_SUBST_TOTAL : Nat := 0x3004C
/-- Table 4.10, RO, reset 0x00000000: Texels conditioned under R92, saturating -/
abbrev PLT_TEXEL_CLAMP_TOTAL : Nat := 0x30050
/-- Table 4.10, RO, reset 0x00000000: Frame records skipped, saturating -/
abbrev PLT_SKIP_TOTAL : Nat := 0x30054
/-- Table 4.10, W1C, reset 0x00000000: Sticky event bits -/
abbrev PLT_EVENT_STATUS : Nat := 0x30070
/-- Table 5.8, RO, reset 0x00000000: State of the engine -/
abbrev THR_STATUS : Nat := 0x40000
/-- Table 5.8, RW, reset 0x00000000: Job control -/
abbrev THR_CTRL : Nat := 0x40004
/-- Table 5.8, RO, reset 0x00000000: Two bits per pipe: 0 IDLE, 1 DATA_PATH, 2 JOB, 3 FILL; pipe p at [2p+1:2p] -/
abbrev THR_PIPE_STATE : Nat := 0x40008
/-- Table 5.8, RO, reset 0x00000000: Data-path map entries decoded in the last tick -/
abbrev THR_BLOCKS_LAST : Nat := 0x40010
/-- Table 5.8, RO, reset 0x00000000: Staged bytes read by decode pipes in the last tick -/
abbrev THR_IN_BYTES_LAST : Nat := 0x40014
/-- Table 5.8, RO, reset 0x00000000: Bytes sent to the band writer in the last tick -/
abbrev THR_OUT_BYTES_LAST : Nat := 0x40018
/-- Table 5.8, RO, reset 0x00000000: Decode pipe-cycles busy in the last tick ÷ 64 -/
abbrev THR_BUSY_LAST : Nat := 0x4001C
/-- Table 5.8, RO, reset 0x00000000: Decoder failures, saturating -/
abbrev THR_ERR_TOTAL : Nat := 0x40020
/-- Table 5.8, RO, reset 0x00000000: Last failure: kind and offset -/
abbrev THR_ERR_LAST_KIND : Nat := 0x40024
/-- Table 5.8, RO, reset 0x00000000: [15:0] BLOCK_X; [31:16] BLOCK_Y of the last failure -/
abbrev THR_ERR_LAST_POS : Nat := 0x40028
/-- Table 5.8, RO, reset 0x00000000: [11:0] output bytes before detection; [31:16] frame number [15:0] -/
abbrev THR_ERR_LAST_OUT : Nat := 0x4002C
/-- Table 5.8, RO, reset 0x00000000: Blocks with more than one DEFLATE block, saturating -/
abbrev THR_MULTI_TOTAL : Nat := 0x40030
/-- Table 5.8, RO, reset 0x00000000: ABSENT entries met in shown maps, saturating -/
abbrev THR_ABSENT_TOTAL : Nat := 0x40034
/-- Table 5.8, RW, reset 0x00000000: [31:6] ring base [31:6]; [5:0] reserved -/
abbrev THR_JOB_RING_LO : Nat := 0x40040
/-- Table 5.8, RW, reset 0x00000000: [7:0] ring base [39:32] -/
abbrev THR_JOB_RING_HI : Nat := 0x40044
/-- Table 5.8, RW, reset 0x00000000: [10:0] descriptors, a power of two from 8 to 1,024; other values stop job fetch and set
THR_STATUS.RING_BAD -/
abbrev THR_JOB_RING_SIZE : Nat := 0x40048
/-- Table 5.8, RO, reset 0x00000000: [9:0] next descriptor to read -/
abbrev THR_JOB_HEAD : Nat := 0x4004C
/-- Table 5.8, RW, reset 0x00000000: [9:0] index after the last submitted descriptor; a write is the doorbell -/
abbrev THR_JOB_TAIL : Nat := 0x40050
/-- Table 5.8, RO, reset 0x00000000: Jobs ended, saturating -/
abbrev THR_JOB_DONE_TOTAL : Nat := 0x40054
/-- Table 5.8, RW, reset 0x000000FF: [7:0] decode pipes usable for jobs -/
abbrev THR_JOB_PIPES : Nat := 0x40058
/-- Table 5.8, W1C, reset 0x00000000: Sticky event bits -/
abbrev THR_EVENT_STATUS : Nat := 0x40070
/-- Table 6.7, RO, reset 0x00000000: State of the array -/
abbrev DRL_STATUS : Nat := 0x50000
/-- Table 6.7, RO, reset 0x00000020: Budget, set size and lane floor -/
abbrev DRL_BUDGET : Nat := 0x50004
/-- Table 6.7, RO, reset 0x00000000: Bit k: plate k was in the participation set of the last tick -/
abbrev DRL_PLATES_LAST : Nat := 0x50008
/-- Table 6.7, RO, reset 0x00000000: Rays composed in the last tick -/
abbrev DRL_RAYS_LAST : Nat := 0x5000C
/-- Table 6.7, RO, reset 0x00000000: Samples issued in the last tick -/
abbrev DRL_SAMPLES_LAST : Nat := 0x50010
/-- Table 6.7, RO, reset 0x00000000: Rays terminated early in the last tick -/
abbrev DRL_EARLY_LAST : Nat := 0x50014
/-- Table 6.7, RO, reset 0x00000000: [16:0] largest cycle, counted from the slot start, at which any drill issued its last sample
in the last tick -/
abbrev DRL_ISSUE_MAX_LAST : Nat := 0x50018
/-- Table 6.7, RW, reset 0x00000000: [4:0] drill 0 to 23 -/
abbrev DRL_LANE_SEL : Nat := 0x50020
/-- Table 6.7, RO, reset 0x00011E00: Lane map of the selected drill -/
abbrev DRL_LANE_MAP : Nat := 0x50024
/-- Table 6.7, WO, reset 0x00000000: [3:0] lane 0 to 8 of the selected drill; queues a scan test -/
abbrev DRL_LANE_TEST : Nat := 0x50028
/-- Table 6.7, RO, reset 0x00000000: Lane check failures, saturating -/
abbrev DRL_LANE_CHECK_TOTAL : Nat := 0x5002C
/-- Table 6.7, RO, reset 0x00000000: Hogel-plate disparities limited, saturating -/
abbrev DRL_DISP_LIMIT_TOTAL : Nat := 0x50030
/-- Table 6.7, RO, reset 0x00000000: Samples clamped at ±16 texels, saturating -/
abbrev DRL_APRON_CLAMP_TOTAL : Nat := 0x50034
/-- Table 6.7, RO, reset 0x00000000: Rays limited by the matrix, saturating -/
abbrev DRL_GAMUT_CLIP_TOTAL : Nat := 0x50038
/-- Table 6.7, RO, reset 0x00000000: Last scaler refusal -/
abbrev DRL_SCALER_LAST : Nat := 0x50040
/-- Table 6.7, RO, reset 0x00000000: Bit k: plate k is split in the current tick -/
abbrev DRL_SCALER_SPLIT : Nat := 0x50044
/-- Table 6.7, RO, reset 0x00000000: Banks and arm -/
abbrev DRL_TM_STATUS : Nat := 0x50050
/-- Table 6.7, RW, reset 0x00000000: Arming -/
abbrev DRL_TM_ARM : Nat := 0x50054
/-- Table 6.7, RW, reset 0x00000000: Image address [31:0]; [5:0] must be 0 -/
abbrev DRL_TM_LOAD_LO : Nat := 0x50058
/-- Table 6.7, RW, reset 0x00000000: [7:0] image address [39:32]; [8] LOAD, W1S -/
abbrev DRL_TM_LOAD_HI : Nat := 0x5005C
/-- Table 6.7, RW, reset 0x00000000: [9:1] entry pair of the inactive table; [0] reserved; advances by 2 entries on each
DRL_TM_DATA access -/
abbrev DRL_TM_ADDR : Nat := 0x50060
/-- Table 6.7, RW, reset 0x00000000: [15:0] T[ADDR]; [31:16] T[ADDR + 1] -/
abbrev DRL_TM_DATA : Nat := 0x50064
/-- Table 6.7, RW, reset 0x3C000000: [0] MODE; [31:16] IN_SCALE -/
abbrev DRL_TM_MODE : Nat := 0x50068
/-- Table 6.7, RW, reset 0x00003C00: [15:0] SRGB_WHITE -/
abbrev DRL_TM_SRGB_WHITE : Nat := 0x5006C
/-- Table 6.7, W1C, reset 0x00000000: Sticky event bits -/
abbrev DRL_EVENT_STATUS : Nat := 0x50070
/-- Table 6.7, RW, reset 0x00002000: [15:0] M00; [31:16] M01 -/
abbrev DRL_MTX_0 : Nat := 0x50080
/-- Table 6.7, RW, reset 0x00000000: [15:0] M02; [31:16] M10 -/
abbrev DRL_MTX_1 : Nat := 0x50084
/-- Table 6.7, RW, reset 0x00002000: [15:0] M11; [31:16] M12 -/
abbrev DRL_MTX_2 : Nat := 0x50088
/-- Table 6.7, RW, reset 0x00000000: [15:0] M20; [31:16] M21 -/
abbrev DRL_MTX_3 : Nat := 0x5008C
/-- Table 6.7, RW, reset 0x00002000: [15:0] M22 -/
abbrev DRL_MTX_4 : Nat := 0x50090
/-- Table 7.9, RO, reset 0x00000000: State of the block -/
abbrev HGL_STATUS : Nat := 0x60000
/-- Table 7.9, RW, reset 0x00000038: Control -/
abbrev HGL_CTRL : Nat := 0x60004
/-- Table 7.9, RO, reset 0x00000000: GEN of the image header in use -/
abbrev HGL_TABLE_GEN : Nat := 0x60008
/-- Table 7.9, RO, reset 0x00000000: [9:0] rows from the factory image; [25:16] neutral rows -/
abbrev HGL_TABLE_ROWS : Nat := 0x6000C
/-- Table 7.9, RW, reset 0x00000000: Master array base -/
abbrev HGL_MASTER_BASE : Nat := 0x60010
/-- Table 7.9, RW, reset 0x00000000: Accumulator bank A base -/
abbrev HGL_ACC_BASE_A : Nat := 0x60014
/-- Table 7.9, RW, reset 0x00000000: Accumulator bank B base -/
abbrev HGL_ACC_BASE_B : Nat := 0x60018
/-- Table 7.9, RW, reset 0x00000000: Gain table base -/
abbrev HGL_GAIN_BASE : Nat := 0x6001C
/-- Table 7.9, RW, reset 0x00000000: Checkpoint staging base -/
abbrev HGL_CKPT_STAGE_BASE : Nat := 0x60020
/-- Table 7.9, RO, reset 0x00000000: STRESS_FRAMES [31:0]; reading latches HI -/
abbrev HGL_STRESS_FRAMES_LO : Nat := 0x60024
/-- Table 7.9, RO, reset 0x00000000: [15:0] latched STRESS_FRAMES [47:32] -/
abbrev HGL_STRESS_FRAMES_HI : Nat := 0x60028
/-- Table 7.9, RO, reset 0x00000000: Fold progress -/
abbrev HGL_FOLD_STATE : Nat := 0x6002C
/-- Table 7.9, RO, reset 0x00000000: Windows folded, saturating -/
abbrev HGL_FOLD_WINDOWS : Nat := 0x60030
/-- Table 7.9, RW, reset 0x00463728: [7:0] T1, [15:8] T2, [23:16] T3, in °C -/
abbrev HGL_TBAND : Nat := 0x60034
/-- Table 7.9, RW, reset 0x00000708: [15:0] seconds, 60 to 65,535; lower values read as 60 -/
abbrev HGL_CKPT_INTERVAL : Nat := 0x60038
/-- Table 7.9, RO, reset 0x00000000: Checkpoint progress -/
abbrev HGL_CKPT_STATE : Nat := 0x6003C
/-- Table 7.9, RO, reset 0x00000000: SEQ of the newest complete image -/
abbrev HGL_CKPT_SEQ : Nat := 0x60040
/-- Table 7.9, RO, reset 0x00000000: [2:0] case of Table 7.7; [31:3] L, saturating -/
abbrev HGL_RECON_LAST : Nat := 0x60044
/-- Table 7.9, RW, reset 0xCCCDCCCD: [15:0] E_T red; [31:16] E_T green; u0.16 -/
abbrev HGL_TARGET_RG : Nat := 0x60048
/-- Table 7.9, RW, reset 0x0000CCCD: [15:0] E_T blue -/
abbrev HGL_TARGET_B : Nat := 0x6004C
/-- Table 7.9, RW, reset 0x00000140: [6:0] COUNT, 0 to 64, larger values read as 64; [8] EN -/
abbrev HGL_SENSE_CTRL : Nat := 0x60050
/-- Table 7.9, RO, reset 0x00000000: [19:0] hogel 960·hy + hx; [21:20] colour -/
abbrev HGL_SENSE_LAST_POS : Nat := 0x60054
/-- Table 7.9, RO, reset 0x00000000: Last sense result -/
abbrev HGL_SENSE_LAST_VF : Nat := 0x60058
/-- Table 7.9, RO, reset 0x00000000: Results received, saturating -/
abbrev HGL_SENSE_TOTAL : Nat := 0x6005C
/-- Table 7.9, RO, reset 0x00000000: Results missing, saturating -/
abbrev HGL_SENSE_FAIL_TOTAL : Nat := 0x60060
/-- Table 7.9, RO, reset 0x00000000: [23:0] cells with E < E_T in the last window -/
abbrev HGL_BELOW_TARGET : Nat := 0x60064
/-- Table 7.9, RO, reset 0x00000000: Accumulator saturations, saturating -/
abbrev HGL_SAT_TOTAL : Nat := 0x60068
/-- Table 7.9, RO, reset 0x00000000: Limited entry fields, saturating -/
abbrev HGL_CAL_LIMIT_TOTAL : Nat := 0x6006C
/-- Table 7.9, W1C, reset 0x00000000: Sticky event bits -/
abbrev HGL_EVENT_STATUS : Nat := 0x60070
/-- Table 7.9, RO, reset 0x00000000: [19:0] subpixels named dead in the table -/
abbrev HGL_DEAD_COUNT : Nat := 0x60074
/-- Table 7.9, RW, reset 0x00000000: [9:0] index; [11:10] colour; advances on each HGL_CURVE_DATA read -/
abbrev HGL_CURVE_ADDR : Nat := 0x60080
/-- Table 7.9, RO, reset 0x00000000: [15:0] curve entry -/
abbrev HGL_CURVE_DATA : Nat := 0x60084
/-- Table 7.9, RW, reset 0x00000000: [7:0] region 0 to 143; [9:8] colour -/
abbrev HGL_KAPPA_SEL : Nat := 0x60088
/-- Table 7.9, RO, reset 0x00004000: [15:0] κ, u2.14 -/
abbrev HGL_KAPPA : Nat := 0x6008C
/-- Table 8.9, RO, reset 0x00000002: Panel state -/
abbrev ETC_STATUS : Nat := 0x70000
/-- Table 8.9, RW, reset 0x00000002: Control -/
abbrev ETC_CTRL : Nat := 0x70004
/-- Table 8.9, RW, reset 0x00008000: [15:0] LIM, u1.15 -/
abbrev ETC_DRIVE_LIMIT : Nat := 0x70008
/-- Table 8.9, RO, reset 0x00000001: [2:0] set in force; [10:8] set selected for the next tick -/
abbrev ETC_WAVE : Nat := 0x7000C
/-- Table 8.9, RO, reset 0x00000000: Supply state -/
abbrev ETC_SUPPLY_STATUS : Nat := 0x70010
/-- Table 8.9, RW, reset 0x00000008: Supply control -/
abbrev ETC_SUPPLY_CTRL : Nat := 0x70014
/-- Table 8.9, RW, reset 0x00000A0A: [7:0] T_PG in ms, 1 to 255; [15:8] T_SEQ in 100 µs units, 1 to 255 -/
abbrev ETC_SUPPLY_TIMING : Nat := 0x70018
/-- Table 8.9, RW, reset 0x00000000: [9:0] furrow 0 to 539 -/
abbrev ETC_FURROW_SEL : Nat := 0x7001C
/-- Table 8.9, RO, reset 0x00000000: [0] φ; [1] owed; [3:2] scans in the last two ticks -/
abbrev ETC_FURROW_STATE : Nat := 0x70020
/-- Table 8.9, RO, reset 0x00000000: [9:0] furrows sent with mask 0xFFF in the last tick -/
abbrev ETC_REPEAT_LAST : Nat := 0x70024
/-- Table 8.9, RO, reset 0x00000000: [16:0] stale rows in the last tick, all lanes -/
abbrev ETC_STALE_LAST : Nat := 0x70028
/-- Table 8.9, RO, reset 0x00000000: Furrows marked owed, saturating -/
abbrev ETC_IMBALANCE_TOTAL : Nat := 0x7002C
/-- Table 8.9, RW, reset 0x00000000: [3:0] driver -/
abbrev ETC_DRV_SEL : Nat := 0x70030
/-- Table 8.9, RO, reset 0x00000000: State of the selected driver -/
abbrev ETC_DRV_STATUS : Nat := 0x70034
/-- Table 8.9, RO, reset 0x00000000: [15:0] THERM, s7.8; [16] valid -/
abbrev ETC_DRV_THERM : Nat := 0x70038
/-- Table 8.9, RO, reset 0x00000000: Driver-reported discards, all drivers, saturating -/
abbrev ETC_DRV_ERR_TOTAL : Nat := 0x7003C
/-- Table 8.9, RO, reset 0x00000000: Return packets discarded, saturating -/
abbrev ETC_RETURN_ERR_TOTAL : Nat := 0x70040
/-- Table 8.9, RO, reset 0x00000000: Discharges, saturating -/
abbrev ETC_DISCH_TOTAL : Nat := 0x70044
/-- Table 8.9, W1C, reset 0x00000000: Sticky event bits -/
abbrev ETC_EVENT_STATUS : Nat := 0x70070
/-- Table 9.11, RO, reset 0x00000000: State, widths, power -/
abbrev LNE_PORT_STATUS (p : Nat) : Nat := 0x80000 + 0x2000 * (p % 4) + 0x0
/-- Table 9.11, RW, reset 0x00001801: Control -/
abbrev LNE_PORT_CTRL (p : Nat) : Nat := 0x80000 + 0x2000 * (p % 4) + 0x4
/-- Table 9.11, RO, reset 0x00000000: [7:0] TX_MASK; [15:8] RX_MASK; [23:16] receive lanes remaining after ALIGN; [31:24]
EXCLUDED -/
abbrev LNE_PORT_LANES (p : Nat) : Nat := 0x80000 + 0x2000 * (p % 4) + 0x8
/-- Table 9.11, RO, reset 0x00000000: [19:0] hop latency in core cycles; [31] VALID -/
abbrev LNE_PORT_LATENCY (p : Nat) : Nat := 0x80000 + 0x2000 * (p % 4) + 0xC
/-- Table 9.11, RO, reset 0x00000000: Partner FUSED_ID [31:0] -/
abbrev LNE_PORT_PEER_LO (p : Nat) : Nat := 0x80000 + 0x2000 * (p % 4) + 0x10
/-- Table 9.11, RO, reset 0x00000000: Partner FUSED_ID [63:32] -/
abbrev LNE_PORT_PEER_HI (p : Nat) : Nat := 0x80000 + 0x2000 * (p % 4) + 0x14
/-- Table 9.11, RO, reset 0x00000000: [1:0] partner PORT; [10:8] STAGE; [23:16] VERSION -/
abbrev LNE_PORT_PEER_INFO (p : Nat) : Nat := 0x80000 + 0x2000 * (p % 4) + 0x18
/-- Table 9.11, RO, reset 0x00000000: Departures from ACTIVE, saturating -/
abbrev LNE_PORT_RETRAIN_TOTAL (p : Nat) : Nat := 0x80000 + 0x2000 * (p % 4) + 0x1C
/-- Table 9.11, RO, reset 0x00000000: [3:0] reason as in LNE_PORT_DOWN; [7:4] state; [31:16] frame number [15:0] -/
abbrev LNE_PORT_LAST_DOWN (p : Nat) : Nat := 0x80000 + 0x2000 * (p % 4) + 0x20
/-- Lane registers (R255): fabric lane 8p + l is lane number 8p + l (0 to 31); panel lane m is 32 + m. -/
abbrev laneBase (lane : Nat) : Nat :=
  if lane % 50 < 32 then 0x80000 + 0x2000 * (lane % 50 / 8) + 0x100 + 0x80 * (lane % 50 % 8)
  else 0x88000 + 0x100 * (lane % 50 - 32)
/-- Table 9.14, RO, reset 0x00000000: Lane state -/
abbrev LNE_LANE_STATUS (lane : Nat) : Nat := laneBase lane + 0x0
/-- Table 9.14, RO, reset 0x00000000: [4:0] abs(c₋₁); [13:8] c₀; [20:16] abs(c₊₁); [26:24] start preset; [28:27] at limit -/
abbrev LNE_LANE_TXEQ (lane : Nat) : Nat := laneBase lane + 0x4
/-- Table 9.14, RO, reset 0x00000000: [3:0] CTLE; [15:8] DFE, s0.7 -/
abbrev LNE_LANE_RXEQ (lane : Nat) : Nat := laneBase lane + 0x8
/-- Table 9.14, RW, reset 0x00000000: [3:0] FFE tap 0 to 11, for taps −2 to +9 -/
abbrev LNE_LANE_FFE_SEL (lane : Nat) : Nat := laneBase lane + 0xC
/-- Table 9.14, RO, reset 0x00000000: [9:0] selected tap, s1.8 -/
abbrev LNE_LANE_FFE (lane : Nat) : Nat := laneBase lane + 0x10
/-- Table 9.14, RO, reset 0x00000000: Corrected symbols, saturating -/
abbrev LNE_LANE_CORR_TOTAL (lane : Nat) : Nat := laneBase lane + 0x14
/-- Table 9.14, RO, reset 0x00000000: Uncorrectable codewords, saturating -/
abbrev LNE_LANE_UNCORR_TOTAL (lane : Nat) : Nat := laneBase lane + 0x18
/-- Table 9.14, RW, reset 0x00000000: [1:0] 0 NONE, 1 NES, 2 NEP, 3 FE -/
abbrev LNE_LANE_LOOP (lane : Nat) : Nat := laneBase lane + 0x1C
/-- Table 9.14, RW, reset 0x00000000: PRBS control -/
abbrev LNE_LANE_PRBS_CTRL (lane : Nat) : Nat := laneBase lane + 0x20
/-- Table 9.14, RC, reset 0x00000000: Bit errors, saturating -/
abbrev LNE_LANE_PRBS_ERR (lane : Nat) : Nat := laneBase lane + 0x24
/-- Table 9.14, RO, reset 0x00000000: Bits checked [31:0]; reading latches HI -/
abbrev LNE_LANE_PRBS_BITS_LO (lane : Nat) : Nat := laneBase lane + 0x28
/-- Table 9.14, RO, reset 0x00000000: [15:0] latched bits checked [47:32] -/
abbrev LNE_LANE_PRBS_BITS_HI (lane : Nat) : Nat := laneBase lane + 0x2C
/-- Table 9.14, RW, reset 0x00000000: [7:0] histogram bin -/
abbrev LNE_LANE_HIST_SEL (lane : Nat) : Nat := laneBase lane + 0x30
/-- Table 9.14, RO, reset 0x00000000: [20:0] count of the selected bin in the last histogram -/
abbrev LNE_LANE_HIST (lane : Nat) : Nat := laneBase lane + 0x34
/-- Table 9.17, RO, reset 0x00000000: [2:0] 0 DOWN, 1 DETECT, 2 WAKE, 3 EQ, 4 ALIGN, 5 ACTIVE, 6 RETRY; [3] ABSENT; [6:4] FAILS -/
abbrev LNE_PL_STATUS (m : Nat) : Nat := 0x88000 + 0x100 * (m % 18) + 0x40
/-- Table 9.17, RW, reset 0x0000000D: [0] ENABLE; [1] RETRAIN, W1S; [4:2] PRESET 1 to 5, where other values act as 3; [5] PRECODE,
out lanes only -/
abbrev LNE_PL_CTRL (m : Nat) : Nat := 0x88000 + 0x100 * (m % 18) + 0x44
/-- Table 9.17, RO, reset 0x00000000: Departures from ACTIVE, saturating -/
abbrev LNE_PL_RETRAIN_TOTAL (m : Nat) : Nat := 0x88000 + 0x100 * (m % 18) + 0x48
/-- Table 9.18, RO, reset 0x00000000: [3:0] port p ACTIVE; [7:4] port p below MAX_WIDTH; [25:8] panel lane m ACTIVE -/
abbrev LNE_STATUS : Nat := 0x8A000
/-- Table 9.18, RW, reset 0x0000491B: Start preset by band, 3 bits each: [2:0] COLD, [5:3] NORMAL, [8:6] WARM, [11:9] HOT, [14:12]
CRIT -/
abbrev LNE_PRESET_BAND : Nat := 0x8A004
/-- Table 9.18, RW, reset 0x00000060: [7:0] qualifying FOM -/
abbrev LNE_FOM_MIN : Nat := 0x8A008
/-- Table 9.18, RO, reset 0x00000000: [5:0] lane, 8p + l or 32 + m; [9:8] class; [31:16] bit errors, saturating -/
abbrev LNE_SELFTEST_LAST : Nat := 0x8A00C
/-- Table 9.18, WO, reset 0x00000000: [5:0] lane, coded as above; queues a self-test (R250, R258) -/
abbrev LNE_SELFTEST_REQ : Nat := 0x8A010
/-- Table 9.18, W1C, reset 0x00000000: Sticky event bits -/
abbrev LNE_EVENT_STATUS : Nat := 0x8A070
/-- Table 10.9, RO, reset 0x00000000: Address and tree state -/
abbrev LNK_STATUS : Nat := 0x90000
/-- Table 10.9, RW, reset 0x00000000: Control -/
abbrev LNK_CTRL : Nat := 0x90004
/-- Table 10.9, RO, reset 0x00000000: ROOT_ID [31:0] of the epoch in force -/
abbrev LNK_ROOT_LO : Nat := 0x90008
/-- Table 10.9, RO, reset 0x00000000: ROOT_ID [63:32] -/
abbrev LNK_ROOT_HI : Nat := 0x9000C
/-- Table 10.9, RO, reset 0x00000000: [15:0] EPOCH; [17:16] parent port; [18] parent valid; [31:24] depth -/
abbrev LNK_TREE : Nat := 0x90010
/-- Table 10.9, RO, reset 0x00000000: [15:0] highest address in the device's own subtree -/
abbrev LNK_SUBTREE : Nat := 0x90014
/-- Table 10.9, RW, reset 0x00020C02: [7:0] VC1, [15:8] VC2, [23:16] VC3, 1 to 255; a write of 0 is ignored -/
abbrev LNK_VC_WEIGHT : Nat := 0x90018
/-- Table 10.9, RO, reset 0x00000000: [4:0] requests queued -/
abbrev LNK_MGMT_STATUS : Nat := 0x9001C
/-- Table 10.9, RO, reset 0x00000000: Messages discarded or aborted, saturating -/
abbrev LNK_MSG_DROP_TOTAL : Nat := 0x90020
/-- Table 10.9, RO, reset 0x00000000: Messages expired, saturating -/
abbrev LNK_TTL_DROP_TOTAL : Nat := 0x90024
/-- Table 10.9, RO, reset 0x00000000: R286 drops, saturating -/
abbrev LNK_REGION_DROP_TOTAL : Nat := 0x90028
/-- Table 10.9, W1C, reset 0x00000000: Sticky event bits -/
abbrev LNK_EVENT_STATUS : Nat := 0x90070
/-- Table 10.10, RO, reset 0x00000000: Role and link state -/
abbrev LNK_PORT_STATUS (p : Nat) : Nat := 0x90100 + 0x100 * (p % 4) + 0x0
/-- Table 10.10, RW, reset 0x00000000: [0] SYNC_NOW, W1S -/
abbrev LNK_PORT_CTRL (p : Nat) : Nat := 0x90100 + 0x100 * (p % 4) + 0x4
/-- Table 10.10, RO, reset 0x00000000: [15:0] first, [31:16] last address of a CHILD port -/
abbrev LNK_PORT_INTERVAL (p : Nat) : Nat := 0x90100 + 0x100 * (p % 4) + 0x8
/-- Table 10.10, RO, reset 0x00000000: [14:0] bridge bits beyond the port -/
abbrev LNK_PORT_BRIDGES (p : Nat) : Nat := 0x90100 + 0x100 * (p % 4) + 0xC
/-- Table 10.10, RW, reset 0x01000040: [12:0] VC0 slots; [28:16] VC1 slots; used at the next sync -/
abbrev LNK_PORT_ALLOC01 (p : Nat) : Nat := 0x90100 + 0x100 * (p % 4) + 0x10
/-- Table 10.10, RW, reset 0x02C00C00: [12:0] VC2; [28:16] VC3. A pair of writes that breaks R268 leaves the previous values. -/
abbrev LNK_PORT_ALLOC23 (p : Nat) : Nat := 0x90100 + 0x100 * (p % 4) + 0x14
/-- Table 10.10, RW, reset 0x00000000: [1:0] VC -/
abbrev LNK_PORT_VC_SEL (p : Nat) : Nat := 0x90100 + 0x100 * (p % 4) + 0x18
/-- Table 10.10, RO, reset 0x00000000: [12:0] credits held; [28:16] partner's TOTAL for the selected VC -/
abbrev LNK_PORT_VC_STATE (p : Nat) : Nat := 0x90100 + 0x100 * (p % 4) + 0x1C
/-- Table 10.10, RO, reset 0x00000000: [6:0] VC2 weight of this input; [14:8] VC3 weight -/
abbrev LNK_PORT_WEIGHT (p : Nat) : Nat := 0x90100 + 0x100 * (p % 4) + 0x20
/-- Table 10.10, RO, reset 0x00000000: [11:0] next SEQ to send; [27:16] SEQ expected -/
abbrev LNK_PORT_SEQ (p : Nat) : Nat := 0x90100 + 0x100 * (p % 4) + 0x24
/-- Table 10.10, RO, reset 0x00000000: [9:0] flits in the retry buffer -/
abbrev LNK_PORT_UNACKED (p : Nat) : Nat := 0x90100 + 0x100 * (p % 4) + 0x28
/-- Table 10.10, RO, reset 0x00000000: Replays, saturating -/
abbrev LNK_PORT_REPLAY_TOTAL (p : Nat) : Nat := 0x90100 + 0x100 * (p % 4) + 0x2C
/-- Table 10.10, RO, reset 0x00000000: Duplicates discarded, saturating -/
abbrev LNK_PORT_DUP_TOTAL (p : Nat) : Nat := 0x90100 + 0x100 * (p % 4) + 0x30
/-- Table 10.10, RO, reset 0x00000000: Flits discarded under R271, saturating -/
abbrev LNK_PORT_LOST_TOTAL (p : Nat) : Nat := 0x90100 + 0x100 * (p % 4) + 0x34
/-- Table 10.10, RO, reset 0x00000000: Credit mismatches, saturating -/
abbrev LNK_PORT_MISMATCH_TOTAL (p : Nat) : Nat := 0x90100 + 0x100 * (p % 4) + 0x38
/-- Table 11.7, RO, reset 0x00000000: Roles and membership -/
abbrev WAL_STATUS : Nat := 0xA0000
/-- Table 11.7, RW, reset 0x00000000: Control -/
abbrev WAL_CTRL : Nat := 0xA0004
/-- Table 11.7, RO, reset 0x00000000: MASTER_ID [31:0] of the master followed -/
abbrev WAL_MASTER_LO : Nat := 0xA0008
/-- Table 11.7, RO, reset 0x00000000: MASTER_ID [63:32] -/
abbrev WAL_MASTER_HI : Nat := 0xA000C
/-- Table 11.7, RO, reset 0x00000000: ROOT_ID [31:0] of the root followed -/
abbrev WAL_ROOT_LO : Nat := 0xA0010
/-- Table 11.7, RO, reset 0x00000000: ROOT_ID [63:32] -/
abbrev WAL_ROOT_HI : Nat := 0xA0014
/-- Table 11.7, RO, reset 0x000000A0: [7:0] D_max; [23:8] depth d, in hop units -/
abbrev WAL_DEPTH : Nat := 0xA0018
/-- Table 11.7, RO, reset 0x00000000: Signed core cycles, est − own B_N at the last TICK used -/
abbrev WAL_PHASE_ERR : Nat := 0xA001C
/-- Table 11.7, RO, reset 0x00000000: Last decision applied -/
abbrev WAL_LAST_DECISION : Nat := 0xA0020
/-- Table 11.7, RO, reset 0x00000000: [0] own READY; [1] aggregate READY; [2] NO_CAND; [31:16] MEMBERS sent -/
abbrev WAL_VOTE_LAST : Nat := 0xA0024
/-- Table 11.7, RO, reset 0x00000000: [15:0] NOT_READY count sent; [31:16] FIRST_NR -/
abbrev WAL_VOTE_NR : Nat := 0xA0028
/-- Table 11.7, RW, reset 0x00000000: [1:0] port -/
abbrev WAL_CHILD_SEL : Nat := 0xA0030
/-- Table 11.7, RO, reset 0x00000000: Commit child on the selected port -/
abbrev WAL_CHILD_STATE : Nat := 0xA0034
/-- Table 11.7, RW, reset 0x00000000: GENLOCK polarities -/
abbrev WAL_GENLOCK_CTRL : Nat := 0xA0038
/-- Table 11.7, RO, reset 0x00000000: [1:0] 0 NONE, 1 ACQUIRE, 2 LOCKED, 3 LOST; [31:8] last e, signed, saturating -/
abbrev WAL_GENLOCK_STATUS : Nat := 0xA003C
/-- Table 11.7, RO, reset 0x00000000: Missed TICKs, saturating -/
abbrev WAL_MISSED_TICK_TOTAL : Nat := 0xA0040
/-- Table 11.7, RO, reset 0x00000000: Missed decisions, saturating -/
abbrev WAL_MISSED_DECISION_TOTAL : Nat := 0xA0044
/-- Table 11.7, RO, reset 0x00000000: REPEATs applied, saturating -/
abbrev WAL_REPEAT_TOTAL : Nat := 0xA0048
/-- Table 11.7, RO, reset 0x00000000: FORCED decisions applied, saturating -/
abbrev WAL_FORCED_TOTAL : Nat := 0xA004C
/-- Table 11.7, RO, reset 0x00000000: Late votes and decisions, saturating -/
abbrev WAL_LATE_TOTAL : Nat := 0xA0050
/-- Table 11.7, W1C, reset 0x00000000: Sticky event bits -/
abbrev WAL_EVENT_STATUS : Nat := 0xA0070
/-- Table 12.8, RO, reset 0x00000000: State of the controller -/
abbrev DMC_STATUS : Nat := 0xB0000
/-- Table 12.8, RO, reset 0x00000000: [2:0] density: 1 4 Gb, 2 8 Gb, 3 16 Gb, 4 32 Gb per channel; [3] two ranks; [15:8] capacity
in GiB -/
abbrev DMC_CONFIG : Nat := 0xB0004
/-- Table 12.8, RO, reset 0x00000333: Operating points -/
abbrev DMC_OP : Nat := 0xB0008
/-- Table 12.8, RW, reset 0x00000000: [1:0] TARGET; [8] REQ, W1S; [9] PENDING, RO -/
abbrev DMC_FREQ_CTRL : Nat := 0xB000C
/-- Table 12.8, RW, reset 0x00640A00: [0] SR_EN; [15:8] SR_IDLE in µs, 1 to 255; [31:16] SR_MIN in units of 10 ns, at least 1 -/
abbrev DMC_SR_CTRL : Nat := 0xB0010
/-- Table 12.8, RW, reset 0x01000040: [7:0] PAGE_IDLE in DMC cycles, 1 to 255; [31:16] AGE_CAP in units of 16 DMC cycles, 1 to
65,535 -/
abbrev DMC_TIMER : Nat := 0xB0014
/-- Table 12.8, RO, reset 0x00000000: [11:0] requests in flight, all channels -/
abbrev DMC_INFLIGHT : Nat := 0xB0018
/-- Table 12.8, RW, reset 0x00000000: [3:0] channel -/
abbrev DMC_CH_SEL : Nat := 0xB0020
/-- Table 12.8, RO, reset 0x00000000: State of the selected channel -/
abbrev DMC_CH_STATE : Nat := 0xB0024
/-- Table 12.8, RW, reset 0x00000000: [2:0] window -/
abbrev DMC_WIN_SEL : Nat := 0xB0028
/-- Table 12.8, RO, reset 0x00000000: [27:0] BASE [39:12] of the selected window -/
abbrev DMC_WIN_BASE : Nat := 0xB002C
/-- Table 12.8, RO, reset 0x00000000: Mapping of the selected window -/
abbrev DMC_WIN_CFG : Nat := 0xB0030
/-- Table 12.8, RO, reset 0x00000000: Corrected lines, saturating -/
abbrev DMC_ECC_CE_TOTAL : Nat := 0xB0040
/-- Table 12.8, RO, reset 0x00000000: Uncorrectable lines, saturating -/
abbrev DMC_ECC_UE_TOTAL : Nat := 0xB0044
/-- Table 12.8, RO, reset 0x00000000: Poison markers read, saturating -/
abbrev DMC_POISON_READ_TOTAL : Nat := 0xB0048
/-- Table 12.8, RO, reset 0x00000000: System address [31:0] of the last error -/
abbrev DMC_ECC_LAST_LO : Nat := 0xB004C
/-- Table 12.8, RO, reset 0x00000000: Location of the last error -/
abbrev DMC_ECC_LAST_HI : Nat := 0xB0050
/-- Table 12.8, RO, reset 0x00000000: Urgent bursts, saturating -/
abbrev DMC_REFRESH_URGENT_TOTAL : Nat := 0xB0054
/-- Table 12.8, RO, reset 0x00000000: Cancelled entries, saturating -/
abbrev DMC_SR_CANCEL_TOTAL : Nat := 0xB0058
/-- Table 12.8, RO, reset 0x00000000: Frequency changes, saturating -/
abbrev DMC_FREQ_TOTAL : Nat := 0xB005C
/-- Table 12.8, WO, reset 0x00000000: [31:0] system address [39:8]; queues a test of the row that holds that address -/
abbrev DMC_SELFTEST_REQ : Nat := 0xB0060
/-- Table 12.8, RO, reset 0x00000000: Last row test -/
abbrev DMC_SELFTEST_LAST : Nat := 0xB0064
/-- Table 12.8, RO, reset 0x00000000: Requests dropped with a full queue, saturating -/
abbrev DMC_SELFTEST_DROPPED_TOTAL : Nat := 0xB0068
/-- Table 12.8, RW, reset 0x00000000: [5:0] remap-table entry -/
abbrev DMC_RETIRE_IDX : Nat := 0xB006C
/-- Table 12.8, W1C, reset 0x00000000: Sticky event bits -/
abbrev DMC_EVENT_STATUS : Nat := 0xB0070
/-- Table 12.8, RO, reset 0x00000000: [3:0] channel; [7:4] bank; [24:8] row; [31] valid -/
abbrev DMC_RETIRE_ENTRY : Nat := 0xB0074
/-- Table 12.8, RO, reset 0x00000000: Training outcome -/
abbrev DMC_TRAIN_STATUS : Nat := 0xB0078
/-- Table 13.5, RO, reset 0x00000011: Engine state -/
abbrev BUR_STATUS : Nat := 0xC0000
/-- Table 13.5, RW, reset 0x00000000: Control -/
abbrev BUR_CTRL : Nat := 0xC0004
/-- Table 13.5, RW, reset 0x00000000: [31:6] ring base [31:6]; [5:0] reserved -/
abbrev BUR_RING_LO : Nat := 0xC0008
/-- Table 13.5, RW, reset 0x00000000: [7:0] ring base [39:32] -/
abbrev BUR_RING_HI : Nat := 0xC000C
/-- Table 13.5, RW, reset 0x00000010: [12:0] slots, a power of two from 16 to 4,096 -/
abbrev BUR_RING_SIZE : Nat := 0xC0010
/-- Table 13.5, RO, reset 0x00000000: [11:0] next slot to fetch -/
abbrev BUR_HEAD : Nat := 0xC0014
/-- Table 13.5, RW, reset 0x00000000: [11:0] slot after the last command; a write is the doorbell -/
abbrev BUR_TAIL : Nat := 0xC0018
/-- Table 13.5, RW, reset 0x00000000: [31:6] status array base [31:6]; [5:0] reserved -/
abbrev BUR_STAT_LO : Nat := 0xC001C
/-- Table 13.5, RW, reset 0x00000000: [7:0] status array base [39:32] -/
abbrev BUR_STAT_HI : Nat := 0xC0020
/-- Table 13.5, RO, reset 0x00000000: Commands ended DONE, saturating -/
abbrev BUR_DONE_TOTAL : Nat := 0xC0024
/-- Table 13.5, RO, reset 0x00000000: Commands ended other than DONE, saturating -/
abbrev BUR_ERR_TOTAL : Nat := 0xC0028
/-- Table 13.5, RO, reset 0x00000000: Last command that ended other than DONE -/
abbrev BUR_ERR_LAST : Nat := 0xC002C
/-- Table 13.5, RO, reset 0x00000000: Bytes written in the last tick, saturating -/
abbrev BUR_BYTES_LAST : Nat := 0xC0030
/-- Table 13.5, W1C, reset 0x00000000: Sticky event bits -/
abbrev BUR_EVENT_STATUS : Nat := 0xC0070
/-- Table 14.5, RO, reset 0x00000009: Bands, level and state -/
abbrev THM_STATUS : Nat := 0xD0000
/-- Table 14.5, RW, reset 0x00000001: Control -/
abbrev THM_CTRL : Nat := 0xD0004
/-- Table 14.5, RO, reset 0x00000000: [15:0] die temperature, s7.8; [20:16] sensor; [24] 1: an estimate -/
abbrev THM_HOTTEST : Nat := 0xD0008
/-- Table 14.5, RO, reset 0x00000000: [15:0] panel temperature, s7.8; [19:16] driver; [24] valid -/
abbrev THM_PANEL : Nat := 0xD000C
/-- Table 14.5, WO, reset 0x00000000: [23:0] die sensors; [24] panel; queues a conversion (R362) -/
abbrev THM_CONV_REQ : Nat := 0xD0010
/-- Table 14.5, RO, reset 0x00000000: [23:0] bit n: TS n is failed -/
abbrev THM_FAILED : Nat := 0xD0014
/-- Table 14.5, RW, reset 0x00000000: [4:0] sensor 0 to 23 -/
abbrev THM_SENSOR_SEL : Nat := 0xD0018
/-- Table 14.5, RO, reset 0x00000000: State of the selected sensor -/
abbrev THM_SENSOR : Nat := 0xD001C
/-- Table 14.5, RW, reset 0x00006408: [7:0] RATE_LIMIT in 0.25 °C, 1 to 255; [23:8] WINDOW in ms, 10 to 10,000 -/
abbrev THM_RATE : Nat := 0xD0020
/-- Table 14.5, RW, reset 0x00000003: [3:0] hysteresis in °C, 1 to 15 -/
abbrev THM_HYST : Nat := 0xD0024
/-- Table 14.5, RW, reset 0x00000390: Level per band, 2 bits each: [1:0] COLD to [9:8] CRIT. A write that maps a hotter band below
a cooler one is ignored. -/
abbrev THM_LEVEL_MAP : Nat := 0xD0028
/-- Table 14.5, WO, reset 0x00000000: [4:0] sensor; queues a self-test (R365) -/
abbrev THM_SELFTEST_REQ : Nat := 0xD002C
/-- Table 14.5, RO, reset 0x00000000: [4:0] sensor; [9:8] class, as in THM_SENSOR.CLASS; [31:16] frame number [15:0] at the end of
the test; [15:10] and [7:5] reserved -/
abbrev THM_SELFTEST_LAST : Nat := 0xD0030
/-- Table 14.5, RO, reset 0x00000000: Conversions, saturating -/
abbrev THM_CONV_TOTAL : Nat := 0xD0034
/-- Table 14.5, RO, reset 0x00000000: Failed conversions, saturating -/
abbrev THM_FAIL_TOTAL : Nat := 0xD0038
/-- Table 14.5, W1C, reset 0x00000000: Sticky event bits -/
abbrev THM_EVENT_STATUS : Nat := 0xD0070
/-- Table 15.7, RO, reset 0x00000000: State of the Seedbank -/
abbrev SBK_STATUS : Nat := 0xE0000
/-- Table 15.7, RW, reset 0x00000001: Control -/
abbrev SBK_CTRL : Nat := 0xE0004
/-- Table 15.7, RO, reset 0x00000000: GEN of the newest completed store -/
abbrev SBK_GEN : Nat := 0xE0008
/-- Table 15.7, RO, reset 0x00000000: GEN in the other copy's header; 0 when it has none -/
abbrev SBK_GEN_OTHER : Nat := 0xE000C
/-- Table 15.7, RW, reset 0x00000000: [15:2] SRAM word offset; [1:0] reserved -/
abbrev SBK_ADDR : Nat := 0xE0010
/-- Table 15.7, RW, reset 0x00000000: SRAM word at SBK_ADDR (R381) -/
abbrev SBK_DATA : Nat := 0xE0014
/-- Table 15.7, WO, reset 0x00000000: Candidate [31:0] -/
abbrev SBK_PW_LO : Nat := 0xE0018
/-- Table 15.7, WO, reset 0x00000000: Candidate [63:32] -/
abbrev SBK_PW_HI : Nat := 0xE001C
/-- Table 15.7, RW, reset 0x00000000: Passwords -/
abbrev SBK_PW_CTRL : Nat := 0xE0020
/-- Table 15.7, RO, reset 0x00000000: Last store -/
abbrev SBK_STORE_LAST : Nat := 0xE0024
/-- Table 15.7, RW, reset 0x00000000: [1:0] lifetime counter -/
abbrev SBK_CNT_SEL : Nat := 0xE0028
/-- Table 15.7, RO, reset 0x00000000: Selected counter [31:0]; reading latches HI -/
abbrev SBK_CNT_LO : Nat := 0xE002C
/-- Table 15.7, RO, reset 0x00000000: Latched counter [63:32] -/
abbrev SBK_CNT_HI : Nat := 0xE0030
/-- Table 15.7, RW, reset 0x00000000: [4:0] word in the row; [13:5] row 0 to 512; [14] copy -/
abbrev SBK_RAW_SEL : Nat := 0xE0034
/-- Table 15.7, RO, reset 0x00000000: Raw word (R387); 0 while a store or recall runs -/
abbrev SBK_RAW_DATA : Nat := 0xE0038
/-- Table 15.7, RO, reset 0x00000000: [10:0] rows read in the pass; [20:11] weak rows; [21] pass running -/
abbrev SBK_GLEAN_STATUS : Nat := 0xE003C
/-- Table 15.7, RO, reset 0x00000000: [6:0] held writes -/
abbrev SBK_HELD : Nat := 0xE0040
/-- Table 15.7, RO, reset 0x00000000: Completed stores since reset, saturating -/
abbrev SBK_STORE_TOTAL : Nat := 0xE0044
/-- Table 15.7, W1C, reset 0x00000000: Sticky event bits -/
abbrev SBK_EVENT_STATUS : Nat := 0xE0070
/-- Table 16.13, RO, reset 0x00000000: Stage, mode, slot, reset kind -/
abbrev UPD_BOOT_STATUS : Nat := 0xF1000
/-- Table 16.13, RW, reset 0x00000000: Control -/
abbrev UPD_CTRL : Nat := 0xF1004
/-- Table 16.13, RO, reset 0x00000000: [15:0] event code of the hold; [18:16] stage held at -/
abbrev UPD_STAGE_HOLD : Nat := 0xF1008
/-- Table 16.13, RO, reset 0x00000000: [15:0] ms from reset release to the last stage reached -/
abbrev UPD_STAGE_TIME : Nat := 0xF100C
/-- Table 16.13, RO, reset 0x00000000: ACTIVE_GEN -/
abbrev UPD_GEN_ACTIVE : Nat := 0xF1010
/-- Table 16.13, RO, reset 0x00000000: CONFIRMED_GEN -/
abbrev UPD_GEN_CONFIRMED : Nat := 0xF1014
/-- Table 16.13, RO, reset 0x00000000: Sowing state -/
abbrev UPD_SOW_STATUS : Nat := 0xF1018
/-- Table 16.13, RO, reset 0x00000000: SESSION of the bitmap -/
abbrev UPD_SOW_SESSION : Nat := 0xF101C
/-- Table 16.13, RO, reset 0x00000000: GEN of the bitmap -/
abbrev UPD_SOW_GEN : Nat := 0xF1020
/-- Table 16.13, RO, reset 0x00000000: [13:0] blocks held; [29:16] first missing block -/
abbrev UPD_SOW_HELD : Nat := 0xF1024
/-- Table 16.13, RO, reset 0x00000000: Activation state -/
abbrev UPD_ACT_STATUS : Nat := 0xF1028
/-- Table 16.13, RO, reset 0x00000000: ACT_FRAME [31:0]; reading latches HI -/
abbrev UPD_ACT_FRAME_LO : Nat := 0xF102C
/-- Table 16.13, RO, reset 0x00000000: [15:0] latched ACT_FRAME [47:32] -/
abbrev UPD_ACT_FRAME_HI : Nat := 0xF1030
/-- Table 16.13, WO, reset 0x00000000: Load window word (R436); ignored outside the wait of R436 -/
abbrev UPD_LOAD_DATA : Nat := 0xF1034
/-- Table 16.13, RO, reset 0x00000000: [18:0] bytes loaded -/
abbrev UPD_LOAD_COUNT : Nat := 0xF1038
/-- Table 16.13, W1C, reset 0x00000000: Sticky event bits -/
abbrev UPD_EVENT_STATUS : Nat := 0xF1070
/-- Table 17.3, RO, reset 0x00B17440: [15:0] device ID 0x7440; [23:16] stepping 0xB1 -/
abbrev GBL_ID : Nat := 0x0
/-- Table 17.3, RO, reset 0x70657473: Stepping name bytes 0–3, "step" -/
abbrev GBL_STEP_NAME0 : Nat := 0x4
/-- Table 17.3, RO, reset 0x676E6970: Bytes 4–7, "ping" -/
abbrev GBL_STEP_NAME1 : Nat := 0x8
/-- Table 17.3, RO, reset 0x00314220: Bytes 8–11, " B1" and a terminating 0 -/
abbrev GBL_STEP_NAME2 : Nat := 0xC
/-- Table 17.3, RO, reset 0x00000000: Fused ID [31:0] -/
abbrev GBL_FUSED_ID_LO : Nat := 0x10
/-- Table 17.3, RO, reset 0x00000000: Fused ID [63:32] -/
abbrev GBL_FUSED_ID_HI : Nat := 0x14
/-- Table 17.3, RO, reset 0x00000000: [2:0] stage; [3] held; [5:4] mode, as UPD_BOOT_STATUS -/
abbrev GBL_STATE : Nat := 0x18
/-- Table 17.3, WO, reset 0x00000000: Reset command (R444) -/
abbrev GBL_RESET : Nat := 0x1C
/-- Table 17.3, RW, reset 0x00000000: For host use; no effect -/
abbrev GBL_SCRATCH : Nat := 0x20
/-- Table 17.3, RO, reset 0x00000000: Interrupt causes -/
abbrev GBL_IRQ_STATUS : Nat := 0x24
/-- Table 17.3, RW, reset 0x00000000: Bit n enables bit n of GBL_IRQ_STATUS -/
abbrev GBL_IRQ_MASK : Nat := 0x28
/-- Table 17.3, RO, reset 0x00000000: Memory address [31:0] of the event ring in force (R452); 0 before S3 (R454) -/
abbrev GBL_EVQ_BASE_LO : Nat := 0x30
/-- Table 17.3, RO, reset 0x00000000: [7:0] address [39:32]; [8] 1: the ring is in the Granary -/
abbrev GBL_EVQ_BASE_HI : Nat := 0x34
/-- Table 17.3, RO, reset 0x00000000: [11:0] next ring index to be written -/
abbrev GBL_EVQ_WR : Nat := 0x38
/-- Table 17.3, RO, reset 0x00000000: SEQ of the next record -/
abbrev GBL_EVQ_SEQ : Nat := 0x3C
/-- Table 17.3, RW, reset 0x00000000: [11:0] the host reader's index (R452) -/
abbrev GBL_EVQ_RD : Nat := 0x40
/-- Table 17.3, RC, reset 0x00000000: Records the host reader lost, saturating -/
abbrev GBL_EVQ_LOST : Nat := 0x44
/-- Table 17.3, RW, reset 0x00000000: Destinations of EVENT messages -/
abbrev GBL_EVT_DEST : Nat := 0x48
/-- Table 17.3, RW, reset 0x00014000: EVENT message control -/
abbrev GBL_EVT_CTRL : Nat := 0x4C
/-- Table 17.3, RO, reset 0x00000000: [9:0] TRANSIENT, [19:10] INTERMITTENT, [29:20] PERMANENT since reset, each saturating at
1,023 -/
abbrev GBL_CLASS_TOTALS : Nat := 0x50
/-- Table 17.3, RO, reset 0x00000000: Address [31:0] of the last GBL_ADDR_UNMAPPED -/
abbrev GBL_ADDR_LAST_LO : Nat := 0x54
/-- Table 17.3, RO, reset 0x00000000: [7:0] address [39:32]; [12:8] requester, as CLIENT of Table 3.2; [13] 1: register space -/
abbrev GBL_ADDR_LAST_HI : Nat := 0x58
/-- Table 17.3, RW, reset 0x00000004: [1:0] rate: 0 115,200, 1 921,600, 2 3,000,000 baud, 3 acts as 0; [2] EVENTS -/
abbrev GBL_UART_CTRL : Nat := 0x5C
/-- Table 17.3, RO, reset 0x00000000: [15:0] pin levels -/
abbrev GBL_GPIO_IN : Nat := 0x60
/-- Table 17.3, RW, reset 0x00000000: [15:0] output levels of SOFTWARE pins -/
abbrev GBL_GPIO_OUT : Nat := 0x64
/-- Table 17.3, RW, reset 0x00000000: [15:0] output enables of SOFTWARE pins -/
abbrev GBL_GPIO_OE : Nat := 0x68
/-- Table 17.3, W1C, reset 0x00000000: Sticky event bits -/
abbrev GBL_EVENT_STATUS : Nat := 0x70
/-- Table 17.3: GBL_EVQ_RECn, n from 0 to 7. The record at GBL_EVQ_RD, word by word -/
abbrev GBL_EVQ_REC (n : Nat) : Nat := 0x80 + 4 * (n % 8)
/-- Table 17.3: Ownership of GPIO n, n from 0 to 15 -/
abbrev GBL_GPIO_OWN (n : Nat) : Nat := 0x100 + 4 * (n % 16)
/-- Table 17.6, RW, reset 0x00000000: Ownership -/
abbrev UPD_MBX_OWNER : Nat := 0xF0000
/-- Table 17.6, RW, reset 0x00000000: [7:0] OPCODE; [8] GO, W1S; [9] IRQ -/
abbrev UPD_MBX_CMD : Nat := 0xF0004
/-- Table 17.6, RO, reset 0x00000000: [7:0] STATUS (Table 17.2); [8] DONE; [9] RUNNING; [31:16] RESULT_LEN, bytes in the buffer -/
abbrev UPD_MBX_STATUS : Nat := 0xF0008
/-- Table 17.6: UPD_MBX_ARGn, n from 0 to 7. Arguments -/
abbrev UPD_MBX_ARG (n : Nat) : Nat := 0xF0010 + 4 * (n % 8)
/-- Table 17.6: UPD_MBX_RESn, n from 0 to 7. Results -/
abbrev UPD_MBX_RES (n : Nat) : Nat := 0xF0030 + 4 * (n % 8)
/-- Table 17.6, W1C, reset 0x00000000: [0] DONE: UPD_MBX_DONE occurred; [1] FAILED: UPD_MBX_FAILED occurred; [31:2] reserved -/
abbrev UPD_MBX_EVENT_STATUS : Nat := 0xF0070
/-- Table 17.6: the mailbox data buffer starts here (3,840 bytes, kept as `mbx.buf`). -/
abbrev UPD_MBX_BUF : Nat := 0xF0100

/-- Table 2.15, by offset. -/
def regTable2_15 : List (Nat × RegInfo) :=
  [(0x0, ⟨.ro, 0x0, 0x0⟩), (0x4, ⟨.ro, 0x0, 0x0⟩), (0x8, ⟨.ro, 0x300, 0x0⟩), (0xC, ⟨.rw, 0x3, 0x103⟩),
   (0x10, ⟨.ro, 0x174, 0x0⟩), (0x14, ⟨.ro, 0x2EE00, 0x0⟩), (0x18, ⟨.ro, 0x0, 0x0⟩), (0x1C, ⟨.ro, 0x0, 0x0⟩)] ++
  [(0x20, ⟨.ro, 0x0, 0x0⟩), (0x24, ⟨.ro, 0x0, 0x0⟩), (0x28, ⟨.ro, 0x0, 0x0⟩), (0x30, ⟨.rw, 0x0, 0xFFFFFFFF⟩),
   (0x34, ⟨.rw, 0x0, 0xFF⟩), (0x38, ⟨.rw, 0x0, 0x730⟩), (0x3C, ⟨.ro, 0x0, 0x0⟩), (0x40, ⟨.rw, 0x0, 0xFFFFFFFF⟩)] ++
  [(0x44, ⟨.rw, 0x0, 0xFFFF⟩), (0x48, ⟨.rw, 0x0, 0x8⟩), (0x50, ⟨.ro, 0x0, 0x0⟩), (0x54, ⟨.ro, 0x0, 0x0⟩),
   (0x58, ⟨.ro, 0x0, 0x0⟩), (0x5C, ⟨.ro, 0x0, 0x0⟩), (0x60, ⟨.ro, 0x2000, 0x0⟩), (0x64, ⟨.rw, 0x0, 0xFFF⟩)] ++
  [(0x68, ⟨.ro, 0x0, 0x0⟩), (0x70, ⟨.w1c, 0x0, 0x1FF⟩)]

/-- Table 3.6, by offset. -/
def regTable3_6 : List (Nat × RegInfo) :=
  [(0x0, ⟨.ro, 0x0, 0x0⟩), (0x4, ⟨.ro, 0x0, 0x0⟩), (0x8, ⟨.ro, 0x0, 0x0⟩), (0xC, ⟨.ro, 0x0, 0x0⟩),
   (0x10, ⟨.ro, 0x0, 0x0⟩), (0x14, ⟨.ro, 0x0, 0x0⟩), (0x18, ⟨.ro, 0x0, 0x0⟩), (0x1C, ⟨.ro, 0x0, 0x0⟩)] ++
  [(0x20, ⟨.ro, 0x0, 0x0⟩), (0x24, ⟨.ro, 0x0, 0x0⟩), (0x28, ⟨.ro, 0x0, 0x0⟩), (0x2C, ⟨.ro, 0x0, 0x0⟩),
   (0x30, ⟨.rw, 0x0, 0x3F⟩), (0x34, ⟨.ro, 0x0, 0x0⟩), (0x38, ⟨.ro, 0x0, 0x0⟩), (0x40, ⟨.rw, 0x0, 0x1F⟩)] ++
  [(0x44, ⟨.rw, 0x400, 0x7FFF⟩), (0x48, ⟨.ro, 0x0, 0x0⟩), (0x4C, ⟨.rc, 0x0, 0x0⟩), (0x50, ⟨.rw, 0x0, 0x3FFF⟩),
   (0x54, ⟨.ro, 0x0, 0x0⟩), (0x58, ⟨.wo, 0x0, 0x0⟩), (0x5C, ⟨.ro, 0x0, 0x0⟩), (0x60, ⟨.ro, 0x0, 0x0⟩)] ++
  [(0x64, ⟨.rw, 0x0, 0x7F⟩), (0x68, ⟨.ro, 0x0, 0x0⟩), (0x70, ⟨.w1c, 0x0, 0xFF⟩)]

/-- Table 4.10, by offset. -/
def regTable4_10 : List (Nat × RegInfo) :=
  [(0x0, ⟨.ro, 0x10, 0x0⟩), (0x4, ⟨.ro, 0x0, 0x0⟩), (0x8, ⟨.ro, 0x0, 0x0⟩), (0xC, ⟨.rw, 0x0, 0x0⟩),
   (0x10, ⟨.ro, 0x0, 0x0⟩), (0x14, ⟨.ro, 0x0, 0x0⟩), (0x18, ⟨.ro, 0x0, 0x0⟩), (0x20, ⟨.rw, 0x0, 0x1F⟩)] ++
  [(0x24, ⟨.ro, 0x0, 0x0⟩), (0x28, ⟨.ro, 0x0, 0x0⟩), (0x2C, ⟨.ro, 0x0, 0x0⟩), (0x30, ⟨.ro, 0x0, 0x0⟩),
   (0x34, ⟨.ro, 0x0, 0x0⟩), (0x40, ⟨.ro, 0x0, 0x0⟩), (0x44, ⟨.ro, 0x0, 0x0⟩), (0x48, ⟨.ro, 0x0, 0x0⟩)] ++
  [(0x4C, ⟨.ro, 0x0, 0x0⟩), (0x50, ⟨.ro, 0x0, 0x0⟩), (0x54, ⟨.ro, 0x0, 0x0⟩), (0x70, ⟨.w1c, 0x0, 0x1FF⟩)]

/-- Table 5.8, by offset. -/
def regTable5_8 : List (Nat × RegInfo) :=
  [(0x0, ⟨.ro, 0x0, 0x0⟩), (0x4, ⟨.rw, 0x0, 0x1⟩), (0x8, ⟨.ro, 0x0, 0x0⟩), (0x10, ⟨.ro, 0x0, 0x0⟩),
   (0x14, ⟨.ro, 0x0, 0x0⟩), (0x18, ⟨.ro, 0x0, 0x0⟩), (0x1C, ⟨.ro, 0x0, 0x0⟩), (0x20, ⟨.ro, 0x0, 0x0⟩)] ++
  [(0x24, ⟨.ro, 0x0, 0x0⟩), (0x28, ⟨.ro, 0x0, 0x0⟩), (0x2C, ⟨.ro, 0x0, 0x0⟩), (0x30, ⟨.ro, 0x0, 0x0⟩),
   (0x34, ⟨.ro, 0x0, 0x0⟩), (0x40, ⟨.rw, 0x0, 0xFFFFFFC0⟩), (0x44, ⟨.rw, 0x0, 0xFF⟩), (0x48, ⟨.rw, 0x0, 0x7FF⟩)] ++
  [(0x4C, ⟨.ro, 0x0, 0x0⟩), (0x50, ⟨.rw, 0x0, 0x3FF⟩), (0x54, ⟨.ro, 0x0, 0x0⟩), (0x58, ⟨.rw, 0xFF, 0xFF⟩),
   (0x70, ⟨.w1c, 0x0, 0x3F⟩)]

/-- Table 6.7, by offset. -/
def regTable6_7 : List (Nat × RegInfo) :=
  [(0x0, ⟨.ro, 0x0, 0x0⟩), (0x4, ⟨.ro, 0x20, 0x0⟩), (0x8, ⟨.ro, 0x0, 0x0⟩), (0xC, ⟨.ro, 0x0, 0x0⟩),
   (0x10, ⟨.ro, 0x0, 0x0⟩), (0x14, ⟨.ro, 0x0, 0x0⟩), (0x18, ⟨.ro, 0x0, 0x0⟩), (0x20, ⟨.rw, 0x0, 0x1F⟩)] ++
  [(0x24, ⟨.ro, 0x11E00, 0x0⟩), (0x28, ⟨.wo, 0x0, 0x0⟩), (0x2C, ⟨.ro, 0x0, 0x0⟩), (0x30, ⟨.ro, 0x0, 0x0⟩),
   (0x34, ⟨.ro, 0x0, 0x0⟩), (0x38, ⟨.ro, 0x0, 0x0⟩), (0x40, ⟨.ro, 0x0, 0x0⟩), (0x44, ⟨.ro, 0x0, 0x0⟩)] ++
  [(0x50, ⟨.ro, 0x0, 0x0⟩), (0x54, ⟨.rw, 0x0, 0x2FFFF⟩), (0x58, ⟨.rw, 0x0, 0xFFFFFFFF⟩), (0x5C, ⟨.rw, 0x0, 0xFF⟩),
   (0x60, ⟨.rw, 0x0, 0x3FE⟩), (0x64, ⟨.rw, 0x0, 0xFFFFFFFF⟩), (0x68, ⟨.rw, 0x3C000000, 0xFFFF0001⟩), (0x6C, ⟨.rw, 0x3C00, 0xFFFF⟩)] ++
  [(0x70, ⟨.w1c, 0x0, 0xFF⟩), (0x80, ⟨.rw, 0x2000, 0xFFFFFFFF⟩), (0x84, ⟨.rw, 0x0, 0xFFFFFFFF⟩), (0x88, ⟨.rw, 0x2000, 0xFFFFFFFF⟩),
   (0x8C, ⟨.rw, 0x0, 0xFFFFFFFF⟩), (0x90, ⟨.rw, 0x2000, 0xFFFF⟩)]

/-- Table 7.9, by offset. -/
def regTable7_9 : List (Nat × RegInfo) :=
  [(0x0, ⟨.ro, 0x0, 0x0⟩), (0x4, ⟨.rw, 0x38, 0x38⟩), (0x8, ⟨.ro, 0x0, 0x0⟩), (0xC, ⟨.ro, 0x0, 0x0⟩),
   (0x10, ⟨.rw, 0x0, 0xFFFFFFFF⟩), (0x14, ⟨.rw, 0x0, 0xFFFFFFFF⟩), (0x18, ⟨.rw, 0x0, 0xFFFFFFFF⟩), (0x1C, ⟨.rw, 0x0, 0xFFFFFFFF⟩)] ++
  [(0x20, ⟨.rw, 0x0, 0xFFFFFFFF⟩), (0x24, ⟨.ro, 0x0, 0x0⟩), (0x28, ⟨.ro, 0x0, 0x0⟩), (0x2C, ⟨.ro, 0x0, 0x0⟩),
   (0x30, ⟨.ro, 0x0, 0x0⟩), (0x34, ⟨.rw, 0x463728, 0xFFFFFF⟩), (0x38, ⟨.rw, 0x708, 0xFFFF⟩), (0x3C, ⟨.ro, 0x0, 0x0⟩)] ++
  [(0x40, ⟨.ro, 0x0, 0x0⟩), (0x44, ⟨.ro, 0x0, 0x0⟩), (0x48, ⟨.rw, 0xCCCDCCCD, 0xFFFFFFFF⟩), (0x4C, ⟨.rw, 0xCCCD, 0xFFFF⟩),
   (0x50, ⟨.rw, 0x140, 0x17F⟩), (0x54, ⟨.ro, 0x0, 0x0⟩), (0x58, ⟨.ro, 0x0, 0x0⟩), (0x5C, ⟨.ro, 0x0, 0x0⟩)] ++
  [(0x60, ⟨.ro, 0x0, 0x0⟩), (0x64, ⟨.ro, 0x0, 0x0⟩), (0x68, ⟨.ro, 0x0, 0x0⟩), (0x6C, ⟨.ro, 0x0, 0x0⟩),
   (0x70, ⟨.w1c, 0x0, 0x3FF⟩), (0x74, ⟨.ro, 0x0, 0x0⟩), (0x80, ⟨.rw, 0x0, 0xFFF⟩), (0x84, ⟨.ro, 0x0, 0x0⟩)] ++
  [(0x88, ⟨.rw, 0x0, 0x3FF⟩), (0x8C, ⟨.ro, 0x4000, 0x0⟩)]

/-- Table 8.9, by offset. -/
def regTable8_9 : List (Nat × RegInfo) :=
  [(0x0, ⟨.ro, 0x2, 0x0⟩), (0x4, ⟨.rw, 0x2, 0x3⟩), (0x8, ⟨.rw, 0x8000, 0xFFFF⟩), (0xC, ⟨.ro, 0x1, 0x0⟩),
   (0x10, ⟨.ro, 0x0, 0x0⟩), (0x14, ⟨.rw, 0x8, 0x8⟩), (0x18, ⟨.rw, 0xA0A, 0xFFFF⟩), (0x1C, ⟨.rw, 0x0, 0x3FF⟩)] ++
  [(0x20, ⟨.ro, 0x0, 0x0⟩), (0x24, ⟨.ro, 0x0, 0x0⟩), (0x28, ⟨.ro, 0x0, 0x0⟩), (0x2C, ⟨.ro, 0x0, 0x0⟩),
   (0x30, ⟨.rw, 0x0, 0xF⟩), (0x34, ⟨.ro, 0x0, 0x0⟩), (0x38, ⟨.ro, 0x0, 0x0⟩), (0x3C, ⟨.ro, 0x0, 0x0⟩)] ++
  [(0x40, ⟨.ro, 0x0, 0x0⟩), (0x44, ⟨.ro, 0x0, 0x0⟩), (0x70, ⟨.w1c, 0x0, 0xFF⟩)]

/-- Table 9.11, by offset. -/
def regTable9_11 : List (Nat × RegInfo) :=
  [(0x0, ⟨.ro, 0x0, 0x0⟩), (0x4, ⟨.rw, 0x1801, 0x3F0B⟩), (0x8, ⟨.ro, 0x0, 0x0⟩), (0xC, ⟨.ro, 0x0, 0x0⟩),
   (0x10, ⟨.ro, 0x0, 0x0⟩), (0x14, ⟨.ro, 0x0, 0x0⟩), (0x18, ⟨.ro, 0x0, 0x0⟩), (0x1C, ⟨.ro, 0x0, 0x0⟩)] ++
  [(0x20, ⟨.ro, 0x0, 0x0⟩)]

/-- Table 9.14, by offset. -/
def regTable9_14 : List (Nat × RegInfo) :=
  [(0x0, ⟨.ro, 0x0, 0x0⟩), (0x4, ⟨.ro, 0x0, 0x0⟩), (0x8, ⟨.ro, 0x0, 0x0⟩), (0xC, ⟨.rw, 0x0, 0xF⟩),
   (0x10, ⟨.ro, 0x0, 0x0⟩), (0x14, ⟨.ro, 0x0, 0x0⟩), (0x18, ⟨.ro, 0x0, 0x0⟩), (0x1C, ⟨.rw, 0x0, 0x3⟩)] ++
  [(0x20, ⟨.rw, 0x0, 0x7⟩), (0x24, ⟨.rc, 0x0, 0x0⟩), (0x28, ⟨.ro, 0x0, 0x0⟩), (0x2C, ⟨.ro, 0x0, 0x0⟩),
   (0x30, ⟨.rw, 0x0, 0xFF⟩), (0x34, ⟨.ro, 0x0, 0x0⟩)]

/-- Table 9.17, by offset. -/
def regTable9_17 : List (Nat × RegInfo) :=
  [(0x40, ⟨.ro, 0x0, 0x0⟩), (0x44, ⟨.rw, 0xD, 0x3D⟩), (0x48, ⟨.ro, 0x0, 0x0⟩)]

/-- Table 9.18, by offset. -/
def regTable9_18 : List (Nat × RegInfo) :=
  [(0xA000, ⟨.ro, 0x0, 0x0⟩), (0xA004, ⟨.rw, 0x491B, 0x7FFF⟩), (0xA008, ⟨.rw, 0x60, 0xFF⟩), (0xA00C, ⟨.ro, 0x0, 0x0⟩),
   (0xA010, ⟨.wo, 0x0, 0x0⟩), (0xA070, ⟨.w1c, 0x0, 0x1FF⟩)]

/-- Table 10.9, by offset. -/
def regTable10_9 : List (Nat × RegInfo) :=
  [(0x0, ⟨.ro, 0x0, 0x0⟩), (0x4, ⟨.rw, 0x0, 0x2⟩), (0x8, ⟨.ro, 0x0, 0x0⟩), (0xC, ⟨.ro, 0x0, 0x0⟩),
   (0x10, ⟨.ro, 0x0, 0x0⟩), (0x14, ⟨.ro, 0x0, 0x0⟩), (0x18, ⟨.rw, 0x20C02, 0xFFFFFF⟩), (0x1C, ⟨.ro, 0x0, 0x0⟩)] ++
  [(0x20, ⟨.ro, 0x0, 0x0⟩), (0x24, ⟨.ro, 0x0, 0x0⟩), (0x28, ⟨.ro, 0x0, 0x0⟩), (0x70, ⟨.w1c, 0x0, 0x1FF⟩)]

/-- Table 10.10, by offset. -/
def regTable10_10 : List (Nat × RegInfo) :=
  [(0x0, ⟨.ro, 0x0, 0x0⟩), (0x4, ⟨.rw, 0x0, 0x0⟩), (0x8, ⟨.ro, 0x0, 0x0⟩), (0xC, ⟨.ro, 0x0, 0x0⟩),
   (0x10, ⟨.rw, 0x1000040, 0x1FFF1FFF⟩), (0x14, ⟨.rw, 0x2C00C00, 0x1FFF1FFF⟩), (0x18, ⟨.rw, 0x0, 0x3⟩), (0x1C, ⟨.ro, 0x0, 0x0⟩)] ++
  [(0x20, ⟨.ro, 0x0, 0x0⟩), (0x24, ⟨.ro, 0x0, 0x0⟩), (0x28, ⟨.ro, 0x0, 0x0⟩), (0x2C, ⟨.ro, 0x0, 0x0⟩),
   (0x30, ⟨.ro, 0x0, 0x0⟩), (0x34, ⟨.ro, 0x0, 0x0⟩), (0x38, ⟨.ro, 0x0, 0x0⟩)]

/-- Table 11.7, by offset. -/
def regTable11_7 : List (Nat × RegInfo) :=
  [(0x0, ⟨.ro, 0x0, 0x0⟩), (0x4, ⟨.rw, 0x0, 0x3⟩), (0x8, ⟨.ro, 0x0, 0x0⟩), (0xC, ⟨.ro, 0x0, 0x0⟩),
   (0x10, ⟨.ro, 0x0, 0x0⟩), (0x14, ⟨.ro, 0x0, 0x0⟩), (0x18, ⟨.ro, 0xA0, 0x0⟩), (0x1C, ⟨.ro, 0x0, 0x0⟩)] ++
  [(0x20, ⟨.ro, 0x0, 0x0⟩), (0x24, ⟨.ro, 0x0, 0x0⟩), (0x28, ⟨.ro, 0x0, 0x0⟩), (0x30, ⟨.rw, 0x0, 0x3⟩),
   (0x34, ⟨.ro, 0x0, 0x0⟩), (0x38, ⟨.rw, 0x0, 0x3⟩), (0x3C, ⟨.ro, 0x0, 0x0⟩), (0x40, ⟨.ro, 0x0, 0x0⟩)] ++
  [(0x44, ⟨.ro, 0x0, 0x0⟩), (0x48, ⟨.ro, 0x0, 0x0⟩), (0x4C, ⟨.ro, 0x0, 0x0⟩), (0x50, ⟨.ro, 0x0, 0x0⟩),
   (0x70, ⟨.w1c, 0x0, 0x1FF⟩)]

/-- Table 12.8, by offset. -/
def regTable12_8 : List (Nat × RegInfo) :=
  [(0x0, ⟨.ro, 0x0, 0x0⟩), (0x4, ⟨.ro, 0x0, 0x0⟩), (0x8, ⟨.ro, 0x333, 0x0⟩), (0xC, ⟨.rw, 0x0, 0x3⟩),
   (0x10, ⟨.rw, 0x640A00, 0xFFFFFF01⟩), (0x14, ⟨.rw, 0x1000040, 0xFFFF00FF⟩), (0x18, ⟨.ro, 0x0, 0x0⟩), (0x20, ⟨.rw, 0x0, 0xF⟩)] ++
  [(0x24, ⟨.ro, 0x0, 0x0⟩), (0x28, ⟨.rw, 0x0, 0x7⟩), (0x2C, ⟨.ro, 0x0, 0x0⟩), (0x30, ⟨.ro, 0x0, 0x0⟩),
   (0x40, ⟨.ro, 0x0, 0x0⟩), (0x44, ⟨.ro, 0x0, 0x0⟩), (0x48, ⟨.ro, 0x0, 0x0⟩), (0x4C, ⟨.ro, 0x0, 0x0⟩)] ++
  [(0x50, ⟨.ro, 0x0, 0x0⟩), (0x54, ⟨.ro, 0x0, 0x0⟩), (0x58, ⟨.ro, 0x0, 0x0⟩), (0x5C, ⟨.ro, 0x0, 0x0⟩),
   (0x60, ⟨.wo, 0x0, 0x0⟩), (0x64, ⟨.ro, 0x0, 0x0⟩), (0x68, ⟨.ro, 0x0, 0x0⟩), (0x6C, ⟨.rw, 0x0, 0x3F⟩)] ++
  [(0x70, ⟨.w1c, 0x0, 0xFF⟩), (0x74, ⟨.ro, 0x0, 0x0⟩), (0x78, ⟨.ro, 0x0, 0x0⟩)]

/-- Table 13.5, by offset. -/
def regTable13_5 : List (Nat × RegInfo) :=
  [(0x0, ⟨.ro, 0x11, 0x0⟩), (0x4, ⟨.rw, 0x0, 0x1⟩), (0x8, ⟨.rw, 0x0, 0xFFFFFFC0⟩), (0xC, ⟨.rw, 0x0, 0xFF⟩),
   (0x10, ⟨.rw, 0x10, 0x1FFF⟩), (0x14, ⟨.ro, 0x0, 0x0⟩), (0x18, ⟨.rw, 0x0, 0xFFF⟩), (0x1C, ⟨.rw, 0x0, 0xFFFFFFC0⟩)] ++
  [(0x20, ⟨.rw, 0x0, 0xFF⟩), (0x24, ⟨.ro, 0x0, 0x0⟩), (0x28, ⟨.ro, 0x0, 0x0⟩), (0x2C, ⟨.ro, 0x0, 0x0⟩),
   (0x30, ⟨.ro, 0x0, 0x0⟩), (0x70, ⟨.w1c, 0x0, 0x7F⟩)]

/-- Table 14.5, by offset. -/
def regTable14_5 : List (Nat × RegInfo) :=
  [(0x0, ⟨.ro, 0x9, 0x0⟩), (0x4, ⟨.rw, 0x1, 0xF⟩), (0x8, ⟨.ro, 0x0, 0x0⟩), (0xC, ⟨.ro, 0x0, 0x0⟩),
   (0x10, ⟨.wo, 0x0, 0x0⟩), (0x14, ⟨.ro, 0x0, 0x0⟩), (0x18, ⟨.rw, 0x0, 0x1F⟩), (0x1C, ⟨.ro, 0x0, 0x0⟩)] ++
  [(0x20, ⟨.rw, 0x6408, 0xFFFFFF⟩), (0x24, ⟨.rw, 0x3, 0xF⟩), (0x28, ⟨.rw, 0x390, 0x3FF⟩), (0x2C, ⟨.wo, 0x0, 0x0⟩),
   (0x30, ⟨.ro, 0x0, 0x0⟩), (0x34, ⟨.ro, 0x0, 0x0⟩), (0x38, ⟨.ro, 0x0, 0x0⟩), (0x70, ⟨.w1c, 0x0, 0x7F⟩)]

/-- Table 15.7, by offset. -/
def regTable15_7 : List (Nat × RegInfo) :=
  [(0x0, ⟨.ro, 0x0, 0x0⟩), (0x4, ⟨.rw, 0x1, 0x1⟩), (0x8, ⟨.ro, 0x0, 0x0⟩), (0xC, ⟨.ro, 0x0, 0x0⟩),
   (0x10, ⟨.rw, 0x0, 0xFFFC⟩), (0x14, ⟨.rw, 0x0, 0xFFFFFFFF⟩), (0x18, ⟨.wo, 0x0, 0x0⟩), (0x1C, ⟨.wo, 0x0, 0x0⟩)] ++
  [(0x20, ⟨.rw, 0x0, 0x0⟩), (0x24, ⟨.ro, 0x0, 0x0⟩), (0x28, ⟨.rw, 0x0, 0x3⟩), (0x2C, ⟨.ro, 0x0, 0x0⟩),
   (0x30, ⟨.ro, 0x0, 0x0⟩), (0x34, ⟨.rw, 0x0, 0x7FFF⟩), (0x38, ⟨.ro, 0x0, 0x0⟩), (0x3C, ⟨.ro, 0x0, 0x0⟩)] ++
  [(0x40, ⟨.ro, 0x0, 0x0⟩), (0x44, ⟨.ro, 0x0, 0x0⟩), (0x70, ⟨.w1c, 0x0, 0x3FF⟩)]

/-- Table 16.13, by offset. -/
def regTable16_13 : List (Nat × RegInfo) :=
  [(0x1000, ⟨.ro, 0x0, 0x0⟩), (0x1004, ⟨.rw, 0x0, 0x4⟩), (0x1008, ⟨.ro, 0x0, 0x0⟩), (0x100C, ⟨.ro, 0x0, 0x0⟩),
   (0x1010, ⟨.ro, 0x0, 0x0⟩), (0x1014, ⟨.ro, 0x0, 0x0⟩), (0x1018, ⟨.ro, 0x0, 0x0⟩), (0x101C, ⟨.ro, 0x0, 0x0⟩)] ++
  [(0x1020, ⟨.ro, 0x0, 0x0⟩), (0x1024, ⟨.ro, 0x0, 0x0⟩), (0x1028, ⟨.ro, 0x0, 0x0⟩), (0x102C, ⟨.ro, 0x0, 0x0⟩),
   (0x1030, ⟨.ro, 0x0, 0x0⟩), (0x1034, ⟨.wo, 0x0, 0x0⟩), (0x1038, ⟨.ro, 0x0, 0x0⟩), (0x1070, ⟨.w1c, 0x0, 0x3FF⟩)]

/-- Table 17.3, by offset. -/
def regTable17_3 : List (Nat × RegInfo) :=
  [(0x0, ⟨.ro, 0xB17440, 0x0⟩), (0x4, ⟨.ro, 0x70657473, 0x0⟩), (0x8, ⟨.ro, 0x676E6970, 0x0⟩), (0xC, ⟨.ro, 0x314220, 0x0⟩),
   (0x10, ⟨.ro, 0x0, 0x0⟩), (0x14, ⟨.ro, 0x0, 0x0⟩), (0x18, ⟨.ro, 0x0, 0x0⟩), (0x1C, ⟨.wo, 0x0, 0x0⟩)] ++
  [(0x20, ⟨.rw, 0x0, 0xFFFFFFFF⟩), (0x24, ⟨.ro, 0x0, 0x0⟩), (0x28, ⟨.rw, 0x0, 0xFFFFFFFF⟩), (0x30, ⟨.ro, 0x0, 0x0⟩),
   (0x34, ⟨.ro, 0x0, 0x0⟩), (0x38, ⟨.ro, 0x0, 0x0⟩), (0x3C, ⟨.ro, 0x0, 0x0⟩), (0x40, ⟨.rw, 0x0, 0xFFF⟩)] ++
  [(0x44, ⟨.rc, 0x0, 0x0⟩), (0x48, ⟨.rw, 0x0, 0xFFFFFFFF⟩), (0x4C, ⟨.rw, 0x14000, 0xFF7F03⟩), (0x50, ⟨.ro, 0x0, 0x0⟩),
   (0x54, ⟨.ro, 0x0, 0x0⟩), (0x58, ⟨.ro, 0x0, 0x0⟩), (0x5C, ⟨.rw, 0x4, 0x7⟩), (0x60, ⟨.ro, 0x0, 0x0⟩)] ++
  [(0x64, ⟨.rw, 0x0, 0xFFFF⟩), (0x68, ⟨.rw, 0x0, 0xFFFF⟩), (0x70, ⟨.w1c, 0x0, 0xF⟩), (0x80, ⟨.ro, 0x0, 0x0⟩),
   (0x84, ⟨.ro, 0x0, 0x0⟩), (0x88, ⟨.ro, 0x0, 0x0⟩), (0x8C, ⟨.ro, 0x0, 0x0⟩), (0x90, ⟨.ro, 0x0, 0x0⟩)] ++
  [(0x94, ⟨.ro, 0x0, 0x0⟩), (0x98, ⟨.ro, 0x0, 0x0⟩), (0x9C, ⟨.ro, 0x0, 0x0⟩), (0x100, ⟨.rw, 0x0, 0xFFFFFFFF⟩),
   (0x104, ⟨.rw, 0x0, 0xFFFFFFFF⟩), (0x108, ⟨.rw, 0x0, 0xFFFFFFFF⟩), (0x10C, ⟨.rw, 0x0, 0xFFFFFFFF⟩), (0x110, ⟨.rw, 0x0, 0xFFFFFFFF⟩)] ++
  [(0x114, ⟨.rw, 0x0, 0xFFFFFFFF⟩), (0x118, ⟨.rw, 0x0, 0xFFFFFFFF⟩), (0x11C, ⟨.rw, 0x0, 0xFFFFFFFF⟩), (0x120, ⟨.rw, 0x0, 0xFFFFFFFF⟩),
   (0x124, ⟨.rw, 0x0, 0xFFFFFFFF⟩), (0x128, ⟨.rw, 0x0, 0xFFFFFFFF⟩), (0x12C, ⟨.rw, 0x0, 0xFFFFFFFF⟩), (0x130, ⟨.rw, 0x0, 0xFFFFFFFF⟩)] ++
  [(0x134, ⟨.rw, 0x0, 0xFFFFFFFF⟩), (0x138, ⟨.rw, 0x0, 0xFFFFFFFF⟩), (0x13C, ⟨.rw, 0x0, 0xFFFFFFFF⟩)]

/-- Table 17.6, by offset. -/
def regTable17_6 : List (Nat × RegInfo) :=
  [(0x0, ⟨.rw, 0x0, 0x0⟩), (0x4, ⟨.rw, 0x0, 0x2FF⟩), (0x8, ⟨.ro, 0x0, 0x0⟩), (0x10, ⟨.rw, 0x0, 0xFFFFFFFF⟩),
   (0x14, ⟨.rw, 0x0, 0xFFFFFFFF⟩), (0x18, ⟨.rw, 0x0, 0xFFFFFFFF⟩), (0x1C, ⟨.rw, 0x0, 0xFFFFFFFF⟩), (0x20, ⟨.rw, 0x0, 0xFFFFFFFF⟩)] ++
  [(0x24, ⟨.rw, 0x0, 0xFFFFFFFF⟩), (0x28, ⟨.rw, 0x0, 0xFFFFFFFF⟩), (0x2C, ⟨.rw, 0x0, 0xFFFFFFFF⟩), (0x30, ⟨.ro, 0x0, 0x0⟩),
   (0x34, ⟨.ro, 0x0, 0x0⟩), (0x38, ⟨.ro, 0x0, 0x0⟩), (0x3C, ⟨.ro, 0x0, 0x0⟩), (0x40, ⟨.ro, 0x0, 0x0⟩)] ++
  [(0x44, ⟨.ro, 0x0, 0x0⟩), (0x48, ⟨.ro, 0x0, 0x0⟩), (0x4C, ⟨.ro, 0x0, 0x0⟩), (0x70, ⟨.w1c, 0x0, 0x3⟩)]

/-- The table and the offset in it that a register address of the space of R27 and Table 17.13 falls under. -/
def regLocate (a : Nat) : List (Nat × RegInfo) × Nat :=
  let off := a % 0x10000
  match a / 0x10000 with
  | 0 => (regTable17_3, off)
  | 1 => (regTable2_15, off)
  | 2 => (regTable3_6, off)
  | 3 => (regTable4_10, off)
  | 4 => (regTable5_8, off)
  | 5 => (regTable6_7, off)
  | 6 => (regTable7_9, off)
  | 7 => (regTable8_9, off)
  | 8 =>
    if off < 0x8000 then
      if off % 0x2000 < 0x100 then (regTable9_11, off % 0x2000)
      else if off % 0x2000 < 0x500 then (regTable9_14, (off % 0x2000 - 0x100) % 0x80)
      else ([], 0)
    else if off < 0x8000 + 0x100 * 18 then (regTable9_14 ++ regTable9_17, off % 0x100)
    else (regTable9_18, off)
  | 9 =>
    if off < 0x100 then (regTable10_9, off)
    else if off < 0x500 then (regTable10_10, off % 0x100)
    else ([], 0)
  | 10 => (regTable11_7, off)
  | 11 => (regTable12_8, off)
  | 12 => (regTable13_5, off)
  | 13 => (regTable14_5, off)
  | 14 => (regTable15_7, off)
  | 15 => if off < 0x1000 then (regTable17_6, off) else (regTable16_13, off)
  | _ => ([], 0)

/-- The register at an address, if the spec's maps name one there (R6). -/
def regInfo (a : Nat) : Option RegInfo :=
  let t := regLocate a
  (t.1.find? (fun e => e.1 == t.2)).map (fun e => e.2)

/-- The reset value of the register at an address; an unassigned offset reads 0 (R6). -/
def regReset (a : Nat) : Nat :=
  match regInfo a with
  | some r => r.reset
  | none => 0

end Sys2Proof.Machine
end

