-- ==== Sys2Proof/Machine/Flags.lean ====
section
/-! DEFINITION. Flag computations: which sticky bit of which EVENT_STATUS register an event sets (Tables 2.23, 3.12, 4.14,
5.12, 6.14, 7.15, 8.15, 9.19, 10.14, 11.13, 12.16, 13.9, 14.9, 15.12, 16.18, 17.14, 17.6), and which events are critical
(Table 17.10, R455). -/
namespace Sys2Proof.Machine

/-- The EVENT_STATUS register of each block, by block id (Table 0.4). -/
def eventStatusReg : Nat → Nat
  | 1 => GBL_EVENT_STATUS
  | 2 => FPL_EVENT_STATUS
  | 3 => GRN_EVENT_STATUS
  | 4 => PLT_EVENT_STATUS
  | 5 => THR_EVENT_STATUS
  | 6 => DRL_EVENT_STATUS
  | 7 => HGL_EVENT_STATUS
  | 8 => ETC_EVENT_STATUS
  | 9 => LNE_EVENT_STATUS
  | 10 => LNK_EVENT_STATUS
  | 11 => WAL_EVENT_STATUS
  | 12 => DMC_EVENT_STATUS
  | 13 => BUR_EVENT_STATUS
  | 14 => THM_EVENT_STATUS
  | 15 => SBK_EVENT_STATUS
  | 16 => UPD_EVENT_STATUS
  | _ => GBL_EVENT_STATUS

/-- The sticky bit an event sets in its block's EVENT_STATUS; `none` for an event no table gives a bit. -/
def stickyBit : Nat → Option Nat
  | 0x0101 => some 0
  | 0x0102 => some 1
  | 0x0103 => some 2
  | 0x0104 => some 3
  | 0x0105 => some 2
  | 0x0201 => some 0
  | 0x0202 => some 1
  | 0x0203 => some 5
  | 0x0204 => some 5
  | 0x0205 => some 5
  | 0x0206 => some 5
  | 0x0207 => some 5
  | 0x0208 => some 5
  | 0x0209 => some 5
  | 0x020A => some 5
  | 0x020B => some 5
  | 0x020C => some 5
  | 0x020D => some 5
  | 0x020F => some 7
  | 0x0210 => some 6
  | 0x0211 => some 2
  | 0x0212 => some 3
  | 0x0213 => some 4
  | 0x0214 => some 8
  | 0x0216 => some 5
  | 0x0217 => some 5
  | 0x0218 => some 5
  | 0x0301 => some 0
  | 0x0302 => some 1
  | 0x0303 => some 2
  | 0x0304 => some 3
  | 0x0305 => some 4
  | 0x0306 => some 5
  | 0x030A => some 6
  | 0x030E => some 7
  | 0x030F => some 7
  | 0x0401 => some 0
  | 0x0402 => some 0
  | 0x0403 => some 1
  | 0x0404 => some 1
  | 0x0405 => some 1
  | 0x0406 => some 1
  | 0x0407 => some 1
  | 0x0408 => some 7
  | 0x0409 => some 7
  | 0x040A => some 2
  | 0x040B => some 5
  | 0x040C => some 6
  | 0x040D => some 1
  | 0x040E => some 3
  | 0x040F => some 4
  | 0x0410 => some 8
  | 0x0501 => some 0
  | 0x0502 => some 0
  | 0x0503 => some 0
  | 0x0504 => some 0
  | 0x0505 => some 0
  | 0x0506 => some 0
  | 0x0507 => some 0
  | 0x0508 => some 5
  | 0x0509 => some 3
  | 0x050A => some 2
  | 0x050B => some 1
  | 0x050D => some 4
  | 0x0601 => some 0
  | 0x0602 => some 1
  | 0x0603 => some 2
  | 0x0604 => some 2
  | 0x0605 => some 3
  | 0x0606 => some 4
  | 0x0607 => some 4
  | 0x0608 => some 5
  | 0x0609 => some 6
  | 0x060A => some 7
  | 0x060B => some 7
  | 0x0701 => some 0
  | 0x0702 => some 1
  | 0x0703 => some 1
  | 0x0704 => some 1
  | 0x0706 => some 9
  | 0x0707 => some 2
  | 0x0708 => some 2
  | 0x0709 => some 2
  | 0x070A => some 3
  | 0x070B => some 3
  | 0x070C => some 4
  | 0x070D => some 5
  | 0x070E => some 6
  | 0x070F => some 6
  | 0x0711 => some 7
  | 0x0712 => some 8
  | 0x0801 => some 0
  | 0x0802 => some 1
  | 0x0803 => some 2
  | 0x0804 => some 2
  | 0x0805 => some 2
  | 0x0807 => some 3
  | 0x0808 => some 4
  | 0x080A => some 4
  | 0x080B => some 5
  | 0x080C => some 7
  | 0x080D => some 6
  | 0x0902 => some 0
  | 0x0903 => some 1
  | 0x0904 => some 1
  | 0x0905 => some 4
  | 0x0906 => some 2
  | 0x0907 => some 5
  | 0x0908 => some 3
  | 0x0909 => some 3
  | 0x090A => some 5
  | 0x090B => some 6
  | 0x090D => some 7
  | 0x090F => some 8
  | 0x0A01 => some 0
  | 0x0A02 => some 1
  | 0x0A03 => some 1
  | 0x0A04 => some 3
  | 0x0A05 => some 2
  | 0x0A06 => some 2
  | 0x0A07 => some 0
  | 0x0A08 => some 4
  | 0x0A09 => some 4
  | 0x0A0A => some 5
  | 0x0A0B => some 5
  | 0x0A0C => some 6
  | 0x0A0D => some 7
  | 0x0A0E => some 7
  | 0x0A0F => some 4
  | 0x0A10 => some 8
  | 0x0B01 => some 0
  | 0x0B02 => some 0
  | 0x0B03 => some 1
  | 0x0B04 => some 2
  | 0x0B05 => some 2
  | 0x0B06 => some 3
  | 0x0B07 => some 3
  | 0x0B08 => some 4
  | 0x0B09 => some 4
  | 0x0B0A => some 5
  | 0x0B0B => some 4
  | 0x0B0C => some 6
  | 0x0B0D => some 6
  | 0x0B0E => some 6
  | 0x0B0F => some 7
  | 0x0B10 => some 7
  | 0x0B11 => some 8
  | 0x0C01 => some 0
  | 0x0C02 => some 1
  | 0x0C03 => some 2
  | 0x0C04 => some 3
  | 0x0C05 => some 3
  | 0x0C06 => some 3
  | 0x0C07 => some 4
  | 0x0C08 => some 4
  | 0x0C09 => some 4
  | 0x0C0A => some 5
  | 0x0C0B => some 5
  | 0x0C0C => some 5
  | 0x0C0D => some 6
  | 0x0C0E => some 7
  | 0x0C0F => some 7
  | 0x0D01 => some 0
  | 0x0D02 => some 0
  | 0x0D03 => some 0
  | 0x0D04 => some 1
  | 0x0D05 => some 2
  | 0x0D06 => some 3
  | 0x0D07 => some 3
  | 0x0D08 => some 4
  | 0x0D09 => some 6
  | 0x0D0A => some 5
  | 0x0E01 => some 0
  | 0x0E02 => some 0
  | 0x0E03 => some 1
  | 0x0E04 => some 1
  | 0x0E05 => some 2
  | 0x0E06 => some 2
  | 0x0E07 => some 3
  | 0x0E08 => some 2
  | 0x0E09 => some 6
  | 0x0E0A => some 4
  | 0x0E0B => some 5
  | 0x0F01 => some 5
  | 0x0F02 => some 0
  | 0x0F03 => some 1
  | 0x0F05 => some 2
  | 0x0F06 => some 2
  | 0x0F07 => some 3
  | 0x0F08 => some 4
  | 0x0F09 => some 4
  | 0x0F0A => some 5
  | 0x0F0C => some 6
  | 0x0F0D => some 7
  | 0x0F0E => some 8
  | 0x0F0F => some 5
  | 0x0F10 => some 9
  | 0x1082 => some 0
  | 0x1083 => some 1
  | 0x1084 => some 1
  | 0x1085 => some 1
  | 0x1086 => some 2
  | 0x1087 => some 2
  | 0x1088 => some 2
  | 0x108A => some 2
  | 0x108B => some 3
  | 0x108C => some 4
  | 0x108D => some 4
  | 0x108E => some 4
  | 0x108F => some 5
  | 0x1090 => some 6
  | 0x1091 => some 7
  | 0x1092 => some 7
  | 0x1094 => some 8
  | 0x1095 => some 9
  | _ => none

/-- Table 17.10: the codes that are critical whatever their class (R455). -/
def criticalCodes : List Nat :=
  [0x0301, 0x0303, 0x0305, 0x0306, 0x030C, 0x0604, 0x0704, 0x0801, 0x0803,
   0x0805, 0x0A01, 0x0B03, 0x0B07, 0x0C02, 0x0C0A, 0x0C0E, 0x0C0F, 0x0E0A,
   0x0E0B, 0x0F03, 0x0F06, 0x0F0E, 0x1082, 0x108B, 0x1090, 0x1095]

/-- R455: an event is critical by its code, or as a self-test result of class PERMANENT (3). -/
def isCritical (code cls : Nat) : Bool := criticalCodes.contains code || cls == 3

end Sys2Proof.Machine
end

