-- ==== Sys2Proof/Config.lean ====
section
/-! DEFINITION. What is fixed for one device, and the values the spec leaves open. Every constant here is opaque: no
proof can use a value of it. -/
namespace Sys2Proof.Config

/-- R443, Table 17.3: the fused ID of the device, fixed at manufacture. -/
opaque fusedId : BitVec 64

/-- R387: a byte of a row whose programming was interrupted, by draw. -/
opaque tornByte : Nat → BitVec 8

/-- R332: tREFIpb of the fitted DRAM in core cycles, at multiplier 1; the standard and the density give it. -/
opaque trefipb : Nat

/-- R169: the index the tone map evaluates for a mode and a value m in units of 2^-149, in units of 2^-24; the model takes it
within the error the rule allows. -/
opaque toneIndex : Nat → Nat → Nat

/-- R163, R169, R170: a colour component for which the rules state no result, by draw. -/
opaque openColour : Nat → Nat

/-- R422: the SHA-256 of the public key fused in a key slot, fixed at manufacture. -/
opaque keyHash : Nat → Bytes

/-- R422: whether the fuse of a key slot revokes it. -/
opaque keyRevoked : Nat → Bool

/-- R305: FIRST_NR of a vote or decision in which no member voted NOT_READY. -/
opaque firstNrNone : BitVec 16

/-- R304, R305: TAG_LO and TAG_HI of a vote in which no member holds a candidate. -/
opaque tagNone : BitVec 16

/-- The number that an event carries for a reason, cause or step that a rule names without a number, by event and by place
in the rule's list. -/
opaque openCode : Nat → Nat → BitVec 32

/-- R51: the cycles that an engine cut at its slot's end still needed, by draw, where the command names none. -/
opaque openNeed : Nat → BitVec 16

/-- R414: row `r` of the boot ROM's glyph of a character. -/
opaque romGlyph : Nat → Nat → BitVec 8

/-- R413, R414: the byte A of the proof surface's black and grey pixels, which the panel ignores. -/
opaque proofAlpha : BitVec 8

/-- R323: which check line leaves a full check cache, by draw. -/
opaque evictLine : Nat → Nat

/-- R338: byte `i` of the training record of a point, by draw. -/
opaque trainByte : Nat → Nat → BitVec 8

/-- What a register reads as, by address and selector, while the selector that it depends on names nothing. -/
opaque openRead : Nat → Nat → BitVec 32

end Sys2Proof.Config
end

