-- ==== Sys2Proof/Machine/State.lean ====
section
/-! DEFINITION. The state of the device as plain data, one structure per block, with the queue of waiting commands, the
reasons a step can stop, and the state right after reset. Every register of the register maps stands in `regs` (an
unlisted register holds its reset value), but for those whose value is computed from a block's state when read. -/
namespace Sys2Proof.Machine

/-- One event record (R451, Table 17.9). -/
structure EvRec where
  code : Nat
  flags : Nat
  repeats : Nat
  seq : Nat
  frame : Nat
  boot : Nat
  offset : Nat
  arg0 : Nat
  arg1 : Nat
  arg2 : Nat
deriving DecidableEq, Repr

/-- The record an unwritten ring place reads as. -/
def EvRec.zero : EvRec := ⟨0, 0, 0, 0, 0, 0, 0, 0, 0, 0⟩

/-- What a flash log entry holds (R458): an event record, a retired DRAM row with its spare as DMC_RETIRE_ENTRY words, or
a boot's UPD_BOOT_STATUS, UPD_STAGE_TIME and ACTIVE_GEN. -/
inductive LogItem where
  | event (r : EvRec)
  | dramRetire (row spare : Nat)
  | boot (status time gen : Nat)
deriving DecidableEq, Repr

/-- The event path (R452 to R455): early buffer, event ring, the two readers, and what waits for recall or the next
headland. -/
structure Events where
  /-- R454: records beyond the early buffer. -/
  earlyLost : Nat
  /-- R452: the ring is in use (from S3 on). -/
  ringOn : Bool
  /-- R452: the ring's records by index; an unlisted index was never written. -/
  ring : List (Nat × EvRec)
  /-- R452: memory address of the ring in force. -/
  base : Nat
  /-- Records written to the ring and still present, at most 4,096. -/
  present : Nat
  /-- Records the host reader has not consumed. -/
  hostUnread : Nat
  /-- Records the fabric sender has not passed. -/
  sndUnread : Nat
  /-- R453: records the sender lost since its previous message. -/
  sndLost : Nat
  /-- R452: GBL_EVQ_OVERRUN was reported in this tick, for the host and for the sender. -/
  ovrHost : Bool
  ovrSnd : Bool
  /-- R452: the next record a reader sees carries OVERFLOW (host, sender). -/
  pendOverflow : Bool
  sndOverflow : Bool
  /-- R455: critical records that wait for recall. -/
  critWait : List EvRec
  /-- R455, R458: entries the Steward appends to the flash log. -/
  flashPend : List LogItem
  /-- R452: records of the core cycle under way that wait to be put into order (only while a command runs); the flag says
  that a record belongs to the group of the record before it (R30). -/
  cycle : Option (List (Bool × EvRec))
  /-- R88: unscheduled grants of the LOGGER for the ring's records since the last read of GRN_CLIENT_GRANTS. -/
  grants : Nat
deriving DecidableEq, Repr

/-- A console line (R459). -/
inductive UartLine where
  /-- `S<stage> <ms>` -/
  | stage (n ms : Nat)
  /-- `HOLD <code>` -/
  | hold (code : Nat)
  /-- `E <code> <frame> <ARG0> <ARG1> <ARG2>` -/
  | crit (code frame a0 a1 a2 : Nat)
deriving DecidableEq, Repr

/-- What the device puts out: the model keeps every output, oldest first, as a record for the outside to read. -/
inductive Out where
  /-- A message handed to a port on a virtual channel: header and body bytes. -/
  | msg (port vc : Nat) (bytes : Bytes)
  /-- A flit, resent or sent, by its sequence number. -/
  | flit (port seq : Nat) (bytes : Bytes)
  /-- A control block of the lane layer or the link layer. -/
  | ctl (port kind : Nat) (bytes : Bytes)
  /-- A packet on a panel lane. -/
  | panel (lane : Nat) (bytes : Bytes)
  /-- A console line. -/
  | uart (line : UartLine)
  /-- Read data or status returned on the service port. -/
  | spi (status : Nat) (words : List Word)
  /-- A scan of a furrow's 12 rows on the row-scan pins, with the polarity reference level. -/
  | scan (furrow phase : Nat) (write : Bool)
  /-- R221: a ROW_CK rising edge with EMIT_EN high: the emitter row that it selects, and the levels of ROW_ST and FURROW_ST. -/
  | rowClock (row : Nat) (rowSt furrowSt : Bool)
  /-- R222: a SEEK: FURROW_ST at the command's first edge and at the 13 edges of the address, most significant bit first. -/
  | seek (furrowSt : List Bool)
  /-- R222: the selection in sense mode that follows a SEEK. -/
  | senseSelect (row : Nat)
  /-- R222: ALL_OPEN begins, with ROW_CK, ROW_ST and FURROW_ST high, or ends, with the row pins low. -/
  | allOpen (on : Bool)
  /-- R302: the level of GENLOCK_OUT changes. -/
  | genlock (level : Bool)
  /-- A DRAM command on a channel. -/
  | dram (channel kind arg : Nat)
deriving DecidableEq, Repr

/-- One resource claim held at run time (R60). -/
structure Claim where
  cls : Nat
  idx : Nat
  feature : Nat
deriving DecidableEq, Repr

/-- One element of the fault history (R456): the operating seconds of its last faults, newest first. -/
structure FaultHist where
  kind : Nat
  idx : Nat
  times : List Nat
deriving DecidableEq, Repr

/-- A targeted self-test that waits (R456): whether an error queued it. -/
structure TestReq where
  kind : Nat
  idx : Nat
  faulted : Bool
deriving DecidableEq, Repr

/-- The event path at reset. -/
def Events.init : Events := ⟨0, false, [], 0, 0, 0, 0, 0, false, false, false, false, [], [], none, 0⟩

/-- A Field Plan as loaded (R41, R42): header fields and the known sections, by type and variant, as bytes. -/
structure Plan where
  planId : Nat
  planGen : Nat
  target : Nat
  dflt : Bool
  secs : List (Nat × Nat × Bytes)
deriving DecidableEq, Repr

/-- FPL_STAGE_STATUS.STATE (Table 2.20). -/
inductive StageSt where
  | idle | loading | validating | valid | refused
deriving DecidableEq, Repr

/-- An armed switch (R53): at a frame or at the next boundary. -/
inductive Arm where
  | at (frame : Nat)
  | next
deriving DecidableEq, Repr

/-- A headland task under way or waiting (R37, R38). -/
structure TaskSt where
  idx : Nat
  started : Bool
deriving DecidableEq, Repr

/-- The TICK and Field Plan block (chapter "Tick, furrows and the Field Plan"). -/
structure Fpl where
  /-- The running plan; `none` under the built-in timing (R32). -/
  plan : Option Plan
  /-- Tick source in force (Table 2.1). -/
  src : Nat
  /-- 48-bit frame number (R11). -/
  frame : Nat
  /-- A tick boundary has come since reset (R454). -/
  ticked : Bool
  /-- Current slot: 0 to 539, 540 the drain, 0x3FF the headland after it (Table 2.18). -/
  slot : Nat
  /-- Model time at which the current slot, or the headland proper, began. -/
  slotStart : Nat
  /-- Model time at which the drain began. -/
  drainStart : Nat
  /-- Engines whose record of the current slot is started and not finished (R51). -/
  running : List Nat
  /-- R35, R51: slots of this tick in which an engine overran. -/
  overSlots : List Nat
  /-- R59: FPL_FRAME_DEGRADED was reported in this tick, or R39 marked it. -/
  degraded : Bool
  /-- R59: consecutive degraded ticks. -/
  degradedRun : Nat
  /-- R58: furrows without new codes, to be sent as repeats. -/
  cut : List Nat
  /-- R53: staging. -/
  stage : StageSt
  stageEvent : Nat
  stageCold : Bool
  stageBytes : Bytes
  staged : Option Plan
  arm : Option Arm
  /-- R56: the armed frame passed before validation ended. -/
  missed : Bool
  /-- R55: a cold switch is in progress. -/
  coldBusy : Bool
  /-- R57: throttle level and variant in force, and the highest level asked for in this tick. -/
  level : Nat
  variant : Nat
  levelReq : Option Nat
  /-- R37: tasks due or deferred, with those that have started. -/
  tasks : List TaskSt
  /-- R19: the commit point of this tick has been handled. -/
  committed : Bool
  /-- R60: claims held. -/
  claims : List Claim
  /-- R61: the MGT cycle of the last claim granted, and the resources (class, index) claimed in it. -/
  claimCycle : Nat
  claimNow : List (Nat × Nat)
  /-- R19: the running tick was started by a REPEAT. -/
  rep : Bool
  /-- R39: the current slot has ended, so that it counts as completed. -/
  slotEnded : Bool
  /-- The slot, 541 to 559, of the latest headland record of each engine in this tick. -/
  heads : List (Nat × Nat)
  /-- R73: engines that wait for a bank whose wheel never names them, so that their record does not end. -/
  stalled : List Nat
deriving DecidableEq, Repr

/-- The TICK block at reset: tick source FREE of FPL_TICK_SRC's reset value, built-in timing. -/
def Fpl.init : Fpl :=
  ⟨none, 3, 0, false, 0, 0, 0, [], [], false, 0, [], .idle, 0, false, [], none, none, false, false, 0, 0, none, [],
    false, [], 0, [], false, false, [], []⟩

/-- A logical plot in the plot state table (R70): state, holder (giver while IN_FLIGHT), outstanding accesses, and the
client a handover waits for. -/
structure Plot where
  state : Nat
  owner : Nat
  outstanding : Nat
  handTo : Nat
deriving DecidableEq, Repr

/-- A FREE plot. -/
def Plot.free : Plot := ⟨0, 0, 0, 0⟩

/-- A plot test under way (R82): logical plot L, physical plot P under test, spare S, and whether an error queued it. -/
structure PlotTest where
  logical : Nat
  phys : Nat
  spare : Nat
  faulted : Bool
deriving DecidableEq, Repr

/-- The Granary (chapter "The Granary central store"). Its counters of plots stand in GRN_COUNT_FREE to
GRN_COUNT_RETIRED, its readiness in GRN_STATUS. -/
structure Grn where
  /-- R65: physical plot behind each logical plot; an unlisted one is mapped to itself. -/
  map : List (Nat × Nat)
  /-- R70: the plot state table; an unlisted plot is FREE. -/
  plots : List (Nat × Plot)
  /-- R86: the clients' own holding records: (client, plot). -/
  held : List (Nat × Nat)
  /-- GRN_CLIENT_CAP by client, 0x400 unless listed. -/
  caps : List (Nat × Nat)
  /-- R71: clients that wait for a plot, oldest first. -/
  waiting : List Nat
  /-- R74: accumulators by 4 × bank + group, and the requester last granted there. -/
  acc : List (Nat × Int)
  last : List (Nat × Nat)
  /-- Unscheduled grants by client since the last read (GRN_CLIENT_GRANTS). -/
  grants : List (Nat × Nat)
  /-- R75: physical words (plot, line, word) whose write-back waits. -/
  writeBacks : List (Nat × Nat × Nat)
  /-- R76, R78: reported in this tick. -/
  ceTick : List Nat
  poisonTick : List (Nat × Nat)
  /-- R82: the test under way. -/
  test : Option PlotTest
  /-- R83: the volatile extension of the retire list. -/
  extension : List Nat
  /-- R80: a self-test overfilled the retire list. -/
  bistFailed : Bool
deriving DecidableEq, Repr

/-- The Granary at reset. -/
def Grn.init : Grn := ⟨[], [], [], [], [], [], [], [], [], [], [], none, [], false⟩

/-- A rectangle of block coordinates; x1 and y1 are exclusive. -/
structure Rect where
  x0 : Int
  y0 : Int
  x1 : Int
  y1 : Int
deriving DecidableEq, Repr

/-- An entry of a frame record (Table 4.4). DISPARITY is kept as its 16 bits. -/
structure FrEntry where
  relief : Bool
  hidden : Bool
  disparity : Nat
  first : Nat
  last : Nat
  scaleX : Nat
  scaleY : Nat
  originX : Int
  originY : Int
  extent : Rect
deriving DecidableEq, Repr

/-- A frame record: tag, background (three binary16 values), RESYNC, entries by PLATE_ID. -/
structure FrameRec where
  tag : Nat
  bgR : Nat
  bgG : Nat
  bgB : Nat
  resync : Bool
  entries : List (Nat × FrEntry)
deriving DecidableEq, Repr

/-- A block of an update that has been accepted: relief part or texel part, position, slot. -/
structure GotBlock where
  isRelief : Bool
  x : Int
  y : Int
  slot : Nat
deriving DecidableEq, Repr

/-- An open or held update (R108, R110): its kind of Table 4.5, rectangles, expected texel and relief rectangles, and the
blocks accepted. -/
structure Upd where
  seq : Nat
  tag : Nat
  kind : Nat
  rect : Rect
  qrect : Rect
  expT : Rect
  expQ : Rect
  got : List GotBlock
deriving DecidableEq, Repr

/-- A plate as ingest holds it (R106 to R116). -/
structure PlateSt where
  applied : Nat
  /-- Entry values of the candidate, kept from earlier entries. -/
  entry : Option FrEntry
  /-- The candidate's entry is valid (R107); its geometry differs from the entry before it. -/
  valid : Bool
  geomChanged : Bool
  /-- UPD_SEQ of the last WHOLE update published. -/
  lastWhole : Option Nat
  /-- Entry values the shown version was shown with. -/
  shownEntry : Option FrEntry
  /-- The shown map lies in buffer B. -/
  shownB : Bool
  resident : Bool
  /-- The copy of the shown map into the new arriving map runs (R116). -/
  copying : Bool
  upds : List Upd
  /-- Abandoned updates that APPLIED_SEQ has not advanced over. -/
  gone : List Nat
  /-- Abandoned updates that APPLIED_SEQ has advanced over: they were not published (R113). -/
  passed : List Nat
deriving DecidableEq, Repr

/-- A plate that has shown nothing. -/
def PlateSt.init : PlateSt := ⟨0, none, false, false, none, none, false, false, false, [], [], []⟩

/-- What the first-band fill and a COMMIT take for a plate (R114): nothing, the arriving map, the shown map. -/
inductive PlateUse where
  | skip | arriving | shown
deriving DecidableEq, Repr

/-- Plate ingest and band writer (chapter "Scene data: plates and Sheaf blocks"). -/
structure Plt where
  plates : List (Nat × PlateSt)
  cand : Option FrameRec
  pend : Option FrameRec
  /-- R105: blocks that wait for a slot until the boundary, each with the number of its message in link staging. -/
  waiting : List (Nat × Bytes)
  /-- What the candidate's plates take, by plate index, as judged at the commit point, and which were complete. -/
  next : List PlateUse
  complete : List Bool
  /-- Plates substituted under REQUIRED, reported on COMMIT. -/
  required : List Nat
  /-- Plates composed in the running tick. -/
  use : List Bool
  /-- Background in force (three binary16 values). -/
  bgR : Nat
  bgG : Nat
  bgB : Nat
  /-- R92: plates whose PLT_TEXEL_CLAMPED was reported in this tick. -/
  clampTick : List Nat
deriving DecidableEq, Repr

/-- Plate ingest at reset. -/
def Plt.init : Plt := ⟨[], none, none, [], [], [], [], [], 0, 0, 0, []⟩

/-- A staged map entry of a plate block row (R123): plate index, part, block position, kind (0 names a slot, 1 ZERO, 2
ABSENT), slot, and the first line and line count of the staged block in the DRAM staging partition. -/
structure StagedBlk where
  plate : Nat
  isRelief : Bool
  x : Int
  y : Int
  kind : Nat
  slot : Nat
  line : Nat
  lines : Nat
deriving DecidableEq, Repr

/-- A plate block row in DRAM staging: its row, whether FILL staged it, whether it is marked input-complete. -/
structure StagedRow where
  row : Nat
  fill : Bool
  ready : Bool
  blocks : List StagedBlk
deriving DecidableEq, Repr

/-- A THR_DEC record under way (R124): row, FILL, plates, WAIT. -/
structure DecReq where
  row : Nat
  fill : Bool
  mask : Nat
  wait : Bool
deriving DecidableEq, Repr

/-- A block on its way over the route to the band writer (R124, R125). -/
structure RouteBlk where
  plate : Nat
  isRelief : Bool
  x : Int
  y : Int
  fill : Bool
  bytes : Bytes
deriving DecidableEq, Repr

/-- A running job (R134): ring index, descriptor, pipe, blocks completed, source bytes consumed, bytes written to DST, and
whether JOB_ABORT named it. -/
structure ThrJob where
  idx : Nat
  desc : Bytes
  pipe : Nat
  blocks : Nat
  src : Nat
  out : Nat
  abort : Bool
deriving DecidableEq, Repr

/-- The Thresher (chapter "Thresher compression engine"). -/
structure Thr where
  rows : List StagedRow
  reqs : List DecReq
  /-- Blocks dispatched that wait for a pipe, with FILL. -/
  disp : List (Bool × StagedBlk)
  /-- The block that each busy decode pipe holds, with FILL, and when the pipe took it. -/
  pipes : List (Nat × Bool × StagedBlk × Nat)
  route : List RouteBlk
  jobs : List ThrJob
  /-- Ring index of the next descriptor to look at, and ended jobs the head has not passed. -/
  fetched : Nat
  ended : List Nat
  /-- Table 17.8: the feature of each descriptor that the Steward placed for one, by ring index, until it starts. -/
  feats : List (Nat × Nat)
  /-- Counts of the running tick (Table 5.8), failures and the once-per-tick reports. -/
  blocks : Nat
  inBytes : Nat
  outBytes : Nat
  busy : Nat
  errs : Nat
  multiTick : List Nat
  absentTick : List Nat
deriving DecidableEq, Repr

/-- The Thresher at reset. -/
def Thr.init : Thr := ⟨[], [], [], [], [], [], 0, [], [], 0, 0, 0, 0, 0, [], []⟩

/-- The band writer's account of the band rings (R145, R148, R150, R155). Rows and entries are counted in the window. -/
structure Bnd where
  /-- Texel rows input-complete and not released: (plate, window row). -/
  done : List (Nat × Nat)
  /-- Blocks placed: (plate, block row of the map, column of the map). -/
  placed : List (Nat × Nat × Nat)
  /-- Relief blocks placed: (plate, relief block row, column of the map). -/
  relief : List (Nat × Nat × Nat)
  /-- Rows whose write fell beyond the partition: they never become input-complete. -/
  lost : List (Nat × Nat)
  /-- Drills that have loaded a window row, as a mask. -/
  loaded : List (Nat × Nat)
  /-- PLT_BW records under way: row, FILL, plates. -/
  reqs : List (Nat × Bool × Nat)
  /-- Next output row of each scaled plate's scaler. -/
  outRow : List (Nat × Nat)
deriving DecidableEq, Repr

/-- The band writer at reset. -/
def Bnd.init : Bnd := ⟨[], [], [], [], [], [], []⟩

/-- A tone-map bank (Table 6.4): MODE, IN_SCALE and SRGB_WHITE as binary16, the matrix as s2.13 fields, and the curve with
its default held as an empty list. -/
structure TmBank where
  mode : Nat
  inScale : Nat
  white : Nat
  mtx : List Nat
  curve : List (Nat × Nat)
deriving DecidableEq, Repr

/-- The defaults of Table 6.4; an unlisted curve entry is the default of its index. -/
def TmBank.init : TmBank := ⟨0, 0x3C00, 0x3C00, [0x2000, 0, 0, 0, 0x2000, 0, 0, 0, 0x2000], []⟩

/-- The lanes of a drill (Table 6.10): lanes classed PERMANENT, the lane the spare replaces, and PERMANENT lanes that act at
the next boundary. -/
structure DrillLanes where
  failed : Nat
  spared : Option Nat
  working : Nat
  due : List Nat
deriving DecidableEq, Repr

/-- A drill's lanes at reset. -/
def DrillLanes.init : DrillLanes := ⟨0, none, 8, []⟩

/-- The drill array and the colour head (chapter "Ray composition in the drills"). -/
structure Drl where
  bankA : TmBank
  bankB : TmBank
  /-- Participation sets of the running tick and of the next one, as plate masks (R164). -/
  set : Nat
  nextSet : Nat
  /-- The furrow under composition, and its drill record's plates. -/
  furrow : Option Nat
  /-- Reach stores (R155): texels of a window row by key (drill × 32 + plate) × 36 + row mod 36, with the row. -/
  reach : List (Nat × Nat × List Nat)
  lanes : List (Nat × DrillLanes)
  floor : Nat
  /-- Counts of the running tick, and the once-per-tick reports. -/
  rays : Nat
  samples : Nat
  early : Nat
  issueMax : Nat
  checkTick : Nat
  limitTick : List Nat
  apronTick : List Nat
  clipTick : Bool
  /-- The prime of the next tick is under way (R155). -/
  priming : Bool
  /-- R156: the ray a lane works on, by key drill × 16 + lane, and the next ray of a drill, both counted in the drill's order;
  what is not listed stands as at the record's START. -/
  laneRay : List (Nat × Nat)
  nextRay : List (Nat × Nat)
  /-- The image address of a LOAD under way (R172). -/
  loadAddr : Nat
deriving DecidableEq, Repr

/-- The drill array at reset. -/
def Drl.init : Drl := ⟨.init, .init, 0, 0, none, [], [], 0, 0, 0, 0, 0, 0, [], [], false, false, [], [], 0⟩

/-- A Hogel Table entry as its fields (Table 7.1). -/
structure HglEntry where
  dx : Int
  dy : Int
  rot : Int
  gains : List Nat
  dead : Nat
  vf : List Nat
  site : Nat
  flags : Nat
deriving DecidableEq, Repr

/-- The neutral entry of R78: every field 0 except the base gains. -/
def HglEntry.neutral : HglEntry := ⟨0, 0, 0, [0x8000, 0x8000, 0x8000], 0, [0, 0, 0], 0, 0⟩

/-- The Hogel image header fields in force (Table 7.3): VF_BASE, TC, SV by colour, T_REF, VF_SHORT, and the curves as the
6,144 bytes of CURVE. -/
structure HglHeader where
  vfBase : List Nat
  tc : List Int
  sv : List Nat
  tRef : Int
  vfShort : Nat
  curve : Bytes
deriving DecidableEq, Repr

/-- A header before any load. -/
def HglHeader.init : HglHeader := ⟨[0, 0, 0], [0, 0, 0], [0, 0, 0], 0, 0, []⟩

/-- A fold window (R184 to R188): model time at which it began, F, fresh counts n_s, hottest readings of the drivers, and
for the fold of a closed window its sums and reports. -/
structure FoldWin where
  began : Nat
  f : Nat
  ns : List (Nat × Nat)
  /-- R188: the hottest valid reading of each driver in the window. -/
  temps : List (Nat × Int)
  /-- R186: Σ acc by 3 · furrow + colour. -/
  sumAcc : List (Nat × Nat)
  sumAdd : List Nat
  kMax : Nat
  below : Nat
  estSaid : List Nat
  tempSaid : List Nat
deriving DecidableEq, Repr

/-- No counts. -/
def FoldWin.init : FoldWin := ⟨0, 0, [], [], [], [0, 0, 0], 0, 0, [], []⟩

/-- A checkpoint under way (R195): SEQ, ring offset, STRESS_FRAMES at the end of its window, the encode pipe claimed, the
Sheaf blocks encoded so far, portions encoded, and the ring index of the ENCODE job that runs. -/
structure Ckpt where
  seq : Nat
  off : Nat
  sf : Nat
  pipe : Nat
  blocks : Bytes
  portions : Nat
  job : Option Nat
  /-- K_LAST and MEAN of the window (Table 7.5), once its fold has completed. -/
  figures : Option (Nat × List Nat)
deriving DecidableEq, Repr

/-- A reload under way (R180): the row copied next, the staged rows from it on, and the header that goes with them. -/
structure Reload where
  next : Nat
  rows : List Bytes
  header : HglHeader
  gen : Nat
deriving DecidableEq, Repr

/-- The Hogel and ageing block (chapter "Hogel Table, calibration and ageing"). -/
structure Hgl where
  /-- Prefetched entries of a furrow (R177): furrow and 960 entries; two furrows may be held. -/
  pref : List (Nat × List HglEntry)
  header : HglHeader
  reload : Option Reload
  /-- R78: entries the Steward reloads in the next headland: (furrow, column). -/
  refetch : List (Nat × Nat)
  /-- R181: sectors of the current image that wait to be rewritten, with the retries. -/
  rewrite : List (Nat × Nat)
  /-- R181: the bytes of a sector whose rewrite failed, kept for its retry. -/
  held : Option (Nat × Bytes)
  /-- R181: rows that hold an entry changed since the image header was written. -/
  dirty : List Nat
  /-- R185: the window that accumulates and the window that folds. -/
  win : FoldWin
  fold : FoldWin
  /-- R186: a fold is under way, and the portion it folds next (256 when complete). -/
  folding : Bool
  foldNext : Nat
  /-- Window events reported (R184, R187). -/
  satSaid : Bool
  lateSaid : Bool
  limitTick : Bool
  ckpt : Option Ckpt
  ckptNow : Bool
  /-- Model time at which the previous checkpoint started. -/
  ckptStart : Option Nat
  /-- R194: candidate visits in a row: (hogel, colour, visits). -/
  cand : List (Nat × Nat × Nat)
  /-- R194: subpixels, by hogel and colour, that are dead and have no DEAD record: no longer sensed. -/
  noSense : List (Nat × Nat)
  /-- R192: place of the sense list: region, and hogel and colour next in each region. -/
  senseNext : Nat
  senseAt : List (Nat × Nat × Nat)
deriving DecidableEq, Repr

/-- The block at reset. -/
def Hgl.init : Hgl :=
  ⟨[], .init, none, [], [], none, [], .init, .init, false, 0, false, false, false, none, false, none, [], [], 0, []⟩

/-- Colour of a ray in u1.15. -/
structure Rgb where
  r : Nat
  g : Nat
  b : Nat
deriving DecidableEq, Repr

/-- Polarity account of a furrow (R206 to R210). -/
structure Furrow where
  phi : Nat
  owed : Bool
  /-- Scans in the running tick and in the tick before it. -/
  cur : Nat
  prev : Nat
  /-- Scans in the tick before that one (Table 8.9). -/
  prev2 : Nat
  /-- The two-tick window still holds a deficit that was compensated. -/
  comp : Bool
deriving DecidableEq, Repr

/-- A furrow at reset and after a discharge. -/
def Furrow.init : Furrow := ⟨0, false, 0, 0, 0, false⟩

/-- An Etcher furrow buffer (R204): its furrow, and whether its codes, packed in memory, are complete and new. -/
structure FurrowBuf where
  furrow : Nat
  fresh : Bool
deriving DecidableEq, Repr

/-- A buffer that holds nothing. -/
def FurrowBuf.init : FurrowBuf := ⟨0, false⟩

/-- A column driver as the device knows it (R217 to R219). -/
structure Driver where
  mapFault : Bool
  clamped : Bool
  configOk : Bool
  /-- Error counters of the last STATUS, once one came. -/
  counts : Option (Nat × Nat)
  rowInc : Nat
  hdrInc : Nat
  therm : Nat
  thermValid : Bool
  /-- R193: its last valid thermistor reading, in 1/256 °C. -/
  lastTherm : Option Int
  /-- R219: CONFIG, TICK and STATUS_REQ have gone out since the driver was last lost. -/
  greeted : Bool
deriving DecidableEq, Repr

/-- A driver at reset. -/
def Driver.init : Driver := ⟨false, false, false, none, 0, 0, 0, false, none, false⟩

/-- Where a panel supply sequence stands (R227, R228, R229). -/
inductive SupSeq where
  | idle
  /-- PSEQ[g] is high and PGOOD[g] awaited. -/
  | waitPgood (g : Nat)
  /-- T_SEQ runs after PGOOD[g]. -/
  | waitSeq (g : Nat)
  /-- ALL_OPEN of the up sequence. -/
  | upAllOpen
  /-- DISCH_N is high; EMIT_EN rises at the next tick. -/
  | waitTick
  /-- A discharge runs for a cause: 2 SUPPLY, 3 BLANK, 4 MODE, 5 DOWN. -/
  | disch (cause : Nat)
  /-- T_SEQ runs before PSEQ[g] falls. -/
  | downSeq (g : Nat)
  /-- The power-loss sequence. -/
  | pfail
deriving DecidableEq, Repr

/-- What follows a down sequence. -/
inductive AfterDown where
  | off | retry | lockout
  /-- R449: the CLEAN store of a SHUTDOWN. -/
  | shutdown
  /-- R375: the up sequence, OVERTEMP having cleared while the down sequence ran. -/
  | up
deriving DecidableEq, Repr

/-- A sense request (R192, R225): hogel, colour, its TAG, and whether a result came. -/
structure SenseReq where
  hx : Nat
  hy : Nat
  colour : Nat
  tag : Nat
  done : Bool
deriving DecidableEq, Repr

/-- The Etcher and the panel (chapter "Etcher and panel drive"). Pin levels and modes stand in its registers. -/
structure Etc where
  furrows : List (Nat × Furrow)
  /-- Completed lit ticks since the scan counts restarted (R210, R211). -/
  scanAge : Nat
  /-- EMIT_EN was low, or a discharge ran, at some moment of this tick. -/
  darkTick : Bool
  bufs : List (Nat × FurrowBuf)
  /-- Rays of the furrow under composition by 144·hx + d. -/
  rays : List (Nat × Rgb)
  drivers : List (Nat × Driver)
  /-- SEQ of each panel lane (Table 8.1). -/
  laneSeq : List (Nat × Nat)
  seq : SupSeq
  after : AfterDown
  /-- Model times of supply failures in the last 60 s, and failures since the last ON. -/
  failTimes : List Nat
  failRun : Nat
  /-- Event of the last supply failure. -/
  failCode : Nat
  /-- REPEAT mask and furrow of the ETC_TX record in progress. -/
  txMask : Nat
  txFurrow : Nat
  /-- R224: the furrow whose scan a tick that ended early left to slot 0 of the next one. -/
  carry : Option Nat
  /-- Rows of the record in progress that a cut keeps from being sent. -/
  txCut : Nat
  /-- Drivers that the record in progress sends to (R205, R216). -/
  txDrivers : Nat
  /-- Furrows sent with mask 0xFFF and stale rows in this tick, and the once-per-tick reports. -/
  repeatTick : Nat
  staleTick : Nat
  staleSaid : Bool
  returnSaid : Bool
  /-- Sense requests of the open window. -/
  sense : List SenseReq
  /-- R225: requests handed back to the SENSE task. -/
  senseBack : List SenseReq
  /-- Where the built-in allocator put the furrow buffers and the proof surface (R32, R413). -/
  bufBase : Nat
  proofBase : Nat
deriving DecidableEq, Repr

/-- The Etcher at reset. -/
def Etc.init : Etc := ⟨[], 0, true, [], [], [], [], .idle, .off, [], 0, 0, 0xFFF, 0, none, 0, 0, 0, 0, false, false, [], [], 0, 0⟩

/-- What a lane of the Lysif transceivers holds beside its registers (R238 to R256). -/
structure Lane where
  /-- R249: model times of its uncorrectable codewords within the last 1 ms. -/
  uncorr : List Nat
  /-- The 12 adapted FFE taps and the 256 bins of the last histogram (R239, R240). -/
  taps : List Nat
  hist : List Nat
  /-- R254: bits checked up to the moment `from`, since when the checker counts on. -/
  bits : Nat
  chkFrom : Option Nat
  /-- EQ: RX_READY and PRECODE_REQ of the partner's receiver (Table 9.4). -/
  peerReady : Bool
  peerPre : Bool
  /-- R256: the lane is in a far-end loop that the partner asked for. -/
  feHeld : Bool
deriving DecidableEq, Repr

/-- A lane at reset. -/
def Lane.init : Lane := ⟨[], [], [], 0, none, false, false, false⟩

/-- A fabric port's lane layer beside its registers (R242 to R253). -/
structure PortSt where
  /-- R243: consecutive training failures, and whether the backoff wait runs. -/
  fails : Nat
  waiting : Bool
  /-- Receive lanes that still take part in training. -/
  remain : Nat
  /-- R250: lanes under self-test since the entry to DETECT. -/
  testing : Nat
  /-- R246: silent attempts. -/
  silent : Nat
  /-- R245: a HANDSHAKE with ACK has come; blocks sent with ACK; the partner's RX_MASK and RX_WIDTH. -/
  ackGot : Bool
  ackSent : Nat
  peerMask : Nat
  peerWidth : Nat
  /-- R247: T_TX of the last HANDSHAKE block received and of the blocks sent, the last T_ECHO sampled, and the samples. -/
  lastTx : Nat
  sentTx : List Nat
  lastEcho : Option Nat
  samples : List Nat
  /-- R247: when the last HANDSHAKE block was received. -/
  lastRx : Option Nat
  /-- Table 9.7: the entry under way of the transmit direction (0 none, 1 QUIET, 2 SLEEP), a wake that waits, the minimum
  residency over, the short retrain running, and an LCTL NOP to send after the wake (R280). -/
  txEntry : Nat
  wakePend : Bool
  resident : Bool
  waking : Bool
  nopDue : Bool
deriving DecidableEq, Repr

/-- A port at reset. -/
def PortSt.init : PortSt :=
  ⟨0, false, 0, 0, 0, false, 0, 0, 0, 0, [], none, [], none, 0, false, false, false, false⟩

/-- A panel lane beside its registers (R257, R258). -/
structure PanelLane where
  fails : Nat
  /-- ACTIVE, and the STATUS packet that completes the training awaited. -/
  await : Bool
  /-- Consecutive polls without STATUS. -/
  polls : Nat
  testing : Bool
  /-- Model time at which the training sequence under way began (Table 9.9). -/
  since : Nat
deriving DecidableEq, Repr

/-- A panel lane at reset. -/
def PanelLane.init : PanelLane := ⟨0, false, 0, false, 0⟩

/-- The lane layer (chapter "Lysif lanes"). -/
structure Lne where
  ports : List (Nat × PortSt)
  lanes : List (Nat × Lane)
  panels : List (Nat × PanelLane)
  /-- R249: ports whose LNE_FEC_UNCORRECTABLE was reported in this tick. -/
  fecTick : List Nat
deriving DecidableEq, Repr

/-- The lane layer at reset. -/
def Lne.init : Lne := ⟨[], [], [], []⟩


/-- A MSG flit sent and not acknowledged (R263, R266). -/
structure TxFlit where
  seq : Nat
  vc : Nat
  abort : Bool
  som : Nat
  payload : Bytes
deriving DecidableEq, Repr

/-- A receive slot (R268): the payload of an accepted flit, how far it has been taken, the messages its bytes belong to, and the
address of its 256 bytes in the port's plots (none in the Steward's SRAM, R410). -/
structure RxSlot where
  vc : Nat
  data : Bytes
  off : Nat
  som : Nat
  /-- Messages whose bytes it holds: their numbers, and from where and how many bytes of each. -/
  mids : List (Nat × Nat × Nat)
  home : Option Nat
deriving DecidableEq, Repr

/-- The message that a virtual channel of a port is receiving (R274, R277): its number, length, bytes taken so far, the
output ports its route names, whether it is delivered here, whether forwarding has started, and its bytes. -/
structure RxMsg where
  mid : Nat
  len : Nat
  route : List Nat
  here : Bool
  started : Bool
  data : Bytes
deriving DecidableEq, Repr

/-- A message at an output (R277, R278): VC, input (0 to 3 a port, 4 local injection), number, bytes not yet sent, whether
its last byte has come, and whether its first byte has been sent. -/
structure TxMsg where
  vc : Nat
  input : Nat
  mid : Nat
  data : Bytes
  whole : Bool
  begun : Bool
  /-- R296: model time at which it was given to the port. -/
  at' : Nat
deriving DecidableEq, Repr

/-- The link layer of one port (R261 to R280). -/
structure LinkPort where
  txSeq : Nat
  rxNext : Nat
  retry : List TxFlit
  inStep : Bool
  /-- R264: a replay request goes out with the next flit; one is outstanding. -/
  nakDue : Bool
  nakOut : Bool
  /-- R266: a replay waits to run from this SEQ; replays without progress. -/
  replay : Option Nat
  noProgress : Nat
  /-- R269: credits held, the partner's TOTAL and its FREED last taken, by VC; own slots granted and freed, by VC. -/
  credits : List Int
  peerTotal : List Nat
  peerFreed : List Nat
  total : List Nat
  freed : List Nat
  slots : List RxSlot
  rx : List (Nat × Option RxMsg)
  /-- R276: the VC drops bytes up to the next SOM. -/
  resync : List Nat
  /-- R265: accepted flits and freed slots not yet told to the partner. -/
  ackOwed : Nat
  freeOwed : Bool
  /-- R270 to R272: a sync runs, its SYNC_ID, the partner's snapshot applied in it, its ACK received; the last SYNC_ID
  applied of the partner; link state lost since the last completed sync; the partner's fused ID. -/
  syncing : Bool
  syncId : Nat
  applied : Bool
  acked : Bool
  peerSync : Option Nat
  lost : Bool
  peerId : Option Nat
  /-- R280: a CREDIT_SYNC, and the CREDIT_SYNC_ACK of a SYNC_ID, that wait for the direction to wake. -/
  syncDue : Bool
  ackDue : Option Nat
  /-- Outputs: messages in order of arrival, the VCs whose next flit carries ABORT, turns of VC0 and VC1, and the
  accumulators of R278 (by VC) and R279 (4 × VC + input place). -/
  txq : List TxMsg
  abortDue : List Nat
  turn : List (Nat × Nat)
  vcAcc : List (Nat × Int)
  acc : List (Nat × Int)
  /-- R279: (VC, SRC) pairs seen in this period. -/
  srcs : List (Nat × Nat)
  /-- Slot totals of the allocation registers, kept for the next sync (R290). -/
  alloc : List Nat
  /-- R290: a write of one allocation register, by address and value, that keeps R268 only with a write of the other. -/
  allocPend : Option (Nat × Nat)
  /-- The last ASSIGN of the port came from a host bridge. -/
  bridgeSrc : Bool
deriving DecidableEq, Repr

/-- A port's link layer at reset; the allocation is that of LNK_PORT_ALLOC01 and LNK_PORT_ALLOC23. -/
def LinkPort.init : LinkPort :=
  ⟨0, 0, [], false, false, false, none, 0, [0, 0, 0, 0], [0, 0, 0, 0], [0, 0, 0, 0], [0, 0, 0, 0], [0, 0, 0, 0], [], [],
    [], 0, false, false, 0, false, false, none, true, none, false, none, [], [], [], [], [], [], [0x40, 0x100, 0xC00, 0x2C0], none, false⟩

/-- A beacon as held (R282). -/
structure Beacon where
  prio : Nat
  root : Nat
  epoch : Nat
  hops : Nat
  port : Nat
deriving DecidableEq, Repr

/-- The offer of an address under way (R283): port, BASE, whether ACCEPT has come, and the times it was sent. -/
structure Offer where
  port : Nat
  base : Nat
  accepted : Bool
  tries : Nat
deriving DecidableEq, Repr

/-- A port of the tree under construction (R283): TREE code, interval, bridge bits, and whether the neighbour is a bridge. -/
structure TreePort where
  tree : Nat
  first : Nat
  last : Nat
  bridges : Nat
  bridge : Bool
deriving DecidableEq, Repr

/-- A port outside the tree. -/
def TreePort.none : TreePort := ⟨0, 0, 0, 0, false⟩

/-- A management request that waits (R288): arrival port, source, tag and body. -/
structure MgmtReq where
  src : Nat
  tag : Nat
  body : Bytes
deriving DecidableEq, Repr

/-- The link and routing block (chapter "Lysif link layer, discovery and routing"). -/
structure Lnk where
  ports : List (Nat × LinkPort)
  /-- The next message number. -/
  nextMid : Nat
  /-- Once-per-port-per-tick reports: (event, port). -/
  said : List (Nat × Nat)
  /-- R282: the best beacon held, and the best of each port in the epoch in force. -/
  best : Option Beacon
  heard : List (Nat × Beacon)
  /-- R283: the offer under way, the next address, and the bridge bits gathered. -/
  offer : Option Offer
  nextAddr : Nat
  bridges : Nat
  /-- The address and depth taken in this epoch, and the ports so far: they come into force when the subtree is done. -/
  newAddr : Option Nat
  newDepth : Nat
  newTree : List (Nat × TreePort)
  mgmt : List MgmtReq
deriving DecidableEq, Repr

/-- The link block at reset. -/
def Lnk.init : Lnk := ⟨[], 0, [], none, [], none, 0, 0, none, 0, [], []⟩


/-- A vote (Table 11.2). -/
structure Vote where
  ready : Bool
  noCand : Bool
  member : Bool
  tagLo : Nat
  tagHi : Nat
  members : Nat
  notReady : Nat
  firstNr : Nat
deriving DecidableEq, Repr

/-- A decision (Table 11.2) with the port it came on, 4 for the device's own. -/
structure Decision where
  frame : Nat
  kind : Nat
  reason : Nat
  tag : Nat
  members : Nat
  notReady : Nat
  firstNr : Nat
  rank : Nat
  hops : Nat
  root : Nat
  run : Nat
deriving DecidableEq, Repr

/-- A commit child on a port (R305, R311): 1 MEMBER, 2 EXCLUDED; consecutive misses, consecutive READY votes while
excluded, ticks since it was heard, whether it becomes a member at the next commit point, and its vote for the coming
frame. -/
structure Child where
  addr : Nat
  state : Nat
  missed : Nat
  readyRun : Nat
  age : Nat
  joining : Bool
  vote : Option Vote
  /-- R305: it was a member in the previous tick. -/
  prev : Bool
deriving DecidableEq, Repr

/-- The wall time and commit block (chapter "Wall time and frame commit"). -/
structure Wal where
  /-- R298: the master followed: rank and ID; ticks since a TICK was used, and whether the running tick used one. -/
  master : Option (Nat × Nat)
  heardAge : Nat
  used : Bool
  /-- R297: WAL_MASTER_LOST was reported for the present loss; a claim was made since reset; a TICK was used since reset. -/
  lostSaid : Bool
  claimed : Bool
  timed : Bool
  /-- Length of the last tick as the source gives it, and model time of the projected next boundary (R299, R300). -/
  len : Nat
  next : Nat
  /-- R295: (origin, FRAME) of copies used, with the least HOPS delivered; for DECISIONs also the port that delivered it. -/
  seenTick : List (Nat × Nat × Nat)
  seenDec : List (Nat × Nat × Nat × Nat)
  /-- R299: last valid edge, consecutive missing or invalid edges, and consecutive valid edges. -/
  edge : Option Nat
  period : Nat
  badEdges : Nat
  goodEdges : Nat
  /-- R302: model time at which the GENLOCK pulse that a boundary began ends, and the level of GENLOCK_OUT. -/
  pulse : Option Nat
  outLevel : Bool
  /-- R299: the tick length that the GENLOCK edges give, once they gave one. -/
  gLen : Option Nat
  /-- R300: a TICK for the coming boundary was used before it: the boundary after that one, as it places it. -/
  early : Option Nat
  /-- R307: the root followed: rank and ID. -/
  root : Option (Nat × Nat)
  decision : Option Decision
  /-- R304, R305: own vote, the port chosen at the commit point, the frame it is for, and whether the combined vote went. -/
  vote : Option Vote
  voteFrame : Nat
  votePort : Option Nat
  voted : Bool
  children : List (Nat × Child)
  /-- R306: consecutive ticks without a normal COMMIT. -/
  run : Nat
  /-- R303: the next DECISION is taken without the event. -/
  joining : Bool
  /-- R308: WAL_DEPTH_EXCEEDED was reported in this tick. -/
  depthSaid : Bool
  /-- R310: consecutive missed decisions, beyond what WAL_STATUS.MISSED shows. -/
  missed : Nat
  /-- R305: the deadline of the coming frame's votes has passed. -/
  closed : Bool
  /-- R299: the last edge, valid or not. -/
  lastEdge : Option Nat
  /-- R307: the device held the root role at the commit point, and decides. -/
  decides : Bool
deriving DecidableEq, Repr

/-- The block at reset: the first projected boundary is one built-in tick away. -/
def Wal.init : Wal :=
  ⟨none, 0, false, false, false, false, 26666667, 26666667, [], [], none, 0, 0, 0, none, false, none, none, none, none, none, 0, none,
    false, [], 0, true, false, 0, false, none, false⟩


/-- A DRAM request in a channel queue (R327): class, direction, address, location, the data read or written (taken at
acceptance, R330), whether it is poisoned, and the model time of acceptance. -/
structure DramReq where
  stream : Bool
  write : Bool
  addr : Nat
  bank : Nat
  row : Nat
  client : Nat
  data : Bytes
  poison : Bool
  time : Nat
  /-- R330: channel, bank and row of its check line, in a protected window. -/
  chk : Option (Nat × Nat × Nat)
  /-- A request of the device's own, whose data were taken when it was accepted: it is answered as it issues. -/
  own : Bool
deriving DecidableEq, Repr

/-- One DRAM channel (R327 to R335). -/
structure Chan where
  /-- Accepted requests not yet issued, oldest first. -/
  queue : List DramReq
  /-- Reads issued whose response is outstanding, oldest first. -/
  issued : List DramReq
  /-- Requests that wait for an entry, oldest first. -/
  wait : List DramReq
  /-- Open row of each bank. -/
  openRow : List (Nat × Option Nat)
  /-- Bank last activated. -/
  lastAct : Nat
  /-- Write drain (R328). -/
  drain : Bool
  debt : Nat
  mult : Nat
  /-- R334: every owed refresh takes top priority. -/
  topRefresh : Bool
  /-- Bank of the next REFpb. -/
  refBank : Nat
  lastRef : Nat
  mr4 : Nat
  /-- Multiplier MR4 asks for, and whether it is stale. -/
  mr4Rate : Nat
  mr4Stale : Bool
  hot : Bool
  /-- R332: an urgent burst runs: the refreshes it has issued. -/
  urgent : Option Nat
deriving DecidableEq, Repr

/-- A channel at reset. -/
def Chan.init : Chan := ⟨[], [], [], [], 15, false, 0, 1, false, 0, 0, 0, 1, false, false, none⟩

/-- Self-refresh (R335): entry begun, entered, residency over. -/
inductive SelfRef where
  | off | entering | inside | residencyOver
deriving DecidableEq, Repr

/-- The DRAM controller (chapter "DRAM controller"). -/
structure Dmc where
  chans : List (Nat × Chan)
  sr : SelfRef
  /-- R336: the point of the pending change, and whether the entry under way belongs to it. -/
  freq : Option Nat
  freqEntry : Bool
  /-- R324, R325: rows reported corrected and windows reported unprotected in this tick. -/
  ceTick : List Nat
  unprotTick : List Nat
  /-- R340: remap table: (channel, bank, row, spare bank). -/
  remap : List (Nat × Nat × Nat × Nat)
  /-- Spare rows found PERMANENT: (channel, bank). -/
  deadSpares : List (Nat × Nat)
  /-- R323: the check lines in the check cache, oldest first, each with whether it has been written. -/
  cache : List (Nat × Bool)
  /-- R324: data lines and check lines found uncorrectable whose fault stands. -/
  badLines : List Nat
  badChecks : List Nat
  /-- R24: register writes held while the domain is stopped, oldest first, and the channels and queued row tests as they were. -/
  held : List (Nat × Nat)
  frozen : Option (List (Nat × Chan) × Nat)
  /-- R338: the points with a training record in the Steward's SRAM, each with the draw of its contents, and the draw of the last
  correction of the trained delays. -/
  trained : List (Nat × Nat)
  trim : Option Nat
deriving DecidableEq, Repr

/-- The DRAM controller at reset. -/
def Dmc.init : Dmc := ⟨[], .off, none, false, [], [], [], [], [], [], [], [], none, [], none⟩

/-- A Burin command in progress (R349, R351, R356): its ring slot, its 32 bytes, and the next segment. -/
structure BurRun where
  slot : Nat
  cmd : Bytes
  seg : Nat
deriving DecidableEq, Repr

/-- A write of a control field of the Burin (Tables 13.5 and 13.7), as the domain takes it. -/
inductive BurWrite where
  | resume
  | abort
  | enable (en : Bool)
  | size (v : Nat)
  /-- A write of a word of the ring base or of the status base. -/
  | ringLo (v : Nat)
  | ringHi (v : Nat)
  | statLo (v : Nat)
  | statHi (v : Nat)
deriving DecidableEq, Repr

/-- The Burin beside its registers (chapter "Burin 2-D engine"): the command in progress, and bytes written in this tick. -/
structure Bur where
  run : Option BurRun
  wrote : Nat
  /-- R24: writes held while the BUR domain is stopped, oldest first, and STIPPLE_OK as it was when the domain stopped. -/
  held : List BurWrite
  stipple : Bool
  /-- R358: bytes written in the last tick. -/
  last : Nat
deriving DecidableEq, Repr

/-- The Burin at reset. -/
def Bur.init : Bur := ⟨none, 0, [], true, 0⟩


/-- A die sensor (R360 to R366, R371). Temperatures are in 1/256 °C. -/
structure Sensor where
  /-- It has given a valid reading. -/
  has : Bool
  temp : Int
  /-- Model time of the last valid reading. -/
  time : Nat
  /-- Declared failed (R364). -/
  failed : Bool
  /-- Its self-test passed, so a valid result returns it to service (R365). -/
  serv : Bool
  stale : Bool
  testing : Bool
  /-- R365: a self-test classed it PERMANENT: it stays failed until reset. -/
  perm : Bool
  reason : Nat
  cls : Nat
  /-- R371: valid readings (time, temperature), newest first, and the reference a rate step set. -/
  past : List (Nat × Int)
  ref : Option (Nat × Int)
deriving DecidableEq, Repr

/-- A sensor at reset. -/
def Sensor.init : Sensor := ⟨false, 0, 0, false, false, false, false, false, 0, 0, [], none⟩

/-- The thermal block (chapter "Temperature and throttling"). Bands, level asked and flags stand in THM_STATUS. -/
structure Thm where
  /-- The 24 die sensors by number; an unlisted one is as at reset. -/
  sensors : List (Nat × Sensor)
  /-- R367, R368: the valid readings of the last 1 s, oldest first: (driver, temperature, model time). -/
  panel : List (Nat × Int × Nat)
  /-- R368: THM_PANEL_UNKNOWN was reported since the last valid panel reading. -/
  panelUnknown : Bool
  /-- R372: the held level and the sensor it was taken for. -/
  holdLevel : Nat
  holdSensor : Nat
  /-- R362: conversions the host asked for ([23:0] sensors, [24] panel). -/
  convReq : Nat
  /-- R376: sites latched in the always-on domain, and the trip in force. -/
  tripLatch : Nat
  tripped : Bool
deriving DecidableEq, Repr

/-- The thermal block at reset. -/
def Thm.init : Thm := ⟨[], [], false, 0, 0, 0, 0, false⟩

/-- A Seedbank store under way (R383): copy (0 A, 1 B), generation, kind of Table 15.11, and the snapshot. -/
structure StoreRun where
  copy : Nat
  gen : Nat
  kind : Nat
  image : List Host.Cell
  poison : List Nat
  hist : List FaultHist
  frame : Nat
  /-- Die band at the snapshot cycle (R384). -/
  band : Nat
deriving DecidableEq, Repr

/-- A non-volatile copy (R379): image, poisoned 64-bit words, fault history, and GEN and KIND of its header when it holds
a header that passes its checks. Bytes of rows that a loss tore stand in `image` too. -/
structure NvCopy where
  image : List Host.Cell
  poison : List Nat
  hist : List FaultHist
  hdr : Option (Nat × Nat)
deriving DecidableEq, Repr

/-- The Seedbank (chapter "Seedbank non-volatile store"). -/
structure Sbk where
  /-- The SRAM with every held write applied; an unlisted byte is 0 (R380, R382). -/
  sram : List Host.Cell
  /-- R393: 64-bit words, by index, that carry poison. -/
  poison : List Nat
  /-- R393: the poisoned word whose lower half the last SBK_DATA access wrote. -/
  halfPair : Option Nat
  copyA : NvCopy
  copyB : NvCopy
  /-- Copy of the newest completed store. -/
  newest : Option Nat
  store : Option StoreRun
  /-- Kind of the queued store (R385). -/
  queued : Option Nat
  /-- R382: held writes. -/
  held : Nat
  ready : Bool
  recalling : Bool
  final : Bool
  empty : Bool
  fallback : Bool
  tripped : Bool
  /-- R386: SRAM writes are refused after a power-fail trigger. -/
  pfRefuse : Bool
  /-- R381, R386, R389: reported once in this tick. -/
  deniedTick : Bool
  busyTick : Bool
  /-- R395, R396: candidate, guards, wrong attempts. -/
  pwCand : Nat
  rOpen : Bool
  wOpen : Bool
  fails : Nat
  locked : Bool
  /-- R397: a Gleaner pass runs, its rows read and weak rows so far, and a pass asked for. -/
  gleanRun : Bool
  gleanRows : Nat
  gleanWeak : Nat
  gleanReq : Bool
deriving DecidableEq, Repr

/-- A non-volatile copy as a tile leaves the factory, of a generation: the directory, and the activation record with STATE CONFIRMED
and both slot fields naming slot A (R428). The rest of it, PLAN_SLOT 0xFF and KIND 1 among it, is DESIGN CHOICE, log entry 9. -/
def NvCopy.factory (gen : Nat) : NvCopy :=
  ⟨[(0, 0x53#8), (1, 0x44#8), (2, 0x01#8), (0x100, 0x41#8), (0x101, 0x52#8), (0x102, 0x01#8), (0x103, 0x01#8), (0x11C, 0xFF#8)],
    [], [], some (gen, 1)⟩

/-- The Seedbank at reset. -/
def Sbk.init : Sbk :=
  ⟨[], [], none, .factory 1, .factory 2, some 1, none, none, 0, false, false, false, false, false, false, false, false, false, 0,
    false, false, 0, false, false, 0, 0, false⟩

/-- A sown block sent to a child port and not acknowledged (R424, R425): block, port, resends. -/
structure SowSent where
  block : Nat
  port : Nat
  tries : Nat
deriving DecidableEq, Repr

/-- A block of the session that this device still owes an ACK for (R424): to its parent, or to the address and tag of a unicast
BLOCK; whether it is programmed, the ports that have not acknowledged it, PARTIAL, and the devices below that lack it. -/
structure SowOwed where
  block : Nat
  /-- SESSION and GEN that the block carried. -/
  session : Nat
  gen : Nat
  src : Option (Nat × Nat)
  programmed : Bool
  waits : List Nat
  part : Bool
  lacking : Nat
deriving DecidableEq, Repr

/-- Start, update and recovery beside its registers and the Seedbank records (chapter of that name). -/
structure Boot where
  /-- The device is held in reset. -/
  inReset : Bool
  /-- Kind of the reset in force, or of the reset that waits for its down sequence (R405). -/
  kind : Nat
  request : Option Nat
  /-- BOOT_SRC as the pins hold it. -/
  strap : Nat
  /-- R409: the stage that failed may be retried; the image already failed by the ROM, by slot. -/
  badSlots : List Nat
  /-- R436: the ROM waits for a load; the bytes loaded. -/
  waitLoad : Bool
  load : Bytes
  /-- R431: ports that reached ACTIVE since the release, a MEMBER message received. -/
  portsUp : Nat
  member : Bool
  /-- R432: what UPD_FALLBACK reports at the next S2: reason and conditions not met. -/
  fellBack : Option (Nat × Nat)
  /-- R424, R425: the port the session's blocks come from, blocks sent, owed and waiting to be forwarded. -/
  sowFrom : Nat
  sent : List SowSent
  owed : List SowOwed
  queued : List (Nat × Nat)
  /-- R426: the manifest of the session has been checked since the reset. -/
  opened : Bool
  /-- R424: the sectors of the slot that is sown which this session has erased, and whether a block of each is programmed since. -/
  erased : List (Nat × Bool)
  /-- R429: STATE before arming; the STATUS that an ARM's store still owes: destination, tag, session, generation. -/
  armPrev : Nat
  armOwed : Option (Nat × Nat × Nat × Nat)
  /-- R430: the record was armed since the reset. -/
  armedHere : Bool
  /-- R430: an activation waits for its store. -/
  activating : Bool
  /-- R412: the DEFAULT_PLAN part is in force. -/
  deflt : Bool
  /-- Text lines of the proof image (R414). -/
  lines : List String
  /-- R407, R431: the activation record has been looked at since the release. -/
  checked : Bool
  /-- R412: steps 1 to 6 of S5 are done: the plan chosen and its Hogel image staged, which the next tick boundary puts in
  force. -/
  entering : Option (Plan × Reload)
  /-- R436: the boot stage runs from a service-port load. -/
  fromLoad : Bool
  /-- R449: a SHUTDOWN has ended, and the device waits for a reset. -/
  shutdown : Bool
deriving DecidableEq, Repr

/-- Before the first release: the POWER_ON reset holds the device. -/
def Boot.init : Boot :=
  ⟨true, 0, none, 0, [], false, [], 0, false, none, 0, [], [], [], false, [], 0, none, false, false, false, [], false, none, false, false⟩


/-- The host interface beside its registers (chapter "Host interface, events and registers"). -/
structure Hst where
  /-- R439, R440: STATUS and word count of the last service-port transaction. -/
  spiStatus : Nat
  spiCount : Nat
  /-- R448: the holder of the mailbox. -/
  owner : Option Requester
  /-- R449: opcode of the command that runs past its GO, with IRQ. -/
  running : Option (Nat × Bool)
  /-- The mailbox buffer. -/
  buf : List Host.Cell
  /-- GPIO levels at the pads; holders stand in GBL_GPIO_OWNn. -/
  pins : Nat
  /-- R449: stores that still have to end before a STORE or SHUTDOWN command does. -/
  stores : Nat
deriving DecidableEq, Repr

/-- The host interface at reset. -/
def Hst.init : Hst := ⟨0, 0, none, none, [], 0, 0⟩


/-- Where a step stops with a fault. No command of this model faults: the spec gives every command an effect, and an
access the spec does not perform ends with a status, which is a next state. -/
inductive Fault where
  /-- Raised by no one; safe. It stands so that the type has a name a claim can list. -/
  | none
deriving DecidableEq, Repr

/-- Why a command is refused. -/
inductive Refusal where
  /-- Raised by the dispatch for a command without a meaning; safe. -/
  | notModelled (mnemonic : String)
deriving DecidableEq, Repr

/-- The state of the device. -/
structure State where
  /-- Commands that wait, first in first out. -/
  pending : List Instr
  /-- Core cycles since reset release; the model's clock. -/
  now : Nat
  /-- Model time of the running tick's start boundary (R11). -/
  tickStart : Nat
  /-- The model's own counter for values the spec leaves open. -/
  freeCtr : Nat
  /-- The register file, by absolute address. -/
  regs : List (Nat × Word)
  ev : Events
  fpl : Fpl
  sbk : Sbk
  etc : Etc
  thm : Thm
  grn : Grn
  dmc : Dmc
  plt : Plt
  thr : Thr
  bnd : Bnd
  drl : Drl
  hgl : Hgl
  lne : Lne
  lnk : Lnk
  wal : Wal
  bur : Bur
  boot : Boot
  hst : Hst
  /-- The bytes of the Granary, by physical plot (R65), and of DRAM, by system address (R25). An unlisted byte is 0. -/
  mem : List Host.Cell
  /-- The two flash devices (R415, R416), by offset. An unlisted byte is 0xFF, as an erased byte reads. -/
  flash0 : List Host.Cell
  flash1 : List Host.Cell
  /-- R77, R325: 64-byte lines that carry poison, by address divided by 64. -/
  poison : List (Nat × Bool)
  /-- R456: the fault history, at most 256 elements. -/
  history : List FaultHist
  /-- R456: targeted self-tests that wait. -/
  tests : List TestReq
  out : List Out
  /-- Status (Table 17.2) and data of the last register access that a command of its own performed. -/
  acc : Nat × Word
  /-- The bytes that the last memory access of a command returned. -/
  accBytes : Bytes
deriving DecidableEq, Repr

/-- The device right after reset: VDD_AON has just risen, no command waits, every block is as its `init` says, every
register holds its reset value and memory lists nothing. -/
def State.reset : State where
  pending := []
  now := 0
  tickStart := 0
  freeCtr := 0
  regs := []
  ev := .init
  fpl := .init
  sbk := .init
  etc := .init
  thm := .init
  grn := .init
  dmc := .init
  plt := .init
  thr := .init
  bnd := .init
  drl := .init
  hgl := .init
  lne := .init
  lnk := .init
  wal := .init
  bur := .init
  boot := .init
  hst := .init
  mem := []
  flash0 := []
  flash1 := []
  poison := []
  history := []
  tests := []
  out := []
  acc := (0, 0#32)
  accBytes := []

end Sys2Proof.Machine
end

