-- ==== Sys2Proof/Machine/Ops.lean ====
section
/-! DEFINITION. The shared operations of the device: the register file, the Seedbank SRAM and its counters, event
records, resource claims and fault classification. -/
namespace Sys2Proof.Machine

/-! ### The register file -/

/-- The stored value of the register at an address. -/
def State.rd (s : State) (a : Nat) : Nat := (sget (BitVec.ofNat 32 (regReset a)) s.regs a).toNat

/-- The register at an address stored, as a 32-bit word (R5). -/
def State.wr (s : State) (a v : Nat) : State :=
  { s with regs := sset (BitVec.ofNat 32 (regReset a)) s.regs a (BitVec.ofNat 32 v) }

/-- Field [hi:lo] of a register. -/
def State.rdF (s : State) (a hi lo : Nat) : Nat := fld (s.rd a) hi lo

/-- Field [hi:lo] of a register stored. -/
def State.wrF (s : State) (a hi lo v : Nat) : State := s.wr a (putFld (s.rd a) hi lo v)

/-- Bits of a register set. -/
def State.orR (s : State) (a m : Nat) : State := s.wr a (s.rd a ||| m)

/-- A saturating 32-bit counter register raised by `n`. -/
def State.bumpBy (s : State) (a n : Nat) : State := s.wr a (satN 32 (s.rd a + n))

/-- A saturating 32-bit counter register raised by one. -/
def State.bump (s : State) (a : Nat) : State := s.bumpBy a 1

/-- A field that saturates raised by one. -/
def State.bumpF (s : State) (a hi lo : Nat) : State := s.wrF a hi lo (satN (hi + 1 - lo) (s.rdF a hi lo + 1))

/-- A host write of a register under its access code (R6, R7): the writable bits of RW take the value, W1C bits written
1 clear, and RO, RC, WO and unassigned offsets are not stored. -/
def State.regWrite (s : State) (a v : Nat) : State :=
  match regInfo a with
  | some ⟨.rw, _, m⟩ => s.wr a ((s.rd a &&& (0xFFFFFFFF ^^^ m)) ||| (v &&& m))
  | some ⟨.w1c, _, m⟩ => s.wr a (s.rd a &&& (0xFFFFFFFF ^^^ (v &&& m)))
  | _ => s

/-! ### Values the spec leaves open -/

/-- The next draw number for an open value. -/
def State.draw (s : State) : Nat × State := (s.freeCtr, { s with freeCtr := s.freeCtr + 1 })

/-! ### The Seedbank SRAM (R380 to R382, R393, R394) -/

/-- The 64 KiB of the SRAM. -/
def sramSize : Nat := 65536

/-- A byte of a cell list; an unlisted address reads 0. -/
def cellGet (m : List Host.Cell) (a : Nat) : Byte := sget 0#8 m a

/-- A byte of a cell list stored in canonical form. -/
def cellSet (m : List Host.Cell) (a : Nat) (b : Byte) : List Host.Cell := sset 0#8 m a b

/-- `n` bytes from an address. -/
def cellsGet (m : List Host.Cell) (a n : Nat) : Bytes := (List.range n).map (fun i => cellGet m (a + i))

/-- A byte string stored at an address. -/
def cellsSet : List Host.Cell → Nat → Bytes → List Host.Cell
  | m, _, [] => m
  | m, a, b :: t => cellsSet (cellSet m a b) (a + 1) t

/-- A little-endian SRAM field, as the Steward and the device's blocks read it. -/
def State.sramLe (s : State) (off n : Nat) : Nat := le (cellsGet s.sbk.sram off n)

/-- SRAM bytes. -/
def State.sramBytes (s : State) (off n : Nat) : Bytes := cellsGet s.sbk.sram off n

/-- The 64-bit words that `n` bytes at an offset touch. -/
def wordsOf (off n : Nat) : List Nat := if n = 0 then [] else (List.range ((off + n - 1) / 8 - off / 8 + 1)).map (· + off / 8)

/-- R386, R389: SRAM writes are refused. -/
def State.sramRefused (s : State) : Bool := s.sbk.final || s.sbk.pfRefuse || s.sbk.recalling || !s.sbk.ready

/-- The bytes put into the SRAM with the poison of their words cleared (R393). -/
def State.sramPut (s : State) (off : Nat) (bs : Bytes) : State :=
  { s with sbk := { s.sbk with
      sram := cellsSet s.sbk.sram off bs
      poison := s.sbk.poison.filter (fun w => !(wordsOf off bs.length).contains w) } }

/-- A counter increment as the single SRAM writes of R394: (byte offset in the counter's 16 bytes, 16-bit value). `c` gives
the cells; the walk starts at cell `j`. -/
def bumpWrites (c : Nat → Nat) : Nat → Nat → List (Nat × Nat)
  | 0, _ => []
  | fuel + 1, j =>
    if c j = 0xFFFF then
      (8, 0x8000 + (c (j + 1) % 2) * 4 + (j + 1)) :: (2 * j, 0) :: bumpWrites c fuel (j + 1)
    else [(2 * j, c j + 1), (8, 0)]

/-- Cell `j` of lifetime counter `i`. -/
def State.ctrCell (s : State) (i j : Nat) : Nat := s.sramLe (0x40 + 16 * i + 2 * j) 2

/-- Lifetime counter `i` (R394): 0 operating seconds, 1 power cycles, 2 stores, 3 fallbacks. -/
def State.lifetime (s : State) (i : Nat) : Nat := s.sramLe (0x40 + 16 * i) 8

/-! ### Time stamps (R11, R12, R454) -/

/-- The frame number a record carries. -/
def State.stampFrame (s : State) : Nat := if s.fpl.ticked then s.fpl.frame % 2 ^ 48 else 0

/-- The offset a record carries, in core cycles. -/
def State.stampOffset (s : State) : Nat :=
  min (if s.fpl.ticked then s.now - s.tickStart else s.now) (2 ^ 28 - 1)

/-- The frame number set; it has 48 bits (R11). -/
def State.setFrame (s : State) (n : Nat) : State := { s with fpl := { s.fpl with frame := n % 2 ^ 48 } }

/-! ### Event records (R451 to R455) -/

/-- The record of an event at this moment; `cls` is CLASS of Table 17.9. -/
def State.mkRec (s : State) (code cls : Nat) (args : List Nat) : EvRec :=
  { code := code
    flags := b2n (isCritical code cls) + (cls % 4) * 2 + b2n (!s.fpl.ticked) * 16
    repeats := 0
    seq := s.rd GBL_EVQ_SEQ
    frame := s.stampFrame
    boot := s.lifetime 1 % 2 ^ 16
    offset := s.stampOffset
    arg0 := args.getD 0 0 % 2 ^ 32
    arg1 := args.getD 1 0 % 2 ^ 32
    arg2 := args.getD 2 0 % 2 ^ 32 }

/-- The 32 bytes of a record (Table 17.9). -/
def EvRec.toBytes (r : EvRec) : Bytes :=
  toLe 2 r.code ++ toLe 1 r.flags ++ toLe 1 r.repeats ++ toLe 4 r.seq ++ toLe 6 r.frame ++ toLe 2 r.boot ++
    toLe 4 r.offset ++ toLe 4 r.arg0 ++ toLe 4 r.arg1 ++ toLe 4 r.arg2

/-- The event ring's size in records (R452). -/
def ringSize : Nat := 4096

/-- The sticky bit of an event set in its block's register. -/
def State.setSticky (s : State) (code : Nat) : State :=
  if code = Ev.UPD_MBX_DONE then s.orR UPD_MBX_EVENT_STATUS 1
  else if code = Ev.UPD_MBX_FAILED then s.orR UPD_MBX_EVENT_STATUS 2
  else match stickyBit code with
    | some b => s.orR (eventStatusReg (code / 256)) (2 ^ b)
    | none => s

/-- A record put at the writer's index; a reader whose record is overwritten moves on (R452), before S3 the early buffer
keeps only its first 64 records (R454). -/
def State.putRec (s : State) (r : EvRec) : State :=
  let s := s.wr GBL_EVQ_SEQ (r.seq + 1)
  if !s.ev.ringOn && decide (64 ≤ s.ev.present) then
    { s with ev := { s.ev with earlyLost := s.ev.earlyLost + 1 } }
  else
    let w := s.rd GBL_EVQ_WR
    let r := if s.ev.pendOverflow then { r with flags := r.flags ||| 8 } else r
    let hostOver := decide (ringSize ≤ s.ev.hostUnread)
    let sndOn := s.rdF GBL_EVT_CTRL 0 0 == 1
    let sndOver := sndOn && decide (ringSize ≤ s.ev.sndUnread)
    let old := (w + 1) % ringSize
    let ring := sset EvRec.zero s.ev.ring w r
    let ring := if hostOver then smod EvRec.zero ring old (fun e => { e with flags := e.flags ||| 8 }) else ring
    let s := { s with ev := { s.ev with
      ring := ring
      pendOverflow := false
      present := min ringSize (s.ev.present + 1)
      hostUnread := min ringSize (s.ev.hostUnread + 1)
      sndUnread := if sndOn then min ringSize (s.ev.sndUnread + 1) else 0
      sndLost := s.ev.sndLost + b2n sndOver
      sndOverflow := s.ev.sndOverflow || sndOver
      grants := satN 32 (s.ev.grants + b2n s.ev.ringOn) } }
    let s := s.wr GBL_EVQ_WR old
    if hostOver then (s.wr GBL_EVQ_RD old).bump GBL_EVQ_LOST else s

/-- A record entered without the critical path: sticky bit, ring or early buffer. -/
def State.emitRec (s : State) (r : EvRec) : State :=
  let hostOver := s.ev.ringOn && decide (ringSize ≤ s.ev.hostUnread)
  let sndOver := s.ev.ringOn && (s.rdF GBL_EVT_CTRL 0 0 == 1) && decide (ringSize ≤ s.ev.sndUnread)
  let s := (s.setSticky r.code).putRec { r with seq := s.rd GBL_EVQ_SEQ }
  let s := if hostOver && !s.ev.ovrHost then
      let s := { s with ev := { s.ev with ovrHost := true } }
      (s.setSticky Ev.GBL_EVQ_OVERRUN).putRec (s.mkRec Ev.GBL_EVQ_OVERRUN 0 [0, s.rd GBL_EVQ_LOST])
    else s
  if sndOver && !s.ev.ovrSnd then
    let s := { s with ev := { s.ev with ovrSnd := true } }
    (s.setSticky Ev.GBL_EVQ_OVERRUN).putRec (s.mkRec Ev.GBL_EVQ_OVERRUN 0 [1, s.ev.sndLost])
  else s

/-- A record kept until the core cycle's events are put into order, or entered at once. -/
def State.emit (s : State) (code cls : Nat) (args : List Nat) : State :=
  match s.ev.cycle with
  | some l => { s with ev := { s.ev with cycle := some (l ++ [(false, s.mkRec code cls args)]) } }
  | none => s.emitRec (s.mkRec code cls args)

/-- The report of a refused write of the device (R386, R389, R392). -/
def State.sramRefuse (s : State) : State :=
  if s.sbk.recalling || !s.sbk.ready then s.emit Ev.SBK_NOT_READY 0 []
  else if s.sbk.busyTick then s
  else
    let s := s.emit Ev.SBK_BUSY 0 []
    { s with sbk := { s.sbk with busyTick := true } }

/-- Writes held while a store runs (R382): those for which the queue has room. -/
def State.sramHold (s : State) (n : Nat) : State := { s with sbk := { s.sbk with held := s.sbk.held + n } }

/-- A write of the device into the SRAM (R382, R386, R389), a 64-bit word at a time: held in the queue while a store runs, refused
when the queue is full or writes are refused. -/
def State.sramWrite (s : State) (off : Nat) (bs : Bytes) : State :=
  if s.sramRefused then s.sramRefuse
  else if s.sbk.store.isSome then
    let n := (wordsOf off bs.length).length
    let room := 64 - s.sbk.held
    let s := if n ≤ room then (s.sramPut off bs).sramHold n
      else if room = 0 then s
      else (s.sramPut off (bs.take (8 * (off / 8 + room) - off))).sramHold room
    (List.range (n - room)).foldl (fun s _ => s.emit Ev.SBK_BUSY 0 []) s
  else s.sramPut off bs

/-- A write of the Steward into its private area of the SRAM, as one word of the queue (R382, R386, R389; DESIGN CHOICE, log entry
312). -/
def State.stewardWrite (s : State) (f : State → State) : State :=
  if s.sramRefused then s.sramRefuse
  else if s.sbk.store.isSome then (if 64 ≤ s.sbk.held then s.emit Ev.SBK_BUSY 0 [] else (f s).sramHold 1)
  else f s

/-- One critical record into the critical error log (R455): folded into an entry of the same CODE and ARG0, else into an
empty slot, else over the entry with the earliest (BOOT, SEQ); of two that are half the numbers apart the one read later is the
earlier (R10). -/
def State.critLog (s : State) (r : EvRec) : State :=
  let ent (i : Nat) : Bytes := s.sramBytes (0x800 + 32 * i) 32
  let idx := List.range 32
  match idx.find? (fun i => leAt (ent i) 0 2 == r.code && r.code != 0 && leAt (ent i) 20 4 == r.arg0) with
  | some i => s.sramWrite (0x800 + 32 * i + 3) (toLe 1 (min 255 (byteAt (ent i) 3 + 1)))
  | none =>
    match idx.find? (fun i => leAt (ent i) 0 2 == 0) with
    | some i => s.sramWrite (0x800 + 32 * i) r.toBytes
    | none =>
      let before (w a b : Nat) : Bool := a != b && !later w a b
      let earlier (i j : Nat) : Bool :=
        before 16 (leAt (ent i) 14 2) (leAt (ent j) 14 2) ||
          (leAt (ent i) 14 2 == leAt (ent j) 14 2 && before 32 (leAt (ent i) 4 4) (leAt (ent j) 4 4))
      let first := idx.foldl (fun b i => if earlier i b then i else b) 0
      s.sramWrite (0x800 + 32 * first) r.toBytes

/-- A record reported (R451): it enters the ring; a critical one also sets CRIT, waits for the flash log, prints a console
line when EVENTS is set, and enters the critical log, or waits for recall (R455). -/
def State.reportRec (s : State) (r : EvRec) : State :=
  let r := { r with seq := s.rd GBL_EVQ_SEQ }
  let s := s.emitRec r
  if r.flags % 2 = 1 then
    let s := s.orR GBL_IRQ_STATUS (2 ^ 17)
    let s := { s with ev := { s.ev with flashPend := s.ev.flashPend ++ [LogItem.event r] } }
    let s := if s.rdF GBL_UART_CTRL 2 2 = 1 then
        { s with out := s.out ++ [Out.uart (.crit r.code r.frame r.arg0 r.arg1 r.arg2)] } else s
    if s.sbk.ready then s.critLog r
    else { s with ev := { s.ev with critWait := s.ev.critWait ++ [r] } }
  else s

/-- An event reported, at once or in its place among the events of the core cycle under way (R452); `joined` puts it into
the group of the event before it (R30). -/
def State.reportAs (s : State) (joined : Bool) (code cls : Nat) (args : List Nat) : State :=
  match s.ev.cycle with
  | some l => { s with ev := { s.ev with cycle := some (l ++ [(joined, s.mkRec code cls args)]) } }
  | none => s.reportRec (s.mkRec code cls args)

/-- An event of a class reported. -/
def State.reportC (s : State) (code cls : Nat) (args : List Nat) : State := s.reportAs false code cls args

/-- An event of class 0 reported. -/
def State.report (s : State) (code : Nat) (args : List Nat) : State := s.reportC code 0 args

/-- R30: the conservation event that follows a block's error event. -/
def State.reportJoined (s : State) (code : Nat) (args : List Nat) : State := s.reportAs true code 0 args

/-- A group put before the first group of a greater code (R452). -/
def groupIns (g : List EvRec) : List (List EvRec) → List (List EvRec)
  | [] => [g]
  | h :: t => if (g.headD EvRec.zero).code < (h.headD EvRec.zero).code then g :: h :: t else h :: groupIns g t

/-- A record of a cycle added to the groups so far, the last group first. -/
def groupAdd (gs : List (List EvRec)) (e : Bool × EvRec) : List (List EvRec) :=
  match gs with
  | g :: t => if e.1 then (g ++ [e.2]) :: t else [e.2] :: g :: t
  | [] => [[e.2]]

/-- R452: the records of one core cycle in their order. -/
def cycleOrder (l : List (Bool × EvRec)) : List EvRec :=
  ((l.foldl groupAdd []).reverse.foldl (fun gs g => groupIns g gs) []).flatten

/-- R452: a command's effect as one core cycle: its events are recorded at its end, in order. -/
def State.oneCycle (s : State) (f : State → State) : State :=
  match s.ev.cycle with
  | some _ => f s
  | none =>
    let t := f { s with ev := { s.ev with cycle := some [] } }
    (cycleOrder (t.ev.cycle.getD [])).foldl State.reportRec { t with ev := { t.ev with cycle := none } }

/-- R12: what is reported in the core cycle of a tick boundary carries the new tick's frame number and offset 0. -/
def State.restamp (s : State) : State :=
  match s.ev.cycle with
  | some l => { s with ev := { s.ev with cycle := some (l.map (fun e =>
      (e.1, { e.2 with frame := s.stampFrame, offset := s.stampOffset, flags := e.2.flags % 16 }))) } }
  | none => s

/-- R393, R30: an uncorrectable word read: in the stress record the event of the stress promise follows, with the offset in place of
a cell (log entry 284). -/
def State.sramPoisonRead (s : State) (off : Nat) : State :=
  let s := s.report Ev.SBK_ECC_UNCORRECTABLE [off]
  if 0x280 ≤ off ∧ off < 0x800 then
    s.reportJoined Ev.HGL_STRESS_RECONCILED [(Config.openCode Ev.HGL_STRESS_RECONCILED 0).toNat, off]
  else s

/-- What a block's read of the SRAM meets (R392, R393): a refusal while the Seedbank is not ready, or words with poison. -/
def State.sramMeet (s : State) (off n : Nat) : State :=
  if s.sbk.recalling || !s.sbk.ready then s.report Ev.SBK_NOT_READY []
  else ((wordsOf off n).filter (fun w => s.sbk.poison.contains w)).foldl (fun s w => s.sramPoisonRead (max off (8 * w))) s

/-- A lifetime counter bumped by the single writes of R394; a counter at 2^64 − 1 holds. -/
def State.bumpLifetime (s : State) (i : Nat) : State :=
  let s := if s.sbk.ready then s.sramMeet (0x40 + 16 * i) 10 else s
  if s.lifetime i = 2 ^ 64 - 1 then s
  else (bumpWrites (s.ctrCell i) 4 0).foldl (fun s w => s.sramWrite (0x40 + 16 * i + w.1) (toLe 2 w.2)) s

/-! ### Outputs -/

/-- The result of an access kept: status of Table 17.2 and data. -/
def State.result (s : State) (status v : Nat) : State := { s with acc := (status, BitVec.ofNat 32 v) }

/-- The result of a memory access kept: status and bytes, with the first word as data. -/
def State.resultBytes (s : State) (status : Nat) (bs : Bytes) : State :=
  { s.result status (leAt bs 0 4) with accBytes := bs }

/-- An output added to the record of outputs. -/
def State.put (s : State) (o : Out) : State := { s with out := s.out ++ [o] }

/-! ### What answers a host (R411) -/

/-- The stage reached. -/
def State.stageNow (s : State) : Nat := s.rdF GBL_STATE 2 0

/-- R411: nothing answers: the device is in reset, at S0, or shut down. -/
def State.deaf (s : State) : Bool := s.boot.inReset || s.stageNow == 0 || s.boot.shutdown

/-- R5, R27, R411: why an access is not performed, as a status of Table 17.2. Before S2 only the GLOBAL, SBK_ and UPD_
windows answer. -/
def State.regGate (s : State) (a : Nat) : Option Nat :=
  if 0xFFFFF < a then some 1
  else if a % 4 ≠ 0 then some 2
  else if s.stageNow < 2 ∧ !([0, 14, 15].contains (a / 0x10000)) then some 5
  else none

/-- R411: a register command of a requester is not performed: nothing answers it, or the register's window does not yet. Fabric
management transactions are served from S2. -/
def State.shut (s : State) (who : Requester) (a : Nat) : Bool :=
  s.deaf || (who != .service && decide (s.stageNow < 2)) || (s.regGate a).isSome

/-- R411: what such a command does: nothing at all when nothing answers, else its status alone. -/
def State.turnedAway (s : State) (who : Requester) (a : Nat) : State :=
  if s.deaf || (who != .service && decide (s.stageNow < 2)) then s else s.result ((s.regGate a).getD 0) 0

/-! ### Resource claims (R60, R61) -/

/-- The owner that RESOURCE_OWNERS names, or 0 (R48): records of 8 bytes. -/
def Plan.sec (p : Plan) (ty var : Nat) : Bytes :=
  match p.secs.find? (fun e => e.1 == ty && e.2.1 == var) with
  | some e => e.2.2
  | none => []

/-- A section is present. -/
def Plan.has (p : Plan) (ty var : Nat) : Bool := p.secs.any (fun e => e.1 == ty && e.2.1 == var)

/-- The owner records of a plan as (class, index, feature). -/
def Plan.owners (p : Plan) : List (Nat × Nat × Nat) :=
  let b := p.sec 0x0C 0
  (List.range (b.length / 8)).map (fun i => (byteAt b (8 * i), byteAt b (8 * i + 1), leAt b (8 * i + 2) 2))

/-- The owner of a resource in the running plan, or 0. -/
def State.planOwner (s : State) (cls idx : Nat) : Nat :=
  match s.fpl.plan with
  | none => 0
  | some p => match p.owners.find? (fun o => o.1 == cls && o.2.1 == idx) with
    | some o => o.2.2
    | none => 0

/-- The feature that holds a resource now, or 0. -/
def State.holder (s : State) (cls idx : Nat) : Nat :=
  match s.fpl.claims.find? (fun c => c.cls == cls && c.idx == idx) with
  | some c => c.feature
  | none => 0

/-- The event of a refused claim, by class (R60). -/
def busyEvent : Nat → Nat
  | 1 => Ev.GBL_PIN_BUSY
  | 2 => Ev.THR_PIPE_BUSY
  | 3 => Ev.GRN_PARTITION_BUSY
  | _ => Ev.LNE_LANE_BUSY

/-- R60, R61: whether a feature may claim a resource now. -/
def State.mayClaim (s : State) (cls idx feature : Nat) : Bool :=
  let o := s.planOwner cls idx
  let h := s.holder cls idx
  (o == 0 || o == feature) && (h == 0 || h == feature) && !(cls == 2 && decide (8 ≤ idx) && feature == 1)

/-- The MGT cycle that the model clock is in: 8 core cycles (Table 1.6). -/
def State.mgtCycle (s : State) : Nat := s.now / 8

/-- R61: the resource was claimed in this MGT cycle by a feature of a higher value, and nothing else keeps this one from it. -/
def State.outbids (s : State) (cls idx feature : Nat) : Bool :=
  let o := s.planOwner cls idx
  feature != 0 && (o == 0 || o == feature) && decide (feature < s.holder cls idx) &&
    !(cls == 2 && decide (8 ≤ idx) && feature == 1) && s.fpl.claimCycle == s.mgtCycle && s.fpl.claimNow.contains (cls, idx)

/-- A resource given to a feature, in this MGT cycle. -/
def State.grantClaim (s : State) (cls idx feature : Nat) : State :=
  { s with fpl := { s.fpl with
      claims := s.fpl.claims.filter (fun c => !(c.cls == cls && c.idx == idx)) ++ [⟨cls, idx, feature⟩]
      claimCycle := s.mgtCycle
      claimNow := (cls, idx) :: (if s.fpl.claimCycle = s.mgtCycle then s.fpl.claimNow else []) } }

/-- A claim made (R60): granted, or refused with the block's event; the flag says whether it was granted. Of two claims in one MGT
cycle the lower feature's succeeds and the other is refused, also when it came first (R61; DEDUCED, log entry 237). -/
def State.claim (s : State) (cls idx feature : Nat) : State × Bool :=
  if s.mayClaim cls idx feature then
    (if s.holder cls idx = feature then s else s.grantClaim cls idx feature, true)
  else if s.outbids cls idx feature then
    ((s.report (busyEvent cls) [cls, idx, s.holder cls idx]).grantClaim cls idx feature, true)
  else (s.report (busyEvent cls) [cls, idx, feature], false)

/-- A claim released. -/
def State.unclaim (s : State) (cls idx feature : Nat) : State :=
  { s with fpl := { s.fpl with
      claims := s.fpl.claims.filter (fun c => !(c.cls == cls && c.idx == idx && c.feature == feature)) } }

/-- Every claim of one class released. -/
def State.unclaimClass (s : State) (cls : Nat) : State :=
  { s with fpl := { s.fpl with claims := s.fpl.claims.filter (fun c => c.cls != cls) } }

/-! ### Fault classification (R456, R457) -/

/-- The faults of an element within the last 86,400 operating seconds, from its kept history. -/
def State.recentFaults (s : State) (kind idx : Nat) : Nat :=
  match s.history.find? (fun h => h.kind == kind && h.idx == idx) with
  | some h => (h.times.filter (fun t => decide (s.lifetime 0 - t ≤ 86400))).length
  | none => 0

/-- A fault entered into the history (R456): the last 3 faults of an element are kept, and a full table loses the element
with the oldest last fault. -/
def State.addFault (s : State) (kind idx : Nat) : State := s.stewardWrite fun s =>
  let t := s.lifetime 0
  if s.history.any (fun h => h.kind == kind && h.idx == idx) then
    { s with history := s.history.map (fun h =>
        if h.kind == kind && h.idx == idx then { h with times := (t :: h.times).take 3 } else h) }
  else
    let keep : List FaultHist :=
      if s.history.length < 256 then s.history
      else
        let oldest := s.history.foldl (fun m h => min m (h.times.headD 0)) (s.history.headD ⟨0, 0, []⟩ |>.times.headD 0)
        match s.history.findIdx? (fun h => h.times.headD 0 == oldest) with
        | some i => s.history.eraseIdx i
        | none => s.history
    { s with history := keep ++ [⟨kind, idx, [t]⟩] }

/-- A targeted self-test queued (R456): an error makes it a fault, and several errors merge into one queued test. -/
def State.queueTest (s : State) (kind idx : Nat) (faulted : Bool) : State :=
  match s.tests.find? (fun t => t.kind == kind && t.idx == idx) with
  | some t =>
    if faulted && !t.faulted then
      { s.addFault kind idx with tests := s.tests.map (fun u =>
          if u.kind == kind && u.idx == idx then { u with faulted := true } else u) }
    else s
  | none =>
    let s' := if faulted then s.addFault kind idx else s
    { s' with tests := s.tests ++ [⟨kind, idx, faulted⟩] }

/-- A targeted self-test queued in a block's queue of limited length; a request that finds it full is counted as dropped
(R339, "Migration, self-test and retirement"). -/
def State.queueTestLim (s : State) (kind idx : Nat) (faulted : Bool) (limit dropped : Nat) : State :=
  if s.tests.any (fun t => t.kind == kind && t.idx == idx) then s.queueTest kind idx faulted
  else if limit ≤ (s.tests.filter (fun t => t.kind == kind)).length then s.bump dropped
  else s.queueTest kind idx faulted

/-- A queued test taken off the queue. -/
def State.dropTest (s : State) (kind idx : Nat) : State :=
  { s with tests := s.tests.filter (fun t => !(t.kind == kind && t.idx == idx)) }

/-- The class of a test result (R456): 3 PERMANENT when it fails, 2 INTERMITTENT with 3 or more faults in 86,400 operating
seconds, 1 TRANSIENT otherwise; 0 for a passing test that no error queued. -/
def State.classify (s : State) (kind idx : Nat) (faulted failed : Bool) : Nat :=
  if failed then 3 else if !faulted then 0 else if 3 ≤ s.recentFaults kind idx then 2 else 1

/-- GBL_CLASS_TOTALS counts a class (Table 17.3). -/
def State.countClass (s : State) (cls : Nat) : State :=
  match cls with
  | 1 => s.bumpF GBL_CLASS_TOTALS 9 0
  | 2 => s.bumpF GBL_CLASS_TOTALS 19 10
  | 3 => s.bumpF GBL_CLASS_TOTALS 29 20
  | _ => s

/-- A targeted self-test ended (R456, R457): the element leaves the queue, the result is classed, counted and reported. -/
def State.testResult (s : State) (code kind idx : Nat) (faulted failed : Bool) (figure : Nat) : State × Nat :=
  let cls := s.classify kind idx faulted failed
  let n := s.recentFaults kind idx
  let s := (s.dropTest kind idx).countClass cls
  (s.reportC code cls [idx, cls + kind * 256 + n * 65536, figure], cls)

/-- R229: the power-loss sequence runs, or has run: the panel pins hold, nothing more is sent to the
panel, and the DRAM controller issues no further command (R326). -/
def State.panelLost (s : State) : Bool := s.etc.seq == .pfail || s.rdF ETC_STATUS 5 5 == 1

end Sys2Proof.Machine
end

