-- ==== Sys2Proof/Machine/Seedbank.lean ====
section
/-! DEFINITION. The Seedbank (chapter "Seedbank non-volatile store"): stores, recall, access limits and passwords. -/
namespace Sys2Proof.Machine

/-- The copy that a store writes and its generation (R383). -/
def Sbk.target (b : Sbk) : Nat × Nat :=
  match b.newest with
  | none => (0, 1)
  | some c =>
    let g := ((if c = 0 then b.copyA else b.copyB).hdr.map (·.1)).getD 0
    (1 - c, (g + 1) % 2 ^ 32)

/-- A copy of the pair. -/
def Sbk.copy (b : Sbk) (x : Nat) : NvCopy := if x = 0 then b.copyA else b.copyB

/-- A copy of the pair changed. -/
def Sbk.setCopy (b : Sbk) (x : Nat) (c : NvCopy) : Sbk := if x = 0 then { b with copyA := c } else { b with copyB := c }

/-- STORE_KIND of the stress record for a store kind of Table 15.11 (R385, R386, R388). A kind of 8 or more is that of the
first request of a queued store that a SHUTDOWN merged into, plus 8. -/
def storeKindByte : Nat → Nat
  | 2 => 2
  | 6 => 2
  | 3 => 1
  | k => if 8 ≤ k then 1 else 0

/-- The commit state of Table 15.5 at this moment, bytes 0 to 9. -/
def State.commitStateBytes (s : State) : Bytes :=
  toLe 6 s.fpl.frame ++ toLe 2 (s.rd PLT_SHOWN_TAG) ++ toLe 1 (s.rdF WAL_LAST_DECISION 1 0) ++
    toLe 1 (s.rdF WAL_STATUS 2 1)

/-- Steps 1 and 2 of R383: counters and commit state written, STORE_KIND written, the snapshot taken, the header of the
copy erased. -/
def State.storeStart (s : State) (kind : Nat) : State :=
  let s := s.bumpLifetime 2
  let s := s.sramPut 0xC0 s.commitStateBytes
  let s := s.sramPut 0x286 (toLe 1 (storeKindByte kind))
  let (x, g) := s.sbk.target
  let b := s.sbk.setCopy x { s.sbk.copy x with hdr := none }
  { s with sbk := { b with
      store := some { copy := x, gen := g, kind := kind, image := s.sbk.sram, poison := s.sbk.poison,
                      hist := s.history, frame := s.fpl.frame % 2 ^ 16, band := s.rdF THM_STATUS 2 0 }
      held := 0 } }

/-- SBK_BUSY, once per tick (R386, R389). -/
def State.sbkBusy (s : State) : State :=
  if s.sbk.busyTick then s
  else { s.report Ev.SBK_BUSY [] with sbk := { (s.report Ev.SBK_BUSY []).sbk with busyTick := true } }

/-- The kind of the queued store when a request comes (R385, Table 15.11): the first request's, which a SHUTDOWN makes
CLEAN as well. -/
def mergeKind (queued : Option Nat) (kind : Nat) : Nat :=
  match queued with
  | none => kind
  | some k => if kind = 3 ∧ k ≠ 3 then k % 8 + 8 else k

/-- A store requested (R385): refused while FINAL (R389) and during recall (R392), never started after a trip (R388), queued
behind a running one, else started. The flag says whether the request was taken. -/
def State.requestStore (s : State) (kind : Nat) : State × Bool :=
  if s.sbk.recalling || !s.sbk.ready then (s.report Ev.SBK_NOT_READY [], false)
  else if s.sbk.final then (s.sbkBusy, false)
  else if s.sbk.tripped then (s, false)
  else if s.sbk.store.isSome then
    ({ s with sbk := { s.sbk with queued := some (mergeKind s.sbk.queued kind) } }, true)
  else (s.storeStart kind, true)

/-- Store time in units of 10 µs by die band at the snapshot (Table 15.3), rounded (R4). -/
def storeTime : Nat → Nat
  | 1 => 253
  | 2 => 253
  | 3 => 263
  | _ => 278

/-- SBK_STORE_LAST of an ended store (Table 15.11). -/
def storeLast (r : StoreRun) (ok : Bool) (time : Nat) : Nat :=
  r.kind % 8 + b2n ok * 8 + (satN 9 time) * 16 + (r.frame % 2 ^ 16) * 2 ^ 16

/-- The queued store starts when the running one has ended (R385); under FINAL or after a trip none does (R388, R389). -/
def State.nextStore (s : State) : State :=
  if s.sbk.final || s.sbk.tripped then { s with sbk := { s.sbk with queued := none } }
  else match s.sbk.queued with
    | some k => { s with sbk := { s.sbk with queued := none } }.storeStart k
    | none => s

/-- The image of a copy after the first `rows` rows of a new image were programmed and the next one was interrupted: each byte
of that row is open (R387), the rest is as it was. `d` numbers the draw. -/
def tornImage (old new : List Host.Cell) (rows d : Nat) : List Host.Cell :=
  let m := (List.range (128 * min rows 512)).foldl (fun m a => cellSet m a (cellGet new a)) old
  if rows < 512 then
    (List.range 128).foldl (fun m i => cellSet m (128 * rows + i) (Config.tornByte (128 * d + i))) m
  else m

/-- A running store stopped by a loss of the arrays' supply (R387): the first `rows` rows of its copy are new, the next row is
torn, and the copy has no header. -/
def State.storeTorn (s : State) (r : StoreRun) (rows : Nat) : State :=
  let (d, s) := s.draw
  let old := s.sbk.copy r.copy
  let b := s.sbk.setCopy r.copy { old with image := tornImage old.image r.image rows d, hdr := none }
  { s with sbk := { b with store := none, held := 0 } }

/-- The end of a running store: completed (R383), or failed with a row (R390). Held writes stand performed. -/
def State.storeEnd (s : State) (result : StoreEnd) : State :=
  match s.sbk.store with
  | none => s
  | some r =>
    match result with
    | .ok =>
      let b := s.sbk.setCopy r.copy { image := r.image, poison := r.poison, hist := r.hist, hdr := some (r.gen, r.kind % 8) }
      let fin := r.kind == 2 || r.kind == 3 || r.kind == 6 || decide (8 ≤ r.kind)
      let s := { s with sbk := { b with store := none, held := 0, newest := some r.copy, final := b.final || fin } }
      let s := (s.bump SBK_STORE_TOTAL).wr SBK_STORE_LAST (storeLast r true (storeTime r.band))
      (s.report Ev.SBK_STORE_DONE [r.gen, r.copy]).nextStore
    | .rowFail row t =>
      let s := s.storeTorn r row
      let s := s.wr SBK_STORE_LAST (storeLast r false t)
      (s.report Ev.SBK_STORE_FAIL [row, r.gen]).nextStore

/-- R386: a running store abandoned; its held writes stand performed. -/
def State.storeDrop (s : State) : State := { s with sbk := { s.sbk with store := none, held := 0 } }

/-- R386: the Seedbank's part of a power-fail trigger: a running store is abandoned, and the power-fail store takes the same copy
and the same generation, since the newest completed store is the same. -/
def State.powerFailStore (s : State) : State :=
  let s := { s with sbk := { s.sbk with queued := none, gleanRun := false } }
  if s.rdF SBK_CTRL 0 0 = 0 then s
  else if s.sbk.tripped || s.sbk.final || !s.sbk.ready then s
  else
    let s := s.storeDrop.storeStart 2
    { s with sbk := { s.sbk with pfRefuse := true } }

/-- R388: the Seedbank's part of a thermal trip. -/
def State.tripStore (s : State) : State :=
  let s := { s with sbk := { s.sbk with gleanRun := false } }
  let s :=
    if s.sbk.store.isSome || s.rdF SBK_CTRL 0 0 = 0 || s.sbk.final || !s.sbk.ready then s
    else { s with sbk := { s.sbk with queued := none } }.storeStart 6
  { s with sbk := { s.sbk with tripped := true } }

/-! ### Recall (R391, R394) -/

/-- A counter whose pending cell is VALID completed, and reported (R394). -/
def State.reconcileCounter (s : State) (i : Nat) : State :=
  let p := s.sramLe (0x40 + 16 * i + 8) 2
  if p / 2 ^ 15 = 0 then s
  else
    let j := p % 4
    let s := s.sramPut (0x40 + 16 * i) (toLe (2 * j) 0)
    let ws := if s.ctrCell i j % 2 = bit p 2 then bumpWrites (s.ctrCell i) 4 j else [(8, 0)]
    let s := ws.foldl (fun s w => s.sramPut (0x40 + 16 * i + w.1) (toLe 2 w.2)) s
    let v := s.lifetime i
    s.report Ev.SBK_COUNTER_RECONCILED [i, v % 2 ^ 32, v / 2 ^ 32]

/-- A copy is valid (R391). -/
def copyValid (c : NvCopy) (r : CopyRead) : Bool := c.hdr.isSome && r == .good

/-- The GEN of a copy whose header passes its checks. -/
def copyGen (c : NvCopy) (r : CopyRead) : Option Nat := if r == .noHeader then none else c.hdr.map (·.1)

/-- Which copy recall takes (R391), with the reason when it is a fallback (0 none). Copy A is read first, so a generation of copy B
half the numbers away is the earlier one (R10). -/
def recallPick (b : Sbk) (ra rb : CopyRead) : Option (Nat × Nat) :=
  let ga := (copyGen b.copyA ra).getD 0
  let gb := (copyGen b.copyB rb).getD 0
  let reason (other : Option Nat) (above : Nat → Bool) : Nat :=
    match other with
    | none => 1
    | some h => if above h then 2 else 0
  match copyValid b.copyA ra, copyValid b.copyB rb with
  | true, true => if later 32 gb ga then some (1, 0) else some (0, 0)
  | true, false => some (0, reason (copyGen b.copyB rb) (fun h => later 32 h ga))
  | false, true => some (1, reason (copyGen b.copyA ra) (fun h => h != gb && !later 32 gb h))
  | false, false => none

/-- R391: the SRAM from the chosen copy, or cleared with the directory written. -/
def State.recallImage (s : State) (pick : Option (Nat × Nat)) : State :=
  let b : Sbk := { s.sbk with
    ready := true, recalling := false, final := false, pfRefuse := false, store := none, queued := none, held := 0,
    halfPair := none, tripped := false, gleanRun := false, busyTick := false }
  match pick with
  | some (x, reason) =>
    let c := s.sbk.copy x
    { s with history := c.hist
             sbk := { b with sram := c.image, poison := c.poison, newest := some x, empty := false, fallback := reason != 0 } }
  | none =>
    { s with history := []
             sbk := { b with sram := cellsSet [] 0 [0x53#8, 0x44#8, 0x01#8], poison := [], newest := none
                             empty := true, fallback := false } }

/-- Recall (R391): the SRAM from the chosen copy, or cleared with the directory written; counters completed; the power
cycle counted; waiting critical records logged (R455). -/
def State.recall (s : State) (ra rb : CopyRead) : State :=
  let pick := recallPick s.sbk ra rb
  let s := s.recallImage pick
  let s := (List.range 4).foldl (fun s i => s.reconcileCounter i) s
  let s := s.bumpLifetime 1
  let s : State :=
    match pick with
    | some (x, reason) =>
      let g := ((s.sbk.copy x).hdr.map (·.1)).getD 0
      let s := s.report Ev.SBK_RECALL_DONE [x, g]
      if reason = 0 then s else s.report Ev.SBK_RECALL_FALLBACK [x, g, reason]
    | none => s.report Ev.SBK_RECALL_EMPTY []
  let s := if 1800000 ≤ s.lifetime 2 then s.report Ev.SBK_ENDURANCE [] else s
  let wait := s.ev.critWait
  let s := { s with ev := { s.ev with critWait := [] } }
  wait.foldl (fun s r => s.critLog r) s

/-! ### Host access (R381, R393, R395) -/

/-- Table 15.1: the host may read the word at this offset, given the read guard. -/
def sramHostRead (open' : Bool) (off : Nat) : Bool :=
  if off < 0x80 then true else if off < 0xC0 then false else if off < 0x1400 then true
  else if off < 0x2000 then open' else if off < 0x8000 then false else open'

/-- Table 15.1: the host may write the word at this offset, given the write guard. -/
def sramHostWrite (open' : Bool) (off : Nat) : Bool :=
  if off < 0x1400 then false else if off < 0x2000 then open' else if off < 0x8000 then false else open'

/-- R395: the read guard is open (a password of 0 is unset). -/
def State.readOpen (s : State) : Bool := s.sbk.rOpen || s.sramLe 0x80 8 == 0

/-- R395: the write guard is open. -/
def State.writeOpen (s : State) : Bool := s.sbk.wOpen || s.sramLe 0x88 8 == 0

/-- SBK_ACCESS_DENIED, once per tick (R381). -/
def State.sbkDenied (s : State) : State :=
  if s.sbk.deniedTick then s
  else { s.report Ev.SBK_ACCESS_DENIED [] with
    sbk := { (s.report Ev.SBK_ACCESS_DENIED []).sbk with deniedTick := true } }

/-- A word stored through SBK_DATA, with the poison of its 64-bit word (R393). -/
def State.sbkPut (s : State) (off : Nat) (v : Word) (ue : Bool) (pair : Option Nat) : State :=
  let w := off / 8
  let p := (s.sbk.poison.filter (· != w)) ++ (if s.sbk.poison.contains w || ue then [w] else [])
  let clears := off % 8 == 4 && pair == some w
  { s with sbk := { s.sbk with
    sram := cellsSet s.sbk.sram off (toLe 4 v.toNat)
    poison := if clears then p.filter (· != w) else p
    halfPair := if off % 8 = 0 && p.contains w then some w else none
    held := s.sbk.held + b2n s.sbk.store.isSome } }

/-- One SBK_DATA access (R381, R392, R393): status and data in the result; one that Table 15.1 or R395 does not allow has no effect.
The requester makes no difference to it. -/
def State.sbkData (s : State) (write : Option Word) (ue : Bool) : State :=
  let off := s.rd SBK_ADDR / 4 * 4 % 2 ^ 16
  let w := off / 8
  let pair := s.sbk.halfPair
  let moved (s : State) : State :=
    let s := s.wr SBK_ADDR ((off + 4) % 2 ^ 16)
    { s with sbk := { s.sbk with halfPair := none } }
  if s.sbk.recalling || !s.sbk.ready then (s.report Ev.SBK_NOT_READY []).result 5 0
  else match write with
  | none =>
    if !sramHostRead s.readOpen off then s.sbkDenied.result 3 0
    else
      let s := moved s
      let s := if ue then { s with sbk := { s.sbk with poison := (s.sbk.poison.filter (· != w)) ++ [w] } } else s
      if s.sbk.poison.contains w then (s.sramPoisonRead off).result 4 0
      else s.result 0 (s.sramLe off 4)
  | some v =>
    if !sramHostWrite s.writeOpen off then s.sbkDenied.result 3 0
    else
      let cancelled : State := { s with sbk := { s.sbk with halfPair := none } }
      if s.sbk.final || s.sbk.pfRefuse then cancelled.sbkBusy.result 5 0
      else if s.sbk.store.isSome && decide (64 ≤ s.sbk.held) then (cancelled.report Ev.SBK_BUSY []).result 5 0
      else ((moved s).sbkPut off v ue pair).result 0 0

/-- An unlock attempt (R395, R396) of the read guard or the write guard, against the password at an SRAM offset. -/
def State.pwUnlock (s : State) (off : Nat) (write : Bool) : State :=
  let cand := s.sbk.pwCand
  let s := { s with sbk := { s.sbk with pwCand := 0 } }
  if s.sbk.recalling || !s.sbk.ready then s.report Ev.SBK_NOT_READY []
  else if s.sbk.locked then s.report Ev.SBK_LOCKED []
  else if cand = s.sramLe off 8 then 
    { s with sbk := { s.sbk with fails := 0, rOpen := s.sbk.rOpen || !write, wOpen := s.sbk.wOpen || write } }
  else
    let n := s.sbk.fails + 1
    let s := { s with sbk := { s.sbk with fails := n, locked := decide (8 ≤ n) } }
    let s := s.report Ev.SBK_PW_WRONG []
    if 8 ≤ n then s.report Ev.SBK_LOCKED [] else s

/-- A password change (R395): needs the write guard open. -/
def State.pwSet (s : State) (off : Nat) : State :=
  let cand := s.sbk.pwCand
  let s := { s with sbk := { s.sbk with pwCand := 0 } }
  if s.sbk.recalling || !s.sbk.ready then s.report Ev.SBK_NOT_READY []
  else if !s.writeOpen then s.report Ev.SBK_ACCESS_DENIED []
  else s.sramWrite off (toLe 8 cand)

/-! ### The commands -/

/-- SBK_CTRL_STORE (R385): a store of kind COMMAND is requested. -/
def execSbkCtrlStore (s : State) : Host.Outcome State Fault Refusal :=
  if s.shut .service SBK_CTRL then .next (s.turnedAway .service SBK_CTRL) else
  .next (s.oneCycle fun s => (s.requestStore 1).1)

/-- SBK_CTRL_GLEAN (R397): a Gleaner pass is asked for and begins; a trip or a power-fail trigger leaves none. -/
def execSbkCtrlGlean (s : State) : Host.Outcome State Fault Refusal :=
  if s.shut .service SBK_CTRL then .next (s.turnedAway .service SBK_CTRL) else
  .next (if s.sbk.gleanRun || s.sbk.tripped || s.sbk.pfRefuse then s
    else { s with sbk := { s.sbk with gleanRun := true, gleanReq := true, gleanRows := 0, gleanWeak := 0 } })

/-- SBK_RECALL (R391): recall runs and completes. -/
def execSbkRecall (a b : CopyRead) (s : State) : Host.Outcome State Fault Refusal := .next (s.oneCycle fun s => s.recall a b)

/-- SBK_DATA_ACCESS (R381): one word of the SRAM is read or written and SBK_ADDR moves on. -/
def execSbkDataAccess (req : Requester) (write : Option Word) (ue : Bool) (s : State) :
    Host.Outcome State Fault Refusal :=
  if s.shut req SBK_DATA then .next (s.turnedAway req SBK_DATA) else
  .next (s.oneCycle fun s => s.sbkData write ue)

/-- SBK_PW_UNLOCK_R (R395). -/
def execSbkPwUnlockR (s : State) : Host.Outcome State Fault Refusal :=
  if s.shut .service SBK_PW_CTRL then .next (s.turnedAway .service SBK_PW_CTRL) else
  .next (s.oneCycle fun s => s.pwUnlock 0x80 false)

/-- SBK_PW_UNLOCK_W (R395). -/
def execSbkPwUnlockW (s : State) : Host.Outcome State Fault Refusal :=
  if s.shut .service SBK_PW_CTRL then .next (s.turnedAway .service SBK_PW_CTRL) else
  .next (s.oneCycle fun s => s.pwUnlock 0x88 true)

/-- SBK_PW_SET_R (R395). -/
def execSbkPwSetR (s : State) : Host.Outcome State Fault Refusal :=
  if s.shut .service SBK_PW_CTRL then .next (s.turnedAway .service SBK_PW_CTRL) else
  .next (s.oneCycle fun s => s.pwSet 0x80)

/-- SBK_PW_SET_W (R395). -/
def execSbkPwSetW (s : State) : Host.Outcome State Fault Refusal :=
  if s.shut .service SBK_PW_CTRL then .next (s.turnedAway .service SBK_PW_CTRL) else
  .next (s.oneCycle fun s => s.pwSet 0x88)

/-- SBK_PW_LOCK (R395): both guards close. -/
def execSbkPwLock (s : State) : Host.Outcome State Fault Refusal :=
  if s.shut .service SBK_PW_CTRL then .next (s.turnedAway .service SBK_PW_CTRL) else
  .next { s with sbk := { s.sbk with rOpen := false, wOpen := false } }

/-- SBK_CNT_LO_READ (R402): the low word of the selected lifetime counter is returned and the high word latched. -/
def execSbkCntLoRead (s : State) : Host.Outcome State Fault Refusal :=
  if s.shut .service SBK_CNT_LO then .next (s.turnedAway .service SBK_CNT_LO) else
  .next (s.oneCycle fun s =>
    let v := s.lifetime (s.rd SBK_CNT_SEL)
    let s := if s.sbk.ready then s.sramMeet (0x40 + 16 * s.rd SBK_CNT_SEL) 8 else s
    (s.wr SBK_CNT_HI (v / 2 ^ 32)).result 0 (v % 2 ^ 32))

/-- OPERATING_SECOND (R394): from stage S1 the operating-seconds counter is bumped. -/
def execOperatingSecond (s : State) : Host.Outcome State Fault Refusal :=
  .next (s.oneCycle fun s => if s.rdF GBL_STATE 2 0 = 0 then s else s.bumpLifetime 0)

/-- GLEAN_PASS_DONE (R397): the pass ends; weak rows in the newest copy ask for two stores, weak rows only in the other
for one, each a request like any other (R385). -/
def execGleanPassDone (weakA weakB : Nat) (s : State) : Host.Outcome State Fault Refusal :=
  .next <| s.oneCycle fun s =>
    if !s.sbk.gleanRun then s
    else
      let s := { s with sbk := { s.sbk with gleanRun := false, gleanReq := false, gleanRows := 1026
                                            gleanWeak := weakA + weakB } }
      let inNewest := if s.sbk.newest == some 1 then weakB else weakA
      let n := if 0 < inNewest then 2 else if 0 < weakA + weakB then 1 else 0
      let s := if n = 0 then s else
        let s := s.report Ev.SBK_WEAK_ROWS [weakA, weakB]
        (List.range n).foldl (fun s _ => (s.requestStore 4).1) s
      s.report Ev.SBK_GLEAN_DONE []

/-- VDD_NVM_LOSS (R387): the supply of the arrays falls. A running store leaves its copy without a header: the first
`rows` rows are new, the next row is torn (each byte open), the rest are as they were. The SRAM's contents are lost. -/
def execVddNvmLoss (rows : Nat) (s : State) : Host.Outcome State Fault Refusal :=
  .next <|
    let s := match s.sbk.store with
      | some r => s.storeTorn r rows
      | none => s
    { s with sbk := { s.sbk with
      ready := false, recalling := false, held := 0, queued := none, sram := [], poison := [], halfPair := none } }

end Sys2Proof.Machine
end

