-- ==== Sys2Proof/Machine/Memory.lean ====
section
/-! DEFINITION. The memory map (R25, R26): the Granary window through the plot map (R65), the DRAM windows and the fixed
region (R318 to R323), and plain reads and writes of their bytes with poison. -/
namespace Sys2Proof.Machine

/-- First address of the Granary window (Table 1.8). -/
def grnBase : Nat := 0x10000000

/-- Size of the Granary window. -/
def grnSize : Nat := 0x4000000

/-- First DRAM address (Table 1.8). -/
def dramBase : Nat := 0x1000000000

/-- An address lies in the Granary window. -/
def inGranary (a : Nat) : Bool := decide (grnBase ≤ a) && decide (a < grnBase + grnSize)

/-- Logical plot of a Granary address. -/
def plotOf (a : Nat) : Nat := (a - grnBase) / 4096

/-- Physical plot behind a logical plot (R65). -/
def State.physOf (s : State) (n : Nat) : Nat := sget n s.grn.map n

/-- Logical plot in front of a physical plot. -/
def State.logicalOf (s : State) (p : Nat) : Nat :=
  match s.grn.map.find? (fun e => e.2 == p) with
  | some e => e.1
  | none => p

/-- The place of a byte in `mem`: Granary bytes by physical plot. -/
def State.place (s : State) (a : Nat) : Nat :=
  if inGranary a then grnBase + s.physOf (plotOf a) * 4096 + a % 4096 else a

/-- `n` bytes of memory from a system address. -/
def State.memGet (s : State) (a n : Nat) : Bytes := (List.range n).map (fun i => cellGet s.mem (s.place (a + i)))

/-- A little-endian field of memory. -/
def State.memLe (s : State) (a n : Nat) : Nat := le (s.memGet a n)

/-- The poison mark of a line set or cleared. -/
def State.setPoison (s : State) (a : Nat) (p : Bool) : State :=
  { s with poison := sset false s.poison (s.place a / 64) p }

/-- The lines that `n` bytes at an address touch, by address of their first byte. -/
def linesOf (a n : Nat) : List Nat := if n = 0 then [] else (List.range ((a + n - 1) / 64 - a / 64 + 1)).map (fun i => (a / 64 + i) * 64)

/-- R326: after a power-loss trigger nothing is written to DRAM. -/
def State.writable (s : State) (a : Nat) : Bool := !s.panelLost || decide (a < dramBase)

/-- Bytes stored, without a change of poison. -/
def State.memPut (s : State) (a : Nat) (bs : Bytes) : State :=
  let cells := (bs.mapIdx (fun i b => (a + i, b))).filter (fun c => s.writable c.1)
  { s with mem := cells.foldl (fun m c => cellSet m (s.place c.1) c.2) s.mem }

/-- Bytes stored: a write of a whole line clears its poison, a narrower one keeps it (R77, R325). -/
def State.memSet (s : State) (a : Nat) (bs : Bytes) : State :=
  ((linesOf a bs.length).filter (fun l => s.writable l && decide (a ≤ l) && decide (l + 64 ≤ a + bs.length))).foldl
    (fun s l => s.setPoison l false) (s.memPut a bs)

/-- Zeros, free of poison, over a range of places. -/
def State.zeroRange (s : State) (a n : Nat) : State :=
  let out (x : Nat) : Bool := decide (x < a) || decide (a + n ≤ x)
  { s with mem := s.mem.filter (fun c => out c.1), poison := s.poison.filter (fun c => out (c.1 * 64)) }

/-- R82: the bytes and poison of physical plot `p` copied to physical plot `q`. -/
def State.copyPlot (s : State) (p q : Nat) : State :=
  let from' := grnBase + p * 4096
  let to' := grnBase + q * 4096
  { s with
    mem := (List.range 4096).foldl (fun m i => cellSet m (to' + i) (cellGet m (from' + i))) s.mem
    poison := (List.range 64).foldl (fun m i => sset false m (to' / 64 + i) (sget false m (from' / 64 + i))) s.poison }

/-! ### The DRAM windows -/

/-- The ADDRESS_WINDOWS section of the running plan (R318). -/
def State.addrWindows (s : State) : Bytes :=
  match s.fpl.plan with
  | none => []
  | some p => p.sec 0x08 0

/-- A window record (Table 12.4). -/
structure Window where
  base : Nat
  size : Nat
  scattered : Bool
  order : Nat
  ecc : Bool
  xmask : List Nat
deriving DecidableEq, Repr

/-- Window record `w` of an ADDRESS_WINDOWS section. -/
def windowRec (b : Bytes) (w : Nat) : Window :=
  let o := 16 + 32 * w
  { base := leAt b o 5, size := byteAt b (o + 5), scattered := byteAt b (o + 6) == 1, order := byteAt b (o + 7)
    ecc := bit (byteAt b (o + 8)) 0 == 1, xmask := (List.range 4).map (fun i => leAt b (o + 12 + 4 * i) 4) }

/-- The windows in force (DMC_STATUS.WINDOWS), by number. -/
def State.windows (s : State) : List (Nat × Window) :=
  if s.rdF DMC_STATUS 1 1 = 1 then
    let b := s.addrWindows
    (List.range (min 8 (byteAt b 0))).map (fun w => (w, windowRec b w))
  else []

/-- DRAM capacity in bytes (DMC_CONFIG). -/
def State.dramCapacity (s : State) : Nat := s.rdF DMC_CONFIG 15 8 * 2 ^ 30

/-- Rows of each bank (Table 12.1): 512 KiB of DRAM hold one row of every bank and channel. -/
def State.dramRows (s : State) : Nat := s.dramCapacity / 2 ^ 19

/-- First address of the fixed region (R319). -/
def State.fixedBase (s : State) : Nat := dramBase + s.dramCapacity - 2 ^ 24

/-- The fixed region as a window (R319). -/
def State.fixedWindow (s : State) : Window := ⟨s.fixedBase, 24, true, 0, true, [0, 0, 0, 0]⟩

/-- DRAM is trained, so that the fixed region is mapped (R319, R338). -/
def State.dramOn (s : State) : Bool := s.rdF DMC_STATUS 0 0 == 1

/-- The window an address lies in, 8 for the fixed region. -/
def State.windowOf (s : State) (a : Nat) : Option (Nat × Window) :=
  match s.windows.find? (fun w => decide (w.2.base ≤ a) && decide (a < w.2.base + 2 ^ w.2.size)) with
  | some w => some w
  | none =>
    if s.dramOn && decide (s.fixedBase ≤ a) && decide (a < s.fixedBase + 2 ^ 24) then some (8, s.fixedWindow) else none

/-- R322: an address an access may reach: in a window, below its carve-out, or in the reserved store. -/
def State.dramUsable (s : State) (a : Nat) : Bool :=
  s.dramOn && match s.windowOf a with
  | none => false
  | some (n, w) =>
    if n = 8 then decide (a - w.base < 12 * 2 ^ 20)
    else if w.ecc then decide (a - w.base < 7 * 2 ^ w.size / 8) else true

/-- Parity of a number's bits. -/
def parity (n : Nat) : Nat := popCount 40 n % 2

/-- Channel, bank and DRAM row that the window's mapping gives an address (R321). -/
def State.dramDecode (s : State) (a : Nat) : Nat × Nat × Nat :=
  match s.windowOf a with
  | none => (0, 0, 0)
  | some (_, w) =>
    let o := a - w.base
    let rowBase := (w.base - dramBase) / 524288
    let ch := fld o 9 6
    if w.scattered then
      let row := o / 2 ^ 19
      let bank := (List.range 4).foldl (fun b i => b + ((bit o (15 + i) + parity (row &&& w.xmask.getD i 0)) % 2) * 2 ^ i) 0
      (ch, bank, rowBase + row)
    else if w.order = 0 then (ch, fld o 18 15, rowBase + o / 2 ^ 19)
    else if w.order = 1 then (ch, fld o 13 10, rowBase + o / 2 ^ 19)
    else (ch, o / 2 ^ (w.size - 4) % 16, rowBase + (o % 2 ^ (w.size - 4)) / 2 ^ 15)

/-- R340: the row that the remap table redirects an access to. -/
def State.redirect (s : State) (l : Nat × Nat × Nat) : Nat × Nat × Nat :=
  match s.dmc.remap.find? (fun e => e.1 == l.1 && e.2.1 == l.2.1 && e.2.2.1 == l.2.2) with
  | some e => (e.1, e.2.2.2, s.dramRows - 1)
  | none => l

/-- Channel, bank and DRAM row that an access to an address reaches (R321, R340). -/
def State.dramLoc (s : State) (a : Nat) : Nat × Nat × Nat := s.redirect (s.dramDecode a)

/-- Column of an address (Table 12.5). -/
def State.dramCol (s : State) (a : Nat) : Nat :=
  match s.windowOf a with
  | none => 0
  | some (_, w) => if !w.scattered && w.order == 1 then fld (a - w.base) 18 14 else fld (a - w.base) 14 10

/-- The address of a line of a window from its channel, bank, row within the window and column: R321 the other way. -/
def Window.lineAt (w : Window) (c b row col : Nat) : Nat :=
  if w.scattered then
    let pre := (List.range 4).foldl (fun k i => k + ((bit b i + parity (row &&& w.xmask.getD i 0)) % 2) * 2 ^ i) 0
    w.base + row * 2 ^ 19 + pre * 2 ^ 15 + col * 2 ^ 10 + c * 64
  else if w.order = 0 then w.base + row * 2 ^ 19 + b * 2 ^ 15 + col * 2 ^ 10 + c * 64
  else if w.order = 1 then w.base + row * 2 ^ 19 + col * 2 ^ 14 + b * 2 ^ 10 + c * 64
  else w.base + b * 2 ^ (w.size - 4) + row * 2 ^ 15 + col * 2 ^ 10 + c * 64

/-- The addresses of the lines that a DRAM row holds: a spare in use holds those of the row it stands in for (R340). -/
def State.rowLines (s : State) (c b r : Nat) : List Nat :=
  let (b, r) := if r + 1 = s.dramRows then
      match s.dmc.remap.find? (fun e => e.1 == c && e.2.2.2 == b) with
      | some e => (e.2.1, e.2.2.1)
      | none => (b, r)
    else (b, r)
  match (s.windows.map (·.2) ++ [s.fixedWindow]).find? (fun w =>
      let base := (w.base - dramBase) / 2 ^ 19
      decide (base ≤ r) && decide (r < base + 2 ^ (w.size - 19))) with
  | none => []
  | some w => (List.range 32).map (fun col => w.lineAt c b (r - (w.base - dramBase) / 2 ^ 19) col)

/-- Address of the check line that serves a data line of a protected window (R323, R319). -/
def checkLine (n : Nat) (w : Window) (a : Nat) : Nat :=
  let line := (a - w.base) / 64
  w.base + (if n = 8 then 12 * 2 ^ 20 else 7 * 2 ^ w.size / 8) + 64 * (line / 8)

/-- R324: a line of DRAM whose uncorrectable fault stands, in itself or in its check line. -/
def State.lineBad (s : State) (a : Nat) : Option Bool :=
  if s.dmc.badLines.isEmpty && s.dmc.badChecks.isEmpty then none
  else match s.windowOf a with
    | none => none
    | some (n, w) =>
      if w.ecc && s.dmc.badChecks.contains (checkLine n w a) then some true
      else if s.dmc.badLines.contains (a / 64 * 64) then some false
      else none

/-- A line holds a poison mark. -/
def State.marked (s : State) (a : Nat) : Bool := sget false s.poison (s.place a / 64)

/-- A line reads with poison: it holds a mark, or its fault stands. -/
def State.poisoned (s : State) (a : Nat) : Bool := s.marked a || (s.lineBad a).isSome

/-- Some byte of the range lies in a poisoned line. -/
def State.rangePoisoned (s : State) (a n : Nat) : Bool := (linesOf a n).any (fun l => s.poisoned l)

/-- A byte address that memory has for a plain access: the Granary once its self-test is complete (R80), or usable DRAM. -/
def State.mapped (s : State) (a : Nat) : Bool := inGranary a || s.dramUsable a

/-- Every line of a DRAM range may be accessed (R26, R322). -/
def State.dramAll (s : State) (a n : Nat) : Bool := (linesOf a n).all (fun l => s.dramUsable l)

/-- R26: an access that is not performed: reported with the requester and the address and kept in GBL_ADDR_LAST. -/
def State.unmapped (s : State) (client a : Nat) (regSpace : Bool) : State :=
  let s := s.wr GBL_ADDR_LAST_LO (a % 2 ^ 32)
  let s := s.wr GBL_ADDR_LAST_HI ((a / 2 ^ 32) % 256 + (client % 32) * 256 + b2n regSpace * 2 ^ 13)
  s.report Ev.GBL_ADDR_UNMAPPED [client, a % 2 ^ 32, a / 2 ^ 32]

/-- The first address of a DRAM range that an access may not reach, reported (R26). -/
def State.unmappedIn (s : State) (client a n : Nat) : State :=
  match (linesOf a n).find? (fun l => !s.dramUsable l) with
  | some l => s.unmapped client (max a l) false
  | none => s

/-- R325: a line of DRAM written as poisoned: the marker in a protected window; elsewhere the data alone, reported once per
window and tick. -/
def State.poisonDram (s : State) (a : Nat) : State :=
  match s.windowOf a with
  | none => s
  | some (n, w) =>
    if w.ecc then s.setPoison a true
    else if s.dmc.unprotTick.contains n then s
    else
      let s := s.report Ev.DMC_POISON_UNPROTECTED [a % 2 ^ 32, a / 2 ^ 32]
      { s with dmc := { s.dmc with unprotTick := n :: s.dmc.unprotTick } }

/-! ### DRAM requests (R321 to R323, R327, R335) -/

/-- Kinds of DRAM command in the outputs: activate, read, write, precharge, REFpb, self-refresh entry and exit, precharge-all. A
read or write names its bank and column, bank + 16 × column (R321). -/
def cmdAct : Nat := 1
def cmdRead : Nat := 2
def cmdWrite : Nat := 3
def cmdPre : Nat := 4
def cmdRef : Nat := 5
def cmdSre : Nat := 6
def cmdSrx : Nat := 7
def cmdPreAll : Nat := 8

/-- A channel. -/
def State.chan (s : State) (c : Nat) : Chan := sget Chan.init s.dmc.chans c

/-- A channel changed. -/
def State.setChan (s : State) (c : Nat) (x : Chan) : State :=
  { s with dmc := { s.dmc with chans := sset Chan.init s.dmc.chans c x } }

/-- Requests of a bank, oldest first. -/
def Chan.ofBank (x : Chan) (b : Nat) : List DramReq := x.queue.filter (fun r => r.bank == b)

/-- Requests that wait take free entries in order (R327). -/
def chanServeWait : Nat → Chan → Chan
  | 0, x => x
  | fuel + 1, x =>
    let room (r : DramReq) : Bool :=
      decide (x.queue.length + x.issued.length < if r.stream then 128 else 112) && decide ((x.ofBank r.bank).length < 32)
    match x.wait.find? room with
    | none => x
    | some r => chanServeWait fuel { x with wait := x.wait.erase r, queue := x.queue ++ [r] }

/-- The write drain of R328: it starts at 64 writes and ends at 16. -/
def Chan.updateDrain (x : Chan) : Chan :=
  let n := (x.queue.filter (fun r => r.write)).length
  { x with drain := if 64 ≤ n then true else if n ≤ 16 then false else x.drain }

/-- A DRAM command put out; none after a power-loss trigger (R326). -/
def State.putDram (s : State) (c kind arg : Nat) : State := if s.panelLost then s else s.put (.dram c kind arg)

/-- The exit from self-refresh. -/
def State.srExit (s : State) : State :=
  if s.panelLost then s
  else
  let s := (List.range 16).foldl (fun s c => (s.setChan c { s.chan c with lastRef := s.now }).putDram c cmdSrx 0) s
  { s.wrF DMC_STATUS 3 3 0 with dmc := { s.dmc with sr := .off } }

/-- An entry that has not reached its commit point is cancelled. -/
def State.srCancel (s : State) : State :=
  if s.dmc.sr = .entering then { s with dmc := { s.dmc with sr := .off, freqEntry := false } } else s

/-- A request queued on its channel (R327). -/
def State.queueReq (s : State) (c : Nat) (r : DramReq) : State :=
  let x := s.chan c
  let y := { x with wait := x.wait ++ [r] }
  s.setChan c (chanServeWait y.wait.length y).updateDrain

/-- R330: where the check line of a protected data line lies. -/
def State.checkLoc (s : State) (a : Nat) : Option (Nat × Nat × Nat) :=
  match s.windowOf a with
  | some (n, w) => if w.ecc then some (s.dramLoc (checkLine n w a)) else none
  | none => none

/-- One line request of the device's own or of a DRAM_REQUEST reaches the controller (R335): it cancels an entry that has not
reached its commit point, and ends self-refresh once the minimum residency is over. -/
def State.arrive (s : State) (c : Nat) (r : DramReq) : State :=
  let s := if s.dmc.sr = .entering then (s.bump DMC_SR_CANCEL_TOTAL).srCancel else s
  let s := s.queueReq c r
  if s.dmc.sr = .residencyOver then s.srExit else s

/-- A request of the device's own for the line at an address. -/
def State.ownReq (s : State) (client : Nat) (stream write : Bool) (a : Nat) : DramReq :=
  { stream := stream, write := write, addr := a, bank := (s.dramLoc a).2.1, row := (s.dramLoc a).2.2, client := client
    data := [], poison := false, time := s.now, chk := s.checkLoc a, own := true }

/-- A check line leaves the full cache (R323): which one is a free value (log entry 152); one that was written is written
back. -/
def State.cacheEvict (s : State) : State :=
  let (d, s) := s.draw
  match s.dmc.cache[Config.evictLine d % s.dmc.cache.length]? with
  | none => s
  | some e =>
    let s : State := { s with dmc := { s.dmc with cache := s.dmc.cache.erase e } }
    if e.2 then s.queueReq (s.dramLoc e.1).1 (s.ownReq 0x0B false true e.1) else s

/-- R323: the check line of a protected line is in the check cache: fetched on a miss, and marked when the line is written. -/
def State.cacheLine (s : State) (stream write : Bool) (a : Nat) : State :=
  match s.windowOf a with
  | none => s
  | some (n, w) =>
    let k := checkLine n w a
    if !w.ecc then s
    else match s.dmc.cache.find? (fun e => e.1 == k) with
    | some e => if write && !e.2 then { s with dmc := { s.dmc with
        cache := s.dmc.cache.map (fun q => if q.1 == k then (k, true) else q) } } else s
    | none =>
      let s := if 1024 ≤ s.dmc.cache.length then s.cacheEvict else s
      let s : State := { s with dmc := { s.dmc with cache := s.dmc.cache ++ [(k, write)] } }
      s.queueReq (s.dramLoc k).1 (s.ownReq 0x0B stream false k)

/-- R323, R335: every check line that was written is written back. -/
def State.cacheFlush (s : State) : State :=
  let dirty := s.dmc.cache.filter (fun e => e.2)
  let s : State := { s with dmc := { s.dmc with cache := s.dmc.cache.map (fun e => (e.1, false)) } }
  dirty.foldl (fun s e => s.queueReq (s.dramLoc e.1).1 (s.ownReq 0x0B false true e.1)) s

/-- A line that the device itself reads or writes in DRAM becomes a request of its channel (R327, log entry 150). -/
def State.queueLine (s : State) (client : Nat) (stream write : Bool) (a : Nat) : State :=
  (s.arrive (s.dramLoc a).1 (s.ownReq client stream write a)).cacheLine stream write a

/-- A line's data line fault, while it stands, goes with a write of the whole line (R325). -/
def State.lineRenewed (s : State) (a : Nat) : State :=
  if s.dmc.badLines.contains a then { s with dmc := { s.dmc with badLines := s.dmc.badLines.filter (· != a) } } else s

/-- A range of DRAM that the device writes: a request for each usable line (R327). -/
def State.queueWrite (s : State) (client a n : Nat) : State :=
  ((linesOf a n).filter s.dramUsable).foldl (fun s l =>
    let s := s.queueLine client false true l
    if a ≤ l ∧ l + 64 ≤ a + n then s.lineRenewed l else s) s

/-- Bytes that a client writes to DRAM: an access that R26 forbids is not performed; the others are unscheduled requests
(R327). -/
def State.dramSet (s : State) (client a : Nat) (b : Bytes) : State :=
  if s.dramAll a b.length then (s.queueWrite client a b.length).memSet a b else s.unmappedIn client a b.length

end Sys2Proof.Machine
end

