-- ==== Sys2Proof/Machine/Granary.lean ====
section
/-! DEFINITION. The Granary (chapter "The Granary central store"): plots, credits, arbitration, accesses with ECC and
poison, self-test and retirement, the audit and the build of the plot map. -/
namespace Sys2Proof.Machine

/-! ### Holding a stage (R409) -/

/-- R409, R458: the device holds at the stage it has reached, with the event that caused the hold. -/
def State.holdStage (s : State) (code : Nat) : State :=
  let st := s.stageNow
  let s := (s.wrF UPD_BOOT_STATUS 3 3 1).wrF GBL_STATE 3 3 1
  let s := s.wr UPD_STAGE_HOLD (code + st * 2 ^ 16)
  let s := s.report Ev.UPD_STAGE_HELD [st, code]
  let s : State := { s with ev := { s.ev with
    flashPend := s.ev.flashPend ++ [LogItem.boot (s.rd UPD_BOOT_STATUS) (s.rd UPD_STAGE_TIME) (s.sramLe 0x108 4)] } }
  s.put (.uart (.hold code))

/-! ### The GRANARY_MAP section (R67) -/

/-- A partition record (Table 3.1). -/
structure Part where
  id : Nat
  client : Nat
  first : Nat
  count : Nat
  isStatic : Bool
  overflow : Bool
deriving DecidableEq, Repr

/-- The partition records of a GRANARY_MAP section. -/
def grnParts (b : Bytes) : List Part :=
  (List.range (leAt b 0 2)).map (fun i =>
    let o := 16 + 8 * i
    { id := byteAt b o, client := byteAt b (o + 1), first := leAt b (o + 2) 2, count := leAt b (o + 4) 2
      isStatic := bit (byteAt b (o + 6)) 0 == 1, overflow := bit (byteAt b (o + 6)) 1 == 1 })

/-- A plot lies in a partition. -/
def Part.has (p : Part) (n : Nat) : Bool := decide (p.first ≤ n) && decide (n < p.first + p.count)

/-- The GRANARY_MAP section of the running plan. -/
def State.grnMap (s : State) : Bytes :=
  match s.fpl.plan with
  | none => []
  | some p => p.sec 0x03 0

/-- The partitions in force. -/
def State.parts (s : State) : List Part := grnParts s.grnMap

/-- The partition that a PART_ID names. -/
def State.partOf (s : State) (id : Nat) : Option Part := s.parts.find? (fun p => p.id == id)

/-- The first partition of a client. -/
def State.clientPart (s : State) (c : Nat) : Option Part := s.parts.find? (fun p => p.client == c)

/-- A plot lies in the spare pool in force. -/
def State.isSpare (s : State) (n : Nat) : Bool :=
  s.fpl.plan.isSome && decide (leAt s.grnMap 2 2 ≤ n) && decide (n < leAt s.grnMap 2 2 + leAt s.grnMap 4 2)

/-- A plot lies in the general pool in force. -/
def State.isGeneral (s : State) (n : Nat) : Bool :=
  s.fpl.plan.isSome && !s.isSpare n && !s.parts.any (fun p => p.has n)

/-! ### The plot state table and its counters (R70, R86) -/

/-- The state table's entry of a logical plot. -/
def State.plot (s : State) (n : Nat) : Plot := sget Plot.free s.grn.plots n

/-- The counter register of a plot state (R86). -/
def plotCounter (st : Nat) : Nat :=
  if st = 0 then GRN_COUNT_FREE else if st = 1 then GRN_COUNT_ALLOCATED else if st = 2 then GRN_COUNT_IN_FLIGHT
  else GRN_COUNT_RETIRED

/-- A plot's entry changed, with the counters of the states it leaves and enters. -/
def State.setPlot (s : State) (n : Nat) (p : Plot) : State :=
  let old := (s.plot n).state
  let s := { s with grn := { s.grn with plots := sset Plot.free s.grn.plots n p } }
  let s := s.wr (plotCounter old) (s.rd (plotCounter old) - 1)
  s.wr (plotCounter p.state) (s.rd (plotCounter p.state) + 1)

/-- A client's own record gains a plot. -/
def State.holdPlot (s : State) (c n : Nat) : State := { s with grn := { s.grn with held := s.grn.held ++ [(c, n)] } }

/-- A client's own record loses a plot. -/
def State.dropPlot (s : State) (c n : Nat) : State :=
  { s with grn := { s.grn with held := s.grn.held.filter (fun h => !(h == (c, n))) } }

/-- A plot allocated to a client. -/
def State.allocPlot (s : State) (c n : Nat) : State := (s.setPlot n ⟨1, c, 0, 0⟩).holdPlot c n

/-- The first FREE plot of a range. -/
def State.freeIn (s : State) (first count : Nat) : Option Nat :=
  (List.range' first count).find? (fun n => (s.plot n).state == 0)

/-- General-pool plots a client holds. -/
def State.generalHeld (s : State) (c : Nat) : Nat :=
  (s.grn.held.filter (fun h => h.1 == c && s.isGeneral h.2)).length

/-- The cap of a client (GRN_CLIENT_CAP). -/
def State.clientCap (s : State) (c : Nat) : Nat := sget 0x400 s.grn.caps c

/-- The plot a request of a client takes (R70): from its own partition first, then from the general pool within its cap; before
a plan, any FREE plot of the built-in allocator (R80). No plot means no credit. -/
def State.plotFor (s : State) (c : Nat) : Option Nat :=
  if s.fpl.plan.isNone then s.freeIn 0 16384
  else
    match (s.parts.filter (fun p => p.client == c)).findSome? (fun p => s.freeIn p.first p.count) with
    | some n => some n
    | none =>
      if s.parts.any (fun p => p.client == c && p.overflow) && decide (s.generalHeld c < s.clientCap c) then
        (List.range 16384).find? (fun n => s.isGeneral n && (s.plot n).state == 0)
      else none

/-- A plot of a STATIC partition, which stays allocated while the plan runs (R67). -/
def State.inStatic (s : State) (n : Nat) : Bool := s.parts.any (fun p => p.isStatic && p.has n)

/-- Clients that wait are served in order as long as they have credit (R70). -/
def State.serveWaiting (s : State) : State :=
  s.grn.waiting.foldl (fun s c =>
    match s.plotFor c with
    | some n => { s.allocPlot c n with grn := { (s.allocPlot c n).grn with waiting := s.grn.waiting.erase c } }
    | none => s) s

/-! ### The retire list (R81, R83) -/

/-- The retire list of the Seedbank. -/
def State.retireList (s : State) : List Nat :=
  ((List.range 64).map (fun i => s.sramLe (0x200 + 2 * i) 2)).filterMap
    (fun e => if 0x8000 ≤ e then some (e % 2 ^ 14) else none)

/-- A physical plot is on the retire list or its volatile extension. -/
def State.isRetired (s : State) (p : Nat) : Bool := s.retireList.contains p || s.grn.extension.contains p

/-- A physical plot added to the Seedbank retire list, if it has room: the flag says whether it had. -/
def State.addRetired (s : State) (p : Nat) : State × Bool :=
  if s.retireList.contains p then (s, true)
  else match (List.range 64).find? (fun i => s.sramLe (0x200 + 2 * i) 2 < 0x8000) with
    | some i => (s.sramWrite (0x200 + 2 * i) (toLe 2 (p + 0x8000)), true)
    | none => (s, false)

/-- GRN_SPARES_EXHAUSTED, with its status bit. -/
def State.sparesExhausted (s : State) : State := (s.wrF GRN_STATUS 4 4 1).report Ev.GRN_SPARES_EXHAUSTED []

/-! ### The build of the plot map (R81) -/

/-- R81: the plot map and the plot states are built from the plan just put in force: the identity, the retired plots
exchanged into the spare pool in ascending order, the STATIC partitions allocated. Retired plots beyond the 64 that the spare pool
takes are not exchanged (DESIGN CHOICE, log entry 240). -/
def State.buildPlotMap (s : State) : State :=
  let spare := leAt s.grnMap 2 2
  let retired := (List.range 16384).filter (fun p => s.isRetired p)
  let s : State := { s with grn := { s.grn with map := [], plots := [], held := [], waiting := [], test := none } }
  let s := (((s.wr GRN_COUNT_FREE 16384).wr GRN_COUNT_ALLOCATED 0).wr GRN_COUNT_IN_FLIGHT 0).wr GRN_COUNT_RETIRED 0
  let s := s.parts.foldl (fun s p =>
    if p.isStatic then (List.range' p.first p.count).foldl (fun s n => s.allocPlot p.client n) s else s) s
  (retired.take (leAt s.grnMap 4 2)).mapIdx (fun i p => (spare + i, p)) |>.foldl (fun s e =>
    let l := s.logicalOf e.2
    let q := s.physOf e.1
    let s := { s with grn := { s.grn with map := sset e.1 (sset l s.grn.map l q) e.1 e.2 } }
    s.setPlot e.1 ⟨3, 0, 0, 0⟩) s

/-! ### Errors (R76 to R79) -/

/-- GRN_ECC_LAST of a data line. -/
def eccLoc (phys line word : Nat) : Nat := phys + line * 2 ^ 14 + word * 2 ^ 20

/-- A targeted self-test of a physical plot queued. -/
def State.queuePlot (s : State) (p : Nat) (faulted : Bool) : State :=
  s.queueTestLim 1 p faulted 32 GRN_SELFTEST_DROPPED_TOTAL

/-- R76: a correctable error. -/
def State.grnCorrected (s : State) (phys line word : Nat) : State :=
  let s := (s.bump GRN_ECC_CE_TOTAL).wr GRN_ECC_LAST (eccLoc phys line word)
  let s := { s with grn := { s.grn with writeBacks := s.grn.writeBacks ++ [(phys, line, word)] } }
  let s := if s.grn.ceTick.contains phys then s
    else { s.report Ev.GRN_ECC_CORRECTED [] with
      grn := { (s.report Ev.GRN_ECC_CORRECTED []).grn with ceTick := phys :: s.grn.ceTick } }
  s.queuePlot phys true

/-- R77: an uncorrectable error poisons the line. -/
def State.grnUncorrectable (s : State) (phys line word : Nat) : State :=
  let s := (s.bump GRN_ECC_UE_TOTAL).wr GRN_ECC_LAST (eccLoc phys line word + 2 ^ 23)
  let s := { s with poison := sset false s.poison ((grnBase + phys * 4096) / 64 + line) true }
  (s.report Ev.GRN_ECC_UNCORRECTABLE [phys, line, word]).queuePlot phys true

/-- R78: a consumer meets a poisoned line, reported once per line and tick. -/
def State.poisonConsumed (s : State) (consumer plot line : Nat) : State :=
  if s.grn.poisonTick.contains (plot, line) then s
  else
    let s := (s.bump GRN_POISON_TOTAL).report Ev.GRN_POISON_CONSUMED [consumer, plot]
    { s with grn := { s.grn with poisonTick := (plot, line) :: s.grn.poisonTick } }

/-! ### The audit (R86, R87) -/

/-- The clients whose own records hold a plot. -/
def State.holdersOf (s : State) (n : Nat) : List Nat := (s.grn.held.filter (fun h => h.2 == n)).map (·.1)

/-- Plots of the table in a state. -/
def State.tableCount (s : State) (st : Nat) : Nat := ((List.range 16384).filter (fun n => (s.plot n).state == st)).length

/-- R86: the three checks. -/
def State.auditPasses (s : State) : Bool :=
  let c := [s.rd GRN_COUNT_FREE, s.rd GRN_COUNT_ALLOCATED, s.rd GRN_COUNT_IN_FLIGHT, s.rd GRN_COUNT_RETIRED]
  c == (List.range 4).map s.tableCount && c.sum == 16384 &&
    (List.range 16384).all (fun n => (s.plot n).state != 1 || (s.holdersOf n).length == 1)

/-- R87: the entry of a plot after the rebuild. The spare of a running self-test counts as a plot with an outstanding access
(DESIGN CHOICE, log entry 314). -/
def State.rebuilt (s : State) (n : Nat) : Plot :=
  match s.holdersOf n with
  | c :: l => ⟨1, l.foldl min c, 0, 0⟩
  | [] =>
    let p := s.plot n
    if p.state = 2 ∧ (p.outstanding ≠ 0 ∨ p.handTo ≠ 0 ∨ (s.grn.test.map (·.spare)) = some n) then p
    else if s.isRetired (s.physOf n) then ⟨3, 0, 0, 0⟩
    else Plot.free

/-- R87: the state rebuilt from the owners' records; the flag says that a plot was revoked. -/
def State.rebuildPlots (s : State) : State × Bool :=
  let revoked := (List.range 16384).flatMap (fun n =>
    let h := s.holdersOf n
    match h with
    | [] => []
    | c :: l => (h.filter (fun d => d != l.foldl min c)).map (fun d => (d, n)))
  let plots := (List.range 16384).foldl (fun m n => sset Plot.free m n (s.rebuilt n)) []
  let s := { s with grn := { s.grn with plots := plots, held := s.grn.held.filter (fun h => !revoked.contains h) } }
  let s := revoked.foldl (fun s _ => s.report Ev.GRN_PLOT_REVOKED []) s
  let s := (((s.wr GRN_COUNT_FREE (s.tableCount 0)).wr GRN_COUNT_ALLOCATED (s.tableCount 1)).wr GRN_COUNT_IN_FLIGHT
    (s.tableCount 2)).wr GRN_COUNT_RETIRED (s.tableCount 3)
  (s, !revoked.isEmpty)

/-- GRN_AUDIT_LAST (Table 3.8). -/
def State.auditLast (s : State) (mismatch revoked : Bool) : State :=
  s.wr GRN_AUDIT_LAST (1 + b2n mismatch * 2 + b2n revoked * 4 + (s.fpl.frame % 2 ^ 16) * 2 ^ 16)

/-- R87: a failed audit: reported, alone or after the table error behind it (R30), then the rebuild, after which clients that wait
may have credit (R70). -/
def State.auditFailed (s : State) (joined : Bool) : State :=
  let s := (s.bump GRN_AUDIT_FAIL_TOTAL).reportAs joined Ev.GRN_PLOT_AUDIT 0 []
  let (s, r) := s.rebuildPlots
  (s.auditLast true r).serveWaiting

/-- R79: an uncorrectable error in a table (0 the plot map, 1 the poison flags, 2 the plot state table). -/
def State.tableError (s : State) (t entry : Nat) : State :=
  let s := (s.bump GRN_ECC_UE_TOTAL).wr GRN_ECC_LAST (entry + 2 ^ 23 + (t + 1) * 2 ^ 24)
  (s.report Ev.GRN_ECC_UNCORRECTABLE [entry, 0, 0x101 + t]).auditFailed true

/-! ### The wheel, arbitration and rights (R72 to R75, R85) -/

/-- Entry of the fixed-slot wheel (R72) of a wheel of 1,024 bytes. -/
def wheelEntry (w : Bytes) (c b : Nat) : Nat := byteAt w (16 * c + b / 2) / (if b % 2 = 0 then 1 else 16) % 16

/-- The wheel of a GRANARY_MAP section (R67). -/
def wheelOf (b : Bytes) : Bytes := sub b (ceilDiv (16 + 8 * leAt b 0 2) 64 * 64) 1024

/-- R72: the entry of bank `b` in the `i`-th core cycle from now. Cycle 0 of the wheel is the start of a furrow slot or the end of
the drain. Before a plan every cycle is unscheduled. -/
def State.wheelAt (s : State) (b i : Nat) : Nat :=
  if s.fpl.plan.isNone then 15 else wheelEntry (wheelOf s.grnMap) ((s.now - s.fpl.slotStart + i) % 64) b

/-- R73: an engine reaches a bank: some cycle of the bank's wheel names it. Before a plan there is no wheel. -/
def State.engineReaches (s : State) (e b : Nat) : Bool :=
  s.fpl.plan.isNone || (List.range 64).any (fun c => wheelEntry (wheelOf s.grnMap) c b == e)

/-- CLIENT of a requester as events name it; an engine stands under the client whose partition it uses. -/
def reqClient : GrnReq → Nat
  | .engine e => match e.val with
    | 0 => 0x05
    | 1 => 0x06
    | 2 => 0x06
    | 3 => 0x08
    | 4 => 0x08
    | 6 => 0x05
    | 7 => 0x07
    | _ => 0
  | .linkRx p => p.val + 1
  | .linkFwd p => p.val + 1
  | .dmcUnsched => 0x05
  | .burin => 0x0A
  | .sowing => 0x0E
  | .thrEnc _ => 0x0F
  | .steward => 0x0B
  | .mgmt => 0x0B
  | .logger => 0x0C
  | .gleaner => 0x10

/-- Clients whose plots a requester may access (Table 3.2). -/
def reqClients : GrnReq → List Nat
  | .engine e => match e.val with
    | 0 => [0x05]
    | 1 => [0x06]
    | 2 => [0x06]
    | 3 => [0x08, 0x09]
    | 4 => [0x08]
    | 6 => [0x05, 0x09]
    | 7 => [0x07]
    | _ => []
  | .linkRx p => [p.val + 1, 0x0D]
  | .linkFwd p => [p.val + 1, 0x0D]
  | .dmcUnsched => [1, 2, 3, 4, 5, 0x0D]
  | r => [reqClient r]

/-- STEWARD and MGMT access every plot (R85). -/
def reqAny : GrnReq → Bool
  | .steward => true
  | .mgmt => true
  | _ => false

/-- Arbitration group and place in it of an unscheduled requester (Table 3.2). -/
def reqGroup : GrnReq → Option (Nat × Nat)
  | .engine _ => none
  | .linkRx p => some (0, 2 * p.val)
  | .linkFwd p => some (0, 2 * p.val + 1)
  | .dmcUnsched => some (1, 0)
  | .burin => some (2, 0)
  | .sowing => some (2, 1)
  | .thrEnc i => some (2, 2 + i.val)
  | .steward => some (3, 0)
  | .mgmt => some (3, 1)
  | .logger => some (3, 2)
  | .gleaner => some (3, 3)

/-- The smooth weighted round robin of R74 over one cycle of bank `b` with active requesters `act`: the group and place
granted. -/
def State.arbCycle (s : State) (b : Nat) (act : List (Nat × Nat)) : State × Option (Nat × Nat) :=
  let w (g : Nat) : Nat := (act.filter (fun a => a.1 == g)).length
  let total := act.length
  let acc := (List.range 4).map (fun g => if w g = 0 then (0 : Int) else sget 0 s.grn.acc (4 * b + g) + (w g : Nat))
  if total = 0 then ({ s with grn := { s.grn with acc := (List.range 4).foldl (fun m g => sset 0 m (4 * b + g) 0) s.grn.acc } }, none)
  else
    let best := (List.range 4).foldl (fun (m : Option Nat) g =>
      if w g = 0 then m else match m with
        | none => some g
        | some h => if acc.getD h 0 < acc.getD g 0 then some g else some h) none
    let g := best.getD 0
    let acc := modAt acc g (fun a => a - (total : Nat))
    let last := sget 0 s.grn.last (4 * b + g)
    let places := (act.filter (fun a => a.1 == g)).map (·.2)
    let next := match (List.range 8).find? (fun i => places.contains ((last + 1 + i) % 8)) with
      | some i => (last + 1 + i) % 8
      | none => 0
    ({ s with grn := { s.grn with
        acc := (List.range 4).foldl (fun m h => sset 0 m (4 * b + h) (acc.getD h 0)) s.grn.acc
        last := sset 0 s.grn.last (4 * b + g) next } }, some (g, next))

/-- An unscheduled grant counted for a client (GRN_CLIENT_GRANTS). -/
def State.countGrant (s : State) (c : Nat) : State :=
  { s with grn := { s.grn with grants := smod 0 s.grn.grants c (fun n => satN 32 (n + 1)) } }

/-- R75: the oldest corrected word of a bank, by physical plot, line and word. -/
def State.writeBackOf (s : State) (b : Nat) : Option (Nat × Nat × Nat) := s.grn.writeBacks.find? (fun w => w.1 % 32 == b)

/-- R75: the oldest corrected word of a bank is written back. -/
def State.wordBack (s : State) (b : Nat) : State :=
  match s.writeBackOf b with
  | none => s
  | some w => { s with grn := { s.grn with writeBacks := s.grn.writeBacks.erase w } }

/-- R75: the bank whose corrected word is the next to be written back: the one that waits and comes first to an unscheduled cycle
of its wheel; of banks that come to it in one cycle, the lowest (log 287). -/
def State.nextWriteBack (s : State) : Option Nat :=
  (List.range 64).findSome? (fun i => (List.range 32).find? (fun b => (s.writeBackOf b).isSome && s.wheelAt b i == 15))

/-- The cycles of a bank, from the `i`-th on, until a requester is granted, with its rivals active throughout. A cycle that names an
engine with a request pending is the engine's (R73); an unscheduled cycle goes first to a pending write-back (R75), then to the
arbiter (R74), and so does a cycle whose engine has no request. -/
def State.arbitrate (req : GrnReq) (rivals : List GrnReq) (b : Nat) : Nat → Nat → State → State
  | 0, _, s => s
  | fuel + 1, i, s =>
    match reqGroup req with
    | none => s
    | some me =>
      let e := s.wheelAt b i
      if rivals.any (fun q => q == .engine (Fin.ofNat 8 e)) && decide (e < 8) then arbitrate req rivals b fuel (i + 1) s
      else if e = 15 ∧ (s.writeBackOf b).isSome then arbitrate req rivals b fuel (i + 1) (s.wordBack b)
      else
        let all := (req :: rivals).dedup
        let act := all.filterMap reqGroup
        let r := s.arbCycle b act
        match r.2 with
        | none => r.1
        | some win =>
          let who := (all.find? (fun q => reqGroup q == some win)).getD req
          let s := r.1.countGrant (reqClient who)
          if win = me then s else arbitrate req rivals b fuel (i + 1) s

/-- Cycles that a bank's pending write-backs and 64 grants of rivals take at most: each in one of the 32 unscheduled cycles of
64. -/
def State.arbFuel (s : State) : Nat := 256 + 2 * s.grn.writeBacks.length

/-- An unscheduled access to each Granary line of a range, without rivals: the grants that the arbiter gives and counts (R74,
R66). -/
def State.grantRange (s : State) (req : GrnReq) (a n : Nat) : State :=
  ((linesOf a n).filter inGranary).foldl (fun s l => State.arbitrate req [] (s.physOf (plotOf l) % 32) s.arbFuel 0 s) s

/-- R85: the requester may access a logical plot. -/
def State.mayAccess (s : State) (req : GrnReq) (n : Nat) : Bool :=
  reqAny req || (reqClients req).contains (s.plot n).owner ||
    s.parts.any (fun p => (reqClients req).contains p.client && p.has n)

/-- GRN_STATUS.READY (R80). -/
def State.grnReady (s : State) : Bool := s.rdF GRN_STATUS 0 0 == 1

/-- The Granary takes accesses: after its self-test and from stage S3 on (R80, R440, R454). -/
def State.grnOpen (s : State) : Bool := s.grnReady && decide (3 ≤ s.stageNow)

/-- R80: an access that comes too early is reported while the self-test is not complete. -/
def State.grnEarly (s : State) : State := if s.grnReady then s else s.report Ev.GRN_NOT_READY []

/-- The checks that come before any access (R80, R84, R85): a status other than OK means the access is not performed. -/
def State.grnCheck (s : State) (req : GrnReq) (n : Nat) : State × Nat :=
  if !s.grnOpen then (s.grnEarly, 5)
  else if (s.plot n).state = 3 then (s.report Ev.GRN_RETIRED_ACCESS [reqClient req], 1)
  else if !s.mayAccess req n then (s.report Ev.GRN_ACCESS_VIOLATION [reqClient req, n], 3)
  else (s, 0)

/-! ### The accesses of the scheduled engines (R73, R84, R85) -/

/-- The logical plots that a range of the Granary touches. -/
def plotsIn (a n : Nat) : List Nat := if n = 0 then [] else List.range' (plotOf a) (plotOf (a + n - 1) - plotOf a + 1)

/-- An engine's access to a plot is performed: the wheel of the plot's bank names the engine (R73), the plot is not RETIRED (R84)
and the engine may access it (R85). -/
def State.engineMay (s : State) (e n : Nat) : Bool :=
  s.engineReaches e (s.physOf n % 32) && (s.plot n).state != 3 && s.mayAccess (.engine (Fin.ofNat 8 e)) n

/-- Every access of an engine to a range is performed. -/
def State.engineAll (s : State) (e a n : Nat) : Bool := (plotsIn a n).all (s.engineMay e)

/-- The accesses of an engine to a range that are not performed: each line of a RETIRED or foreign plot is reported (R84, R85);
for a bank whose wheel never names the engine, the engine goes on waiting and its record does not end (R73; DEDUCED, log entry
292). -/
def State.engineRefuse (s : State) (e a n : Nat) : State :=
  (plotsIn a n).foldl (fun s p =>
    let lines := ((linesOf a n).filter (fun l => plotOf l == p)).length
    if !s.engineReaches e (s.physOf p % 32) then { s with fpl := { s.fpl with stalled := e :: s.fpl.stalled.filter (· != e) } }
    else if (s.plot p).state = 3 then
      (List.range lines).foldl (fun s _ => s.report Ev.GRN_RETIRED_ACCESS [reqClient (.engine (Fin.ofNat 8 e))]) s
    else if !s.mayAccess (.engine (Fin.ofNat 8 e)) p then
      (List.range lines).foldl (fun s _ => s.report Ev.GRN_ACCESS_VIOLATION [reqClient (.engine (Fin.ofNat 8 e)), p]) s
    else s) s

/-- Bytes that an engine writes: the part in each plot is stored when the engine's access to it is performed. -/
def State.engineSet (s : State) (e a : Nat) (b : Bytes) : State :=
  if s.engineAll e a b.length then s.memSet a b
  else
    let t := (plotsIn a b.length).foldl (fun t p =>
      let lo := max a (grnBase + 4096 * p)
      let hi := min (a + b.length) (grnBase + 4096 * p + 4096)
      if s.engineMay e p then t.memSet lo (sub b (lo - a) (hi - lo)) else t) s
    t.engineRefuse e a b.length

/-- R85: a client may access a plot. -/
def State.clientMay (s : State) (c n : Nat) : Bool :=
  c == 0x0B || (s.plot n).owner == c && (s.plot n).state == 1 || s.parts.any (fun p => p.client == c && p.has n)

/-- A range lies in memory the client may access: mapped DRAM, or Granary plots after the self-test (R80) that are not RETIRED
(R84) and that R85 lets it access. -/
def State.rangeMay (s : State) (c a n : Nat) : Bool :=
  (linesOf a n).all (fun l =>
    if inGranary l then s.grnOpen && (s.plot (plotOf l)).state != 3 && s.clientMay c (plotOf l) else s.dramUsable l)

/-- A range access that is not performed: its first line that fails is reported, under R26, R80, R84 or R85. -/
def State.refuseRange (s : State) (c a n : Nat) : State :=
  match (linesOf a n).find? (fun l => !s.rangeMay c l 1) with
  | none => s
  | some l =>
    if !inGranary l then s.unmapped c (max a l) false
    else if !s.grnOpen then s.grnEarly
    else if (s.plot (plotOf l)).state = 3 then s.report Ev.GRN_RETIRED_ACCESS [c]
    else s.report Ev.GRN_ACCESS_VIOLATION [c, plotOf l]

/-- The first of several ranges (address and length) that a client cannot use, reported. -/
def State.refuseFirst (s : State) (c : Nat) (ranges : List (Nat × Nat)) : State :=
  match ranges.find? (fun r => !s.rangeMay c r.1 r.2) with
  | some r => s.refuseRange c r.1 r.2
  | none => s

/-- The poisoned lines of a range met by a client: reported under R78 for the Granary, counted for DRAM (R325). -/
def State.consumePoison (s : State) (c a n : Nat) : State :=
  ((linesOf a n).filter (fun l => s.marked l)).foldl (fun s l =>
    if inGranary l then s.poisonConsumed c (plotOf l) (l / 64 % 64) else s.bump DMC_POISON_READ_TOTAL) s

/-- The error an access meets, handled. -/
def State.grnErrOf (s : State) (phys line : Nat) : GrnErr → State
  | .clean => s
  | .corrected w => s.grnCorrected phys line w.val
  | .uncorrectable w => s.grnUncorrectable phys line w.val
  | .table t e => s.tableError t.val e.val

/-- One access to a line (R66, R76 to R78, R80, R84, R85). A read of a poisoned line delivers its data with the indication (R77), to
a host zeros (Table 17.2). -/
def State.grnAccess (s : State) (req : GrnReq) (n line off len : Nat) (write : Option Bytes) (poisonIn : Bool)
    (err : GrnErr) : State :=
  let (s, st) := s.grnCheck req n
  if st ≠ 0 then s.resultBytes st []
  else
    let a := grnBase + n * 4096 + line * 64 + off
    match write with
    | some d =>
      let d := d.take (64 - off)
      let s := match err with
        | .table t e => s.tableError t.val e.val
        | _ => if d.length = 64 then s else s.grnErrOf (s.physOf n) line err
      let s := s.memSet a d
      let s := if poisonIn then s.setPoison a true else s
      s.resultBytes 0 []
    | none =>
      let s := s.grnErrOf (s.physOf n) line err
      let d := s.memGet a (min len (64 - off))
      if s.poisoned a then
        (s.poisonConsumed (reqClient req) n line).resultBytes 4 (if req = .mgmt then List.replicate d.length 0#8 else d)
      else s.resultBytes 0 d

/-! ### Register views -/

/-- GRN_STATUS.QUEUED: 0 to 32 tests in a field of 5 bits; what it reads with 32 queued is a free value (log entry 242). -/
def State.grnQueued (s : State) : Nat :=
  let n := (s.tests.filter (fun t => t.kind == 1)).length
  if n < 32 then n else (Config.openRead GRN_STATUS n).toNat % 32

/-- Unscheduled grants counted for a client since the last read; LOGGER's writes into the event ring are among those of client
EVENTS. -/
def State.grantsOf (s : State) (c : Nat) : Nat := satN 32 (sget 0 s.grn.grants c + if c = 0x0C then s.ev.grants else 0)

/-- The registers of the block whose value is computed when read. -/
def State.grnView (s : State) (a : Nat) : Option Nat :=
  let sel := s.rd GRN_CLIENT_SEL
  if a = GRN_STATUS then
    some (s.rd GRN_STATUS + b2n s.grn.test.isSome * 4 +
      b2n (s.fpl.plan.isSome && decide (((List.range 16384).filter (fun n => s.isSpare n && (s.plot n).state == 0)).length < 8)) * 8 +
      s.grnQueued * 256)
  else if a = GRN_SPARE_FREE then
    some ((List.range 16384).filter (fun n => s.isSpare n && (s.plot n).state == 0)).length
  else if a = GRN_PART_BASE then
    some (match s.partOf (s.rd GRN_PART_QUERY) with
      | some p => p.first + p.client * 2 ^ 16 + 2 ^ 24
      | none => 0)
  else if a = GRN_PART_STATE then
    some (match s.partOf (s.rd GRN_PART_QUERY) with
      | some p => p.count + ((List.range' p.first p.count).filter (fun n => (s.plot n).state == 1)).length * 2 ^ 16
      | none => 0)
  else if a = GRN_CLIENT_CAP then some (s.clientCap sel)
  else if a = GRN_CLIENT_HELD then
    some ((s.grn.held.filter (fun h => h.1 == sel)).length + s.generalHeld sel * 2 ^ 16)
  else if a = GRN_CLIENT_GRANTS then some (s.grantsOf sel)
  else if a = GRN_MAP_RESULT then
    let n := s.rd GRN_MAP_QUERY
    some (s.physOf n + (s.plot n).state * 2 ^ 16 + (if (s.plot n).state = 1 then (s.plot n).owner else 0) * 2 ^ 24)
  else if a = GRN_RETIRE_LIST then
    let i := s.rd GRN_RETIRE_IDX
    some (if i < 64 then
        let e := s.sramLe (0x200 + 2 * i) 2
        if 0x8000 ≤ e then e % 2 ^ 14 + 2 ^ 31 else 0
      else match s.grn.extension[i - 64]? with
        | some p => p + 2 ^ 31
        | none => 0)
  else none

/-! ### The commands -/

/-- PLOT_REQUEST (R70): a client with credit gets a plot; one without waits. The plot number is the result. -/
def execPlotRequest (client : Fin 32) (s : State) : Host.Outcome State Fault Refusal :=
  .next <|
    if !s.grnReady then (s.report Ev.GRN_NOT_READY []).result 5 0
    else match s.plotFor client.val with
    | some n => (s.allocPlot client.val n).result 0 n
    | none =>
      let s := if s.grn.waiting.contains client.val then s
        else { s with grn := { s.grn with waiting := s.grn.waiting ++ [client.val] } }
      s.result 5 0

/-- PLOT_RELEASE (R70): the holder's plot becomes FREE, IN_FLIGHT while accesses run, or is handed over; the credit that returns
serves clients that wait. A plot of a STATIC partition stays allocated (R67). -/
def execPlotRelease (client : Fin 32) (plot : Fin 16384) (outstanding : Nat) (receiver : Option (Fin 32)) (s : State) :
    Host.Outcome State Fault Refusal :=
  let n := plot.val
  .next <|
    if (s.plot n).state ≠ 1 || (s.plot n).owner ≠ client.val || s.inStatic n then s
    else
      let s := s.dropPlot client.val n
      (match receiver with
      | some r => s.setPlot n ⟨2, client.val, outstanding, r.val⟩
      | none =>
        if outstanding = 0 then s.setPlot n Plot.free
        else s.setPlot n ⟨2, client.val, outstanding, 0⟩).serveWaiting

/-- PLOT_ACCESS_COMPLETE (R70): an outstanding access ends; after the last one a plot that no handover holds is FREE. -/
def execPlotAccessComplete (plot : Fin 16384) (s : State) : Host.Outcome State Fault Refusal :=
  let p := s.plot plot.val
  .next <|
    if p.state ≠ 2 || p.outstanding = 0 then s
    else if p.outstanding = 1 && p.handTo = 0 then (s.setPlot plot.val Plot.free).serveWaiting
    else s.setPlot plot.val { p with outstanding := p.outstanding - 1 }

/-- PLOT_HANDOVER_ACCEPT (R70): the named receiver holds the plot. -/
def execPlotHandoverAccept (client : Fin 32) (plot : Fin 16384) (s : State) : Host.Outcome State Fault Refusal :=
  let p := s.plot plot.val
  .next (if p.state = 2 ∧ p.handTo ≠ 0 ∧ p.handTo = client.val then s.allocPlot client.val plot.val else s)

/-- PLOT_HANDOVER_TIMEOUT (R70): the plot returns to the giver's free list. -/
def execPlotHandoverTimeout (plot : Fin 16384) (s : State) : Host.Outcome State Fault Refusal :=
  let p := s.plot plot.val
  .next (if p.state = 2 ∧ p.handTo ≠ 0 then
      let s := if p.outstanding = 0 then s.setPlot plot.val Plot.free
        else s.setPlot plot.val { p with handTo := 0 }
      (s.report Ev.GRN_HANDOVER_TIMEOUT []).serveWaiting
    else s)

/-- GRN_ALLOC_STALL (R71): a client that has waited a (further) millisecond is reported. -/
def execGrnAllocStall (client : Fin 32) (s : State) : Host.Outcome State Fault Refusal :=
  .next (if s.grn.waiting.contains client.val then s.report Ev.GRN_ALLOC_STALL [client.val] else s)

/-- The bank cycles of an access (R73, R74): an engine needs cycles that name it, an unscheduled requester a grant; the flag says
that the access reaches its bank. -/
def State.grnCycle (s : State) (req : GrnReq) (rivals : List GrnReq) (b : Nat) : State × Bool :=
  match req with
  | .engine e => (s, s.engineReaches e.val b)
  | _ => (State.arbitrate req rivals b s.arbFuel 0 s, true)

/-- GRANARY_ACCESS (R66, R73, R74, R84, R85): the bank's cycles, then the access. An engine that the bank's wheel never names does
not reach it (log entry 243). -/
def execGranaryAccess (req : GrnReq) (plot : Fin 16384) (line off : Fin 64) (len : Nat) (write : Option Bytes)
    (poisonIn : Bool) (err : GrnErr) (rivals : List GrnReq) (s : State) : Host.Outcome State Fault Refusal :=
  .next (s.oneCycle fun s =>
    if !s.grnOpen then s.grnAccess req plot.val line.val off.val len write poisonIn err
    else match s.grnCycle req rivals (s.physOf plot.val % 32) with
      | (s, false) => s.resultBytes 5 []
      | (s, true) => s.grnAccess req plot.val line.val off.val len write poisonIn err)

/-- ECC_WRITEBACK (R75): the bank that comes first to an unscheduled cycle writes back the corrected word that waits longest in
it. -/
def execEccWriteback (s : State) : Host.Outcome State Fault Refusal :=
  .next (match s.nextWriteBack with
    | some b => s.wordBack b
    | none => s)

/-- GRANARY_BIST (R80): at stage S2, on the way to S3, every plot is tested, set to 0x00 and freed of poison; failing plots
join the retire list, and a list beyond 64 holds the device. -/
def execGranaryBist (fails : List (Fin 16384)) (s : State) : Host.Outcome State Fault Refusal :=
  .next <| s.oneCycle fun s =>
    if s.stageNow ≠ 2 || s.grnReady then s
    else
      let new := ((List.range 16384).filter (fun p => fails.any (fun f => f.val == p))).filter (fun p => !s.retireList.contains p)
      let full := decide (64 < s.retireList.length + new.length)
      let s := new.foldl (fun s p => (s.addRetired p).1) s
      if full then
        ({ s with grn := { s.grn with bistFailed := true } }.report Ev.GRN_BIST_FAIL []).holdStage Ev.GRN_BIST_FAIL
      else
        let retired := s.retireList
        let plots := ((List.range 16384).filter (fun p => retired.contains p)).map (fun p => (p, (⟨3, 0, 0, 0⟩ : Plot)))
        let s := s.zeroRange grnBase grnSize
        let s : State := { s with
          grn := { s.grn with map := [], plots := plots, held := [], waiting := [], test := none, bistFailed := false } }
        (((s.wr GRN_COUNT_FREE (16384 - plots.length)).wr GRN_COUNT_ALLOCATED 0).wr GRN_COUNT_IN_FLIGHT 0).wr
          GRN_COUNT_RETIRED plots.length |>.wrF GRN_STATUS 0 0 1

/-- PLOT_AUDIT (R86): from the completion of the self-test on, the records are compared; a failure rebuilds them. -/
def execPlotAudit (s : State) : Host.Outcome State Fault Refusal :=
  .next (s.oneCycle fun s => if !s.grnReady then s else if s.auditPasses then s.auditLast false false else s.auditFailed false)

/-- GRN_SELFTEST_REQ (R82): the plot behind a logical plot is queued, with no error behind it. -/
def execGrnSelftestReq (value : Word) (s : State) : Host.Outcome State Fault Refusal :=
  if s.shut .service GRN_SELFTEST_REQ then .next (s.turnedAway .service GRN_SELFTEST_REQ) else
  .next (s.queuePlot (s.physOf (value.toNat % 2 ^ 14)) false)

/-- The spare a plot test takes (R82): a FREE spare-pool plot, else a FREE general-pool plot; before a plan, a FREE plot of
the built-in allocator. -/
def State.spareFor (s : State) (l : Nat) : Option Nat :=
  if s.fpl.plan.isNone then (List.range 16384).find? (fun n => n != l && (s.plot n).state == 0)
  else
    match (List.range 16384).find? (fun n => n != l && s.isSpare n && (s.plot n).state == 0) with
    | some n => some n
    | none => (List.range 16384).find? (fun n => n != l && s.isGeneral n && (s.plot n).state == 0)

/-- PLOT_SELFTEST (R82): the first queued plot's contents move to a spare, and the map exchanges the two. A plot that is RETIRED
when its turn comes leaves the queue without a test or a result (DESIGN CHOICE, log entry 308). -/
def execPlotSelftest (bad : List (Fin 64 × Fin 8)) (s : State) : Host.Outcome State Fault Refusal :=
  .next <| s.oneCycle fun s =>
    match s.tests.find? (fun t => t.kind == 1), s.grn.test with
    | some t, none =>
      let p := t.idx
      let l := s.logicalOf p
      if !s.grnReady then s
      else if (s.plot l).state = 3 then s.dropTest 1 p
      else match s.spareFor l with
      | none => (s.dropTest 1 p).sparesExhausted
      | some sp =>
        let q := s.physOf sp
        let s := s.setPlot sp ⟨2, 0, 0, 0⟩
        let s := bad.foldl (fun s w => s.grnUncorrectable p w.1.val w.2.val) s
        let s := s.copyPlot p q
        let s : State := { s with
          grn := { s.grn with map := sset sp (sset l s.grn.map l q) sp p, test := some ⟨l, p, sp, t.faulted⟩ } }
        s.report Ev.GRN_MIGRATED []
    | _, _ => s

/-- PLOT_SELFTEST_DONE (R83): the bytes of the plot tested stay as they were before the March test, which R82 leaves open (DESIGN
CHOICE, log entry 241). A plot that passes returns its spare as FREE; one that fails is retired and listed. -/
def execPlotSelftestDone (fail : Bool) (figure : Word) (s : State) : Host.Outcome State Fault Refusal :=
  .next <| s.oneCycle fun s =>
    match s.grn.test with
    | none => s
    | some t =>
      let cls := s.classify 1 t.phys t.faulted fail
      let s := { s with grn := { s.grn with test := none } }
      let s :=
        if fail then
          let s := s.setPlot t.spare ⟨3, 0, 0, 0⟩
          let (s, listed) := s.addRetired t.phys
          let s := s.report Ev.GRN_PLOT_RETIRED [t.spare, t.phys]
          if listed then s
          else
            let s := s.sparesExhausted
            { s with grn := { s.grn with extension := (s.grn.extension ++ [t.phys]).take 64 } }
        else (s.setPlot t.spare Plot.free).serveWaiting
      let s := s.wr GRN_SELFTEST_LAST (t.phys + cls * 2 ^ 16 + 2 ^ 18)
      (s.testResult Ev.GRN_SELFTEST_RESULT 1 t.phys t.faulted fail (if fail then figure.toNat else 0)).1

/-- GRN_CLIENT_GRANTS_READ (R8): the selected client's count is returned and cleared. -/
def execGrnClientGrantsRead (s : State) : Host.Outcome State Fault Refusal :=
  if s.shut .service GRN_CLIENT_GRANTS then .next (s.turnedAway .service GRN_CLIENT_GRANTS) else
  let sel := s.rd GRN_CLIENT_SEL
  let t : State := { s with
    grn := { s.grn with grants := sset 0 s.grn.grants sel 0 }, ev := { s.ev with grants := if sel = 0x0C then 0 else s.ev.grants } }
  .next (t.result 0 (s.grantsOf sel))

end Sys2Proof.Machine
end

