-- ==== Sys2Proof/Machine/FieldPlan.lean ====
section
/-! DEFINITION. The fields of the running Field Plan as the engines read them (chapter "Tick, furrows and the Field Plan"):
timing, slot records, plate table, throttle variants and headland tasks, with the built-in timing of R32 while no plan
runs. -/
namespace Sys2Proof.Machine

/-! ### TIMING (Table 2.25) -/

/-- Nominal tick length in cycles. -/
def Plan.nomTick (p : Plan) : Nat := leAt (p.sec 0x01 0) 0 4
/-- Tolerance in ppm. -/
def Plan.tolerance (p : Plan) : Nat := leAt (p.sec 0x01 0) 4 2
/-- Nominal rate in mHz. -/
def Plan.nomRate (p : Plan) : Nat := leAt (p.sec 0x01 0) 6 4
/-- Slot length L in cycles. -/
def Plan.slotLen (p : Plan) : Nat := 64 * leAt (p.sec 0x01 0) 10 2
/-- H in cycles. -/
def Plan.headland (p : Plan) : Nat := leAt (p.sec 0x01 0) 12 4
/-- Commit lead in cycles. -/
def Plan.commitLead (p : Plan) : Nat := leAt (p.sec 0x01 0) 16 4
/-- The shortest admitted tick (R35): the nominal length less the tolerance, rounded down. -/
def Plan.shortestTick (p : Plan) : Nat := p.nomTick * (1000000 - p.tolerance) / 1000000

/-- R32: the built-in timing is 60 Hz with slots of 23,808 cycles. -/
def State.slotLen (s : State) : Nat := (s.fpl.plan.map Plan.slotLen).getD 23808
def State.nomTick (s : State) : Nat := (s.fpl.plan.map Plan.nomTick).getD 26666667
def State.commitLead (s : State) : Nat := (s.fpl.plan.map Plan.commitLead).getD 192000
/-- The nominal rate in mHz. -/
def State.nomRate (s : State) : Nat := (s.fpl.plan.map Plan.nomRate).getD 60000

/-! ### DRILL_BIND (Table 2.25) -/

/-- First column and column count of a drill. -/
def Plan.drillCols (p : Plan) (d : Nat) : Nat × Nat := (leAt (p.sec 0x02 0) (4 * d) 2, leAt (p.sec 0x02 0) (4 * d + 2) 2)

/-! ### Slot records (R43) -/

/-- A slot record (Table 2.6). -/
structure SlotRec where
  op : Nat
  wait : Bool
  target : Nat
  start : Nat
  wcet : Nat
  plates : Nat
  runLen : Nat
  gap : Nat
deriving DecidableEq, Repr

/-- The record of a slot and an engine in a SLOT_RECORDS section. -/
def slotRec (b : Bytes) (slot e : Nat) : SlotRec :=
  let o := 128 * slot + 16 * e
  { op := byteAt b o, wait := bit (byteAt b (o + 1)) 0 == 1, target := leAt b (o + 2) 2, start := leAt b (o + 4) 3
    wcet := leAt b (o + 7) 3, plates := leAt b (o + 10) 4, runLen := byteAt b (o + 14), gap := byteAt b (o + 15) }

/-- Slot operations (Table 2.7). -/
def opIdle : Nat := 0
def opRun : Nat := 1
def opFill : Nat := 2
def opDrain : Nat := 3
def opSense : Nat := 4

/-- A fallow record. -/
def SlotRec.idle : SlotRec := ⟨0, false, 0, 0, 0, 0, 0, 0⟩

/-- The record in force; before a plan runs every engine is fallow (R32). -/
def State.slotRecord (s : State) (slot e : Nat) : SlotRec :=
  match s.fpl.plan with
  | none => .idle
  | some p => slotRec (p.sec 0x05 s.fpl.variant) slot e

/-! ### Plate table (R44) -/

/-- A plate record (Table 2.8). -/
structure PlateRec where
  id : Nat
  fmt : Nat
  policy : Nat
  priority : Nat
  relief : Bool
  scaled : Bool
  scaleX : Nat
  scaleY : Nat
  srcW : Nat
  srcH : Nat
  bufA : Nat
  bufB : Nat
  ring : Nat
deriving DecidableEq, Repr

/-- Plate record `k` of a PLATE_TABLE section. -/
def plateRec (b : Bytes) (k : Nat) : PlateRec :=
  let o := 32 * k
  { id := byteAt b o, fmt := byteAt b (o + 1) % 4, policy := byteAt b (o + 1) / 4 % 4, priority := byteAt b (o + 2)
    relief := bit (byteAt b (o + 3)) 0 == 1, scaled := bit (byteAt b (o + 3)) 1 == 1, scaleX := leAt b (o + 4) 2
    scaleY := leAt b (o + 6) 2, srcW := leAt b (o + 8) 2, srcH := leAt b (o + 10) 2, bufA := leAt b (o + 12) 5
    bufB := leAt b (o + 17) 5, ring := byteAt b (o + 22) }

/-- The plate records of a plan, in plate-table order. -/
def Plan.plates (p : Plan) : List PlateRec :=
  let b := p.sec 0x06 0
  (List.range (b.length / 32)).map (plateRec b)

/-- The plates in force. -/
def State.plates (s : State) : List PlateRec := (s.fpl.plan.map Plan.plates).getD []

/-- Plate record `k` in force. -/
def State.plateRec (s : State) (k : Nat) : Option PlateRec := s.plates[k]?

/-- The plate index of a PLATE_ID. -/
def State.plateOfId (s : State) (id : Nat) : Option Nat := s.plates.findIdx? (fun p => p.id == id)

/-- The content window X0, Y0 (R95). -/
def Plan.window (p : Plan) : Int × Int := (toS 32 (leAt (p.sec 0x08 0) 320 4), toS 32 (leAt (p.sec 0x08 0) 324 4))
def State.window (s : State) : Int × Int := (s.fpl.plan.map Plan.window).getD (0, 0)

/-! ### THROTTLE (R45) -/

/-- The variant a level uses; L0 always uses variant 0. -/
def Plan.variantOf (p : Plan) (level : Nat) : Nat := if level = 0 then 0 else byteAt (p.sec 0x0A 0) (level - 1)

/-- A variant descriptor. -/
structure Variant where
  kind : Nat
  skip : Nat
  budget : Nat
  halve : Nat
deriving DecidableEq, Repr

/-- Descriptor `v`. -/
def Plan.variant (p : Plan) (v : Nat) : Variant :=
  let b := p.sec 0x0A 0
  ⟨byteAt b (4 + 4 * v), byteAt b (5 + 4 * v), byteAt b (6 + 4 * v), byteAt b (7 + 4 * v)⟩

/-- The descriptor in force; the built-in timing has all 32 plates in its budget (Table 2.22). -/
def State.variantNow (s : State) : Variant :=
  match s.fpl.plan with
  | none => ⟨0, 0, 32, 0⟩
  | some p => p.variant s.fpl.variant

/-- A plate lies within a plate budget that the plates of the set `among` share (R164): of these, the ones with a larger
PRIORITY are left out first, and among equals the one further back. -/
def inBudget (plates : List PlateRec) (among budget k : Nat) : Bool :=
  match plates[k]? with
  | none => false
  | some p =>
    let before := ((plates.mapIdx (fun i q => (i, q))).filter (fun e =>
      bit among e.1 == 1 && (e.2.priority < p.priority || (e.2.priority == p.priority && e.1 < k)))).length
    decide (before < budget)

/-- The largest column count of a plan. -/
def Plan.maxCols (p : Plan) : Nat := (List.range 24).foldl (fun m d => max m (p.drillCols d).2) 0

/-- The bound of R52 for `w` cycles of work, a skip ratio, and the runs and gaps of a pause record. -/
def drillBound (w skip runLen gap : Nat) : Nat :=
  if skip = 1 then ceilDiv (w * 8) 7 else if skip = 2 then ceilDiv (w * 4) 3 else if skip = 3 then w * 2
  else if 0 < runLen then w + (ceilDiv w (runLen * 64) - 1) * gap * 64 else w

/-- R166: the largest number of plates, up to 32, whose bound fits a slot of length `l` with `c` columns and a skip ratio. -/
def plateFit (c l skip : Nat) : Nat :=
  (List.range 33).foldl (fun m p => if 64 + drillBound (ceilDiv (c * 144 * p) 8) skip 0 0 ≤ l - 512 then max m p else m) 0

/-- The plate budget of a variant: its BUDGET byte (R45), and never more than the plates that fit (R166); a pause variant
has no skip ratio and keeps its plates. Where the two differ the model takes the smaller (DEDUCED, log entry 252). -/
def Plan.budget (p : Plan) (v : Nat) : Nat :=
  let d := p.variant v
  min d.budget (plateFit p.maxCols p.slotLen (if d.kind = 1 then d.skip else 0))

/-- The plate budget in force, 32 before a plan. -/
def State.budgetNow (s : State) : Nat := (s.fpl.plan.map (fun p => p.budget s.fpl.variant)).getD 32

/-- The plates that the drill RUN records of a variant name together in slots 0 to 539. -/
def Plan.drillMask (p : Plan) (v : Nat) : Nat :=
  (List.range 540).foldl (fun m sl =>
    let r := slotRec (p.sec 0x05 v) sl 2
    if r.op = opRun then m ||| r.plates else m) 0

/-! ### The plan of the first-band fill (R56) -/

/-- A switch is armed for the next boundary. -/
def State.armedNext (s : State) : Bool :=
  match s.fpl.arm with
  | some .next => true
  | some (.at f) => f == (s.fpl.frame + 1) % 2 ^ 48
  | none => false

/-- The plan under which the first-band fill runs: the staged plan before a warm switch (R56), else the running one. -/
def State.fillPlan (s : State) : Option Plan :=
  if s.armedNext && s.fpl.staged.isSome && s.fpl.stage == .valid && !s.fpl.stageCold then s.fpl.staged else s.fpl.plan

/-- The plan a block of the data path is placed under. -/
def State.planFor (s : State) (fill : Bool) : Option Plan := if fill then s.fillPlan else s.fpl.plan

/-- The plate table under which a fill or a furrow runs (R56). -/
def State.platesFor (s : State) (fill : Bool) : List PlateRec := ((s.planFor fill).map Plan.plates).getD []

/-- Plate record `k` of that table. -/
def State.plateRecFor (s : State) (fill : Bool) (k : Nat) : Option PlateRec := (s.platesFor fill)[k]?

/-! ### Headland tasks (R47) -/

/-- A headland task record (Table 2.9). -/
structure TaskRec where
  kind : Nat
  priority : Nat
  period : Nat
  phase : Nat
  wcet : Nat
  claims : Nat
  arg : Nat
deriving DecidableEq, Repr

/-- Task record `i`. -/
def taskRec (b : Bytes) (i : Nat) : TaskRec :=
  let o := 16 * i
  ⟨byteAt b o, byteAt b (o + 1), leAt b (o + 2) 2, leAt b (o + 4) 2, leAt b (o + 6) 4, leAt b (o + 10) 2, leAt b (o + 12) 4⟩

/-- The headland tasks of a plan. -/
def Plan.tasks (p : Plan) : List TaskRec :=
  let b := p.sec 0x0B 0
  (List.range (b.length / 16)).map (taskRec b)

/-- The headland tasks in force. -/
def State.taskRecs (s : State) : List TaskRec := (s.fpl.plan.map Plan.tasks).getD []

end Sys2Proof.Machine
end

