-- ==== Sys2Proof/Machine/Plates.lean ====
section
/-! DEFINITION. Plates, block maps, updates, candidate frames and readiness (chapter "Scene data: plates and Sheaf
blocks"). The maps and the slots stand in DRAM as R104 lays them out. -/
namespace Sys2Proof.Machine

/-- Client DRAM_STAGE (Table 3.2), under which plate ingest reaches DRAM. -/
def clDramStage : Nat := 0x05

/-! ### Needed blocks and block maps (R96, R97, R104) -/

/-- The intersection of two rectangles. -/
def Rect.inter (a b : Rect) : Rect := ⟨max a.x0 b.x0, max a.y0 b.y0, min a.x1 b.x1, min a.y1 b.y1⟩
/-- A rectangle without blocks. -/
def Rect.empty (a : Rect) : Bool := decide (a.x1 ≤ a.x0) || decide (a.y1 ≤ a.y0)
/-- A block lies in a rectangle. -/
def Rect.has (a : Rect) (x y : Int) : Bool := decide (a.x0 ≤ x) && decide (x < a.x1) && decide (a.y0 ≤ y) && decide (y < a.y1)
/-- Number of blocks of a rectangle. -/
def Rect.count (a : Rect) : Nat := if a.empty then 0 else (a.x1 - a.x0).toNat * (a.y1 - a.y0).toNat
/-- The blocks of a rectangle, row by row. -/
def Rect.blocks (a : Rect) : List (Int × Int) :=
  if a.empty then []
  else (List.range (a.y1 - a.y0).toNat).flatMap (fun j => (List.range (a.x1 - a.x0).toNat).map (fun i => (a.x0 + i, a.y0 + j)))

/-- The quotient rounded up, for integers and a positive divisor. -/
def ceilDivI (n : Int) (d : Nat) : Int := -((-n) / (d : Int))

/-- Texel bytes of a format (Table 4.1). -/
def texelSize (fmt : Nat) : Nat := if fmt = 0 then 8 else if fmt = 1 then 4 else 1

/-- DECOMP_LEN of a texel format (R98). -/
def decompLen (fmt : Nat) : Nat := 256 * texelSize fmt

/-- Grid columns and rows of the texel part of a map (R97). -/
def PlateRec.cx (r : PlateRec) : Nat := if r.scaled then ceilDiv (1952 * 256) (16 * r.scaleX) + 2 else 122
def PlateRec.cy (r : PlateRec) : Nat := if r.scaled then ceilDiv (1112 * 256) (16 * r.scaleY) + 2 else 70

/-- E_p, the entries of a block map (R97). -/
def PlateRec.entries (r : PlateRec) : Nat := r.cx * r.cy + if r.relief then 170 else 0

/-- N_p and the slot size S (R104). -/
def PlateRec.slots (r : PlateRec) : Nat := ceilDiv (5 * r.entries) 256 * 64
def PlateRec.slotSize (r : PlateRec) : Nat := if r.fmt = 0 then 2112 else 1088

/-- Bytes of a map, rounded up to a multiple of 64. -/
def PlateRec.mapBytes (r : PlateRec) : Nat := ceilDiv (4 * r.entries) 64 * 64

/-- Address of a block map entry in buffer A or B (R104). -/
def PlateRec.entryAddr (r : PlateRec) (inB : Bool) (i : Nat) : Nat := (if inB then r.bufB else r.bufA) + 4 * i

/-- Address of a slot (R104). -/
def PlateRec.slotAddr (r : PlateRec) (i : Nat) : Nat :=
  if i < r.slots then r.bufA + r.mapBytes + i * r.slotSize else r.bufB + r.mapBytes + (i - r.slots) * r.slotSize

/-- The geometry of a scaled plate: scale and origin of an entry, or of the record before any entry. -/
structure Geom where
  sx : Nat
  sy : Nat
  ox : Int
  oy : Int
deriving DecidableEq, Repr

/-- The geometry that an entry gives a plate (R101, R149); before any entry a scaled plate has the scale of its record and origin 0
(DESIGN CHOICE, log entry 302). -/
def geomOf (r : PlateRec) (e : Option FrEntry) : Geom :=
  if !r.scaled then ⟨256, 256, 0, 0⟩
  else match e with
    | some e => ⟨max 1 e.scaleX, max 1 e.scaleY, e.originX, e.originY⟩
    | none => ⟨max 1 r.scaleX, max 1 r.scaleY, 0, 0⟩

/-- The blocks along one axis whose footprint meets the window from `lo` to `hi` (R96): first and one past the last. -/
def neededAxis (scaled : Bool) (scale : Nat) (origin lo hi : Int) : Int × Int :=
  if scaled then ((lo - origin - 1) * 256 / ((16 * scale : Nat) : Int), ceilDivI ((hi - origin + 2) * 256) (16 * scale))
  else (lo / 16, hi / 16 + 1)

/-- The needed texel blocks of a plate (R96). -/
def neededTexels (r : PlateRec) (g : Geom) (w : Int × Int) : Rect :=
  let h := neededAxis r.scaled g.sx g.ox (w.1 - 16) (w.1 + 1935)
  let v := neededAxis r.scaled g.sy g.oy (w.2 - 16) (w.2 + 1095)
  ⟨h.1, v.1, h.2, v.2⟩

/-- The needed relief blocks (R97); they are never scaled. -/
def neededRelief (w : Int × Int) : Rect :=
  ⟨((w.1 - 16) / 8 - 1) / 16, ((w.2 - 16) / 8 - 1) / 16, (w.1 + 1936) / 8 / 16 + 1, (w.2 + 1096) / 8 / 16 + 1⟩

/-- Index in the map of a needed block: rows of the grid one after another (DESIGN CHOICE, log entry 296), the relief part after
the texel part (R97). -/
def mapIndex (r : PlateRec) (g : Geom) (w : Int × Int) (isRelief : Bool) (x y : Int) : Option Nat :=
  if isRelief then
    let n := neededRelief w
    let i := x - n.x0
    let j := y - n.y0
    if r.relief && decide (0 ≤ i) && decide (i < 17) && decide (0 ≤ j) && decide (j < 10) then
      some (r.cx * r.cy + (j * 17 + i).toNat) else none
  else
    let n := neededTexels r g w
    let i := x - n.x0
    let j := y - n.y0
    if decide (0 ≤ i) && decide (i < (r.cx : Int)) && decide (0 ≤ j) && decide (j < (r.cy : Int)) then
      some ((j * (r.cx : Int) + i).toNat) else none

/-- ABSENT and ZERO entries (Table 4.6). -/
def mapAbsent : Nat := 2 ^ 30
def mapZero : Nat := 2 ^ 31

/-- The slot that an entry names, if it names one. -/
def entrySlot (e : Nat) : Option Nat := if bit e 30 = 0 ∧ bit e 31 = 0 then some (e % 2 ^ 21) else none

/-! ### Plate state -/

/-- The ingest state of plate `k`. -/
def State.plateSt (s : State) (k : Nat) : PlateSt := sget PlateSt.init s.plt.plates k

/-- The ingest state of plate `k` stored. -/
def State.setPlate (s : State) (k : Nat) (p : PlateSt) : State :=
  { s with plt := { s.plt with plates := sset PlateSt.init s.plt.plates k p } }

/-- A map entry in DRAM; one that R26 does not let a read reach counts as ABSENT (DESIGN CHOICE, log entry 304). -/
def State.mapEntry (s : State) (a : Nat) : Nat := if s.dramUsable a then s.memLe a 4 else mapAbsent

/-- Entry `i` of the shown map, and of the arriving map. -/
def State.shownMap (s : State) (k : Nat) (r : PlateRec) (i : Nat) : Nat := s.mapEntry (r.entryAddr (s.plateSt k).shownB i)
def State.arrivingMap (s : State) (k : Nat) (r : PlateRec) (i : Nat) : Nat :=
  s.mapEntry (r.entryAddr (!(s.plateSt k).shownB) i)

/-- An entry of the arriving map written. -/
def State.setArriving (s : State) (k : Nat) (r : PlateRec) (i v : Nat) : State :=
  s.dramSet clDramStage (r.entryAddr (!(s.plateSt k).shownB) i) (toLe 4 v)

/-- Both maps ABSENT: a plate whose record is new starts so (R117). -/
def State.clearMaps (s : State) (r : PlateRec) : State :=
  (List.range r.entries).foldl (fun s i =>
    (s.dramSet clDramStage (r.entryAddr false i) (toLe 4 mapAbsent)).dramSet clDramStage (r.entryAddr true i) (toLe 4 mapAbsent)) s

/-- The slots that a map or an update of a plate holds. -/
def State.usedSlots (s : State) (k : Nat) (r : PlateRec) : List Nat :=
  let p := s.plateSt k
  (List.range r.entries).filterMap (fun i => entrySlot (s.shownMap k r i)) ++
    (List.range r.entries).filterMap (fun i => entrySlot (s.arrivingMap k r i)) ++
    p.upds.flatMap (fun u => u.got.map (·.slot))

/-- The lowest free slot (R105). -/
def State.freeSlot (s : State) (k : Nat) (r : PlateRec) : Option Nat :=
  let used := s.usedSlots k r
  (List.range (2 * r.slots)).find? (fun i => !used.contains i)

/-- Ingest is between a commit point and the boundary (PLT_STATUS.FROZEN). -/
def State.frozen (s : State) : Bool := s.rdF PLT_STATUS 2 2 == 1

/-- One discarded block or record (PLT_DROP_TOTAL). -/
def State.pltDrop (s : State) : State := s.bump PLT_DROP_TOTAL

/-! ### Publication (R110 to R112) -/

/-- Every block of the expected set has been accepted (R110). -/
def Upd.complete (u : Upd) : Bool := decide (u.got.length = u.expT.count + u.expQ.count)

/-- The entry of a block a WHOLE update does not replace (R111). -/
def wholeOther (extent : Rect) (needed : Bool) (x y : Int) : Nat :=
  if needed && extent.has x y then mapAbsent else mapZero

/-- The wall texels of a plate's extent, which is given in its own blocks (R96, R101): those of a scaled plate follow from its
geometry, rounded outward (DEDUCED, log entry 50). -/
def extentTexels (r : PlateRec) (g : Geom) (e : Rect) : Rect :=
  if r.scaled then
    ⟨g.ox + 16 * e.x0 * (g.sx : Int) / 256, g.oy + 16 * e.y0 * (g.sy : Int) / 256, g.ox + ceilDivI (16 * e.x1 * (g.sx : Int)) 256,
      g.oy + ceilDivI (16 * e.y1 * (g.sy : Int)) 256⟩
  else ⟨16 * e.x0, 16 * e.y0, 16 * e.x1, 16 * e.y1⟩

/-- The extent in relief blocks, which cover 128 × 128 wall texels and are never scaled (R94). -/
def reliefExtent (r : PlateRec) (g : Geom) (e : Rect) : Rect :=
  let t := extentTexels r g e
  ⟨t.x0 / 128, t.y0 / 128, ceilDivI t.x1 128, ceilDivI t.y1 128⟩

/-- An extent without limits. -/
def Rect.all : Rect := ⟨-(2 ^ 20), -(2 ^ 20), 2 ^ 20, 2 ^ 20⟩

/-- The map changes of an update's publication (R110, R111). -/
def State.publishMap (s : State) (k : Nat) (r : PlateRec) (u : Upd) : State :=
  let p := s.plateSt k
  let g := geomOf r p.entry
  let w := s.window
  let s :=
    if u.kind = 1 then
      let ext := (p.entry.map (·.extent)).getD Rect.all
      let n := neededTexels r g w
      let s := (List.range (r.cx * r.cy)).foldl (fun s i =>
        let x := n.x0 + ((i % r.cx : Nat) : Int)
        let y := n.y0 + ((i / r.cx : Nat) : Int)
        s.setArriving k r i (wholeOther ext (n.has x y) x y)) s
      if r.relief && !u.qrect.empty then
        let q := neededRelief w
        (List.range 170).foldl (fun s i =>
          let x := q.x0 + ((i % 17 : Nat) : Int)
          let y := q.y0 + ((i / 17 : Nat) : Int)
          s.setArriving k r (r.cx * r.cy + i) (wholeOther (reliefExtent r g ext) (q.has x y) x y)) s
      else s
    else if u.kind = 2 then
      let zero (q : Bool) (s : State) (b : Int × Int) : State :=
        match mapIndex r g w q b.1 b.2 with
        | some i => s.setArriving k r i mapZero
        | none => s
      let s := ((u.rect.inter (neededTexels r g w)).blocks).foldl (zero false) s
      ((u.qrect.inter (neededRelief w)).blocks).foldl (zero true) s
    else s
  u.got.foldl (fun s b =>
    match mapIndex r g w b.isRelief b.x b.y with
    | some i => s.setArriving k r i b.slot
    | none => s) s

/-- A WHOLE update still counts for a geometry change: it lies fewer than half the sequence numbers behind APPLIED_SEQ (R10,
R107). -/
def wholeRecent (applied w : Nat) : Bool := decide ((applied + 2 ^ 16 - w) % 2 ^ 16 < 2 ^ 15)

/-- Publication of a plate's updates in order, and APPLIED_SEQ over abandoned ones (R110, R112). -/
def State.publish (k : Nat) : Nat → State → State
  | 0, s => s
  | fuel + 1, s =>
    match s.plateRec k with
    | none => s
    | some r =>
      let p := s.plateSt k
      let nxt := succW 16 p.applied
      if p.gone.contains nxt then
        publish k fuel (s.setPlate k { p with
          applied := nxt, gone := p.gone.erase nxt, passed := p.passed ++ [nxt], lastWhole := p.lastWhole.filter (wholeRecent nxt) })
      else match p.upds.find? (fun u => u.seq == nxt) with
      | none => s
      | some u =>
        let within := match p.entry with
          | some e => s.plt.cand.isSome && !later 16 nxt e.last
          | none => false
        if !u.complete || !within || s.frozen || p.copying then s
        else
          let s := s.publishMap k r u
          let p := s.plateSt k
          publish k fuel (s.setPlate k { p with
            applied := nxt, upds := p.upds.filter (fun v => v.seq != nxt)
            lastWhole := if u.kind = 1 then some nxt else p.lastWhole.filter (wholeRecent nxt) })

/-- Publication of a plate's updates as far as it goes: each step uses up an update or an abandoned number. -/
def State.publishPlate (k : Nat) (s : State) : State :=
  State.publish k ((s.plateSt k).upds.length + (s.plateSt k).gone.length + 1) s

/-- Publication of every plate. -/
def State.publishAll (s : State) : State :=
  (List.range s.plates.length).foldl (fun s k => State.publishPlate k s) s

/-- R112: an update abandoned: its slots are free and APPLIED_SEQ advances over it in order. PLT_UPDATE_ABANDONED is reported for
every update abandoned, also for want of a slot, where R105 names PLT_POOL_EXHAUSTED alone (DESIGN CHOICE, log entry
249). -/
def State.abandon (s : State) (k seq : Nat) : State :=
  let p := s.plateSt k
  let s := s.setPlate k { p with upds := p.upds.filter (fun u => u.seq != seq), gone := p.gone ++ [seq] }
  (s.bump PLT_ABANDON_TOTAL).report Ev.PLT_UPDATE_ABANDONED []

/-! ### Frame records (R101, R103, R106, R107) -/

/-- A frame-record entry at an offset of the record. -/
def frEntry (b : Bytes) (o : Nat) : Nat × FrEntry :=
  let sh (k : Nat) : Int := toS 16 (leAt b (o + k) 2)
  (byteAt b o,
    { relief := bit (byteAt b (o + 1)) 0 == 1, hidden := bit (byteAt b (o + 1)) 1 == 1, disparity := leAt b (o + 2) 2
      first := leAt b (o + 4) 2, last := leAt b (o + 6) 2, scaleX := leAt b (o + 8) 2, scaleY := leAt b (o + 10) 2
      originX := sh 12, originY := sh 14, extent := ⟨sh 16, sh 18, sh 20, sh 22⟩ })

/-- R103: a frame record passes its checks. -/
def frameRecordOk (b : Bytes) : Bool :=
  let n := byteAt b 3
  let len := 32 + 32 * n
  leAt b 0 2 == 0x5246 && byteAt b 2 == 1 && decide (n ≤ 32) && decide (len ≤ b.length) &&
    decide (byteAt b 12 < 2) && zeroAt b 13 15 &&
    crc32c (putBytes (b.take len) 28 (toLe 4 0)) == leAt b 28 4 &&
    (List.range n).all (fun i => decide (byteAt b (32 + 32 * i + 1) < 4) && zeroAt b (32 + 32 * i + 24) 8)

/-- A frame record read (Table 4.4). -/
def frameRecord (b : Bytes) : FrameRec :=
  { tag := leAt b 4 2, bgR := leAt b 6 2, bgG := leAt b 8 2, bgB := leAt b 10 2, resync := bit (byteAt b 12) 0 == 1
    entries := (List.range (byteAt b 3)).map (fun i => frEntry b (32 + 32 * i)) }

/-- δ in units of 1/256 texel (R93). -/
def FrEntry.delta (e : FrEntry) : Int := toS 12 e.disparity

/-- R93, R107: an entry is valid for its plate. -/
def entryValid (r : PlateRec) (e : FrEntry) : Bool :=
  decide (toS 16 e.disparity = toS 12 e.disparity) && decide (-704 ≤ e.delta) && decide (e.delta ≤ 704) &&
    (!r.scaled || (decide (r.scaleX ≤ e.scaleX) && decide (e.scaleX ≤ 0x400) && decide (r.scaleY ≤ e.scaleY) &&
      decide (e.scaleY ≤ 0x400))) &&
    (!e.relief || r.relief) && !e.extent.empty

/-- R107: the entries of an accepted record are checked. -/
def State.checkEntries (s : State) (f : FrameRec) : State :=
  f.entries.foldl (fun s e =>
    match s.plateOfId e.1 with
    | none => s.report Ev.PLT_UNKNOWN_PLATE []
    | some k => match s.plateRec k with
      | some r => if entryValid r e.2 then s else s.report Ev.PLT_DESCRIPTOR_INVALID []
      | none => s) s

/-- R106: a frame record that arrives. -/
def State.frameRecordIn (s : State) (b : Bytes) : State :=
  if s.fpl.plan.isNone then s.pltDrop
  else if !frameRecordOk b then s.pltDrop.report Ev.PLT_RECORD_CHECK []
  else
    let f := frameRecord b
    let due := s.rdF PLT_STATUS 4 4 == 1
    let f := { f with resync := f.resync || due }
    let stale := match s.plt.cand with
      | some c => !f.resync && !newer 16 f.tag c.tag
      | none => false
    if stale then s.pltDrop.report Ev.PLT_STALE_FRAME []
    else
      let s := if due then s.wrF PLT_STATUS 4 4 0 else s
      let s := if s.plt.pend.isSome then (s.bump PLT_SKIP_TOTAL).report Ev.PLT_FRAME_SKIPPED [] else s
      { s with plt := { s.plt with pend := some f } }.checkEntries f

/-- R106: the pending record becomes the candidate. Of two entries of one plate in a record the last gives the plate's entry,
while a look-up in the pending record finds the first (DESIGN CHOICE, log entry 316). -/
def State.adoptCandidate (s : State) (f : FrameRec) : State :=
  let s : State := { s with plt := { s.plt with cand := some f, pend := none } }
  let s := f.entries.foldl (fun s e =>
    match s.plateOfId e.1 with
    | none => s
    | some k => match s.plateRec k with
      | none => s
      | some r =>
        let p := s.plateSt k
        let changed := r.scaled && match p.entry with
          | some o => geomOf r (some o) != geomOf r (some e.2)
          | none => false
        let p := { p with
          entry := some e.2, valid := entryValid r e.2, geomChanged := changed
          passed := p.passed.filter (fun q => !later 16 e.2.first q) }
        if f.resync then
          let s := s.setPlate k { p with
            applied := (e.2.first + 2 ^ 16 - 1) % 2 ^ 16, upds := [], gone := [], passed := [], lastWhole := none
            copying := false }
          (List.range r.entries).foldl (fun s i => s.setArriving k r i mapAbsent) s
        else s.setPlate k p) s
  if f.resync then
    let s := (List.range s.plates.length).foldl (fun s k => s.setPlate k { s.plateSt k with resident := false }) s
    s.report Ev.PLT_RESYNC []
  else s

/-! ### Update records (R102, R103, R108) -/

/-- R103: an update record passes its checks. -/
def updateRecordOk (b : Bytes) : Bool :=
  decide (32 ≤ b.length) && leAt b 0 2 == 0x5055 && byteAt b 2 == 1 && decide (byteAt b 24 ≤ 3) && zeroAt b 25 1 &&
    zeroAt b 28 2 && crc16 (b.take 30) == leAt b 30 2

/-- A rectangle of four signed 16-bit fields. -/
def rectAt (b : Bytes) (o : Nat) : Rect :=
  ⟨toS 16 (leAt b o 2), toS 16 (leAt b (o + 2) 2), toS 16 (leAt b (o + 4) 2), toS 16 (leAt b (o + 6) 2)⟩

/-- The entry whose extent limits an update (R108): the pending one when it lists the update, else the candidate's. -/
def State.entryFor (s : State) (id k seq : Nat) : Option FrEntry :=
  let fromPend := (s.plt.pend.bind (fun f => (f.entries.find? (fun e => e.1 == id)).map (·.2))).filter
    (fun e => !later 16 e.first seq && !later 16 seq e.last)
  match fromPend with
  | some e => some e
  | none => (s.plateSt k).entry

/-- R108, R111: an update record that arrives. An ABANDON abandons the open or held update its TARGET_SEQ names, also a later
one (DESIGN CHOICE, log entry 288). -/
def State.updateRecordIn (s : State) (b : Bytes) : State :=
  if s.fpl.plan.isNone then s.pltDrop
  else if !updateRecordOk b then s.pltDrop.report Ev.PLT_RECORD_CHECK []
  else
    let id := byteAt b 3
    let seq := leAt b 6 2
    match s.plateOfId id with
    | none => s.pltDrop.report Ev.PLT_UNKNOWN_PLATE []
    | some k => match s.plateRec k with
      | none => s.pltDrop.report Ev.PLT_UNKNOWN_PLATE []
      | some r =>
        let p := s.plateSt k
        if !newer 16 seq p.applied then s.pltDrop.report Ev.PLT_STALE_UPDATE []
        else if p.upds.any (fun u => u.seq == seq) then s.pltDrop
        else
          let kind := byteAt b 24
          let e := s.entryFor id k seq
          let ext := (e.map (·.extent)).getD Rect.all
          let rect := rectAt b 8
          let qrect := rectAt b 16
          let none' : Rect := ⟨0, 0, 0, 0⟩
          let noBlocks := kind == 2 || kind == 3
          let u : Upd :=
            { seq := seq, tag := leAt b 4 2, kind := kind, rect := rect, qrect := qrect, got := []
              expT := if noBlocks then none' else (rect.inter (neededTexels r (geomOf r e) s.window)).inter ext
              expQ := if noBlocks || !r.relief then none' else (qrect.inter (neededRelief s.window)).inter (reliefExtent r (geomOf r e) ext) }
          let s := s.setPlate k { p with upds := p.upds ++ [u], gone := p.gone.erase seq }
          let s :=
            if kind = 3 then
              let t := leAt b 26 2
              if p.upds.any (fun u => u.seq == t) then s.abandon k t else s.pltDrop
            else s
          State.publishPlate k s

/-! ### Sheaf blocks (R98, R100, R105, R109) -/

/-- R100: the header checks at arrival. -/
def sheafHeaderOk (b : Bytes) : Bool :=
  decide (32 ≤ b.length) && crc16 (b.take 30) == leAt b 30 2 && leAt b 0 2 == 0x4853 && byteAt b 2 == 1 &&
    decide (byteAt b 13 < 2) && zeroAt b 18 2 && zeroAt b 24 6

/-- FORMAT and DECOMP_LEN of a header match a plate. -/
def formatMatches (r : PlateRec) (b : Bytes) : Bool :=
  let f := byteAt b 12
  (f == r.fmt || (f == 2 && r.relief)) && leAt b 16 2 == decompLen f

/-- A needed block matched against the updates of its plate (Table 4.7). The flag says that it waits for a slot (R105). -/
def State.acceptBlock (s : State) (b : Bytes) : State × Bool :=
  match s.plateOfId (byteAt b 3) with
  | none => (s.pltDrop.report Ev.PLT_UNKNOWN_PLATE [], false)
  | some k => match s.plateRec k with
    | none => (s.pltDrop.report Ev.PLT_UNKNOWN_PLATE [], false)
    | some r =>
      let p := s.plateSt k
      let seq := leAt b 6 2
      let x := toS 16 (leAt b 8 2)
      let y := toS 16 (leAt b 10 2)
      let q := byteAt b 12 == 2
      if !newer 16 seq p.applied then (s.pltDrop.report Ev.PLT_STALE_UPDATE [], false)
      else match p.upds.find? (fun u => u.seq == seq) with
      | none => (s.pltDrop.report Ev.PLT_ORPHAN_BLOCK [], false)
      | some u =>
        if u.tag ≠ leAt b 4 2 then (s.pltDrop.report Ev.PLT_ORPHAN_BLOCK [], false)
        else if !formatMatches r b then (s.pltDrop.report Ev.PLT_FORMAT_MISMATCH [], false)
        else if !(if q then u.expQ else u.expT).has x y then (s.pltDrop.report Ev.PLT_STRAY_BLOCK [], false)
        else
          let same (g : GotBlock) : Bool := g.isRelief == q && g.x == x && g.y == y
          let dup := u.got.any same
          let u' := { u with got := u.got.filter (fun g => !same g) }
          let put (u : Upd) (s : State) : State :=
            let p := s.plateSt k
            s.setPlate k { p with upds := p.upds.map (fun v => if v.seq == seq then u else v) }
          let s := if dup then (put u' s.pltDrop).report Ev.PLT_DUP_BLOCK [] else s
          match s.freeSlot k r with
          | some i =>
            let s := s.dramSet clDramStage (r.slotAddr i) (b.take (32 + leAt b 14 2))
            let s := put { u' with got := u'.got ++ [⟨q, x, y, i⟩] } s
            (State.publishPlate k (s.bump PLT_BLOCKS_TOTAL), false)
          | none =>
            if s.frozen then (s, true)
            else (State.publishPlate k ((s.abandon k seq).report Ev.PLT_POOL_EXHAUSTED []), false)

/-- The needed texel blocks of an unscaled plate (R96), whose geometry a plate without a record has (R286). -/
def neededPlain (w : Int × Int) : Rect :=
  let h := neededAxis false 256 0 (w.1 - 16) (w.1 + 1935)
  let v := neededAxis false 256 0 (w.2 - 16) (w.2 + 1095)
  ⟨h.1, v.1, h.2, v.2⟩

/-- The tile needs a block, under the geometry of its plate (R96). -/
def State.blockNeeded (s : State) (b : Bytes) : Bool :=
  let texels : Rect := match s.plateOfId (byteAt b 3) with
    | none => neededPlain s.window
    | some k => match s.plateRec k with
      | none => neededPlain s.window
      | some r => neededTexels r (geomOf r (s.entryFor (byteAt b 3) k (leAt b 6 2))) s.window
  (if byteAt b 12 = 2 then neededRelief s.window else texels).has (toS 16 (leAt b 8 2)) (toS 16 (leAt b 10 2))

/-- A Sheaf block that arrives in message `mid` (R100, R109, R484). The flag says whether it may be forwarded. A block that
waits for a slot keeps its message in link staging (R105). -/
def State.sheafBlockIn (s : State) (mid : Nat) (b : Bytes) : State × Bool :=
  if s.fpl.plan.isNone then (s.pltDrop, false)
  else if !sheafHeaderOk b then (s.pltDrop.report Ev.PLT_HEADER_DROP [], false)
  else if !s.blockNeeded b then (s, true)
  else
    let (s, wait) := s.acceptBlock b
    if wait then ({ s with plt := { s.plt with waiting := s.plt.waiting ++ [(mid, b)] } }, true) else (s, true)

/-! ### Readiness (R113, R114) and the boundary (R116) -/

/-- W_src of a scaled plate's candidate entry (R152). -/
def sourceWidth (r : PlateRec) (e : FrEntry) (w : Int × Int) : Nat :=
  let n := (neededTexels r (geomOf r (some e)) w).inter e.extent
  if n.x1 ≤ n.x0 then 0 else 16 * (n.x1 - n.x0).toNat

/-- R113, R107: a plate of the candidate is complete. Every update of the frame must have been published: one of FIRST_SEQ to
LAST_SEQ that was abandoned leaves the plate incomplete (DEDUCED, log entry 247). A plate whose entry has HIDDEN set
counts as complete also when the entry is invalid (DESIGN CHOICE, log entry 248). -/
def State.plateComplete (s : State) (k : Nat) (r : PlateRec) : Bool :=
  let p := s.plateSt k
  match s.plt.cand, p.entry with
  | some _, some e =>
    e.hidden || (p.valid && p.applied == e.last &&
      !p.passed.any (fun q => !later 16 e.first q && !later 16 q e.last) &&
      (!p.geomChanged || match p.lastWhole with
        | some w => !later 16 e.first w && !later 16 w e.last
        | none => false) &&
      !(r.scaled && decide (8192 < sourceWidth r e s.window)) &&
      (List.range r.entries).all (fun i => bit (s.arrivingMap k r i) 30 == 0))
  | _, _ => false

/-- The previous version when it is resident, otherwise nothing; a version that was hidden is shown as it was, not at all. -/
def PlateSt.previous (p : PlateSt) : PlateUse :=
  if p.resident && !((p.shownEntry.map (·.hidden)).getD false) then .shown else .skip

/-- Fields of a record that a warm switch may change while the previous version stays resident (R115). -/
def PlateRec.sameBut (a b : PlateRec) : Bool := { a with priority := b.priority, policy := b.policy } == b

/-- A plate of the fill's plate table has what the running plan's plate holds: a plate whose record a warm switch changes
beyond R115 starts with both maps ABSENT (R56, R117). -/
def State.carried (s : State) (k : Nat) (r : PlateRec) : Bool := ((s.plateRec k).map (fun o => o.sameBut r)).getD false

/-- R113: a plate of the fill's plate table is complete. -/
def State.fillComplete (s : State) (k : Nat) (r : PlateRec) : Bool := s.carried k r && s.plateComplete k r

/-- What the next tick takes of a plate before any budget (Table 4.8): the arriving map, the previous version, or nothing. -/
def State.plateUse (s : State) (k : Nat) (r : PlateRec) : PlateUse :=
  let p := s.plateSt k
  if s.fillComplete k r then (if (p.entry.map (·.hidden)).getD false then .skip else .arriving)
  else if r.policy = 2 || !s.carried k r then .skip
  else p.previous

/-- The plates that qualify for the participation set, as bits: in the drill records' masks, not hidden, not skipped (R164). -/
def State.qualify (s : State) (mask : Nat) : Nat :=
  ((s.platesFor true).mapIdx (fun k r => if bit mask k = 1 && s.plateUse k r != .skip then 2 ^ k else 0)).sum

/-- R152: the source line widths of the candidate's scaled plates: one above 8,192 texels is refused. -/
def State.scalerCheck (s : State) : State :=
  ((s.platesFor true).mapIdx (fun k r => (k, r))).foldl (fun s kr =>
    match (s.plateSt kr.1).entry with
    | some e =>
      let w := sourceWidth kr.2 e s.window
      if kr.2.scaled && s.plt.cand.isSome && decide (8192 < w) then
        (s.wr DRL_SCALER_LAST (kr.1 + min w 0x7FFF * 2 ^ 5 + s.fpl.frame % 2 ^ 12 * 2 ^ 20)).report Ev.DRL_SCALER_SHORT [kr.1, w]
      else s
    | none => s) s

/-- One plate judged at the commit point (R113, R114): what it takes, whether it is complete, and READY. A plate that the
budget leaves out behind the plates of `among` takes no part in the vote and in composition; whether it is complete is found all the
same. -/
def State.judgePlate (s : State) (among budget k : Nat) (r : PlateRec) : State × PlateUse × Bool × Bool :=
  if !inBudget (s.platesFor true) among budget k then (s, .skip, s.fillComplete k r, true)
  else if s.fillComplete k r then (s, s.plateUse k r, true, true)
  else
    let use := s.plateUse k r
    let s := s.orR PLT_SUBST_LAST (2 ^ k)
    if r.policy = 0 then (s.report Ev.PLT_NOT_READY [], use, false, false)
    else ((s.bump PLT_SUBST_TOTAL).report Ev.PLT_PLATE_SUBSTITUTED [], use, false, true)

/-- The plates' part of the commit point, under the plate table of the fill (R56), with the drill records' plates and the
plate budget of the next tick; the flag is the contribution to the vote. -/
def State.plateCommitPoint (s : State) (mask budget : Nat) : State × Bool :=
  let s := ((s.wrF PLT_STATUS 2 2 1).wr PLT_READY_LAST 0).wr PLT_SUBST_LAST 0
  let s : State := { s.scalerCheck with plt := { s.scalerCheck.plt with next := [], complete := [], required := [] } }
  let among := s.qualify mask
  let (s, ready) := ((s.platesFor true).mapIdx (fun k r => (k, r))).foldl (fun (a : State × Bool) kr =>
    let (s, use, comp, rdy) := a.1.judgePlate among budget kr.1 kr.2
    let s := if comp then s.orR PLT_READY_LAST (2 ^ kr.1) else s
    ({ s with plt := { s.plt with
        next := s.plt.next ++ [use], complete := s.plt.complete ++ [comp]
        required := if rdy then s.plt.required else s.plt.required ++ [kr.1] } }, a.2 && rdy)) (s, true)
  (s.wrF PLT_STATUS 3 3 (b2n ready), ready)

/-- The shown map of a plate copied into its arriving map (R116). -/
def State.copyMap (s : State) (k : Nat) : State :=
  match s.plateRec k with
  | some r => (List.range r.entries).foldl (fun t i => t.setArriving k r i (s.shownMap k r i)) s
  | none => s

/-- A COMMIT for one plate (R116): a complete plate's arriving map becomes the shown one, and the copy starts. What the copy
writes stands at once, so that slots only the old shown map names are free; publication waits for its end. A plate becomes
resident by being shown (R115), which one that is hidden or outside the budget is not (log entry 44). -/
def State.commitPlate (s : State) (k : Nat) : State :=
  let p := s.plateSt k
  if s.plt.complete.getD k false then
    (s.setPlate k { p with
      shownB := !p.shownB, copying := true, resident := p.resident || s.plt.next.getD k .skip != .skip
      shownEntry := p.entry, geomChanged := false }).copyMap k
  else s

/-- R112: the updates up to the committed LAST_SEQ are abandoned. -/
def State.abandonUpTo (s : State) (k : Nat) : State :=
  let p := s.plateSt k
  match p.entry with
  | none => s
  | some e => (p.upds.filter (fun u => !later 16 u.seq e.last)).foldl (fun s u => s.abandon k u.seq) s

/-- Blocks that waited for a slot take one freed at the boundary; the others' updates are abandoned (R105). -/
def State.retryWaiting (s : State) : State :=
  let w := s.plt.waiting
  w.foldl (fun s b => (s.acceptBlock b.2).1) { s with plt := { s.plt with waiting := [] } }

/-- The plates' part of the boundary that ends a tick whose commit point was handled (R112, R116), COMMIT or REPEAT; then the
pending record may become the candidate (R106). -/
def State.plateBoundary (s : State) (commit : Bool) : State :=
  let ks := List.range s.plates.length
  let s :=
    if commit && s.plt.cand.isSome then
      let s := ks.foldl (fun s k => s.commitPlate k) s
      let s := s.plt.required.foldl (fun s _ => (s.bump PLT_SUBST_TOTAL).report Ev.PLT_PLATE_SUBSTITUTED []) s
      let s := ks.foldl (fun s k => s.abandonUpTo k) s
      let c := s.plt.cand
      let s := s.wr PLT_SHOWN_TAG ((c.map (·.tag)).getD 0)
      { s with plt := { s.plt with
          use := s.plt.next.map (fun u => u != .skip)
          bgR := (c.map (·.bgR)).getD 0, bgG := (c.map (·.bgG)).getD 0, bgB := (c.map (·.bgB)).getD 0 } }
    else s
  let s := s.wrF PLT_STATUS 2 2 0
  let s := match s.plt.pend with
    | some f => if commit || s.plt.cand.isNone then s.adoptCandidate f else s
    | none => s
  (s.retryWaiting).publishAll

/-- R117: an uncorrectable DRAM error in a block map makes every entry of that map line ABSENT. -/
def State.mapLineLost (s : State) (a : Nat) : State :=
  let line := a / 64 * 64
  (s.plates.mapIdx (fun k r => (k, r))).foldl (fun s kr =>
    [false, true].foldl (fun s inB =>
      let base := kr.2.entryAddr inB 0
      let idx := (List.range 16).filter (fun j => decide (base ≤ line + 4 * j) && decide (line + 4 * j < base + 4 * kr.2.entries))
      if idx.isEmpty then s
      else
        let s := idx.foldl (fun s j => s.memPut (line + 4 * j) (toLe 4 mapAbsent)) s
        let p := s.plateSt kr.1
        if p.shownB = inB && p.shownEntry.isSome then
          s.setPlate kr.1 { p with resident := false }
        else s) s) s

/-! ### Plates at a switch (R106, R115, R117) -/

/-- A plate whose record a warm switch changed (R117): both maps ABSENT, and a RESYNC or a WHOLE update is waited for. A plate of
the same PLATE_ID keeps its APPLIED_SEQ and entry, and its open and held updates are abandoned, since their expected sets and
slots are those of the old record (DESIGN CHOICE, log entry 250). -/
def State.plateChanged (s : State) (k : Nat) (r : PlateRec) (sameId : Bool) : State :=
  if !sameId then (s.setPlate k PlateSt.init).clearMaps r
  else
    let s := (s.plateSt k).upds.foldl (fun s u => s.abandon k u.seq) s
    let p := s.plateSt k
    (s.setPlate k { PlateSt.init with
      applied := p.applied, entry := p.entry, valid := (p.entry.map (entryValid r)).getD false, geomChanged := p.geomChanged
      gone := p.gone, passed := p.passed }).clearMaps r

/-- A plan put in force: plates whose record is new start with both maps ABSENT; the others keep their state. A plate is known
by its index in the plate table: the old and the new record at one index are compared (DESIGN CHOICE, log entry 303). -/
def State.plateSwitch (s : State) (old : List PlateRec) (cold : Bool) : State :=
  let s := if cold then
      { s.wrF PLT_STATUS 4 4 1 with plt := { s.plt with cand := none, pend := none, waiting := [], use := [], next := [] } }
    else s
  (s.plates.mapIdx (fun k r => (k, r))).foldl (fun s kr =>
    match old[kr.1]? with
    | some o => if !cold && o.sameBut kr.2 then s else s.plateChanged kr.1 kr.2 (!cold && o.id == kr.2.id)
    | none => s.plateChanged kr.1 kr.2 false) s

/-! ### Register views -/

/-- The registers of the block whose value is computed when read. -/
def State.pltView (s : State) (a : Nat) : Option Nat :=
  let k := s.rdF PLT_SEL 4 0
  let p := s.plateSt k
  if a = PLT_STATUS then
    some (s.rd PLT_STATUS + b2n s.plt.cand.isSome + b2n s.plt.pend.isSome * 2 + b2n (!s.plt.waiting.isEmpty) * 32)
  else if a = PLT_RESIDENT then
    some ((List.range s.plates.length).map (fun k => b2n (s.plateSt k).resident * 2 ^ k)).sum
  else if a = PLT_TAGS then
    some ((s.plt.cand.map (·.tag)).getD 0 + (s.plt.pend.map (·.tag)).getD 0 * 2 ^ 16)
  else if a = PLT_SEQ then some (p.applied + (p.entry.map (·.last)).getD 0 * 2 ^ 16)
  else if a = PLT_UPD_STATE then
    let held := (p.upds.filter (fun u => u.complete)).length
    let oldest := p.upds.foldl (fun b u => match b with
      | none => some u.seq
      | some x => if later 16 x u.seq then some u.seq else some x) none
    some (min 255 (p.upds.length - held) + min 255 held * 2 ^ 8 + oldest.getD 0 * 2 ^ 16)
  else match s.plateRec k with
    | none => if a = PLT_POOL || a = PLT_POOL_SIZE || a = PLT_ABSENT then some 0 else none
    | some r =>
      if a = PLT_POOL then
        let used := s.usedSlots k r
        some ((List.range (2 * r.slots)).filter (fun i => !used.contains i)).length
      else if a = PLT_POOL_SIZE then some (2 * r.slots)
      else if a = PLT_ABSENT then
        some ((List.range r.entries).filter (fun i => bit (s.arrivingMap k r i) 30 == 1)).length
      else none

/-! ### The commands -/

/-- UPDATE_COMPLETE (R110): what is complete and next in order is published. -/
def execUpdateComplete (plate : Fin 32) (s : State) : Host.Outcome State Fault Refusal := .next (State.publishPlate plate.val s)

/-- MAP_COPY_DONE (R116): the copy into the arriving map has ended, and publication goes on. -/
def execMapCopyDone (plate : Fin 32) (s : State) : Host.Outcome State Fault Refusal :=
  .next (if (s.plateSt plate.val).copying then
    State.publishPlate plate.val (s.setPlate plate.val { s.plateSt plate.val with copying := false }) else s)

/-- PLT_CTRL_RESYNC (R106): the next frame record is handled as RESYNC. -/
def execPltCtrlResync (s : State) : Host.Outcome State Fault Refusal :=
  if s.shut .service PLT_CTRL then .next (s.turnedAway .service PLT_CTRL) else
  .next (s.wrF PLT_STATUS 4 4 1)

/-- PLT_CTRL_DROP_PENDING (R118): the pending frame record is discarded. -/
def execPltCtrlDropPending (s : State) : Host.Outcome State Fault Refusal :=
  if s.shut .service PLT_CTRL then .next (s.turnedAway .service PLT_CTRL) else
  .next { s with plt := { s.plt with pend := none } }

end Sys2Proof.Machine
end

