-- ==== Sys2Proof/Machine/Supply.lean ====
section
/-! DEFINITION. The panel supplies and the power-loss sequence (R227 to R229, R231, R211). -/
namespace Sys2Proof.Machine

/-- Causes of ETC_DISCHARGE (Table 8.16). -/
def dischPowerFail : Nat := 1
def dischSupply : Nat := 2
def dischBlank : Nat := 3
def dischMode : Nat := 4
def dischDown : Nat := 5

/-- States of ETC_SUPPLY_STATUS (Table 8.12). -/
def supOff : Nat := 0
def supUp : Nat := 1
def supOn : Nat := 2
def supDown : Nat := 3
def supRetry : Nat := 4
def supLockout : Nat := 5

/-- State ACTIVE of a panel lane (Table 9.17). -/
def plActive : Nat := 5

/-- A panel lane's record and its state. -/
def State.panelLane (s : State) (m : Nat) : PanelLane := sget PanelLane.init s.lne.panels m
def State.plState (s : State) (m : Nat) : Nat := s.rdF (LNE_PL_STATUS m) 2 0

/-- A panel lane is trained: ACTIVE, and an out lane has had its STATUS. -/
def State.plTrained (s : State) (m : Nat) : Bool := s.plState m == plActive && !(s.panelLane m).await

/-- LNE_PL_STATUS.ABSENT of a panel lane (R258). -/
def State.plAbsent (s : State) (m : Nat) : Bool := s.rdF (LNE_PL_STATUS m) 3 3 == 1

/-- The PANEL_TIMING section in force, empty before a plan. -/
def State.panelSec (s : State) : Bytes := match s.fpl.plan with
  | some p => p.sec 0x09 0
  | none => []
/-- LANE_MAP[j]. -/
def State.laneMap (s : State) (j : Nat) : Nat := if s.fpl.plan.isNone then j else byteAt s.panelSec (4 + j)

/-- R219, R227: every panel lane that has a driver is active: of the out lanes neither disabled nor ABSENT (log entry 276), each is
trained, and no MAP fault stands against its driver. -/
def State.driversReady (s : State) : Bool :=
  let fault (m : Nat) : Bool := (List.range 16).any (fun j => s.laneMap j == m && (sget Driver.init s.etc.drivers j).mapFault)
  (List.range 16).all (fun m => s.rdF (LNE_PL_CTRL m) 0 0 != 1 || s.plAbsent m || (s.plTrained m && !fault m))

/-- BLANK is in force (Table 8.10). -/
def State.blanked (s : State) : Bool := s.rdF ETC_STATUS 2 2 == 1

/-- The supply state. -/
def State.supState (s : State) : Nat := s.rdF ETC_SUPPLY_STATUS 2 0

/-- The supply state set. -/
def State.setSup (s : State) (v : Nat) : State := s.wrF ETC_SUPPLY_STATUS 2 0 v

/-- PSEQ[g] driven. -/
def State.setPseq (s : State) (g v : Nat) : State := s.wrF ETC_SUPPLY_STATUS (4 + g) (4 + g) v

/-- PGOOD[g] as seen. -/
def State.setPgood (s : State) (g v : Nat) : State := s.wrF ETC_SUPPLY_STATUS (8 + g) (8 + g) v

/-- EMIT_EN driven; a low level makes the tick dark for the polarity account (R210). -/
def State.setEmit (s : State) (v : Nat) : State :=
  let s := s.wrF ETC_STATUS 0 0 v
  if v = 0 then { s with etc := { s.etc with darkTick := true } } else s

/-- DISCH_N driven: DISCH reads 1 while it is low. -/
def State.setDischN (s : State) (level : Nat) : State := s.wrF ETC_STATUS 1 1 (1 - level)

/-- ALL_OPEN driven on the row pins (R222), or ended. -/
def State.setAllOpen (s : State) (v : Nat) : State :=
  if s.rdF ETC_STATUS 4 4 = v then s else (s.put (.allOpen (v == 1))).wrF ETC_STATUS 4 4 v

/-- The step of the supply sequence. -/
def State.setSeq (s : State) (q : SupSeq) : State := { s with etc := { s.etc with seq := q } }

/-- R222: a discharge begins: EMIT_EN and DISCH_N low, then ALL_OPEN. -/
def State.dischargeStart (s : State) (cause : Nat) : State :=
  (((s.setEmit 0).setDischN 0).setAllOpen 1).setSeq (.disch cause)

/-- R211: a discharge sets every phase to 0, clears every owed mark and restarts the scan counts. -/
def State.dischargeAccount (s : State) : State :=
  { s with etc := { s.etc with furrows := [], scanAge := 0, darkTick := true } }

/-- The end of a discharge (R211, R222): row pins low, counted and reported with its cause. -/
def State.dischargeDone (s : State) (cause : Nat) : State :=
  ((s.setAllOpen 0).dischargeAccount.bump ETC_DISCH_TOTAL).report Ev.ETC_DISCHARGE [cause]

/-- R227: the up sequence starts; it is ignored in LOCKOUT, while the supplies are already up or rising, during a down
sequence and after power loss, and while a panel lane that has a driver is not active (DESIGN CHOICE, log entry 286). -/
def State.supplyUp (s : State) : State :=
  if s.supState = supLockout || s.supState = supUp || s.supState = supOn || s.supState = supDown || s.panelLost ||
      !s.driversReady then s
  else
    let s := ((s.setEmit 0).setDischN 0).setSup supUp
    (s.setPseq 0 1).setSeq (.waitPgood 0)

/-- R227: the down sequence starts with a discharge for a cause; `after` says what follows. -/
def State.supplyDownFor (s : State) (cause : Nat) (after : AfterDown) : State :=
  if s.panelLost then s
  else
    let s := (s.setSup supDown).dischargeStart cause
    { s with etc := { s.etc with after := after } }

/-- R227: the down sequence of a command, a clean shutdown, a reset or OVERTEMP; in LOCKOUT the panel is down already and
stays so, and a running down sequence goes on without a retry after it. -/
def State.supplyDown (s : State) : State :=
  if s.supState = supLockout then s
  else if s.supState = supDown then { s with etc := { s.etc with after := .off } }
  else s.supplyDownFor dischDown .off

/-- R228: the supply failures of the current 60 s window (Table 8.12). -/
def State.failsNow (s : State) : List Nat := s.etc.failTimes.filter (fun t => decide (s.now - t < 60000 * 1600000))

/-- R228: a supply failure with its group: reported, counted in the 60 s window, then lockout at the third, a retry with
AUTO_RETRY, or off. A failure during a down sequence leaves the sequence running, with what follows it unchanged but for a
lockout (DESIGN CHOICE, log entry 263). -/
def State.supplyFail (s : State) (code g : Nat) : State :=
  let s := s.report code [g]
  let times := s.failsNow ++ [s.now]
  let s := { s with etc := { s.etc with failTimes := times, failRun := s.etc.failRun + 1, failCode := code } }
  let s := (s.wrF ETC_SUPPLY_STATUS 13 12 g).wrF ETC_SUPPLY_STATUS 15 14 (min 3 times.length)
  if s.supState = supDown then
    if 3 ≤ times.length ∧ s.etc.after ≠ .lockout then
      { s.report Ev.ETC_SUPPLY_LOCKOUT [] with etc := { (s.report Ev.ETC_SUPPLY_LOCKOUT []).etc with
        after := if s.etc.after = .shutdown then .shutdown else .lockout } }
    else s
  else if 3 ≤ times.length then
    (s.report Ev.ETC_SUPPLY_LOCKOUT []).supplyDownFor dischSupply .lockout
  else if s.rdF ETC_SUPPLY_CTRL 3 3 = 1 then s.supplyDownFor dischSupply .retry
  else s.supplyDownFor dischSupply .off

/-- Where the supplies rest after a down sequence. -/
def State.supplyRest (s : State) : State :=
  let s := s.setSeq .idle
  match s.etc.after with
  | .off => s.setSup supOff
  | .retry => s.setSup supRetry
  | .lockout => s.setSup supLockout
  | .shutdown => ((s.setSup supOff).requestStore 3).1
  | .up => (s.setSup supOff).supplyUp

/-- Steps 3 and 4 of R227 begin: DISCH_N rises and EMIT_EN waits for the next tick. BLANK in force holds both low, with the
supplies on (Table 8.11). -/
def State.emitResume (s : State) : State :=
  if s.blanked then (s.setSup supOn).setSeq .idle else (s.setDischN 1).setSeq .waitTick

/-- R227 step 4, at the first ROW_ST of a tick: EMIT_EN rises and ETC_SUPPLY_ON is reported. The whole tick is lit (R210). -/
def State.emitAtTick (s : State) : State :=
  if s.etc.seq = .waitTick then
    let s := ((s.setEmit 1).setSup supOn).setSeq .idle
    { s with etc := { s.etc with failRun := 0, darkTick := false } }.report Ev.ETC_SUPPLY_ON []
  else s

/-! ### The commands -/

/-- ETC_SUPPLY_UP (R227). -/
def execEtcSupplyUp (s : State) : Host.Outcome State Fault Refusal :=
  if s.shut .service ETC_SUPPLY_CTRL then .next (s.turnedAway .service ETC_SUPPLY_CTRL) else
  .next s.supplyUp

/-- ETC_SUPPLY_DOWN (R227). -/
def execEtcSupplyDown (s : State) : Host.Outcome State Fault Refusal :=
  if s.shut .service ETC_SUPPLY_CTRL then .next (s.turnedAway .service ETC_SUPPLY_CTRL) else
  .next s.supplyDown

/-- ETC_SUPPLY_CLEAR_LOCKOUT (R228): LOCKOUT is left for OFF. -/
def execEtcSupplyClearLockout (s : State) : Host.Outcome State Fault Refusal :=
  if s.shut .service ETC_SUPPLY_CTRL then .next (s.turnedAway .service ETC_SUPPLY_CTRL) else
  .next (if s.supState = supLockout then s.setSup supOff else s)

/-- SUPPLY_PGOOD_RISE (R227): PGOOD of the group being raised rises, and the T_SEQ wait starts. -/
def execSupplyPgoodRise (group : Fin 4) (s : State) : Host.Outcome State Fault Refusal :=
  let s := s.setPgood group.val 1
  .next (if s.etc.seq = .waitPgood group.val then s.setSeq (.waitSeq group.val) else s)

/-- SUPPLY_SEQ_DELAY_END (R227): T_SEQ elapses and the sequence moves to the next group or step. -/
def execSupplySeqDelayEnd (s : State) : Host.Outcome State Fault Refusal :=
  .next <| s.oneCycle fun s =>
    match s.etc.seq with
    | .waitSeq g =>
      if g < 3 then (s.setPseq (g + 1) 1).setSeq (.waitPgood (g + 1))
      else (s.setAllOpen 1).setSeq .upAllOpen
    | .downSeq g =>
      let s := (s.setPseq g 0).setPgood g 0
      if g = 0 then s.supplyRest else s.setSeq (.downSeq (g - 1))
    | _ => s

/-- SUPPLY_PGOOD_TIMEOUT (R228): PGOOD did not rise within T_PG; the down sequence runs. -/
def execSupplyPgoodTimeout (s : State) : Host.Outcome State Fault Refusal :=
  .next <| s.oneCycle fun s =>
    match s.etc.seq with
    | .waitPgood g => s.supplyFail Ev.ETC_SUPPLY_TIMEOUT g
    | _ => s

/-- SUPPLY_PGOOD_FAULT (R228): PGOOD is low for more than 2 µs while its group is on. -/
def execSupplyPgoodFault (group : Fin 4) (s : State) : Host.Outcome State Fault Refusal :=
  let g := group.val
  .next <| s.oneCycle fun s =>
    if s.rdF ETC_SUPPLY_STATUS (4 + g) (4 + g) = 1 && s.rdF ETC_SUPPLY_STATUS (8 + g) (8 + g) = 1 && !s.panelLost then
      ((s.setPgood g 0).setEmit 0).supplyFail Ev.ETC_SUPPLY_FAULT g
    else s

/-- SUPPLY_RETRY_TIMER (R228): the auto-retry delay ends and the up sequence runs again. -/
def execSupplyRetryTimer (s : State) : Host.Outcome State Fault Refusal :=
  .next (if s.supState = supRetry then s.supplyUp else s)

/-- DISCHARGE_ALL_OPEN_END (R222): 50 µs of ALL_OPEN end and the row pins go low; the up sequence raises DISCH_N, a down
sequence lowers PSEQ[3], BLANK holds, and a MODE change resumes. -/
def execDischargeAllOpenEnd (s : State) : Host.Outcome State Fault Refusal :=
  .next <|
    match s.etc.seq with
    | .upAllOpen => (s.setAllOpen 0).emitResume
    | .disch cause =>
      let s := s.dischargeDone cause
      if cause = dischBlank then (if s.blanked then (s.setSup supOn).setSeq .idle else s.emitResume)
      else if cause = dischMode then s.emitResume
      else ((s.setPseq 3 0).setPgood 3 0).setSeq (.downSeq 2)
    | _ => s

/-- ETC_CTRL_BLANK (Table 8.11): the word is written; BLANK acts at the next boundary. -/
def execEtcCtrlBlank (value : Word) (s : State) : Host.Outcome State Fault Refusal :=
  if s.shut .service ETC_CTRL then .next (s.turnedAway .service ETC_CTRL) else
  .next (s.regWrite ETC_CTRL value.toNat)

/-- R231, at a boundary: BLANK set is in force. With the supplies on it discharges; a sequence or a discharge under way ends in the
hold (R227). -/
def State.blankAtTick (s : State) : State :=
  if s.panelLost || s.rdF ETC_CTRL 0 0 = 0 || s.blanked then s
  else
    let s := s.wrF ETC_STATUS 2 2 1
    if s.etc.seq = .waitTick || (s.supState = supOn && s.etc.seq = .idle) then s.dischargeStart dischBlank else s

/-- R231, at a boundary: BLANK clear resumes with steps 3 and 4 of R227. -/
def State.blankEnd (s : State) : State :=
  if s.panelLost || s.rdF ETC_CTRL 0 0 = 1 || !s.blanked then s
  else
    let s := s.wrF ETC_STATUS 2 2 0
    if s.supState = supOn && s.etc.seq = .idle then s.emitResume else s

/-- POWER_LOSS_TRIGGER (R229, R386, R405): EMIT_EN and DISCH_N low, ALL_OPEN, and the Seedbank's power-fail store; a reset that
waits for its down sequence is taken over; after a thermal trip the pins hold their S0 defaults already (R376); a second trigger
during the sequence changes nothing, nor one after it, when the pins
hold their S0 defaults. -/
def execPowerLossTrigger (s : State) : Host.Outcome State Fault Refusal :=
  .next (if s.panelLost || s.thm.tripped then s
    else
      let s : State := { s with boot := { s.boot with request := none } }
      ((((s.setEmit 0).setDischN 0).setAllOpen 1).setSeq .pfail).powerFailStore)

end Sys2Proof.Machine
end

