-- ==== Sys2Proof/Machine/Dram.lean ====
section
/-! DEFINITION. The DRAM controller (chapter "DRAM controller"): requests and their scheduling, ECC and poison, refresh,
self-refresh, frequency changes, training, row tests and retirement. -/
namespace Sys2Proof.Machine

/-- Every queue of every channel is empty. -/
def State.dmcEmpty (s : State) : Bool :=
  (List.range 16).all (fun c => (s.chan c).queue.isEmpty && (s.chan c).issued.isEmpty && (s.chan c).wait.isEmpty)

/-- The controller runs: trained, out of self-refresh. -/
def State.dmcServing (s : State) : Bool := s.dmc.sr == .off || s.dmc.sr == .entering

/-- The open row of a bank. -/
def Chan.openOf (x : Chan) (b : Nat) : Option Nat := sget none x.openRow b

/-- A bank's open row set. -/
def Chan.setOpen (x : Chan) (b : Nat) (r : Option Nat) : Chan := { x with openRow := sset none x.openRow b r }

/-! ### Scheduling (R327 to R331) -/

/-- R330: a queued request matches, in its row or in the row of its check line, an earlier one of the other direction. -/
def rowConflict : List DramReq → Bool
  | [] => false
  | r :: t => t.any (fun q => (q.row == r.row || (q.chk.isSome && q.chk == r.chk)) && q.write != r.write) || rowConflict t

/-- Core cycles of `n` DMC cycles at an operating point (Table 12.2). -/
def dmcCycles (op n : Nat) : Nat := if op = 0 then n * 3 / 2 else if op = 1 then n * 2 else n * 4

/-- R329: the oldest request of the bank has waited AGE_CAP. -/
def State.ageCapped (s : State) (l : List DramReq) : Bool :=
  match l with
  | [] => false
  | r :: _ => decide (dmcCycles (s.rdF DMC_OP 1 0) (16 * max 1 (s.rdF DMC_TIMER 31 16)) ≤ s.now - r.time)

/-- The eligible request of a bank within a class (R328, R329, R330). -/
def State.eligibleIn (s : State) (x : Chan) (b : Nat) (stream : Bool) : Option DramReq :=
  let l := x.ofBank b
  if rowConflict l || s.ageCapped l then l.head?.filter (fun r => r.stream == stream)
  else
    let firstWrite := l.find? (fun r => r.write)
    let ok (r : DramReq) : Bool := r.stream == stream && (!r.write || firstWrite == some r)
    match l.find? (fun r => ok r && some r.row == x.openOf b) with
    | some r => some r
    | none => l.find? ok

/-- The eligible request of a bank, one of a STREAM record first (R328). -/
def State.eligible (s : State) (x : Chan) (b : Nat) : Option DramReq := (s.eligibleIn x b true).or (s.eligibleIn x b false)

/-- The eligible requests of a class that hit the open rows of their banks. -/
def State.hitsIn (s : State) (x : Chan) (stream : Bool) : List DramReq :=
  (List.range 16).filterMap (fun b => (s.eligibleIn x b stream).filter (fun r => some r.row == x.openOf b))

/-- The first request of a list in the service order of R328 step 3: of two, the one that the channel accepted first is older. -/
def pickColumn (x : Chan) (l : List DramReq) : Option DramReq :=
  let dir := fun r : DramReq => r.write == x.drain
  let oldest (m : List DramReq) : Option DramReq := x.queue.find? (fun r => m.contains r)
  match oldest (l.filter (fun r => r.stream && dir r)) with
  | some r => some r
  | none => match oldest (l.filter (fun r => r.stream)) with
    | some r => some r
    | none => match oldest (l.filter dir) with
      | some r => some r
      | none => oldest l

/-- One REFpb of a channel. -/
def Chan.refresh (x : Chan) (now : Nat) : Chan :=
  let y := x.setOpen x.refBank none
  { y with debt := x.debt - 1, refBank := (x.refBank + 1) % 16, lastRef := now
           topRefresh := x.topRefresh && decide (1 < x.debt) }

/-- R332: one refresh of an urgent burst, which ends when the debt is 0: it is counted and reported with its refreshes. -/
def State.urgentStep (s : State) (c n : Nat) : State :=
  let x := s.chan c
  let s := (s.setChan c { x.refresh s.now with urgent := if x.debt ≤ 1 then none else some (n + 1) }).putDram c cmdRef x.refBank
  if x.debt ≤ 1 then (s.bump DMC_REFRESH_URGENT_TOTAL).report Ev.DMC_REFRESH_URGENT [c, n + 1] else s

/-- One command of a channel in a DMC cycle (R328), with every timing of the standard met. -/
def State.chanIssue (s : State) (c : Nat) : State :=
  let x := s.chan c
  let banks := List.range 16
  let hits := s.hitsIn x true ++ s.hitsIn x false
  let rot := (List.range 16).map (fun i => (x.lastAct + 1 + i) % 16)
  let needAct := rot.filter (fun b => (s.eligible x b).isSome && (x.openOf b).isNone)
  let actBank := match needAct.find? (fun b => (x.ofBank b).any (fun r => r.stream)) with
    | some b => some b
    | none => needAct.head?
  let misses := banks.filter (fun b => (x.openOf b).isSome && match s.eligible x b with
    | some r => some r.row != x.openOf b
    | none => false)
  match x.urgent with
  | some n => s.urgentStep c n
  | none =>
  if 8 ≤ x.debt || (x.topRefresh && decide (0 < x.debt)) then
    (s.setChan c (x.refresh s.now)).putDram c cmdRef x.refBank
  else match pickColumn x hits with
  | some r =>
    let y := { x with queue := x.queue.erase r, issued := if r.write || r.own then x.issued else x.issued ++ [r] }
    (s.setChan c (chanServeWait y.wait.length y.updateDrain)).putDram c (if r.write then cmdWrite else cmdRead)
      (r.bank + 16 * s.dramCol r.addr)
  | none => match actBank with
    | some b =>
      let row := ((s.eligible x b).map (·.row)).getD 0
      (s.setChan c { x.setOpen b (some row) with lastAct := b }).putDram c cmdAct (b + row * 16)
    | none => match misses.head? with
      | some b => (s.setChan c (x.setOpen b none)).putDram c cmdPre b
      | none => if 0 < x.debt then (s.setChan c (x.refresh s.now)).putDram c cmdRef x.refBank else s

/-! ### Self-refresh (R335) and frequency (R336, R337) -/

/-- The entry commit point: precharge-all, debts cleared, the channels in self-refresh; for a frequency change the domain stops
there (R24, R337). -/
def State.srCommit (s : State) : State :=
  let s := (List.range 16).foldl (fun s c => s.putDram c cmdPreAll 0) s
  let s := (List.range 16).foldl (fun s c =>
    (s.setChan c { s.chan c with openRow := [], debt := 0, topRefresh := false }).putDram c cmdSre 0) s
  let s := s.wrF DMC_STATUS 3 3 1
  let s : State := if s.dmc.freqEntry then
      let q := (s.tests.filter (fun t => t.kind == 2)).length
      { s.wrF DMC_STATUS 4 4 1 with dmc := { s.dmc with frozen := some (s.dmc.chans, q) } }
    else s
  { s with dmc := { s.dmc with sr := .inside } }

/-- An entry with empty queues reaches its commit point once the check cache is written back (R335). -/
def State.srAdvance (s : State) : State :=
  if s.dmc.sr ≠ .entering || !s.dmcEmpty || s.panelLost then s
  else if s.dmc.cache.any (fun e => e.2) then s.cacheFlush
  else s.srCommit

/-- One DMC cycle of all channels, at an idle step: an entry commits, or every channel issues at most one command; nothing after a
power-loss trigger (R326). -/
def State.dmcCycle (s : State) : State :=
  if s.panelLost then s
  else match s.dmc.sr with
  | .off => (List.range 16).foldl (fun s c => s.chanIssue c) s
  | .entering => if s.dmcEmpty then s.srAdvance else (List.range 16).foldl (fun s c => s.chanIssue c) s
  | _ => s

/-- OP_MAX and OP_FLOOR (Table 12.10). -/
def State.opMax (s : State) : Nat := s.rdF DMC_OP 5 4
def State.opFloor (s : State) : Nat := s.rdF DMC_OP 9 8

/-- The domain of the controller is stopped: a frequency change is past its commit point (Table 1.6, R337). -/
def State.dmcStopped (s : State) : Bool := s.rdF DMC_STATUS 4 4 == 1

/-- R24: a write of a control field held until the domain runs again. -/
def State.dmcHold (s : State) (a v : Nat) : State := { s with dmc := { s.dmc with held := s.dmc.held ++ [(a, v)] } }

/-- R336: a change of the operating point asked for; a write of DMC_FREQ_CTRL while the domain is stopped (R24). -/
def State.requestOp (s : State) (target : Nat) : State :=
  if s.dmcStopped then s.dmcHold DMC_FREQ_CTRL (target % 4 + 2 ^ 8)
  else if 3 ≤ target || decide (s.opFloor < target) || decide (target < s.opMax) then s.report Ev.DMC_FREQ_REFUSED []
  else if target = s.rdF DMC_OP 1 0 then
    { s.wrF DMC_FREQ_CTRL 9 9 0 with dmc := { s.dmc with freq := none } }
  else { s.wrF DMC_FREQ_CTRL 9 9 1 with dmc := { s.dmc with freq := some target } }

/-! ### Refresh multiplier (R333, R334) -/

/-- The code of DMC_CH_STATE.MULT. -/
def multCode (m : Nat) : Nat := if m = 4 then 2 else if m = 2 then 1 else 0

/-- R332: an urgent burst starts: the channel issues refreshes and nothing else until the debt is 0. -/
def State.urgentBurst (s : State) (c : Nat) : State :=
  if (s.chan c).urgent.isSome then s else s.setChan c { s.chan c with urgent := some 0 }

/-- The multiplier that R333 gives a channel now. -/
def State.multWanted (s : State) (x : Chan) : Nat :=
  if x.hot then 4
  else
    let floor := if 3 ≤ s.rdF THM_STATUS 2 0 then 2 else 1
    let m := max (max 1 x.mr4Rate) floor
    if x.mr4Stale then max 2 m else m

/-- R333, R334: the multiplier of a channel brought up to date; a change is reported and recomputes the debt. -/
def State.updateMult (s : State) (c : Nat) : State :=
  let x := s.chan c
  let m := s.multWanted x
  if m = x.mult then s
  else
    let rose := decide (x.mult < m)
    let debt := if s.dmcServing then ceilDiv ((s.now - x.lastRef) * m) Config.trefipb else 0
    let s := s.setChan c { x with mult := m, debt := debt, topRefresh := rose && decide (0 < debt) }
    let s := if rose && decide (0 < debt) then s.srCancel else s
    let s := s.report Ev.DMC_REFRESH_RATE [c, m]
    if rose && decide (8 < debt) then s.urgentBurst c else s

/-- R333: the floor of the die band on every channel, once DRAM is trained. -/
def State.refreshFloors (s : State) : State :=
  if s.dramOn then (List.range 16).foldl (fun s c => s.updateMult c) s else s

/-- R333: an MR4 read of a channel. -/
def State.mr4Read (s : State) (c : Nat) (m : Mr4) : State :=
  let s := s.setChan c { s.chan c with mr4 := m.raw.toNat, mr4Rate := m.rate.val, mr4Stale := false, hot := m.hot }
  let s := if m.hot then s.report Ev.DMC_DRAM_HOT [c] else s
  s.updateMult c

/-! ### Row tests (R339, R340) -/

/-- The index of a DRAM row (Table 17.11). -/
def rowIdx (c b r : Nat) : Nat := c + b * 16 + r * 256

/-- The row of an address queued for a test. -/
def State.queueRow (s : State) (a : Nat) (faulted : Bool) : State :=
  let (c, b, r) := s.dramLoc a
  s.queueTestLim 2 (rowIdx c b r) faulted 16 DMC_SELFTEST_DROPPED_TOTAL

/-- A spare row is free: no remap uses it and it is not PERMANENT itself. -/
def State.spareFree (s : State) (c b : Nat) : Bool :=
  !s.dmc.remap.any (fun e => e.1 == c && e.2.2.2 == b) && !s.dmc.deadSpares.contains (c, b)

/-- R340: the spare for a row. -/
def State.spareRow (s : State) (c b : Nat) : Option Nat :=
  if s.spareFree c b then some b else (List.range 16).find? (fun k => s.spareFree c k)

/-- DMC_RETIRE_ENTRY of a row. -/
def retireEntry (c b r : Nat) : Nat := rowIdx c b r + 2 ^ 31

/-- The Steward store (R319): where it begins. -/
def State.storeBase (s : State) : Nat := s.fixedBase + 2 ^ 22

/-- R340: the retire list in the Steward store; its place and form there are the model's (log entry 311). -/
def State.storeRetired (s : State) : State :=
  s.memPut s.storeBase (s.dmc.remap.flatMap (fun e => toLe 4 (retireEntry e.1 e.2.1 e.2.2.1)))

/-- R338: the training records copied to the Steward store (log entry 311). -/
def State.storeTraining (s : State) : State :=
  s.dmc.trained.foldl (fun s p => s.memPut (s.storeBase + 2 ^ 20 + 64 * p.1) ((List.range 64).map (Config.trainByte p.2))) s

/-- R339: the lines of a row under test copied to the Steward store (log entry 311). -/
def State.storeRow (s : State) (c b r : Nat) : State :=
  s.memPut (s.storeBase + 2 ^ 21) ((s.rowLines c b r).flatMap (fun a => s.memGet a 64))

/-- R340: a PERMANENT row remapped, or DMC_RETIRE_FULL; a spare that fails itself is replaced. The flag says whether the row
was remapped. -/
def State.remapRow (s : State) (c b r : Nat) : State × Bool :=
  let top := s.dramRows - 1
  let isSpare := r == top
  let s := if isSpare then { s with dmc := { s.dmc with deadSpares := s.dmc.deadSpares ++ [(c, b)] } } else s
  let target : Option (Nat × Nat × Nat) :=
    if isSpare then (s.dmc.remap.find? (fun e => e.1 == c && e.2.2.2 == b)).map (fun e => (e.1, e.2.1, e.2.2.1))
    else some (c, b, r)
  match target with
  | none => (s, false)
  | some (c0, b0, r0) =>
    let old := s.dmc.remap.filter (fun e => !(e.1 == c0 && e.2.1 == b0 && e.2.2.1 == r0))
    let stale := (s.dmc.remap.find? (fun e => e.1 == c0 && e.2.1 == b0 && e.2.2.1 == r0)).map (·.2.2.2)
    let s' : State := match stale with
      | some k => { s with dmc := { s.dmc with deadSpares := (s.dmc.deadSpares.erase (c0, k)) ++ [(c0, k)] } }
      | none => s
    match s'.spareRow c0 b0 with
    | some k =>
      if 64 ≤ old.length then (s.report Ev.DMC_RETIRE_FULL [], false)
      else
        let s := State.storeRetired { s' with dmc := { s'.dmc with remap := old ++ [(c0, b0, r0, k)] } }
        let s := s.report Ev.DMC_ROW_RETIRED []
        ({ s with ev := { s.ev with
            flashPend := s.ev.flashPend ++ [LogItem.dramRetire (retireEntry c0 b0 r0) (retireEntry c0 k top)] } }, true)
    | none => (s.report Ev.DMC_RETIRE_FULL [], false)

/-! ### Errors of lines (R324, R325) -/

/-- DMC_ECC_LAST of an error at an address. -/
def State.eccLastDram (s : State) (a : Nat) (ue inCheck : Bool) : State :=
  let at' := match s.windowOf a with
    | some (n, w) => if inCheck then checkLine n w a else a
    | none => a
  let (c, b, _) := s.dramLoc at'
  (s.wr DMC_ECC_LAST_LO (a % 2 ^ 32)).wr DMC_ECC_LAST_HI
    (a / 2 ^ 32 % 256 + c * 2 ^ 8 + b * 2 ^ 12 + b2n ue * 2 ^ 16 + b2n inCheck * 2 ^ 17)

/-- The address whose row an error names: the data line, or its check line. -/
def State.errorAddr (s : State) (a : Nat) (inCheck : Bool) : Nat :=
  match s.windowOf a with
  | some (n, w) => if inCheck then checkLine n w a else a
  | none => a

/-- A corrected line (R324): its write-back is queued as an unscheduled write. -/
def State.dramCorrected (s : State) (a : Nat) (inCheck : Bool) : State :=
  let s := (s.bump DMC_ECC_CE_TOTAL).eccLastDram a false inCheck
  let e := s.errorAddr a inCheck
  let (c, b, r) := s.dramLoc e
  let k := rowIdx c b r
  let s := if s.dmc.ceTick.contains k then s
    else
      let s := s.report Ev.DMC_ECC_CORRECTED []
      { s with dmc := { s.dmc with ceTick := k :: s.dmc.ceTick } }
  (s.queueRow e true).queueReq c (s.ownReq 0x0B false true e)

/-- The stress cell whose count a line begins with, when it lies in the masters or in an accumulator bank (R183). -/
def State.stressCellAt (s : State) (a : Nat) : Option Nat :=
  [(HGL_MASTER_BASE, 6), (HGL_ACC_BASE_A, 2), (HGL_ACC_BASE_B, 2)].findSome? (fun e =>
    let base := s.rd e.1 * 256
    if base ≤ a ∧ a < base + e.2 * 13996800 then some ((a - base) / e.2) else none)

/-- An uncorrectable line (R324); in a block map it makes the entries of the line ABSENT (R117); in the stress counts the event of
their promise follows, with the line's first cell (R30, log entry 284). -/
def State.dramUncorrectable (s : State) (a : Nat) (inCheck : Bool) : State :=
  let s := (s.bump DMC_ECC_UE_TOTAL).eccLastDram a true inCheck
  let e := s.errorAddr a inCheck
  let s := s.report Ev.DMC_ECC_UNCORRECTABLE [s.rd DMC_ECC_LAST_LO, s.rd DMC_ECC_LAST_HI, (s.dramLoc e).2.2]
  let s : State := { s with dmc := if inCheck then { s.dmc with badChecks := e :: s.dmc.badChecks.filter (· != e) }
    else { s.dmc with badLines := a / 64 * 64 :: s.dmc.badLines.filter (· != a / 64 * 64) } }
  let s := match s.stressCellAt a with
    | some i => s.reportJoined Ev.HGL_STRESS_RECONCILED [(Config.openCode Ev.HGL_STRESS_RECONCILED 0).toNat, i]
    | none => s
  let s := s.mapLineLost a
  s.queueRow e true

/-- The outcome of a read of a line that carries no poison mark: a fault that stands decides it (R324). -/
def State.lineOutcome (s : State) (a : Nat) (check : DramCheck) : DramCheck :=
  match s.lineBad a with
  | some k => .uncorrectable k
  | none => check

/-- A range of DRAM that the device reads: a request for each usable line (R327), a poison mark counted and a standing fault
reported (R324). -/
def State.queueRead (s : State) (client a n : Nat) : State :=
  ((linesOf a n).filter s.dramUsable).foldl (fun s l =>
    let s := s.queueLine client false false l
    match s.lineBad l with
    | some k => if s.marked l then s else s.dramUncorrectable l k
    | none => s) s

/-- An access of a requester to a range: a grant for each line of the Granary (R74), a request for each line of DRAM (R327). -/
def State.useRange (s : State) (req : GrnReq) (write : Bool) (a n : Nat) : State :=
  let s := s.grantRange req a n
  if a + n ≤ dramBase then s
  else if write then s.queueWrite (reqClient req) a n else s.queueRead (reqClient req) a n

/-- A line lies in a protected window. -/
def State.protectedLine (s : State) (a : Nat) : Bool :=
  match s.windowOf a with
  | some (_, w) => w.ecc
  | none => false

/-- The bytes of a line with those of a mask replaced. -/
def maskLine (old new : Bytes) (mask : Nat) : Bytes :=
  (List.range 64).map (fun j => if bit mask j = 1 then new.getD j 0#8 else old.getD j 0#8)

/-- The effect of a write on a line (R325). -/
def State.dramWriteLine (s : State) (a : Nat) (d : Bytes) (mask : Nat) (poisonIn : Bool) (check : DramCheck) : State :=
  if mask % 2 ^ 64 = 2 ^ 64 - 1 then
    let s := (s.memSet a (maskLine [] d mask)).lineRenewed a
    if poisonIn then s.poisonDram a else s
  else
    let merged := maskLine (s.memGet a 64) d mask
    if s.protectedLine a then
      let s := if s.marked a then s.bump DMC_POISON_READ_TOTAL
        else match s.lineOutcome a check with
          | .clean => s
          | .corrected k => s.dramCorrected a k
          | .uncorrectable k => ((s.dramUncorrectable a k).setPoison a true).lineRenewed a
      let s := s.memPut a merged
      if poisonIn then s.setPoison a true else s
    else
      let s := s.memPut a merged
      if poisonIn then s.poisonDram a else s

/-- One request accepted (R327): its data are taken in the order of acceptance, which R330 keeps. -/
def State.dramAccept (s : State) (client : Nat) (stream : Bool) (a : Nat) (write : Option Bytes) (mask : Nat)
    (poisonIn : Bool) (check : DramCheck) : State :=
  let (c, b, r) := s.dramLoc a
  let s := match write with
    | some d => s.dramWriteLine a d mask poisonIn check
    | none => s
  (s.arrive c { stream := stream, write := write.isSome, addr := a, bank := b, row := r, client := client
                data := s.memGet a 64, poison := s.marked a, time := s.now
                chk := s.checkLoc a, own := false }).cacheLine stream write.isSome a

/-! ### Training and initialisation (R326, R338, R340) -/

/-- Capacity in GiB and the code's density (Table 12.1): density 1 to 4 with one rank, 2 to 4 with two ranks of the next
smaller die. -/
def capacityGiB (density : Nat) : Nat := 2 ^ (density + 2)

/-- R338: DRAM training ends. The flag says that the stage may go on; otherwise the event that holds it is given. -/
def State.trainDone (s : State) (t : Training) : State × Option Nat :=
  let ok := decide (1 ≤ t.density.val) && !(t.twoRanks && decide (t.density.val = 1))
  match (if ok then t.out else .mismatch) with
  | .mismatch => ((s.wr DMC_TRAIN_STATUS 5).report Ev.DMC_CONFIG_MISMATCH [], some Ev.DMC_CONFIG_MISMATCH)
  | .failLow c st =>
    ((s.wr DMC_TRAIN_STATUS (4 + c.val * 2 ^ 4 + 2 * 2 ^ 8 + st.val * 2 ^ 10)).report Ev.DMC_TRAIN_FAIL [c.val, st.val],
      some Ev.DMC_TRAIN_FAIL)
  | .pass m c st =>
    let s := s.wr DMC_CONFIG (t.density.val + b2n t.twoRanks * 8 + capacityGiB t.density.val * 2 ^ 8)
    let s := (s.wrF DMC_OP 5 4 m.val).wrF DMC_OP 1 0 2
    let s := s.wrF DMC_STATUS 0 0 1
    let (d, s) := s.draw
    let s : State := { s with dmc := { s.dmc with
      trained := ((List.range 3).filter (fun p => decide (m.val ≤ p))).map (fun p => (p, d)) } }
    let s := (List.range 16).foldl (fun s c =>
      let x := s.chan c
      s.setChan c { x with lastRef := s.now, mult := s.multWanted x }) s
    if m.val = 0 then (s.wr DMC_TRAIN_STATUS 2, none)
    else ((s.wr DMC_TRAIN_STATUS (3 + c.val * 2 ^ 4 + (m.val - 1) * 2 ^ 8 + st.val * 2 ^ 10)).report Ev.DMC_TRAIN_CAPPED [], none)

/-- R326: the windows of the running plan take effect: the protected windows and the reserved store hold zeros with valid
check bytes, and the Steward's records are copied to its store (R338, R340). -/
def State.windowsInForce (s : State) : State :=
  let s := s.wrF DMC_STATUS 1 1 1
  let s := s.wrF DMC_OP 9 8 (byteAt s.addrWindows 1)
  let s := s.windows.foldl (fun s w => if w.2.ecc then s.zeroRange w.2.base (2 ^ w.2.size) else s) s
  let s := s.zeroRange s.fixedBase (12 * 2 ^ 20)
  let s : State := { s with dmc := { s.dmc with badLines := [], badChecks := [], cache := [] } }
  s.storeRetired.storeTraining

/-! ### Register views -/

/-- Requests in a channel. -/
def Chan.count (x : Chan) : Nat := x.queue.length + x.issued.length

/-- The channels as the registers show them: as they were when the domain stopped (R24). -/
def State.shownChan (s : State) (c : Nat) : Chan :=
  match s.dmc.frozen with
  | some f => sget Chan.init f.1 c
  | none => s.chan c

/-- Row tests queued, as DMC_STATUS shows them. -/
def State.shownTests (s : State) : Nat :=
  match s.dmc.frozen with
  | some f => f.2
  | none => (s.tests.filter (fun t => t.kind == 2)).length

/-- The registers of the block whose value is computed when read. -/
def State.dmcView (s : State) (a : Nat) : Option Nat :=
  if a = DMC_STATUS then
    let q := s.shownTests
    let urgent := (List.range 16).any (fun c => (s.shownChan c).urgent.isSome)
    some (s.rd DMC_STATUS + b2n urgent * 2 ^ 5 + min q 15 * 2 ^ 6 + b2n (decide (16 ≤ q)) * 2 ^ 10)
  else if a = DMC_TRAIN_STATUS then
    some (if s.rd DMC_TRAIN_STATUS = 0 ∧ s.stageNow = 2 ∧ s.grnReady = true ∧ !s.grn.bistFailed then 1 else s.rd DMC_TRAIN_STATUS)
  else if a = DMC_INFLIGHT then some (((List.range 16).map (fun c => (s.shownChan c).count)).sum)
  else if a = DMC_CH_STATE then
    let x := s.shownChan (s.rdF DMC_CH_SEL 3 0)
    let order := ((List.range 16).filter (fun b => rowConflict (x.ofBank b))).length
    some (min 255 x.count + min 15 x.debt * 2 ^ 8 + multCode x.mult * 2 ^ 12 + b2n x.drain * 2 ^ 14 + b2n x.hot * 2 ^ 15 +
      x.mr4 * 2 ^ 16 + order * 2 ^ 24)
  else if a = DMC_WIN_BASE then
    some (match s.windows[s.rdF DMC_WIN_SEL 2 0]? with
      | some w => w.2.base / 2 ^ 12
      | none => 0)
  else if a = DMC_WIN_CFG then
    some (match s.windows[s.rdF DMC_WIN_SEL 2 0]? with
      | some w => 1 + w.2.size * 2 + b2n w.2.scattered * 2 ^ 7 + w.2.order * 2 ^ 8 + b2n w.2.ecc * 2 ^ 10
      | none => 0)
  else if a = DMC_RETIRE_ENTRY then
    some (match s.dmc.remap[s.rdF DMC_RETIRE_IDX 5 0]? with
      | some e => retireEntry e.1 e.2.1 e.2.2.1
      | none => 0)
  else none

/-! ### The commands -/

/-- DRAM_REQUEST (R322, R325, R327, R335): an unmapped address is not performed; otherwise the request is accepted, waits for
an entry, cancels an entry into self-refresh that is not committed, or is held during self-refresh. After a power-loss trigger it
stays queued and writes nothing (R326). -/
def execDramRequest (client : Fin 32) (stream : Bool) (addr : BitVec 40) (write : Option Bytes) (mask : BitVec 64)
    (poisonIn : Bool) (check : DramCheck) (s : State) : Host.Outcome State Fault Refusal :=
  let a := addr.toNat / 64 * 64
  .next <| s.oneCycle fun s =>
    if !s.dramUsable a then (s.unmapped client.val addr.toNat false).result 1 0
    else
      (s.dramAccept client.val stream a write mask.toNat poisonIn check).result 0 0

/-- DRAM_READ_RESPONSE (R324): the oldest read in flight of the channel is answered after the check of its words. A read held in
self-refresh is not answered (R335). -/
def execDramReadResponse (channel : Fin 16) (check : DramCheck) (s : State) : Host.Outcome State Fault Refusal :=
  let c := channel.val
  let x := s.chan c
  .next <| s.oneCycle fun s =>
    if !s.dmcServing then s
    else match (x.issued ++ x.queue.filter (fun r => !r.write && !r.own)).head? with
    | none => s
    | some r =>
      let y := { x with issued := x.issued.erase r, queue := if x.issued.contains r then x.queue else x.queue.erase r }
      let s := s.setChan c (chanServeWait y.wait.length y.updateDrain)
      if r.poison then (s.bump DMC_POISON_READ_TOTAL).resultBytes 4 r.data
      else if !s.protectedLine r.addr then s.resultBytes 0 r.data
      else match s.lineOutcome r.addr check with
      | .clean => s.resultBytes 0 r.data
      | .corrected k => (s.dramCorrected r.addr k).resultBytes 0 r.data
      | .uncorrectable k => (s.dramUncorrectable r.addr k).resultBytes 4 r.data

/-- REFRESH_INTERVAL (R332): the debt grows by 1 outside self-refresh; at 8 it takes top priority, above it an urgent burst
runs. -/
def execRefreshInterval (channel : Fin 16) (s : State) : Host.Outcome State Fault Refusal :=
  let c := channel.val
  .next <|
    if !s.dramOn || !s.dmcServing then s
    else
      let x := s.chan c
      let s := s.setChan c { x with debt := x.debt + 1 }
      let s := if 8 ≤ x.debt + 1 then s.srCancel else s
      if 8 < x.debt + 1 then s.urgentBurst c else s

/-- MR4_STALE (R333): at stage S5 no MR4 read of the channel completed within 1 s. -/
def execMr4Stale (channel : Fin 16) (s : State) : Host.Outcome State Fault Refusal :=
  .next (s.oneCycle fun s => if s.stageNow = 5 then
      (s.setChan channel.val { s.chan channel.val with mr4Stale := true }).updateMult channel.val
    else s)

/-- PAGE_IDLE_TIMER (R331): a bank without an eligible hit is precharged; a hit is served first and restarts the timer. -/
def execPageIdleTimer (channel bank : Fin 16) (s : State) : Host.Outcome State Fault Refusal :=
  let x := s.chan channel.val
  let b := bank.val
  .next <|
    match x.openOf b with
    | none => s
    | some row =>
      if (s.eligibleIn x b true).any (fun r => r.row == row) || (s.eligibleIn x b false).any (fun r => r.row == row) then s
      else (s.setChan channel.val (x.setOpen b none)).putDram channel.val cmdPre b

/-- SELF_REFRESH_IDLE (R335): with SR_EN set, empty queues and no top-priority refresh, an entry starts. -/
def execSelfRefreshIdle (s : State) : Host.Outcome State Fault Refusal :=
  let top := (List.range 16).any (fun c => decide (8 ≤ (s.chan c).debt) || (s.chan c).topRefresh || (s.chan c).urgent.isSome)
  .next (if s.dramOn && s.rdF DMC_SR_CTRL 0 0 == 1 && s.dmc.sr == .off && s.dmcEmpty && !top then
      { s with dmc := { s.dmc with sr := .entering, freqEntry := false } }
    else s)

/-- SELF_REFRESH_EXIT (R335): the minimum residency ends; held requests are served after the exit, and without one the
channels stay in self-refresh until a request comes. -/
def execSelfRefreshExit (s : State) : Host.Outcome State Fault Refusal :=
  .next <|
    let s := s.srAdvance
    if s.dmc.sr ≠ .inside || s.dmc.freqEntry then s
    else if s.dmcEmpty then { s with dmc := { s.dmc with sr := .residencyOver } }
    else s.srExit

/-- DMC_FREQ_REQ (R336): TARGET is written and the change requested; held while the domain is stopped (R24). -/
def execDmcFreqReq (value : Word) (s : State) : Host.Outcome State Fault Refusal :=
  if s.shut .service DMC_FREQ_CTRL then .next (s.turnedAway .service DMC_FREQ_CTRL) else
  let t := value.toNat % 4
  .next (if s.dmcStopped then s.dmcHold DMC_FREQ_CTRL (t + 2 ^ 8) else (s.wrF DMC_FREQ_CTRL 1 0 t).requestOp t)

/-- DMC_SELFTEST_REQ (R339): the row of the address written is queued, with no error behind it; an address that DRAM does
not have is unmapped; the write is held while the domain is stopped (R24). -/
def execDmcSelftestReq (value : Word) (s : State) : Host.Outcome State Fault Refusal :=
  if s.shut .service DMC_SELFTEST_REQ then .next (s.turnedAway .service DMC_SELFTEST_REQ) else
  let a := value.toNat * 256
  .next (if s.dmcStopped then s.dmcHold DMC_SELFTEST_REQ value.toNat
    else if (s.windowOf a).isNone then s.unmapped 0x0B a false else s.queueRow a false)

/-- A write of a control field of the block takes effect (R24): DMC_FREQ_CTRL with REQ, DMC_SELFTEST_REQ, or a plain field. -/
def State.dmcWrite (s : State) (a v : Nat) : State :=
  let go (o : Host.Outcome State Fault Refusal) : State := match o with
    | .next t => t
    | _ => s
  if a = DMC_FREQ_CTRL ∧ bit v 8 = 1 then go (execDmcFreqReq (BitVec.ofNat 32 v) s)
  else if a = DMC_SELFTEST_REQ then go (execDmcSelftestReq (BitVec.ofNat 32 v) s)
  else if s.dmcStopped ∧ (a = DMC_FREQ_CTRL ∨ a = DMC_SR_CTRL ∨ a = DMC_TIMER) then s.dmcHold a v
  else s.regWrite a v

/-- R336: a change window: a headland, after the drain, with at least 40 µs to the commit point. -/
def State.changeWindow (s : State) : Bool :=
  s.fpl.slot == 0x3FF && !s.fpl.committed && decide (s.now + 64000 + s.commitLead ≤ s.wal.next)

/-- FREQ_CHANGE_ENTRY (R336): in a change window with empty queues the entry of the pending change starts. -/
def execFreqChangeEntry (s : State) : Host.Outcome State Fault Refusal :=
  .next (if !s.changeWindow then s
    else if s.dmc.freq.isSome && s.dmcEmpty && (s.dmc.sr == .off) then
      { s with dmc := { s.dmc with sr := .entering, freqEntry := true } }
    else if s.dmc.freq.isSome && s.dmcEmpty && (s.dmc.sr == .residencyOver || s.dmc.sr == .inside) then
      { s.srExit with dmc := { s.srExit.dmc with sr := .entering, freqEntry := true } }
    else s)

/-- FREQ_CHANGE_DONE (R337): the PLL has relocked, the shadow sets have swapped, the channels exit, held requests are
served. -/
def execFreqChangeDone (s : State) : Host.Outcome State Fault Refusal :=
  .next <|
    match s.dmc.freq with
    | none => s
    | some t =>
      let s := s.srAdvance
      if !s.dmc.freqEntry || s.dmc.sr != .inside || s.panelLost then s
      else
        let s := (s.wrF DMC_OP 1 0 t).wrF DMC_OP 12 12 (1 - s.rdF DMC_OP 12 12)
        let s := ((s.wrF DMC_STATUS 4 4 0).srExit).wrF DMC_FREQ_CTRL 9 9 0
        let late := s.dmc.held
        let s := { s with dmc := { s.dmc with freq := none, freqEntry := false, held := [], frozen := none } }
        let s := (s.bump DMC_FREQ_TOTAL).report Ev.DMC_FREQ_CHANGED [t]
        late.foldl (fun s e => s.dmcWrite e.1 e.2) s

/-- FREQ_WINDOW_CLOSE (R336): the window closes before the commit point; the change waits for the next one. -/
def execFreqWindowClose (s : State) : Host.Outcome State Fault Refusal :=
  .next (if s.dmc.freq.isSome && !(s.dmc.freqEntry && s.dmc.sr == .inside) then
      let s := if s.dmc.freqEntry then s.srCancel else s
      s.report Ev.DMC_FREQ_DEFERRED []
    else s)

/-- DRAM_ROW_TEST_DONE (R339, R340): the row was copied to the Steward store, and the contents are back in place; the result of
the queued test is classed, and a PERMANENT row is remapped. -/
def execDramRowTestDone (channel bank : Fin 16) (row : Fin 131072) (fail : Option (Fin 5)) (s : State) :
    Host.Outcome State Fault Refusal :=
  let (c, b, r) := (channel.val, bank.val, row.val)
  let k := rowIdx c b r
  .next <| s.oneCycle fun s =>
    match s.tests.find? (fun t => t.kind == 2 && t.idx == k) with
    | none => s
    | some t =>
      let fig := match fail with
        | some p => p.val + 1
        | none => 0
      let s := s.storeRow c b r
      let (s, cls) := s.testResult Ev.DMC_SELFTEST_RESULT 2 k t.faulted fail.isSome fig
      let (s, m) := if cls = 3 then s.remapRow c b r else (s, false)
      s.wr DMC_SELFTEST_LAST (k + cls * 2 ^ 25 + b2n m * 2 ^ 27)

end Sys2Proof.Machine
end

