-- ==== Sys2Proof/Machine/Thresher.lean ====
section
/-! DEFINITION. The Thresher (chapter "Thresher compression engine"): staging of block rows, dispatch and decoding on the
decode pipes, failures, and encode and decode jobs. -/
namespace Sys2Proof.Machine

/-! ### Staging (R123) -/

/-- The slot record of an engine in a slot, when it asks for work: in the furrow slots of a REPEAT tick RUN records do none
(R19). -/
def State.liveRecord (s : State) (slot e : Nat) : Option SlotRec :=
  let r := s.slotRecord slot e
  if r.op = opRun then (if s.fpl.rep && decide (slot < 541) then none else some r) else if r.op = opFill then some r else none

/-- What a record reads of plate `k` under its plate table: a FILL record the choice of the commit point (R19), a RUN record the
shown map. -/
def State.plateSource (s : State) (fill : Bool) (k : Nat) : PlateUse :=
  if fill then s.plt.next.getD k .skip else .shown

/-- The entry whose geometry a plate has from a source. -/
def State.sourceEntry (s : State) (u : PlateUse) (k : Nat) : Option FrEntry :=
  match u with
  | .arriving => (s.plateSt k).entry
  | _ => (s.plateSt k).shownEntry

/-- Entry `i` of the map that a source names. -/
def State.sourceMap (s : State) (u : PlateUse) (k : Nat) (r : PlateRec) (i : Nat) : Nat :=
  match u with
  | .arriving => s.arrivingMap k r i
  | _ => s.shownMap k r i

/-- The plate block row with which a relief block row is handled: the first texel block row that it covers, within the
plate's 70 rows. -/
def reliefTarget (w : Int × Int) (qy : Int) : Nat := (max 0 (min 69 (8 * qy - (w.2 - 16) / 16))).toNat

/-- The map entries of block row `t` of a plate, in dispatch order (R124): index in the map, part, block position. -/
def rowEntries (r : PlateRec) (g : Geom) (w : Int × Int) (t : Nat) : List (Nat × Bool × Int × Int) :=
  let n := neededTexels r g w
  let q := neededRelief w
  (if t < r.cy then (List.range r.cx).map (fun i => (t * r.cx + i, false, n.x0 + (i : Int), n.y0 + (t : Int))) else []) ++
    (if r.relief then
      ((List.range 10).filter (fun j : Nat => reliefTarget w (q.y0 + (j : Int)) == t)).flatMap (fun j =>
        (List.range 17).map (fun i => (r.cx * r.cy + 17 * j + i, true, q.x0 + (i : Int), q.y0 + (j : Int))))
    else [])

/-- Client BAND (Table 3.2). -/
def clBand : Nat := 0x06

/-- The Granary address of line `n` of the DRAM staging partition; lines beyond its end start again. -/
def State.stageAddr (s : State) (n : Nat) : Nat :=
  match s.clientPart clDramStage with
  | some p => grnBase + p.first * 4096 + n % (64 * max 1 p.count) * 64
  | none => grnBase

/-- A line that a scheduled read brings from DRAM: its errors are handled (R324), and the poison mark goes with it. A read that R26
forbids brings no data, which the model stages as a poisoned line of zeros (DESIGN CHOICE, log entry 304). -/
def State.streamLine (s : State) (a : Nat) (checks : List (Nat × DramCheck)) : State × Bytes × Bool :=
  if !s.dramUsable a then (s.unmapped clDramStage a false, List.replicate 64 0#8, true)
  else
    let d := s.memGet a 64
    let s := s.queueLine clDramStage true false a
    if s.marked a then (s.bump DMC_POISON_READ_TOTAL, d, true)
    else if !s.protectedLine a then (s, d, false)
    else match s.lineOutcome a (((checks.find? (fun c => c.1 / 64 == a / 64)).map (·.2)).getD .clean) with
      | .corrected k => (s.dramCorrected a k, d, false)
      | .uncorrectable k => (s.dramUncorrectable a k, d, true)
      | .clean => (s, d, false)

/-- The lines of a slot copied into DRAM staging from line `at'` on. -/
def State.stageSlot (s : State) (a at' n : Nat) (checks : List (Nat × DramCheck)) : State :=
  (List.range n).foldl (fun s i =>
    let (s, d, p) := s.streamLine (a + 64 * i) checks
    let to' := s.stageAddr (at' + i)
    let s := s.engineSet 6 to' d
    if p && s.engineMay 6 (plotOf to') then s.setPoison to' true else s) s

/-- The buffer that holds the map a source names. -/
def State.sourceInB (s : State) (u : PlateUse) (k : Nat) : Bool :=
  match u with
  | .arriving => !(s.plateSt k).shownB
  | _ => (s.plateSt k).shownB

/-- The map lines of some entries read from DRAM: an uncorrectable one loses its entries (R117). -/
def State.readMapLines (s : State) (u : PlateUse) (k : Nat) (r : PlateRec) (idx : List Nat) (checks : List (Nat × DramCheck)) :
    State :=
  ((idx.map (fun i => r.entryAddr (s.sourceInB u k) i / 64 * 64)).dedup).foldl (fun s a => (s.streamLine a checks).1) s

/-- A block row staged for the plates of a mask (R123), from line `at'` of the staging partition on, under the plate table of
the fill or of the furrows (R56). Blocks of the same row that another record staged for other plates stay. -/
def State.streamRow (s : State) (row : Nat) (fill : Bool) (mask at' : Nat) (checks : List (Nat × DramCheck)) : State :=
  let w := s.window
  let (s, blocks, _) := (setBits 32 mask).foldl (fun (a : State × List StagedBlk × Nat) k =>
    match a.1.plateRecFor fill k, a.1.plateSource fill k with
    | none, _ => a
    | _, .skip => a
    | some r, u =>
      let es := rowEntries r (geomOf r (a.1.sourceEntry u k)) w row
      es.foldl (fun (a : State × List StagedBlk × Nat) e =>
        let (s, l, n) := a
        let v := s.sourceMap u k r e.1
        let blk (kind slot lines : Nat) : StagedBlk := ⟨k, e.2.1, e.2.2.1, e.2.2.2, kind, slot, n, lines⟩
        match entrySlot v with
        | none => (s, l ++ [blk (if bit v 30 = 1 then 2 else 1) 0 0], n)
        | some i =>
          let sa := r.slotAddr i
          let lines := ceilDiv (32 + s.memLe (sa + 14) 2) 64
          (s.stageSlot sa n lines checks, l ++ [blk 0 i lines], n + lines))
        (a.1.readMapLines u k r (es.map (·.1)) checks, a.2)) (s, [], at')
  let others (x : StagedRow) : Option StagedRow :=
    if x.row == row && x.fill == fill then
      (let l := x.blocks.filter (fun b => bit mask b.plate == 0)
       if l.isEmpty then none else some { x with blocks := l })
    else some x
  { s with thr := { s.thr with rows := s.thr.rows.filterMap others ++ [⟨row, fill, false, blocks⟩] } }

/-! ### Dispatch (R124) -/

/-- The engine has finished its record of the slot (R51), unless it still waits for a bank that the wheel never gives it (R73). -/
def State.finish (s : State) (e : Nat) : State :=
  if s.fpl.stalled.contains e then s else { s with fpl := { s.fpl with running := s.fpl.running.filter (· != e) } }

/-- The blocks of a plate that a record may take from a staged row: with WAIT the row must be input-complete. -/
def StagedRow.offers (x : StagedRow) (q : DecReq) (k : Nat) : Bool :=
  x.row == q.row && x.fill == q.fill && (x.ready || !q.wait) && x.blocks.any (fun b => b.plate == k)

/-- The record at the head moves blocks to the dispatch list (R124): plates in ascending index among its mask, the row's own
order within a plate. A plate whose blocks are not staged holds the record back. `live` gives the plates that have any in a row. -/
def thrTakeRows (live : Bool → Nat → Nat) : Nat → Thr → Thr
  | 0, t => t
  | fuel + 1, t =>
    match t.reqs with
    | [] => t
    | q :: rest =>
      match (setBits 32 q.mask).find? (fun k => bit (live q.fill q.row) k == 1) with
      | none => thrTakeRows live fuel { t with reqs := rest }
      | some k =>
        match t.rows.find? (fun x => x.offers q k) with
        | none => t
        | some x =>
          let left := x.blocks.filter (fun b => b.plate != k)
          let rows := t.rows.filterMap (fun y =>
            if y = x then (if left.isEmpty then none else some { y with blocks := left }) else some y)
          let mask := ((setBits 32 q.mask).filter (fun j => decide (k < j))).foldl (fun m j => m + 2 ^ j) 0
          thrTakeRows live fuel { t with
            reqs := { q with mask := mask } :: rest, rows := rows
            disp := t.disp ++ (x.blocks.filter (fun b => b.plate == k)).map (fun b => (q.fill, b)) }

/-- A decode pipe is free for the data path. -/
def Thr.pipeFree (t : Thr) (p : Nat) : Bool := !t.pipes.any (fun x => x.1 == p) && !t.jobs.any (fun j => j.pipe == p)

/-- Dispatched blocks go to the lowest-numbered free decode pipes. -/
def thrAssign (now : Nat) : Nat → Thr → Thr
  | 0, t => t
  | fuel + 1, t =>
    match t.disp, (List.range 8).find? t.pipeFree with
    | b :: rest, some p => thrAssign now fuel { t with disp := rest, pipes := t.pipes ++ [(p, b.1, b.2, now)] }
    | _, _ => t

/-- The plates that a record's row can hold: those of the plate table with entries in the row (R97), for a fill those that the
commit point did not skip. -/
def State.livePlates (s : State) (fill : Bool) (row : Nat) : Nat :=
  ((s.platesFor fill).mapIdx (fun k r =>
    if s.plateSource fill k == .skip || (rowEntries r (geomOf r (s.sourceEntry (s.plateSource fill k) k)) s.window row).isEmpty then 0
    else 2 ^ k)).sum

/-- Dispatch brought up to date; engine THR_DEC has finished when nothing is left of its records. -/
def State.thrAdvance (s : State) : State :=
  let t := thrAssign s.now 8 (thrTakeRows s.livePlates (33 * s.thr.reqs.length) s.thr)
  let s := { s with thr := t }
  if t.reqs.isEmpty && t.disp.isEmpty && t.pipes.isEmpty then s.finish 0 else s

/-- R126: the data-path records of a kind are cut: blocks held and dispatched are dropped. The THR cycles for which a pipe held
one count as busy (R140). -/
def State.thrCut (s : State) (fill : Bool) : State :=
  { s with thr := { s.thr with
      busy := s.thr.busy + ((s.thr.pipes.filter (fun p => p.2.1 == fill)).map (fun p => (s.now - p.2.2.2) / 2)).sum
      reqs := s.thr.reqs.filter (fun q => q.fill != fill)
      disp := s.thr.disp.filter (fun b => b.1 != fill)
      pipes := s.thr.pipes.filter (fun p => p.2.1 != fill) } }

/-! ### The decoder (R128 to R130) -/

/-- COMP_LEN limit of a format (Table 4.3, R133). -/
def compLimit (fmt : Nat) : Nat := if fmt = 0 then 2080 else if fmt = 1 then 1056 else if fmt = 2 then 288 else 2080

/-- FORMAT, DECOMP_LEN and COMP_LEN agree (R98, R133). -/
def lengthsOk (b : Bytes) : Bool :=
  let f := byteAt b 12
  let d := leAt b 16 2
  let c := leAt b 14 2
  (if f = 0x0F then decide (1 ≤ d) && decide (d ≤ 2048) else decide (f < 3) && d == decompLen f) &&
    decide (1 ≤ c) && decide (c ≤ compLimit f)

/-- The header check of R129 step 1: the reason of the first failure, 0 for none. `fmt` is the FORMAT a block must have: the
plate's, or the one a job names (R14, R137; DEDUCED, log entry 253). `pos` is what a data-path block must name beside
it: PLATE_ID, BLOCK_X, BLOCK_Y. -/
def headerReason (b : Bytes) (fmt : Option Nat) (pos : Option (Nat × Int × Int)) : Nat :=
  if crc16 (b.take 30) ≠ leAt b 30 2 then 1
  else if leAt b 0 2 ≠ 0x4853 || byteAt b 2 ≠ 1 then 2
  else if !(decide (byteAt b 13 < 2) && zeroAt b 18 2 && zeroAt b 24 6) then 3
  else if !lengthsOk b then 4
  else if fmt.isSome ∧ fmt ≠ some (byteAt b 12) then 5
  else match pos with
    | none => 0
    | some (id, x, y) =>
      if byteAt b 3 = id ∧ toS 16 (leAt b 8 2) = x ∧ toS 16 (leAt b 10 2) = y then 0 else 5

/-- A decoder failure (Table 5.4): event, reason, payload byte offset, bytes produced, and whether a poisoned line caused
it. -/
structure DecFail where
  ev : Nat
  reason : Nat
  inOff : Nat
  out : Nat
  poison : Bool
deriving DecidableEq, Repr

/-- Bytes per texel for the shuffle: RAW data counts single bytes. -/
def shuffleSize (fmt : Nat) : Nat := if fmt = 0x0F then 1 else texelSize fmt

/-- What a decoder makes of a Sheaf block: the failure or none, the texel bytes, the DEFLATE blocks it began, and whether the
stream came to its end. -/
structure Decoded where
  fail : Option DecFail
  out : Bytes
  begun : Nat
  ended : Bool
deriving DecidableEq, Repr

/-- DEFLATE blocks of a stream that came to its end. A block that fails inside a later DEFLATE block is not finished, and does
not count in THR_MULTI_TOTAL (DESIGN CHOICE, log entry 254). -/
def Decoded.blocks (d : Decoded) : Nat := if d.ended then d.begun else 0

/-- One Sheaf block decoded (R129). `bad` is the lowest poisoned line. -/
def decodeSheaf (b : Bytes) (fmt : Option Nat) (pos : Option (Nat × Int × Int)) (bad : Option Nat) : Decoded :=
  let reason := if bad = some 0 then 0 else headerReason b fmt pos
  if reason ≠ 0 then ⟨some ⟨Ev.THR_HEADER_CHECK, reason, 0, 0, false⟩, [], 0, false⟩
  else
    let cap := min 2048 (leAt b 16 2)
    let pay := sub b 32 (leAt b 14 2)
    match bad with
    | some n =>
      let off := if n = 0 then 0 else 64 * n - 32
      let r := inflate (pay.take off) cap
      ⟨some ⟨Ev.THR_BLOCK_CHECK, 0, off, r.st.n, true⟩, [], r.st.blocks, false⟩
    | none =>
      let r := inflate pay cap
      match r.fail with
      | some f => ⟨some ⟨f.ev, 0, f.bit / 8, r.st.n, false⟩, [], r.st.blocks, f.ev == Ev.THR_LENGTH_SHORT⟩
      | none =>
        let raw := r.st.out.reverse
        let t := if bit (byteAt b 13) 0 = 1 then unshuffle raw (shuffleSize (byteAt b 12)) else raw
        if crc32c t ≠ leAt b 20 4 then
          ⟨some ⟨Ev.THR_BLOCK_CHECK, 0, (r.st.pos + 7) / 8, r.st.n, false⟩, [], r.st.blocks, true⟩
        else ⟨none, t, r.st.blocks, true⟩

/-- A failure recorded (R130, Table 5.11): the total, the LAST registers, DECODE_ERR, and the event while fewer than 64 were
reported in this tick. -/
def State.thrFailed (s : State) (f : DecFail) (plate x y : Nat) (job : Bool) : State :=
  let s := s.bump THR_ERR_TOTAL
  let s := s.wr THR_ERR_LAST_KIND (f.ev % 256 + plate % 32 * 2 ^ 8 + b2n f.poison * 2 ^ 13 + b2n job * 2 ^ 14 +
    f.inOff % 4096 * 2 ^ 16 + f.reason * 2 ^ 28)
  let s := s.wr THR_ERR_LAST_POS (x % 2 ^ 16 + y % 2 ^ 16 * 2 ^ 16)
  let s := s.wr THR_ERR_LAST_OUT (f.out % 4096 + s.fpl.frame % 2 ^ 16 * 2 ^ 16)
  let s := if s.thr.errs < 64 then
      s.report f.ev [s.rd THR_ERR_LAST_KIND, s.rd THR_ERR_LAST_POS, s.rd THR_ERR_LAST_OUT]
    else s.setSticky f.ev
  { s with thr := { s.thr with errs := s.thr.errs + 1 } }

/-- R130: an entry of the arriving map that also names a failed slot becomes ABSENT. -/
def State.absentArriving (s : State) (k : Nat) (r : PlateRec) (slot : Nat) : State :=
  (List.range r.entries).foldl (fun s i =>
    if entrySlot (s.arrivingMap k r i) = some slot then s.setArriving k r i mapAbsent else s) s

/-- R122: a block that held more than one DEFLATE block. -/
def State.multiBlock (s : State) (plate blocks : Nat) : State :=
  if blocks ≤ 1 then s
  else
    let s := s.bump THR_MULTI_TOTAL
    if s.thr.multiTick.contains plate then s
    else
      let s := s.report Ev.THR_MULTI_BLOCK [plate, blocks - 1]
      { s with thr := { s.thr with multiTick := plate :: s.thr.multiTick } }

/-- R125: an ABSENT entry met. -/
def State.absentMet (s : State) (plate : Nat) : State :=
  let s := s.bump THR_ABSENT_TOTAL
  if s.thr.absentTick.contains plate then s
  else
    let s := s.report Ev.THR_BLOCK_ABSENT []
    { s with thr := { s.thr with absentTick := plate :: s.thr.absentTick } }

/-- The lowest line of a staged block that brings no good data: a poisoned one, whose consumption is reported (R78), or one
whose access is not performed (R73, R84, R85; DESIGN CHOICE, log entry 291). -/
def State.stagedPoison (s : State) (b : StagedBlk) : State × Option Nat :=
  (List.range b.lines).foldl (fun (a : State × Option Nat) i =>
    let ad := a.1.stageAddr (b.line + i)
    if !a.1.engineMay 0 (plotOf ad) then (a.1.engineRefuse 0 ad 64, some (a.2.getD i))
    else if a.1.poisoned ad then (a.1.poisonConsumed clDramStage (plotOf ad) (ad / 64 % 64), some (a.2.getD i))
    else a) (s, none)

/-- T of R121 in THR cycles, with `x` DEFLATE blocks after the first. -/
def decodeTime (n x : Nat) : Nat := ceilDiv n 16 + 16 + 64 * x

/-- A staged block finished by its pipe: what goes over the route, and the pipe time, which R121 bounds. A failed block counts
with all of its staged lines as read, a cut one with none (DESIGN CHOICE, log entry 298). -/
def State.finishBlock (s : State) (fill : Bool) (b : StagedBlk) (cycles : Nat) : State :=
  match s.plateRecFor fill b.plate with
  | none => s
  | some r =>
    let fmt := if b.isRelief then 2 else r.fmt
    let n := decompLen fmt
    let zeros : Bytes := List.replicate n 0#8
    let send (s : State) (d : Bytes) (inB busy : Nat) : State :=
      { s with thr := { s.thr with
          route := s.thr.route ++ [⟨b.plate, b.isRelief, b.x, b.y, fill, d⟩]
          blocks := s.thr.blocks + 1, outBytes := s.thr.outBytes + n
          inBytes := s.thr.inBytes + inB, busy := s.thr.busy + busy } }
    if b.kind = 1 then send s zeros 0 4
    else if b.kind = 2 then send (s.absentMet b.plate) zeros 0 4
    else
      let bytes := (List.range b.lines).flatMap (fun i => s.memGet (s.stageAddr (b.line + i)) 64)
      let (s, bad) := s.stagedPoison b
      let d := decodeSheaf bytes (some fmt) (some (r.id, b.x, b.y)) bad
      let s := s.multiBlock b.plate d.blocks
      let busy := min cycles (decodeTime n (d.begun - 1))
      match d.fail with
      | none => send s d.out (64 * b.lines) busy
      | some f =>
        let s := s.absentArriving b.plate r b.slot
        send (s.thrFailed f b.plate (ofS 16 b.x) (ofS 16 b.y) false) zeros (64 * b.lines) busy

/-! ### Jobs (R134 to R139) -/

/-- The ring size is valid (Table 5.8). -/
def ringSizeOk (n : Nat) : Bool := pow2In n 8 1024

/-- The ring base. -/
def State.jobRing (s : State) : Nat := s.rdF THR_JOB_RING_LO 31 6 * 64 + s.rdF THR_JOB_RING_HI 7 0 * 2 ^ 32

/-- The ring size in descriptors. -/
def State.jobRingSize (s : State) : Nat := s.rdF THR_JOB_RING_SIZE 10 0

/-- Descriptor `i` of the ring. -/
def State.jobDesc (s : State) (i : Nat) : Bytes := s.memGet (s.jobRing + 64 * i) 64

/-- The client whose partition holds the job ring, STEWARD outside any partition (R137). -/
def State.jobClient (s : State) : Nat :=
  if inGranary s.jobRing then
    match s.parts.find? (fun p => p.has (plotOf s.jobRing)) with
    | some p => p.client
    | none => 0x0B
  else 0x0B

/-- DECOMP_LEN of an encode job's chunk. -/
def chunkLen (d : Bytes) : Nat :=
  if byteAt d 2 = 0x0F then (if leAt d 52 2 = 0 then 2048 else leAt d 52 2) else decompLen (byteAt d 2)

/-- Job flags. -/
def jobFlag (d : Bytes) (i : Nat) : Bool := bit (byteAt d 1) i == 1

/-- R134, R137: a descriptor that is not INVALID. -/
def jobOk (d : Bytes) : Bool :=
  let op := byteAt d 0
  let f := byteAt d 2
  let raw := f == 0x0F
  let linear := jobFlag d 2
  let enc := op == 1
  (op == 1 || op == 2) && decide (byteAt d 1 < 16) && (decide (f < 3) || raw) &&
    zeroAt d 13 3 && zeroAt d 21 3 && zeroAt d 54 10 && leAt d 16 5 % 32 == 0 && leAt d 28 4 % 64 == 0 &&
    !(op == 2 && !raw && decide (dramBase ≤ leAt d 16 5) && decide (leAt d 16 5 < 0x2000000000)) &&
    (linear || op == 2 || (decide (0 < leAt d 24 2) && decide (0 < leAt d 26 2))) &&
    !(enc && linear && !raw && leAt d 24 4 % decompLen f != 0) &&
    !(enc && raw && !linear) &&
    (if enc && raw then decide (leAt d 52 2 ≤ 2048) else leAt d 52 2 == 0)

/-- Job results (Table 5.6). -/
def jobDone : Nat := 1
def jobDstFull : Nat := 2
def jobPreempted : Nat := 3
def jobAborted : Nat := 4
def jobInvalid : Nat := 5
def jobSourceError : Nat := 6
def jobDecodeError : Nat := 7

/-- The head passes every ended job in ring order. -/
def advanceHead (size : Nat) : Nat → Nat → List Nat → Nat × List Nat
  | 0, h, l => (h, l)
  | fuel + 1, h, l => if l.contains h then advanceHead size fuel ((h + 1) % size) (l.erase h) else (h, l)

/-- THR_JOB_HEAD and the jobs ended out of order once job `idx` has ended (R134). -/
def State.jobHeads (s : State) (idx : Nat) : Nat × List Nat :=
  advanceHead (max 1 s.jobRingSize) 1024 (s.rd THR_JOB_HEAD) (s.thr.ended ++ [idx])

/-- A job's end written (R134) and reported (R137). STATUS[31:16] holds the decoder's event for DECODE_ERROR and 0 for every
other result (DESIGN CHOICE, log entry 299). -/
def State.jobEnded (s : State) (idx : Nat) (d : Bytes) (result ev out blocks : Nat) : State :=
  let a := s.jobRing + 64 * idx + 40
  let s := if s.rangeMay s.jobClient a 12 then
      (s.useRange .steward true a 12).memSet a (toLe 4 (result + ev * 2 ^ 16) ++ toLe 4 out ++ toLe 4 blocks)
    else s.refuseRange s.jobClient a 12
  let s := s.bump THR_JOB_DONE_TOTAL
  let p := s.jobHeads idx
  let s := { s.wr THR_JOB_HEAD p.1 with
    thr := { s.thr with ended := p.2, jobs := s.thr.jobs.filter (fun j => j.idx != idx) } }
  if result ≠ jobDone then s.report Ev.THR_JOB_FAULT [idx, result]
  else if jobFlag d 1 then s.report Ev.THR_JOB_DONE [] else s

/-- A running job ended. -/
def State.endJob (s : State) (j : ThrJob) (result ev : Nat) : State := s.jobEnded j.idx j.desc result ev j.out j.blocks

/-- The ring is being fetched: JOB_EN is set and the size is valid. -/
def State.jobsOn (s : State) : Bool := s.rdF THR_CTRL 0 0 == 1 && s.rdF THR_STATUS 1 1 == 0 && ringSizeOk s.jobRingSize

/-- Descriptors up to the next one that is valid: INVALID ones end at once, and so does one that the ring's client cannot read
or whose line is poisoned, with SOURCE_ERROR (DEDUCED, log entry 255). -/
def State.jobFetch : Nat → State → State
  | 0, s => s
  | fuel + 1, s =>
    if !s.jobsOn || s.thr.fetched == s.rdF THR_JOB_TAIL 9 0 then s
    else
      let i := s.thr.fetched
      let d := s.jobDesc i
      let a := s.jobRing + 64 * i
      let s' := s.useRange .steward false a 64
      let next : State := { s' with thr := { s'.thr with fetched := (i + 1) % s.jobRingSize, feats := s'.thr.feats.filter (fun e => e.1 != i) } }
      if !s.rangeMay s.jobClient a 64 then
        jobFetch fuel (({ s with thr := next.thr }.refuseRange s.jobClient a 64).jobEnded i d jobSourceError 0 0 0)
      else if s.rangePoisoned a 64 then
        jobFetch fuel ((next.consumePoison s.jobClient a 64).jobEnded i d jobSourceError 0 0 0)
      else if jobOk d then s
      else jobFetch fuel (next.jobEnded i d jobInvalid 0 0 0)

/-- The descriptor that waits for a pipe, if one does. -/
def State.jobWaiting (s : State) : Option (Nat × Bytes) :=
  if !s.jobsOn || s.thr.fetched == s.rdF THR_JOB_TAIL 9 0 then none else some (s.thr.fetched, s.jobDesc s.thr.fetched)

/-- Decode pipes belong to DATA_PATH: in every slot whose THR_DEC record is RUN or FILL, and from the commit point, where the
fill takes all of them, to the boundary (R138). -/
def State.pipesTaken (s : State) : Bool :=
  let op := (s.slotRecord s.fpl.slot 0).op
  op == opRun || op == opFill || s.fpl.committed || s.fpl.running.contains 0

/-- A pipe is claimed for jobs: an encode pipe by a feature; a decode pipe by a feature or by a headland task that claims
decode pipes, while DATA_PATH leaves it, and only when THR_JOB_PIPES names it (R138, R139). -/
def State.pipeClaimed (s : State) (p : Nat) : Bool :=
  let held := s.holder 2 p != 0 && s.holder 2 p != 1
  if 8 ≤ p then held
  else bit (s.rd THR_JOB_PIPES) p == 1 && !s.pipesTaken &&
    (held || s.fpl.tasks.any (fun t => t.started && match s.taskRecs[t.idx]? with
      | some r => bit r.claims 0 == 1
      | none => false))

/-- R139: a pipe is claimed for the descriptor at a ring index: by the feature that it was placed for; for a descriptor of a
doorbell, which names none, by any feature but DATA_PATH (DEDUCED, log entry 256). -/
def State.pipeFor (s : State) (i p : Nat) : Bool :=
  s.pipeClaimed p && (match s.thr.feats.find? (fun e => e.1 == i) with
    | some (_, f) => s.holder 2 p == 0 || s.holder 2 p == f
    | none => true)

/-- JOB_WAIT (R139): no pipe of the kind that the waiting job needs is claimed. -/
def State.jobWait (s : State) : Bool :=
  match s.jobWaiting with
  | none => false
  | some (i, d) =>
    let kind := if byteAt d 0 = 1 then [8, 9] else List.range 8
    !kind.any (s.pipeFor i)

/-- The Granary requester of a job pipe (Table 5.1). -/
def jobReq (pipe : Nat) : GrnReq := if h : 8 ≤ pipe ∧ pipe < 10 then .thrEnc ⟨pipe - 8, by omega⟩ else .dmcUnsched

/-- Bytes a job moves its source on by, and the source bytes of its next block, with its address. -/
def jobSource (d : Bytes) (n : Nat) : List (Nat × Nat) :=
  let src := leAt d 8 5
  let c := chunkLen d
  if jobFlag d 2 then [(src + n * c, min c (leAt d 24 4 - n * c))]
  else
    let size := texelSize (byteAt d 2)
    let w := leAt d 24 2
    (List.range 16).map (fun y => (src + (16 * (n / w) + y) * leAt d 28 4 + 16 * (n % w) * size, 16 * size))

/-- Blocks of an encode job. -/
def jobBlocks (d : Bytes) : Nat := if jobFlag d 2 then ceilDiv (leAt d 24 4) (chunkLen d) else leAt d 24 2 * leAt d 26 2

/-- A Sheaf block built by an encode pipe (R131 to R133), with its padding (R135). -/
def encodeSheaf (d : Bytes) (n : Nat) (chunk : Bytes) : Bytes :=
  let f := byteAt d 2
  let pay := deflate (if jobFlag d 0 then shuffle chunk (shuffleSize f) else chunk)
  let w := leAt d 24 2
  let x := leAt d 36 2 + (if jobFlag d 2 then n else n % w)
  let y := leAt d 38 2 + (if jobFlag d 2 then 0 else n / w)
  let h := toLe 2 0x4853 ++ toLe 1 1 ++ toLe 1 (byteAt d 3) ++ toLe 2 (leAt d 4 2) ++ toLe 2 (leAt d 6 2) ++
    toLe 2 x ++ toLe 2 y ++ toLe 1 f ++ toLe 1 (b2n (jobFlag d 0)) ++ toLe 2 pay.length ++ toLe 2 chunk.length ++
    toLe 2 0 ++ toLe 4 (crc32c chunk) ++ toLe 6 0
  let b := h ++ toLe 2 (crc16 h) ++ pay
  b ++ List.replicate ((32 - b.length % 32) % 32) 0#8

/-- Output of a job put behind what it has written, or DST_FULL (R136). -/
def State.jobPut (s : State) (j : ThrJob) (b : Bytes) (src : Nat) (last : Bool) : State :=
  let dst := leAt j.desc 16 5 + j.out
  if leAt j.desc 32 4 < j.out + b.length then s.endJob j jobDstFull 0
  else if !s.rangeMay s.jobClient dst b.length then (s.refuseRange s.jobClient dst b.length).endJob j jobSourceError 0
  else
    let s := (s.useRange (jobReq j.pipe) true dst b.length).memSet dst b
    let j' := { j with blocks := j.blocks + 1, out := j.out + b.length, src := j.src + src }
    if last then s.endJob j' jobDone 0
    else { s with thr := { s.thr with jobs := s.thr.jobs.map (fun k => if k.idx == j.idx then j' else k) } }

/-- The next block of an encode job. -/
def State.encodeBlock (s : State) (j : ThrJob) : State :=
  let n := j.blocks
  let parts := jobSource j.desc n
  if jobBlocks j.desc ≤ n then s.endJob j jobDone 0
  else match parts.find? (fun p => !s.rangeMay s.jobClient p.1 p.2) with
    | some p => (s.refuseRange s.jobClient p.1 p.2).endJob j jobSourceError 0
    | none =>
      let req := jobReq j.pipe
      let s := parts.foldl (fun s p => s.useRange req false p.1 p.2) s
      if parts.any (fun p => s.rangePoisoned p.1 p.2) then
        (parts.foldl (fun s p => s.consumePoison (reqClient req) p.1 p.2) s).endJob j jobSourceError 0
      else
        let chunk := parts.flatMap (fun p => s.memGet p.1 p.2)
        s.jobPut j (encodeSheaf j.desc n chunk) chunk.length (decide (jobBlocks j.desc ≤ n + 1))

/-- The pipe cycles of a job's block: an open value up to `t` of R121 (log entry 257). -/
def State.jobBusy (s : State) (t : Nat) : State :=
  let d := s.draw
  { d.2 with thr := { s.thr with busy := s.thr.busy + (Config.openNeed d.1).toNat % (t + 1) } }

/-- The next block of a decode job. Its blocks must be of the job's FORMAT (R14, R137). Of a block whose header fails, the
fields it has give the length of the zeros, at most 2,048, and the place of the next block (DESIGN CHOICE, log entry 289). -/
def State.decodeBlock (s : State) (j : ThrJob) : State :=
  let len := leAt j.desc 24 4
  let a := leAt j.desc 8 5 + j.src
  if len ≤ j.src then s.endJob j jobDone 0
  else
    let n := min (len - j.src) (32 + s.memLe (a + 14) 2)
    let req := jobReq j.pipe
    if !s.rangeMay s.jobClient a n then (s.refuseRange s.jobClient a n).endJob j jobSourceError 0
    else if s.rangePoisoned a n then
      ((s.useRange req false a n).consumePoison (reqClient req) a n).endJob j jobSourceError 0
    else
      let s := s.useRange req false a n
      let b := s.memGet a n
      let next := ceilDiv (32 + leAt b 14 2) 32 * 32
      let d := decodeSheaf b (some (byteAt j.desc 2)) none none
      let s := (s.multiBlock 0 d.blocks).jobBusy (decodeTime (min 2048 (leAt b 16 2)) (d.begun - 1))
      let last := decide (len ≤ j.src + next)
      match d.fail with
      | none => s.jobPut j d.out next last
      | some f =>
        let s := s.thrFailed f 0 (leAt b 8 2) (leAt b 10 2) true
        if jobFlag j.desc 3 then s.endJob j jobDecodeError f.ev
        else s.jobPut j (List.replicate (min 2048 (leAt b 16 2)) 0#8) next last

/-- R138: every job on a pipe of a kind is stopped with PREEMPTED: at the commit point, and at the start of a slot whose THR_DEC
record takes the decode pipes (DEDUCED, log entry 306). -/
def State.preemptJobs (s : State) (decode : Bool) : State :=
  (s.thr.jobs.filter (fun j => decide (j.pipe < 8) == decode)).foldl (fun s j =>
    (s.report Ev.THR_PIPE_PREEMPTED [j.pipe, j.idx]).endJob j jobPreempted 0) s

/-- A descriptor that the Steward places in its ring for a feature, as a doorbell does. The flag says whether the ring took it. -/
def State.jobSubmit (s : State) (d : Bytes) (feature : Nat) : State × Option Nat :=
  if !ringSizeOk s.jobRingSize then (s, none)
  else
    let i := s.rdF THR_JOB_TAIL 9 0
    let next := (i + 1) % s.jobRingSize
    let a := s.jobRing + 64 * i
    if next = s.rd THR_JOB_HEAD then (s, none)
    else if !s.rangeMay 0x0B a 64 then (s.refuseRange 0x0B a 64, none)
    else
      let s := ((s.useRange .steward true a 64).memSet a d).wr THR_JOB_TAIL next
      let s : State := { s with thr := { s.thr with feats := (i, feature) :: s.thr.feats.filter (fun e => e.1 != i) } }
      (State.jobFetch 1024 s, some i)

/-! ### Register views -/

/-- The registers of the block whose value is computed when read. -/
def State.thrView (s : State) (a : Nat) : Option Nat :=
  if a = THR_STATUS then some (s.rd THR_STATUS + b2n s.jobWait + b2n (!s.thr.jobs.isEmpty) * 8)
  else if a = THR_PIPE_STATE then
    some (((List.range 10).map (fun p =>
      (match s.thr.pipes.find? (fun x => x.1 == p) with
        | some (_, fill, _, _) => if fill then 3 else 1
        | none => if s.thr.jobs.any (fun j => j.pipe == p) then 2 else 0) * 4 ^ p)).sum)
  else none

/-- The counts of the ended tick kept in the LAST registers, and the marks of the tick cleared. -/
def State.thrTick (s : State) : State :=
  let t := s.thr
  let s := (((s.wr THR_BLOCKS_LAST t.blocks).wr THR_IN_BYTES_LAST t.inBytes).wr THR_OUT_BYTES_LAST t.outBytes).wr
    THR_BUSY_LAST (t.busy / 64)
  let s := s.wrF THR_STATUS 2 2 (b2n (decide (64 < t.errs)))
  { s with thr := { s.thr with
      blocks := 0, inBytes := 0, outBytes := 0, busy := 0, errs := 0, multiTick := [], absentTick := [] } }

/-! ### The commands -/

/-- DMC_STREAM_RECORD (R123): the record of engine DMC_STREAM in a slot stages its block row. `line` is where in the DRAM
staging partition the row is put, and `checks` names the DRAM lines whose words do not check. -/
def execDmcStreamRecord (slot : Fin 560) (line : Nat) (checks : List (Nat × DramCheck)) (s : State) :
    Host.Outcome State Fault Refusal :=
  .next (s.oneCycle fun s => match s.liveRecord slot.val 6 with
    | some r => s.streamRow r.target (r.op == opFill) r.plates line checks
    | none => s)

/-- STREAM_ROW_STAGED (R123): the row is marked input-complete for THR_DEC, and DMC_STREAM has finished. -/
def execStreamRowStaged (row : Nat) (fill : Bool) (s : State) : Host.Outcome State Fault Refusal :=
  .next <|
    if s.thr.rows.any (fun x => x.row == row && x.fill == fill) then
      let s : State := { s with thr := { s.thr with
        rows := s.thr.rows.map (fun x => if x.row == row && x.fill == fill then { x with ready := true } else x) } }
      (s.finish 6).thrAdvance
    else s

/-- THR_DEC_RECORD (R124): the record of engine THR_DEC in a slot dispatches its row. -/
def execThrDecRecord (slot : Fin 560) (s : State) : Host.Outcome State Fault Refusal :=
  .next (match s.liveRecord slot.val 0 with
    | some r =>
      State.thrAdvance { s with thr := { s.thr with reqs := s.thr.reqs ++ [⟨r.target, r.op == opFill, r.plates, r.wait⟩] } }
    | none => s)

/-- THR_BLOCK_DECODE (R129, R130, R122, R125): a decode pipe finishes the block it holds after `cycles` THR cycles, and takes
the next. -/
def execThrBlockDecode (pipe : Fin 8) (cycles : Nat) (s : State) : Host.Outcome State Fault Refusal :=
  .next (s.oneCycle fun s => match s.thr.pipes.find? (fun p => p.1 == pipe.val) with
    | none => s
    | some (_, fill, b, _) =>
      let s := { s with thr := { s.thr with pipes := s.thr.pipes.filter (fun p => p.1 != pipe.val) } }
      (s.finishBlock fill b cycles).thrAdvance)

/-- THR_JOB_TAIL_WRITE (R134): the doorbell. -/
def execThrJobTailWrite (value : Word) (s : State) : Host.Outcome State Fault Refusal :=
  if s.shut .service THR_JOB_TAIL then .next (s.turnedAway .service THR_JOB_TAIL) else
  .next (s.oneCycle fun s => State.jobFetch 1024 (s.regWrite THR_JOB_TAIL value.toNat))

/-- THR_JOB_START (R139): the waiting job starts on a claimed free pipe of the kind it needs; otherwise it waits. -/
def execThrJobStart (pipe : Fin 10) (s : State) : Host.Outcome State Fault Refusal :=
  .next <| s.oneCycle fun s =>
    let s := State.jobFetch 1024 s
    match s.jobWaiting with
    | none => s
    | some (i, d) =>
      if decide (8 ≤ pipe.val) == (byteAt d 0 == 1) && s.pipeFor i pipe.val && s.thr.pipeFree pipe.val then
        let s := s.useRange .steward false (s.jobRing + 64 * i) 64
        let s := { s with thr := { s.thr with
          fetched := (i + 1) % s.jobRingSize, feats := s.thr.feats.filter (fun e => e.1 != i), jobs := s.thr.jobs ++ [⟨i, d, pipe.val, 0, 0, 0, false⟩] } }
        State.jobFetch 1024 s
      else s

/-- THR_CTRL_JOB_ABORT (R140): every running job ends with ABORTED at its next block. -/
def execThrCtrlJobAbort (s : State) : Host.Outcome State Fault Refusal :=
  if s.shut .service THR_CTRL then .next (s.turnedAway .service THR_CTRL) else
  .next { s with thr := { s.thr with jobs := s.thr.jobs.map (fun j => { j with abort := true }) } }

/-- THR_JOB_RING_SIZE_WRITE (R140): a size outside the powers of two from 8 to 1,024 stops job fetch with RING_BAD. -/
def execThrJobRingSizeWrite (value : Word) (s : State) : Host.Outcome State Fault Refusal :=
  if s.shut .service THR_JOB_RING_SIZE then .next (s.turnedAway .service THR_JOB_RING_SIZE) else
  let s := s.regWrite THR_JOB_RING_SIZE value.toNat
  .next (s.oneCycle fun s => State.jobFetch 1024 (s.wrF THR_STATUS 1 1 (b2n (!ringSizeOk s.jobRingSize))))

end Sys2Proof.Machine
end

