-- ==== Sys2Proof/Machine/BandWriter.lean ====
section
/-! DEFINITION. The band writer: conversion, conditioning and placement of decoded blocks, the band rings with their
input-complete marks, the relief and source rings, and the plate scaler (chapter "Ray composition in the drills"). -/
namespace Sys2Proof.Machine

/-! ### Where a plate's ring lies (R144, R56) -/

/-- Plate record `k` of a plan, with the partition of its band ring. -/
def Plan.ringOf (p : Plan) (k : Nat) : Option (PlateRec × Part) :=
  match p.plates[k]? with
  | none => none
  | some r => match (grnParts (p.sec 0x03 0)).find? (fun q => q.id == r.ring) with
    | none => none
    | some q => some (r, q)

/-- Byte offsets of the relief ring and of the source ring in the partition (R144). -/
def reliefOff : Nat := 183 * 4096
def PlateRec.sourceOff (r : PlateRec) : Nat := (183 + if r.relief then 3 else 0) * 4096

/-- Byte offset of texel (x, w) of the window in the partition; ring rows are wall rows mod 48. -/
def texelOff (win : Int × Int) (x w : Nat) : Nat := (((win.2 - 16 + (w : Int)) % 48).toNat * 1952 + x) * 8

/-- Byte offset of relief entry (i, j), with `qa` the anchor relief column (R148). -/
def entryOff (qa i j : Int) : Nat := reliefOff + (j % 32).toNat * 272 + (i - 16 * qa).toNat

/-- The bytes of a partition, from a byte offset. -/
def State.partGet (s : State) (q : Part) (off n : Nat) : Bytes := s.memGet (grnBase + q.first * 4096 + off) n

/-- A range lies within a partition (R85, R144). -/
def Part.holds (q : Part) (off n : Nat) : Bool := decide (off + n ≤ q.count * 4096)

/-- Bytes written into a partition by the band writer; a write beyond it is not performed and is reported (R85), and so are the
accesses that R73 and R84 refuse. The flag says whether all was performed. -/
def State.partPut (s : State) (q : Part) (off : Nat) (b : Bytes) : State × Bool :=
  let a := grnBase + q.first * 4096 + off
  if q.holds off b.length then (s.engineSet 1 a b, s.engineAll 1 a b.length)
  else (s.report Ev.GRN_ACCESS_VIOLATION [clBand, q.first + off / 4096], false)

/-! ### Conversion and conditioning (R146, R92) -/

/-- The value of a non-negative finite binary16 code in units of 2^-24. -/
def half24 (h : Nat) : Nat := if h < 1024 then h else (1024 + h % 1024) * 2 ^ (h / 1024 - 1)

/-- The binary16 code nearest to `(p / q) ^ (n / d)`, for a value from 0 to 1, ties to even: the largest code at or below it,
or the next one. -/
def nearestHalf (p q n d : Nat) : Nat :=
  let le' (v k : Nat) : Bool := decide (v ^ d * q ^ n ≤ p ^ n * 2 ^ (k * d))
  let h := ((List.range 14).map (fun i => 2 ^ (13 - i))).foldl (fun h b =>
    if h + b ≤ 0x3C00 && le' (half24 (h + b)) 24 then h + b else h) 0
  if 0x3C00 ≤ h then h
  else
    let mid := half24 h + half24 (h + 1)
    if !le' mid 25 then h
    else if mid ^ d * q ^ n = p ^ n * 2 ^ (25 * d) && h % 2 = 0 then h else h + 1

/-- The linear value of an sRGB code as binary16 (R146). -/
def srgbHalf (c : Nat) : Nat :=
  if c ≤ 10 then nearestHalf (c * 100) (255 * 1292) 1 1 else nearestHalf (1000 * c + 14025) 269025 12 5

/-- Bank A or B of the tone map. -/
def State.tmBank (s : State) (b : Nat) : TmBank := if b = 0 then s.drl.bankA else s.drl.bankB

/-- The bank selected for the tick that a block serves: between the commit point and the boundary a FILL block serves the next
tick (R171). -/
def State.bankFor (s : State) (fill : Bool) : TmBank :=
  let a := s.rdF DRL_TM_STATUS 0 0
  if fill && s.fpl.committed && s.rdF DRL_TM_STATUS 3 3 = 1 then s.tmBank (1 - a) else s.tmBank a

/-- A texel as four binary16 codes. -/
abbrev Texel := List Nat

/-- The transparent texel. -/
def Texel.zero : Texel := [0, 0, 0, 0]

/-- The bytes of a texel (R144). -/
def Texel.bytes (t : Texel) : Bytes := t.flatMap (toLe 2)

/-- A texel of an SRGB_U8 block converted with a white level. -/
def srgbTexel (white : Nat) (b : Bytes) : Texel :=
  let w := fl16 white
  let col (i : Nat) : Nat :=
    match fl16 (srgbHalf (byteAt b i)), w with
    | .fin _ m e, .fin _ n f => bits16 (round16 false (m * n) (e + f))
    | _, _ => 0
  [col 0, col 1, col 2, nearestHalf (byteAt b 3) 255 1 1]

/-- A colour component conditioned (R92). -/
def condColour (h : Nat) : Nat :=
  if fl16 h = .nan then 0
  else if bit h 15 = 1 && h % 2 ^ 15 ≠ 0 then 0
  else if h = 0x7C00 then 0x7BFF else h

/-- Alpha conditioned (R92). -/
def condAlpha (h : Nat) : Nat :=
  if fl16 h = .nan then 0
  else if bit h 15 = 1 && h % 2 ^ 15 ≠ 0 then 0
  else if bit h 15 = 0 && 0x3C00 < h then 0x3C00 else h

/-- A texel of a LIN_F16 block conditioned, with a flag for a change. -/
def condTexel (b : Bytes) : Texel × Bool :=
  let t := (List.range 4).map (fun i => leAt b (2 * i) 2)
  let c := [condColour (t.getD 0 0), condColour (t.getD 1 0), condColour (t.getD 2 0), condAlpha (t.getD 3 0)]
  (c, c != t)

/-- The texels of a decoded block of a plate, converted or conditioned, with the number of conditioned texels. -/
def State.blockTexels (s : State) (r : PlateRec) (b : RouteBlk) : List Texel × Nat :=
  if r.fmt = 1 then
    ((List.range 256).map (fun i => srgbTexel (s.bankFor b.fill).white (sub b.bytes (4 * i) 4)), 0)
  else
    let l := (List.range 256).map (fun i => condTexel (sub b.bytes (8 * i) 8))
    (l.map (·.1), (l.filter (·.2)).length)

/-- Conditioned texels counted, and reported once per plate per tick (R92). -/
def State.texelsClamped (s : State) (k n : Nat) : State :=
  if n = 0 then s
  else
    let s := s.bumpBy PLT_TEXEL_CLAMP_TOTAL n
    if s.plt.clampTick.contains k then s
    else
      let s := s.report Ev.PLT_TEXEL_CLAMPED []
      { s with plt := { s.plt with clampTick := k :: s.plt.clampTick } }

/-! ### Marks (R145) -/

/-- Another row still held in the ring row of a window row. -/
def State.rowHeld (s : State) (k w : Nat) : Bool :=
  s.bnd.done.any (fun d => d.1 == k && d.2 != w && d.2 % 48 == w % 48)

/-- Window rows of block row `t` of an unscaled grid, clipped to the window. -/
def blockRows (win : Int × Int) (t : Nat) : List Nat :=
  (List.range 16).filterMap (fun y =>
    let w := 16 * ((win.2 - 16) / 16 + (t : Int)) + (y : Int) - (win.2 - 16)
    if 0 ≤ w ∧ w < 1112 then some w.toNat else none)

/-- Rows marked input-complete, but for rows whose write fell beyond the partition. -/
def State.markRows (s : State) (k : Nat) (rows : List Nat) : State :=
  let new := (rows.map (fun w => (k, w))).filter (fun d => !s.bnd.lost.contains d && !s.bnd.done.contains d)
  { s with bnd := { s.bnd with done := s.bnd.done ++ new } }

/-- Every column of a block row has been placed. -/
def State.rowPlaced (s : State) (k t n : Nat) : Bool :=
  (List.range n).all (fun c => s.bnd.placed.contains (k, t, c))

/-! ### Placement (R147, R148, R150) -/

/-- A row of texels written into the texel rows of a plate's ring. -/
def State.putRow (s : State) (k : Nat) (q : Part) (win : Int × Int) (x w : Nat) (l : List Texel) : State :=
  let (s, ok) := s.partPut q (texelOff win x w) (l.flatMap Texel.bytes)
  if ok || s.bnd.lost.contains (k, w) then s else { s with bnd := { s.bnd with lost := (k, w) :: s.bnd.lost } }

/-- A block of an unscaled plate placed (R147); `none` while a ring row it needs is not released. -/
def State.placeTexels (s : State) (k : Nat) (r : PlateRec) (q : Part) (b : RouteBlk) : Option State :=
  let win := s.window
  let n := neededTexels r (geomOf r none) win
  let x0 := 16 * b.x - (win.1 - 16)
  let y0 := 16 * b.y - (win.2 - 16)
  let rows := (List.range 16).filter (fun y : Nat => decide (0 ≤ y0 + (y : Int)) && decide (y0 + (y : Int) < 1112))
  let cols := (List.range 16).filter (fun x : Nat => decide (0 ≤ x0 + (x : Int)) && decide (x0 + (x : Int) < 1952))
  if rows.any (fun y => s.rowHeld k (y0 + (y : Int)).toNat) then none
  else
    let (tex, clamped) := s.blockTexels r b
    let s := s.texelsClamped k clamped
    let s := rows.foldl (fun s y =>
      if cols.isEmpty then s
      else s.putRow k q win (x0 + ((cols.headD 0 : Nat) : Int)).toNat (y0 + (y : Int)).toNat
        (cols.map (fun x => tex.getD (16 * y + x) Texel.zero))) s
    let t := (b.y - n.y0).toNat
    let key := (k, t, (b.x - n.x0).toNat)
    let s : State := { s with bnd := { s.bnd with placed := if s.bnd.placed.contains key then s.bnd.placed else key :: s.bnd.placed } }
    some (if s.rowPlaced k t r.cx then s.markRows k (blockRows win t) else s)

/-- The lowest relief entry row that furrows from `f` on read (R159). -/
def reliefFirst (win : Int × Int) (f : Nat) : Int := (win.2 + 2 * (f : Int) + 1 - 4) / 8

/-- A relief block placed (R147, R148); `none` while an entry row it replaces is still read. A block of which a write fell beyond
the partition does not count as written (R144). -/
def State.placeRelief (s : State) (k : Nat) (q : Part) (b : RouteBlk) : Option State :=
  let win := s.window
  let n := neededRelief win
  let t := (b.y - n.y0).toNat
  let held := s.bnd.relief.any (fun e => e.1 == k && e.2.1 + 2 == t)
  if held && !b.fill && decide (s.fpl.slot < 540) && decide (reliefFirst win s.fpl.slot ≤ 16 * b.y + 15 - 32) then none
  else
    let (s, ok) := (List.range 16).foldl (fun (a : State × Bool) (j : Nat) =>
      let (s, ok) := a.1.partPut q (entryOff n.x0 (16 * b.x) (16 * b.y + (j : Int))) (sub b.bytes (16 * j) 16)
      (s, a.2 && ok)) (s, true)
    let key := (k, t, (b.x - n.x0).toNat)
    some { s with bnd := { s.bnd with
      relief := if s.bnd.relief.contains key || !ok then s.bnd.relief else key :: s.bnd.relief } }

/-- A relief entry row is input-complete: all 17 blocks of its relief block row have been written (R148). -/
def State.reliefRow (s : State) (k : Nat) (j : Int) : Bool :=
  let t := (j / 16 - (neededRelief s.window).y0).toNat
  (List.range 17).all (fun c => s.bnd.relief.contains (k, t, c))

/-- The inverse scale of R151. -/
def invScale (sc : Nat) : Nat := roundDivN (2 ^ 24) sc

/-- The source position of an output coordinate in units of 2^-16 (R151). -/
def srcPos (sc : Nat) (origin x : Int) : Int := ((2 * (x - origin) + 1) * (invScale sc : Int) - 65536) / 2

/-- The next output row of a plate's scaler. -/
def State.outRow (s : State) (k : Nat) : Nat := sget 0 s.bnd.outRow k

/-- The entry whose geometry a scaled plate has for a block. -/
def State.bandEntry (s : State) (fill : Bool) (k : Nat) : Option FrEntry := s.sourceEntry (s.plateSource fill k) k

/-- A block of a scaled plate put into the source ring (R150); `none` while the map row it replaces is still needed. A block of
which a write fell beyond the partition never counts as placed, so that no output row is scaled from it (R144). -/
def State.placeSource (s : State) (k : Nat) (r : PlateRec) (q : Part) (b : RouteBlk) : Option State :=
  let win := s.window
  let g := geomOf r (s.bandEntry b.fill k)
  let n := neededTexels r g win
  let t := (b.y - n.y0).toNat
  let c := (b.x - n.x0).toNat
  let next := s.outRow k
  let low := srcPos g.sy g.oy (win.2 - 16 + (next : Int)) / 65536
  if 2 ≤ t && decide (next < 1112) && decide (low < 16 * (b.y - 1)) then none
  else
    let (tex, clamped) := s.blockTexels r b
    let s := s.texelsClamped k clamped
    let (s, ok) := (List.range 16).foldl (fun (a : State × Bool) y =>
      let (s, ok) := a.1.partPut q (r.sourceOff + ((((16 * t + y) % 32) * (16 * r.cx)) + 16 * c) * 8)
        ((List.range 16).flatMap (fun x => Texel.bytes (tex.getD (16 * y + x) Texel.zero)))
      (s, a.2 && ok)) (s, true)
    let key := (k, t, c)
    some { s with bnd := { s.bnd with
      placed := if s.bnd.placed.contains key || !ok then s.bnd.placed else key :: s.bnd.placed } }

/-! ### Filtering (R161, R162) and the scaler (R151) -/

/-- The four weights of a bilinear filter as binary32 values. -/
def weights (fx fy : Nat) : List Fl :=
  [(256 - fx) * (256 - fy), fx * (256 - fy), (256 - fx) * fy, fx * fy].map (fun w => Fl.fin false w (-16))

/-- One component of the combination of R162. -/
def bilinear (w t : List Fl) : Fl :=
  let p (i : Nat) : Fl := (t.getD i .zero).mul (w.getD i .zero)
  ((p 0).add (p 1)).add ((p 2).add (p 3))

/-- A texel of the source ring; 0 outside the extent (R151 step 4). -/
def State.sourceTexel (s : State) (r : PlateRec) (q : Part) (n ext : Rect) (t u : Int) : Texel :=
  if t < 16 * ext.x0 || 16 * ext.x1 ≤ t || u < 16 * ext.y0 || 16 * ext.y1 ≤ u then .zero
  else
    let x := t - 16 * n.x0
    let y := u - 16 * n.y0
    if x < 0 || (16 * r.cx : Nat) ≤ x then .zero
    else
      let b := s.partGet q (r.sourceOff + ((y % 32).toNat * (16 * r.cx) + x.toNat) * 8) 8
      (List.range 4).map (fun i => leAt b (2 * i) 2)

/-- One output row of the scaler. -/
def State.scaleRow (s : State) (k : Nat) (r : PlateRec) (q : Part) (fill : Bool) (w : Nat) : State :=
  let win := s.window
  let e := s.bandEntry fill k
  let g := geomOf r e
  let n := neededTexels r g win
  let ext := (e.map (·.extent)).getD Rect.all
  let ys := srcPos g.sy g.oy (win.2 - 16 + (w : Int))
  let u := ys / 65536
  let fy := (ys % 65536).toNat / 256
  let row := (List.range 1952).map (fun x =>
    let xs := srcPos g.sx g.ox (win.1 - 16 + (x : Int))
    let t := xs / 65536
    let fx := (xs % 65536).toNat / 256
    let ts := [s.sourceTexel r q n ext t u, s.sourceTexel r q n ext (t + 1) u, s.sourceTexel r q n ext t (u + 1),
      s.sourceTexel r q n ext (t + 1) (u + 1)]
    (List.range 4).map (fun i => bits16 (bilinear (weights fx fy) (ts.map (fun p => fl16 (p.getD i 0))))))
  let s := (s.putRow k q win 0 w row).markRows k [w]
  { s with bnd := { s.bnd with outRow := sset 0 s.bnd.outRow k (w + 1) } }

/-- The source lines of an output row are in the source ring, and its ring row is released. -/
def State.rowReady (s : State) (k : Nat) (r : PlateRec) (fill : Bool) (w : Nat) : Bool :=
  let win := s.window
  let e := s.bandEntry fill k
  let g := geomOf r e
  let n := neededTexels r g win
  let ext := (e.map (·.extent)).getD Rect.all
  let u := srcPos g.sy g.oy (win.2 - 16 + (w : Int)) / 65536
  let line (v : Int) : Bool :=
    decide (v < 16 * ext.y0) || decide (16 * ext.y1 ≤ v) || decide (v / 16 < n.y0) || decide (n.y0 + (r.cy : Int) ≤ v / 16) ||
      s.rowPlaced k (v / 16 - n.y0).toNat r.cx
  line u && line (u + 1) && !s.rowHeld k w

/-- Output rows of a block row that the scaler can produce now, in order. -/
def State.scaleRows (s : State) (k : Nat) (r : PlateRec) (q : Part) (fill : Bool) (rows : List Nat) : State :=
  rows.foldl (fun s w =>
    if s.outRow k = w && s.rowReady k r fill w then s.scaleRow k r q fill w else s) s

/-- The plates of a PLT_BW record that have a ring and take part. -/
def State.bwPlates (s : State) (fill : Bool) (mask : Nat) : List (Nat × PlateRec × Part) :=
  (setBits 32 (mask &&& (if fill then s.drl.nextSet else s.drl.set))).filterMap (fun k =>
    ((s.planFor fill).bind (fun p => p.ringOf k)).map (fun e => (k, e.1, e.2)))

/-- A record's rows have all been written. -/
def State.bwDone (s : State) (t : Nat) (fill : Bool) (mask : Nat) : Bool :=
  (s.bwPlates fill mask).all (fun e =>
    if e.2.1.scaled then (blockRows s.window t).all (fun w => decide (w < s.outRow e.1)) else s.rowPlaced e.1 t e.2.1.cx)

/-- A scaled plate's rows of a block row have all been produced. -/
def State.scaledDone (s : State) (t : Nat) (k : Nat) : Bool := (blockRows s.window t).all (fun w => decide (w < s.outRow k))

/-- The scaled plates of the records under way, in the order in which the scaler serves them (R153). -/
def State.scalerTurns (s : State) : List (Nat × Bool × Nat × PlateRec × Part) :=
  s.bnd.reqs.flatMap (fun q => ((s.bwPlates q.2.1 q.2.2).filter (fun e => e.2.1.scaled)).map (fun e => (q.1, q.2.1, e)))

/-- The scaler serves one plate at a time, in the order of the records' masks: a plate whose source lines are not there holds
back those behind it (R153). -/
def State.scaleInTurn (s : State) : State :=
  (s.scalerTurns.foldl (fun (a : State × Bool) e =>
    if a.2 then a
    else
      let s := a.1.scaleRows e.2.2.1 e.2.2.2.1 e.2.2.2.2 e.2.1 (blockRows a.1.window e.1)
      (s, !s.scaledDone e.1 e.2.2.1)) (s, false)).1

/-- The scaler is producing output: a record under way has a scaled plate with rows to come (DRL_STATUS.SCALER_BUSY). -/
def State.scalerBusy (s : State) : Bool := s.scalerTurns.any (fun e => !s.scaledDone e.1 e.2.2.1)

/-- The records under way moved on: scaled plates in their turn, records whose rows are written leave, and engine PLT_BW has
finished when none is left. -/
def State.bwAdvance (s : State) : State :=
  let s := s.scaleInTurn
  let left := s.bnd.reqs.filter (fun q => !s.bwDone q.1 q.2.1 q.2.2)
  let s := { s with bnd := { s.bnd with reqs := left } }
  if left.isEmpty then s.finish 1 else s

/-- A record begins: a scaler that a cut left behind goes on with the record's first row. -/
def State.bwBegin (s : State) (t : Nat) (fill : Bool) (mask : Nat) : State :=
  let first := (blockRows s.window t).headD 0
  let s := (s.bwPlates fill mask).foldl (fun (s : State) e =>
    if e.2.1.scaled && decide (s.outRow e.1 < first) then
      { s with bnd := { s.bnd with outRow := sset 0 s.bnd.outRow e.1 first } } else s) s
  State.bwAdvance { s with bnd := { s.bnd with reqs := s.bnd.reqs ++ [(t, fill, mask)] } }

/-- The block at the head of the route placed (R147); `none` while the band writer waits. -/
def State.bandBlock (s : State) (b : RouteBlk) : Option State :=
  match (s.bwPlates b.fill (2 ^ b.plate)).head? with
  | none => some s
  | some (k, r, q) =>
    if b.isRelief then s.placeRelief k q b
    else if r.scaled then s.placeSource k r q b else s.placeTexels k r q b

/-- The rings' account restarts: at a commit point the tick's furrows are over and the fill begins; a REPEAT discards the
fill (R19). -/
def State.bandRestart (s : State) : State := { s with bnd := .init }

/-! ### The commands -/

/-- PLT_BW_RECORD (R146, R153): the record of engine PLT_BW in a slot; scaled plates are produced as their source lines
arrive. -/
def execPltBwRecord (slot : Fin 560) (s : State) : Host.Outcome State Fault Refusal :=
  .next (match s.liveRecord slot.val 1 with
    | some r => s.bwBegin r.target (r.op == opFill) r.plates
    | none => s)

/-- BAND_WRITE_BLOCK (R146, R147, R150): the next block of the route is converted, conditioned and placed, or waits. -/
def execBandWriteBlock (s : State) : Host.Outcome State Fault Refusal :=
  .next (s.oneCycle fun s => match s.thr.route with
    | [] => s
    | b :: rest => match s.bandBlock b with
      | none => s
      | some s' => State.bwAdvance { s' with thr := { s'.thr with route := rest } })

end Sys2Proof.Machine
end

