-- ==== Sys2Proof/Machine/Hogel.lean ====
section
/-! DEFINITION. The Hogel Table in the Granary and its prefetch (R176, R177, R78). -/
namespace Sys2Proof.Machine

/-- The fields of a 24-byte entry (Table 7.1). -/
def hglEntry (b : Bytes) : HglEntry :=
  { dx := toS 16 (leAt b 0 2), dy := toS 16 (leAt b 2 2), rot := toS 16 (leAt b 4 2)
    gains := [leAt b 6 2, leAt b 8 2, leAt b 10 2], dead := leAt b 12 6, vf := [byteAt b 18, byteAt b 19, byteAt b 20]
    site := byteAt b 21, flags := byteAt b 22 }

/-- The bytes of the neutral entry (R78). -/
def neutralBytes : Bytes := toLe 6 0 ++ toLe 2 0x8000 ++ toLe 2 0x8000 ++ toLe 2 0x8000 ++ toLe 12 0

/-- Dead-emitter record `j` of an entry: site, colours, VALID (R176). -/
def HglEntry.deadRec (e : HglEntry) (j : Nat) : Nat × Nat × Bool :=
  let v := fld e.dead (12 * j + 11) (12 * j)
  (v % 256, fld v 10 8, bit v 11 == 1)

/-- SENSE_OK and DARK (Table 7.2). -/
def HglEntry.senseOk (e : HglEntry) : Bool := bit e.flags 0 == 1
def HglEntry.dark (e : HglEntry) : Bool := bit e.flags 1 == 1

/-- An entry limited (R177), with the number of fields limited or ignored. -/
def HglEntry.limit (e : HglEntry) : HglEntry × Nat :=
  let lim (v : Int) : Int := max (-4096) (min 4096 v)
  let gains := e.gains.map (min 0x8000)
  let badRec (j : Nat) : Bool := (e.deadRec j).2.2 && decide (143 < (e.deadRec j).1)
  let dead := (List.range 4).foldl (fun d j => if badRec j then putFld d (12 * j + 11) (12 * j) 0 else d) e.dead
  let badSite := e.senseOk && decide (143 < e.site)
  ({ e with dx := lim e.dx, dy := lim e.dy, gains := gains, dead := dead
            flags := if badSite then e.flags - 1 else e.flags },
    b2n (lim e.dx != e.dx) + b2n (lim e.dy != e.dy) + (e.gains.filter (fun g => decide (0x8000 < g))).length +
      ((List.range 4).filter badRec).length + b2n badSite)

/-- Client HOGEL (Table 3.2). -/
def clHogel : Nat := 0x07

/-- The Granary address of the entry of hogel (hx, hy), when the plan has a HOGEL partition (R176). -/
def State.hglAddr (s : State) (hx hy : Nat) : Option Nat :=
  (s.clientPart clHogel).map (fun p => grnBase + p.first * 4096 + 24 * (960 * hy + hx))

/-- The entry of a hogel as the table holds it. -/
def State.hglRaw (s : State) (hx hy : Nat) : HglEntry :=
  match s.hglAddr hx hy with
  | some a => hglEntry (s.memGet a 24)
  | none => .neutral

/-- One entry fetched (R177, R78): a poisoned line makes it neutral and asks the Steward to reload it; an access that is not
performed makes it neutral (R73, R84, R85; DESIGN CHOICE, log entry 291). -/
def State.hglFetch (s : State) (hx hy : Nat) : State × HglEntry :=
  match s.hglAddr hx hy with
  | none => (s, .neutral)
  | some a =>
    let bad := (linesOf a 24).filter (fun l => s.poisoned l)
    if !s.engineAll 7 a 24 then (s.engineRefuse 7 a 24, .neutral)
    else if !bad.isEmpty then
      let s := bad.foldl (fun s l => s.poisonConsumed clHogel (plotOf l) (l / 64 % 64)) s
      ({ s with hgl := { s.hgl with refetch := (s.hgl.refetch.filter (· != (hy, hx))) ++ [(hy, hx)] } }, .neutral)
    else
      let (e, n) := (hglEntry (s.memGet a 24)).limit
      if n = 0 then (s, e)
      else
        let s := s.bumpBy HGL_CAL_LIMIT_TOTAL n
        if s.hgl.limitTick then (s, e)
        else ({ s.report Ev.HGL_CAL_LIMIT [] with hgl := { (s.report Ev.HGL_CAL_LIMIT []).hgl with limitTick := true } }, e)

/-- The entries of a furrow fetched, last hogel first. -/
def State.hglRow (s : State) (hy : Nat) : State × List HglEntry :=
  (List.range 960).foldl (fun a hx =>
    let r := a.1.hglFetch hx hy
    (r.1, r.2 :: a.2)) (s, [])

/-- The entries of a furrow fetched; those of the two furrows before it stay held. -/
def State.hglPrefetch (s : State) (hy : Nat) : State :=
  let p := s.hglRow hy
  { p.1 with hgl := { p.1.hgl with pref := ((hy, p.2.reverse) :: p.1.hgl.pref.filter (fun p => p.1 != hy)).take 3 } }

/-- The prefetched entries of a furrow. -/
def State.hglOf (s : State) (hy : Nat) : Option (List HglEntry) :=
  (s.hgl.pref.find? (fun p => p.1 == hy)).map (·.2)

/-- HGL_PREFETCH_RECORD (R177): the record of engine HGL in a slot fetches its furrow's entries. -/
def execHglPrefetchRecord (slot : Fin 560) (s : State) : Host.Outcome State Fault Refusal :=
  .next (s.oneCycle fun s => match s.liveRecord slot.val 7 with
    | some r => (s.hglPrefetch (r.target % 540)).finish 7
    | none => s)

end Sys2Proof.Machine
end

