-- ==== Sys2Proof/Machine/Drills.lean ====
section
/-! DEFINITION. The drills and the colour head: reach stores, sample positions, compositing, tone map and matrix, lanes and
spares, and the tone-map banks (chapter "Ray composition in the drills"). -/
namespace Sys2Proof.Machine

/-! ### Drills and their columns (R154) -/

/-- First column and column count of a drill in force. -/
def State.drillCols (s : State) (d : Nat) : Nat × Nat := ((s.fpl.plan.map (fun p => p.drillCols d)).getD (0, 0))

/-- The columns a drill loads: those of the running plan, in the prime those of the plan of the fill (R56; DEDUCED, log entry
251). -/
def State.loadCols (s : State) (fill : Bool) (d : Nat) : Nat × Nat :=
  (((s.planFor fill).map (fun p => p.drillCols d)).getD (0, 0))

/-- The drill that serves a column. -/
def State.drillOf (s : State) (hx : Nat) : Option Nat :=
  (List.range 24).find? (fun d => let c := s.drillCols d; decide (c.1 ≤ hx) && decide (hx < c.1 + c.2))

/-! ### Computed bounds (R52) -/

/-- The bound of a record in a variant, with `p` plates and `n` lanes. In a variant of KIND PAUSE the SKIP byte is ignored (DESIGN
CHOICE, log entry 235). -/
def boundOf (v : Variant) (r : SlotRec) (cols p n : Nat) : Nat :=
  let w := ceilDiv (cols * 144 * p) n
  if v.kind = 1 then drillBound w v.skip 0 0 else drillBound w 0 r.runLen r.gap

/-! ### Reach stores (R155) -/

/-- The plates of a set. -/
def setPlates (mask : Nat) : List Nat := setBits 32 mask

/-- Key of a plate's window row in a drill's reach store: window row w at reach row w mod 36. -/
def reachKey (d k w : Nat) : Nat := (d * 32 + k) * 36 + w % 36

/-- Texels of a window row that a drill reads, poisoned lines as texels of 0 (R78, R155), and so the lines whose access is not
performed (DESIGN CHOICE, log entry 291). -/
def State.readRow (s : State) (q : Part) (x w n : Nat) : State × List Nat :=
  let base := grnBase + q.first * 4096 + texelOff s.window x w
  let refused := (plotsIn base (8 * n)).filter (fun p => !s.engineMay 2 p)
  let (s, l) := (List.range n).foldl (fun (a : State × List Nat) i =>
    let ad := base + 8 * i
    if refused.contains (plotOf ad) then (a.1, 0 :: a.2)
    else if a.1.poisoned ad then (a.1.poisonConsumed clBand (plotOf ad) (ad / 64 % 64), 0 :: a.2)
    else (a.1, a.1.memLe ad 8 :: a.2)) (s.engineRefuse 2 base (8 * n), [])
  (s, l.reverse)

/-- A row is in the band ring, input-complete, for every plate of a set. -/
def State.rowIn (s : State) (set w : Nat) : Bool := (setPlates set).all (fun k => s.bnd.done.contains (k, w))

/-- Every drill has loaded a row: it is released for the plates of the set (R145). -/
def State.releaseRow (s : State) (set w : Nat) : State :=
  if sget 0 s.bnd.loaded w = 2 ^ 24 - 1 then
    { s with bnd := { s.bnd with done := s.bnd.done.filter (fun e => !(e.2 == w && bit set e.1 == 1)) } }
  else s

/-- A drill loads a window row of every plate of the set. -/
def State.loadRow (s : State) (d set : Nat) (fill : Bool) (w : Nat) : State :=
  if !s.rowIn set w || bit (sget 0 s.bnd.loaded w) d = 1 then s
  else
    let (h0, c) := s.loadCols fill d
    let s := (setPlates set).foldl (fun s k =>
      match (s.planFor fill).bind (fun p => p.ringOf k) with
      | none => s
      | some (_, q) =>
        let (s, l) := s.readRow q (2 * h0) w (2 * c + 32)
        { s with drl := { s.drl with reach := sset (0, []) s.drl.reach (reachKey d k w) (w, l) } }) s
    let s := { s with bnd := { s.bnd with loaded := smod 0 s.bnd.loaded w (fun m => m ||| 2 ^ d) } }
    s.releaseRow set w

/-- Every drill has loaded the rows of the prime. -/
def State.primed (s : State) : Bool := (List.range 34).all (fun w => sget 0 s.bnd.loaded w == 2 ^ 24 - 1)

/-- The rows of a furrow are in a drill's reach store for the plates of a set (R18). -/
def State.reachHas (s : State) (d set f : Nat) : Bool :=
  (setPlates set).all (fun k => (List.range 34).all (fun i => (sget (0, []) s.drl.reach (reachKey d k (2 * f + i))).1 == 2 * f + i &&
    (sget (0, []) s.drl.reach (reachKey d k (2 * f + i))).2 != []))

/-! ### Where a sample falls (R159 to R161) -/

/-- The entry in force of a plate. -/
def State.shownEntry (s : State) (k : Nat) : Option FrEntry := (s.plateSt k).shownEntry

/-- The address of a relief entry in the relief ring; none outside the plate's extent (R94, R148). An entry lies outside when
none of its 8 × 8 texels lies in the extent. -/
def State.reliefAddr (s : State) (k : Nat) (e : FrEntry) (i j : Int) : Option Nat :=
  (s.fpl.plan.bind (fun p => p.ringOf k)).bind (fun rq =>
    let t := extentTexels rq.1 (geomOf rq.1 (some e)) e.extent
    if 8 * i + 8 ≤ t.x0 || t.x1 ≤ 8 * i || 8 * j + 8 ≤ t.y0 || t.y1 ≤ 8 * j then none
    else some (grnBase + rq.2.first * 4096 + entryOff (neededRelief s.window).x0 i j))

/-- A relief entry of the relief ring, 0 outside the plate's extent, in a poisoned line (R78) and where the access is not
performed. -/
def State.reliefAt (s : State) (k : Nat) (e : FrEntry) (i j : Int) : Int :=
  match s.reliefAddr k e i j with
  | none => 0
  | some a => if s.poisoned a || !s.engineMay 2 (plotOf a) then 0 else toS 8 (s.memLe a 1)

/-- The poisoned lines among the relief entries that a hogel reads of a plate, reported (R78), and the accesses not performed. -/
def State.reliefMeet (s : State) (k hx hy : Nat) : State :=
  match s.shownEntry k with
  | none => s
  | some e =>
    if !e.relief then s
    else
      let i := (s.window.1 + 2 * (hx : Int) + 1 - 4) / 8
      let j := (s.window.2 + 2 * (hy : Int) + 1 - 4) / 8
      ([(i, j), (i + 1, j), (i, j + 1), (i + 1, j + 1)].filterMap (fun p => s.reliefAddr k e p.1 p.2)).foldl (fun s a =>
        if !s.engineMay 2 (plotOf a) then s.engineRefuse 2 a 1
        else if s.poisoned a then s.poisonConsumed clBand (plotOf a) (a / 64 % 64) else s) s

/-- r of R159 in units of 2^-8. -/
def State.reliefOf (s : State) (k : Nat) (e : FrEntry) (hx hy : Nat) : Int :=
  if !e.relief then 0
  else
    let xc := s.window.1 + 2 * (hx : Int) + 1 - 4
    let yc := s.window.2 + 2 * (hy : Int) + 1 - 4
    let i := xc / 8
    let j := yc / 8
    let gx := xc % 8
    let gy := yc % 8
    let r (a b : Int) : Int := s.reliefAt k e (i + a) (j + b)
    roundDiv ((8 - gy) * ((8 - gx) * r 0 0 + gx * r 1 0) + gy * ((8 - gx) * r 0 1 + gx * r 1 1)) 8

/-- e of R160 in units of 2^-8, with a flag when it was limited. -/
def State.dispOf (s : State) (k hx hy : Nat) : Int × Bool :=
  match s.shownEntry k with
  | none => (0, false)
  | some e =>
    let v := e.delta + s.reliefOf k e hx hy
    (max (-704) (min 704 v), decide (704 < v.natAbs))

/-- Offset of a sample in units of 2^-8 before the clamp (R161): DX, DY in s4.11, ρ in s0.15, e in s3.8. -/
def sampleOffset (d : Nat) (h : HglEntry) (e : Int) : Int × Int :=
  let a : Int := (2 * ((d % 12 : Nat) : Int) - 11) * 1024 + h.dx
  let b : Int := (2 * ((d / 12 : Nat) : Int) - 11) * 1024 + h.dy
  let rho := max (-2048) (min 2048 h.rot)
  let a' := a - roundDiv (rho * b) (2 ^ 15)
  let b' := b + roundDiv (rho * a) (2 ^ 15)
  (roundDiv (a' * e) (2 ^ 11), roundDiv (b' * e) (2 ^ 11))

/-- An offset limited to ±16 texels. -/
def clampOff (v : Int) : Int := max (-4096) (min 4096 v)

/-- Sample position in units of 2^-8 (R161), with a flag for the clamp. -/
def samplePos (hx hy d : Nat) (h : HglEntry) (e : Int) : Int × Int × Bool :=
  let o := sampleOffset d h e
  ((2 * (hx : Int) + 17) * 256 + clampOff o.1, (2 * (hy : Int) + 17) * 256 + clampOff o.2,
    decide (4096 < o.1.natAbs) || decide (4096 < o.2.natAbs))

/-! ### Filtering and compositing (R162, R163) -/

/-- A texel of a drill's reach store. -/
def State.reachTexel (s : State) (d k h0 : Nat) (x w : Int) : List Fl :=
  let row := sget (0, []) s.drl.reach (reachKey d k w.toNat)
  let v := row.2.getD (x - 2 * (h0 : Int)).toNat 0
  (List.range 4).map (fun i => fl16 (fld v (16 * i + 15) (16 * i)))

/-- A filtered sample of plate `k` (R162): R, G, B, alpha. -/
def State.sampleAt (s : State) (d k h0 : Nat) (px py : Int) : List Fl :=
  let jx := (px - 128) / 256
  let jy := (py - 128) / 256
  let w := weights ((px - 128) % 256).toNat ((py - 128) % 256).toNat
  let ts := [s.reachTexel d k h0 jx jy, s.reachTexel d k h0 (jx + 1) jy, s.reachTexel d k h0 jx (jy + 1),
    s.reachTexel d k h0 (jx + 1) (jy + 1)]
  (List.range 4).map (fun i => bilinear w (ts.map (fun t => t.getD i .zero)))

/-- A ray under composition: colour, alpha, samples taken, clamped plates, early termination. -/
structure RayAcc where
  c : List Fl
  a : Fl
  n : Nat
  clamped : List Nat
  early : Bool
deriving DecidableEq, Repr

/-- 1 − 1/1024. -/
def flNearOne : Fl := .fin false 1023 (-10)

/-- The loop of R163 over the plates of the set. A ray that comes to 1 − 1/1,024 with its last plate does not count as ended early
(DESIGN CHOICE, log entry 300). -/
def State.compose (s : State) (d h0 hx hy dir : Nat) (h : HglEntry) : List Nat → RayAcc → RayAcc
  | [], r => r
  | k :: rest, r =>
    let (px, py, cl) := samplePos hx hy dir h (s.dispOf k hx hy).1
    let smp := s.sampleAt d k h0 px py
    let t := Fl.one.sub r.a
    let c := (List.range 3).map (fun i => (r.c.getD i .zero).add (t.mul (smp.getD i .zero)))
    let a := Fl.one.min (r.a.add (t.mul (smp.getD 3 .zero)))
    let r' : RayAcc := ⟨c, a, r.n + 1, if cl then k :: r.clamped else r.clamped, false⟩
    if flNearOne.le a then { r' with early := !rest.isEmpty } else State.compose s d h0 hx hy dir h rest r'

/-- Background in force. -/
def State.bg (s : State) : List Fl := [fl16 s.plt.bgR, fl16 s.plt.bgG, fl16 s.plt.bgB]

/-- What the background fills (R163). -/
def State.withBg (s : State) (r : RayAcc) : List Fl :=
  let t := Fl.one.sub r.a
  (List.range 3).map (fun i => (r.c.getD i .zero).add (t.mul (s.bg.getD i .zero)))

/-! ### The tone-map index (R169) -/

/-- Fraction bits of the fixed-point evaluation. -/
def fxBits : Nat := 128

/-- The integer square root, by bits. -/
def isqrt (n : Nat) : Nat :=
  (List.range 140).foldl (fun r i => let b := 2 ^ (139 - i); if (r + b) * (r + b) ≤ n then r + b else r) 0

/-- The square root of a fixed-point value. -/
def fxSqrt (v : Nat) : Nat := isqrt (v * 2 ^ fxBits)

/-- `k` square roots one after the other. -/
def fxRoots : Nat → Nat → Nat
  | 0, v => v
  | k + 1, v => fxRoots k (fxSqrt v)

/-- The product of fixed-point values. -/
def fxMul (a b : Nat) : Nat := a * b / 2 ^ fxBits

/-- A power of a fixed-point value, by squaring over 13 bits of the exponent. -/
def fxPow (v n : Nat) : Nat :=
  (List.range 13).foldl (fun r i => let q := fxMul r r; if bit n (12 - i) = 1 then fxMul q v else q) (2 ^ fxBits)

/-- log2 of a fixed-point value from 1 up to 2, in units of 2^-40, by repeated squaring. -/
def fxLog2 (v : Nat) : Nat :=
  ((List.range 40).foldl (fun (a : Nat × Nat) _ =>
    let q := fxMul a.1 a.1
    if 2 * 2 ^ fxBits ≤ q then (q / 2, 2 * a.2 + 1) else (q, 2 * a.2)) (v, 0)).2

/-- The index x for SCENE content in units of 2^-24, rounded down; m is `q × 2^e`. -/
def sceneIndex (q : Nat) (e : Int) : Nat :=
  let n := bitLen q
  let v := q * 2 ^ fxBits / 2 ^ (n - 1)
  let l : Int := ((n : Int) - 1 + e + 14) * 2 ^ 40 + (fxLog2 v : Int)
  min (1023 * 2 ^ 24) (l.toNat * 1023 / 24 / 2 ^ 16)

/-- The inverse EOTF of SMPTE ST 2084 of a value from 0 to 1, times 1,023, in units of 2^-24, rounded down. -/
def pqIndex (q : Nat) (e : Int) : Nat :=
  let one := 2 ^ fxBits
  let m := if 0 ≤ e then one else min one (q * one / 2 ^ (-e).toNat)
  let y := fxPow (fxRoots 13 m) 1305
  let c1 := 107 * one / 128
  let c2 := 2413 * y / 128
  let c3 := 2392 * y / 128
  let z := (c1 + c2) * one / (one + c3)
  min (1023 * 2 ^ 24) (fxPow (fxRoots 5 z) 2523 * 1023 / 2 ^ (fxBits - 24))

/-- The value that the device evaluates for an index: any value within 2^-4 of it (R169). -/
def withinTol (x free : Nat) : Nat := max (x - 2 ^ 20) (min (min (1023 * 2 ^ 24) (x + 2 ^ 20 + 1)) free)

/-- A finite value in units of 2^-149. -/
def units149 (q : Nat) (e : Int) : Nat := if 0 ≤ e + 149 then q * 2 ^ (e + 149).toNat else 0

/-- Entry `i` of a curve: the default of Table 6.4 is the rounded 2^(24i ÷ 1,023 − 14), at most 1. -/
def toneDefault (i : Nat) : Nat :=
  -- the largest t whose lower rounding limit (2t − 1) / 2^16 is at most 2^(24i/1023 − 14)
  let ok (t : Nat) : Bool := decide ((2 * t - 1) ^ 1023 ≤ 2 ^ (24 * i + 2 * 1023))
  if 14 * 1023 ≤ 24 * i then 0x8000
  else (List.range 16).foldl (fun t b => let u := t + 2 ^ (15 - b); if u ≤ 0x8000 && ok u then u else t) 0

/-- Entry `i` of a bank's curve; values above 0x8000 read as 0x8000. -/
def TmBank.tone (b : TmBank) (i : Nat) : Nat :=
  match b.curve.find? (fun e => e.1 == i) with
  | some e => min 0x8000 e.2
  | none => toneDefault i

/-- T(x) for an index in units of 2^-24, in units of 2^-39. -/
def TmBank.toneAt (b : TmBank) (x : Nat) : Int :=
  let i := x / 2 ^ 24
  let f : Nat := x % 2 ^ 24
  let t0 : Int := (b.tone i : Nat)
  let t1 : Int := (b.tone (min (i + 1) 1023) : Nat)
  t0 * 2 ^ 24 + (f : Int) * (t1 - t0)

/-- The factor T(x) ÷ mr of R169; `none` where the rule states no result. -/
def TmBank.factor (b : TmBank) (mr : Fl) : Option Fl :=
  let m := mr.mul (fl16 b.inScale)
  match mr, m with
  | .fin _ 0 _, _ => some .zero
  | .fin neg _ _, .fin _ q e =>
    if b.mode = 1 then
      if neg then none
      else
        let x := withinTol (pqIndex q e) (Config.toneIndex 1 (units149 q e))
        some ((round32 false (b.toneAt x).toNat (-39)).div mr)
    else if neg || m.le (.fin false 1 (-14)) then
      some (((Fl.fin false (b.tone 0) (-15)).mul (m.mul (.fin false 1 14))).div mr)
    else
      let x := withinTol (sceneIndex q e) (Config.toneIndex 0 (units149 q e))
      some ((round32 false (b.toneAt x).toNat (-39)).div mr)
  | .fin _ _ _, .inf _ => some ((round32 false (b.toneAt (1023 * 2 ^ 24)).toNat (-39)).div mr)
  | _, _ => none

/-- A matrix element, s2.13. -/
def TmBank.elem (b : TmBank) (i : Nat) : Fl :=
  let v := toS 16 (b.mtx.getD i 0)
  .fin (decide (v < 0)) v.natAbs (-13)

/-- A component after the limits of R170, with a flag. -/
def limitUnit (x : Fl) : Fl × Bool := if x.lt .zero then (.zero, true) else if Fl.one.lt x then (.one, true) else (x, false)

/-- The colour head's result for a composited colour (R169, R170): u1.15 components and the flag of a limit; `none` where the
rules state no result. -/
def TmBank.head (b : TmBank) (c : List Fl) : Option (Rgb × Bool) :=
  let r := c.getD 0 .zero
  let g := c.getD 1 .zero
  let bl := c.getD 2 .zero
  match b.factor (r.max (g.max bl)) with
  | none => none
  | some k =>
    let t := [r.mul k, g.mul k, bl.mul k]
    let row (i : Nat) : Fl × Bool := limitUnit
      ((((b.elem (3 * i)).mul (t.getD 0 .zero)).add ((b.elem (3 * i + 1)).mul (t.getD 1 .zero))).add
        ((b.elem (3 * i + 2)).mul (t.getD 2 .zero)))
    let o := [row 0, row 1, row 2]
    if o.any (fun x => x.1 == .nan) then none
    else
      let v (i : Nat) : Nat := flToU15 (o.getD i (.zero, false)).1
      some (⟨v 0, v 1, v 2⟩, o.any (·.2))

/-! ### Lanes (R157, R158) -/

/-- The lanes of a drill. -/
def State.lanesOf (s : State) (d : Nat) : DrillLanes := sget DrillLanes.init s.drl.lanes d

/-- The lanes of a drill changed. -/
def State.setLanes (s : State) (d : Nat) (l : DrillLanes) : State :=
  { s with drl := { s.drl with lanes := sset DrillLanes.init s.drl.lanes d l } }

/-- R158: the lowest level whose variant still fits the drill records with `n` working lanes, L3 when none fits; C of R52 is the
largest column count of any drill. -/
def State.laneFloorOf (s : State) (n : Nat) : Nat :=
  match s.fpl.plan with
  | none => 0
  | some p =>
    let cols := p.maxCols
    let fits (level : Nat) : Bool :=
      let vi := p.variantOf level
      let v := p.variant vi
      n != 0 && (List.range 540).all (fun sl =>
        let r := slotRec (p.sec 0x05 vi) sl 2
        r.op != opRun ||
          decide (r.start + boundOf v r cols (min v.budget (popCount 32 r.plates)) n ≤ p.slotLen - 512))
    ((List.range 4).find? fits).getD 3

/-- R158: the lane floor of the array. -/
def State.laneFloor (s : State) : Nat :=
  (List.range 24).foldl (fun m d =>
    let n := (s.lanesOf d).working
    if n < 8 then max m (s.laneFloorOf n) else m) 0

/-- R158: at a boundary, lanes classed PERMANENT are spared or lost, and the lane floor is set. -/
def State.laneBoundary (s : State) : State :=
  let s := (List.range 24).foldl (fun s d =>
    (s.lanesOf d).due.foldl (fun s j =>
      let l := s.lanesOf d
      let l := { l with due := l.due.filter (· != j), failed := l.failed ||| 2 ^ j }
      if l.spared.isNone && decide (j < 8) && bit l.failed 8 = 0 then
        (s.setLanes d { l with spared := some j }).report Ev.DRL_LANE_SPARED []
      else if j = 8 && l.spared.isNone then s.setLanes d l
      else (s.setLanes d { l with working := l.working - 1 }).report Ev.DRL_SPARE_EXHAUSTED []) s) s
  let f := s.laneFloor
  if f = s.drl.floor then s
  else { s.report Ev.DRL_LANE_FLOOR [] with drl := { (s.report Ev.DRL_LANE_FLOOR []).drl with floor := f } }

/-! ### The tone-map banks (R171, R172) -/

/-- The inactive bank. -/
def State.tmInactive (s : State) : TmBank := s.tmBank (1 - s.rdF DRL_TM_STATUS 0 0)

/-- The inactive bank replaced. -/
def State.setInactive (s : State) (b : TmBank) : State :=
  if s.rdF DRL_TM_STATUS 0 0 = 0 then { s with drl := { s.drl with bankB := b } } else { s with drl := { s.drl with bankA := b } }

/-- A write or a LOAD is refused: the inactive bank is armed, or a LOAD runs. -/
def State.tmLocked (s : State) : Bool := s.rdF DRL_TM_STATUS 1 1 == 1 || s.rdF DRL_TM_STATUS 2 2 == 1

/-- IN_SCALE is positive, SRGB_WHITE lies from 2^-14 to 256 (Table 6.4). -/
def inScaleOk (h : Nat) : Bool := h != 0 && decide (h ≤ 0x7C00)
def whiteOk (h : Nat) : Bool := decide (0x0400 ≤ h) && decide (h ≤ 0x5C00)

/-- R171: the bank selected at a commit point. -/
def State.tmSelect (s : State) : State :=
  let armed := s.rdF DRL_TM_STATUS 1 1 == 1
  let tag := s.rdF DRL_TM_STATUS 31 16
  let hit := match s.plt.cand with
    | some f => f.tag == tag || later 16 f.tag tag
    | none => false
  s.wrF DRL_TM_STATUS 3 3 (b2n (armed && (s.rdF DRL_TM_ARM 17 17 == 1 || hit)))

/-- R171: a boundary that applies COMMIT makes the selected bank active. -/
def State.tmCommit (s : State) : State :=
  if s.rdF DRL_TM_STATUS 3 3 = 1 then
    let s := (s.wrF DRL_TM_STATUS 0 0 (1 - s.rdF DRL_TM_STATUS 0 0)).wrF DRL_TM_STATUS 1 1 0
    s.report Ev.DRL_TM_SWAPPED [s.rd PLT_SHOWN_TAG]
  else s

/-- The reason for which a tone-map image fails its checks (Table 6.12), 0 for none. -/
def tmImageReason (b : Bytes) : Nat :=
  if leAt b 0 2 ≠ 0x4D54 || byteAt b 2 ≠ 1 then 1
  else if crc32c (putBytes b 28 (toLe 4 0)) ≠ leAt b 28 4 then 2
  else if !(decide (byteAt b 3 < 2) && inScaleOk (leAt b 4 2) && whiteOk (leAt b 6 2)) then 3 else 0

/-- The bank of an image (Table 6.5). -/
def tmImage (b : Bytes) : TmBank :=
  { mode := byteAt b 3, inScale := leAt b 4 2, white := leAt b 6 2
    mtx := (List.range 9).map (fun i => leAt b (8 + 2 * i) 2)
    curve := (List.range 1024).map (fun i => (i, leAt b (32 + 2 * i) 2)) }

/-! ### Register views and the tick -/

/-- The registers of the block whose value is computed when read. -/
def State.drlView (s : State) (a : Nat) : Option Nat :=
  let b := s.tmInactive
  let m (i : Nat) : Nat := b.mtx.getD i 0
  if a = DRL_STATUS then
    let ls := (List.range 24).map s.lanesOf
    some (s.rd DRL_STATUS + b2n (ls.any (fun l => l.spared.isSome)) * 4 + b2n (ls.any (fun l => decide (l.working < 8))) * 8 +
      b2n s.scalerBusy * 16)
  else if a = DRL_BUDGET then
    some (s.budgetNow + popCount 32 s.drl.set * 2 ^ 8 + s.drl.floor * 2 ^ 16)
  else if a = DRL_LANE_MAP then
    let l := s.lanesOf (s.rdF DRL_LANE_SEL 4 0)
    some (l.failed + (l.spared.getD 15) * 2 ^ 9 + l.working * 2 ^ 13)
  else if a = DRL_TM_DATA then
    let i := s.rdF DRL_TM_ADDR 9 1 * 2
    some (b.tone i + b.tone (i + 1) * 2 ^ 16)
  else if a = DRL_TM_MODE then some (b.mode + b.inScale * 2 ^ 16)
  else if a = DRL_TM_SRGB_WHITE then some b.white
  else if a = DRL_MTX_0 then some (m 0 + m 1 * 2 ^ 16)
  else if a = DRL_MTX_1 then some (m 2 + m 3 * 2 ^ 16)
  else if a = DRL_MTX_2 then some (m 4 + m 5 * 2 ^ 16)
  else if a = DRL_MTX_3 then some (m 6 + m 7 * 2 ^ 16)
  else if a = DRL_MTX_4 then some (m 8)
  else none

/-- The counts of the ended tick kept in the LAST registers, and the marks of the tick cleared. -/
def State.drlTick (s : State) : State :=
  let d := s.drl
  let s := ((((s.wr DRL_PLATES_LAST d.set).wr DRL_RAYS_LAST d.rays).wr DRL_SAMPLES_LAST d.samples).wr DRL_EARLY_LAST d.early).wr
    DRL_ISSUE_MAX_LAST (d.issueMax % 2 ^ 17)
  { s with drl := { s.drl with
      rays := 0, samples := 0, early := 0, issueMax := 0, checkTick := 0, limitTick := [], apronTick := [], clipTick := false } }

/-! ### The commands -/

/-- The relief entries of a hogel's plates read (R78), and the disparities that are limited (R160): counted for each plate, and
reported once per plate per tick. -/
def State.limitHogel (s : State) (hx f mask : Nat) : State :=
  (setPlates mask).foldl (fun s k =>
    let s := s.reliefMeet k hx f
    if !(s.dispOf k hx f).2 then s
    else
      let s := s.bump DRL_DISP_LIMIT_TOTAL
      if s.drl.limitTick.contains k then s
      else
        let s := s.report Ev.DRL_DISP_LIMIT []
        { s with drl := { s.drl with limitTick := k :: s.drl.limitTick } }) s

/-- The plates that a furrow's drill record composes: the participation set within its mask (R164). -/
def State.furrowPlates (s : State) : Nat := s.drl.set &&& (s.slotRecord s.fpl.slot 2).plates

/-- The active lanes of a drill in the order in which they take their first rays: lanes 0 to 7, the spare in the place of the
lane it replaced (R158). The order is the model's (DESIGN CHOICE, log entry 259). -/
def DrillLanes.active (l : DrillLanes) : List Nat :=
  ((List.range 8).map (fun j => if l.spared = some j then 8 else j)).filter (fun j => bit l.failed j == 0)

/-- The ray that a lane works on, counted in the drill's order (R156); none for a lane that is not active. -/
def State.rayOf (s : State) (d lane : Nat) : Option Nat :=
  ((s.lanesOf d).active.findIdx? (· == lane)).map (fun i => sget i s.drl.laneRay (16 * d + lane))

/-- R156: a lane whose ray has ended takes the drill's next ray. -/
def State.laneNext (s : State) (d lane : Nat) : State :=
  match (s.lanesOf d).active.findIdx? (· == lane) with
  | none => s
  | some i =>
    let n := sget (s.lanesOf d).active.length s.drl.nextRay d
    { s with drl := { s.drl with
        laneRay := sset i s.drl.laneRay (16 * d + lane) n, nextRay := sset (s.lanesOf d).active.length s.drl.nextRay d (n + 1) } }

/-- The relief entry rows that a furrow reads are input-complete for the plates of a set (R148, R159). -/
def State.reliefHas (s : State) (mask f : Nat) : Bool :=
  (setPlates mask).all (fun k =>
    !((s.shownEntry k).map (·.relief)).getD false ||
      (let j := (s.window.2 + 2 * (f : Int) + 1 - 4) / 8
       s.reliefRow k j && s.reliefRow k (j + 1)))

/-- DRILL_RECORD (R155, R156): a furrow's composition starts, or the prime of the next tick. -/
def execDrillRecord (slot : Fin 560) (s : State) : Host.Outcome State Fault Refusal :=
  .next (match s.liveRecord slot.val 2 with
    | none => s
    | some r =>
      if 541 ≤ slot.val then
        { s.wrF DRL_STATUS 0 0 0 with drl := { s.drl with priming := r.op == opRun } }
      else
        let s := s.wrF DRL_STATUS 1 1 1
        { s with
          drl := { s.drl with furrow := some (r.target % 540), laneRay := [], nextRay := [] }, etc := { s.etc with rays := [] } })

/-- DRILL_REACH_LOAD (R155, R145): a drill loads the two rows of a slot, or in the prime the rows 0 to 33, as far as they are
input-complete; rows that every drill has loaded are released. A prime needs its drill RUN record; one that goes on after the
boundary delays slot 0, but ends no record there, and PRIMED is not set. -/
def execDrillReachLoad (drill : Fin 24) (slot : Fin 560) (s : State) : Host.Outcome State Fault Refusal :=
  .next <| s.oneCycle fun s =>
    if 541 ≤ slot.val then
      if !s.drl.priming then s
      else
      let s := (List.range 34).foldl (fun s w => s.loadRow drill.val s.drl.nextSet true w) s
      if !s.primed then s
      else
        let s : State := { s with drl := { s.drl with priming := false } }
        if s.fpl.committed then (s.wrF DRL_STATUS 0 0 1).finish 2 else s
    else if slot.val < 539 && !s.fpl.rep then
      let s := [2 * slot.val + 34, 2 * slot.val + 35].foldl (fun s w => s.loadRow drill.val s.drl.set false w) s
      s.bwAdvance
    else s

/-- R157: what becomes of a ray whose residue check failed: the spare recomputes it when it is idle, else BG alone. -/
def State.laneCheck (s : State) (drill lane furrow : Nat) (spare : Bool) : State :=
  let s := s.bump DRL_LANE_CHECK_TOTAL
  let s := if s.drl.checkTick < 16 then
      s.report Ev.DRL_LANE_CHECK [drill, lane, furrow + b2n (!spare) * 2 ^ 16] else s
  let s := { s with drl := { s.drl with checkTick := s.drl.checkTick + 1 } }
  s.queueTest 4 (9 * drill + lane) true

/-- R161: an apron clamp counted for each sample of a plate, and reported once per plate per tick. -/
def State.apronClamps (s : State) (l : List Nat) : State :=
  l.foldl (fun s k =>
    let s := s.bump DRL_APRON_CLAMP_TOTAL
    if s.drl.apronTick.contains k then s
    else
      let s := s.report Ev.DRL_APRON_CLAMP []
      { s with drl := { s.drl with apronTick := k :: s.drl.apronTick } }) s

/-- The colour of a ray from the tone map in force, and whether it was clipped; an open colour is drawn. -/
def State.headColour (s : State) (r : RayAcc) : State × Rgb × Bool :=
  match (s.tmBank (s.rdF DRL_TM_STATUS 0 0)).head (s.withBg r) with
  | some c => (s, c.1, c.2)
  | none =>
    let d := s.draw
    let v (i : Nat) : Nat := Config.openColour (3 * d.1 + i) % 0x8001
    (d.2, ⟨v 0, v 1, v 2⟩, false)

/-- A gamut clip counted, and reported once per tick. -/
def State.gamutClip (s : State) : State :=
  let s := s.bump DRL_GAMUT_CLIP_TOTAL
  if s.drl.clipTick then s
  else
    let s := s.report Ev.DRL_GAMUT_CLIP []
    { s with drl := { s.drl with clipTick := true } }

/-- A ray handed to the Etcher, with the drills' counts. -/
def State.rayDone (s : State) (i : Nat) (rgb : Rgb) (r : RayAcc) (cycle : Nat) : State :=
  { s with
    etc := { s.etc with rays := sset ⟨0x8001, 0, 0⟩ s.etc.rays i rgb }
    drl := { s.drl with
      rays := s.drl.rays + 1, samples := s.drl.samples + r.n, early := s.drl.early + b2n r.early
      issueMax := max s.drl.issueMax cycle } }

/-- A ray's composition, from the reach store to the Etcher (R157, R160 to R163, R167 to R170). The limits of a hogel are counted
with its first ray. -/
def State.composeRay (s : State) (d hx dir lane f mask : Nat) (h : HglEntry) (check spareIdle : Bool) (cycle : Nat) : State :=
  let first := (List.range 144).all (fun j => (sget ⟨0x8001, 0, 0⟩ s.etc.rays (144 * hx + j)).r == 0x8001)
  let s := if first then s.limitHogel hx f mask else s
  let spare := spareIdle && (s.lanesOf d).spared.isNone
  let s := if check then s.laneCheck d lane f spare else s
  let r : RayAcc :=
    if check && !spare then ⟨[.zero, .zero, .zero], .zero, 0, [], false⟩
    else s.compose d (s.drillCols d).1 hx f dir h (setPlates mask) ⟨[.zero, .zero, .zero], .zero, 0, [], false⟩
  let s := s.apronClamps r.clamped
  let q := s.headColour r
  let s := if q.2.2 then q.1.gamutClip else q.1
  let s := (s.rayDone (144 * hx + dir) q.2.1 r cycle).laneNext d lane
  if s.etc.rays.length = 138240 then (s.wrF DRL_STATUS 1 1 0).finish 2 else s

/-- DRILL_RAY_COMPLETE (R156, R157, R161 to R163, R167 to R170): the ray of direction `dir` of the furrow's hogel in column `hx`
leaves the colour head. It is the ray that its lane has taken in the drill's order, by column and then by direction. `check`: the
lane's residue check failed; `spareIdle`: the drill's spare lane is idle; `cycle`: when
its last sample was issued, from the slot start. -/
def execDrillRayComplete (hx : Fin 960) (dir : Fin 144) (lane : Fin 9) (check spareIdle : Bool) (cycle : Nat) (s : State) :
    Host.Outcome State Fault Refusal :=
  .next (s.oneCycle fun s => match s.drl.furrow, s.drillOf hx.val with
    | some f, some d =>
      let mask := s.furrowPlates
      match s.hglOf f with
      | none => s
      | some hs =>
        if !s.reachHas d mask f || !s.reliefHas mask f ||
            s.rayOf d lane.val != some (144 * (hx.val - (s.drillCols d).1) + dir.val) then s
        else s.composeRay d hx.val dir.val lane.val f mask (hs.getD hx.val .neutral) check spareIdle cycle
    | _, _ => s)

/-- DRL_LANE_TEST (R174): a scan test of a lane of the selected drill is queued, with no error behind it. -/
def execDrlLaneTest (value : Word) (s : State) : Host.Outcome State Fault Refusal :=
  if s.shut .service DRL_LANE_TEST then .next (s.turnedAway .service DRL_LANE_TEST) else
  let j := fld value.toNat 3 0
  let d := s.rdF DRL_LANE_SEL 4 0
  .next (if j < 9 ∧ d < 24 then s.queueTest 4 (9 * d + j) false else s)

/-- DRILL_LANE_TEST_DONE (R157, R158, R456): a queued scan test of lane `idx` = 9d + j ends; a PERMANENT lane acts at the next
boundary. -/
def execDrillLaneTestDone (idx : Fin 216) (fail : Bool) (vector : Word) (s : State) : Host.Outcome State Fault Refusal :=
  .next (match s.tests.find? (fun t => t.kind == 4 && t.idx == idx.val) with
    | none => s
    | some t =>
      let (s, cls) := s.testResult Ev.DRL_SELFTEST_RESULT 4 idx.val t.faulted fail (if fail then vector.toNat else 0)
      let d := idx.val / 9
      let j := idx.val % 9
      let l := s.lanesOf d
      if cls = 3 && bit l.failed j = 0 && !l.due.contains j then s.setLanes d { l with due := l.due ++ [j] } else s)

/-- DRL_TM_ARM (R171, Table 6.13): the inactive bank is armed with TAG, or IMMEDIATE. -/
def execDrlTmArm (value : Word) (s : State) : Host.Outcome State Fault Refusal :=
  if s.shut .service DRL_TM_ARM then .next (s.turnedAway .service DRL_TM_ARM) else
  let s := s.regWrite DRL_TM_ARM value.toNat
  .next ((s.wrF DRL_TM_STATUS 1 1 1).wrF DRL_TM_STATUS 31 16 (fld value.toNat 15 0))

/-- DRL_TM_DISARM (R171): the arm is cancelled. What a commit point has selected stays selected for the boundary. -/
def execDrlTmDisarm (value : Word) (s : State) : Host.Outcome State Fault Refusal :=
  if s.shut .service DRL_TM_ARM then .next (s.turnedAway .service DRL_TM_ARM) else
  let s := s.regWrite DRL_TM_ARM value.toNat
  .next (s.wrF DRL_TM_STATUS 1 1 0)

/-- DRL_TM_LOAD (R172): LOAD starts the copy of the image at the address that the registers hold with this write; it is refused
while the inactive bank is armed or a LOAD runs. -/
def execDrlTmLoad (value : Word) (s : State) : Host.Outcome State Fault Refusal :=
  if s.shut .service DRL_TM_LOAD_HI then .next (s.turnedAway .service DRL_TM_LOAD_HI) else
  .next (if s.tmLocked then s.report Ev.DRL_TM_BUSY []
    else
      let s := (s.regWrite DRL_TM_LOAD_HI value.toNat).wrF DRL_TM_STATUS 2 2 1
      { s with drl := { s.drl with loadAddr := s.rd DRL_TM_LOAD_LO + s.rdF DRL_TM_LOAD_HI 7 0 * 2 ^ 32 } })

/-- The Steward, which copies the image, as a Granary client. -/
def clLoader : Nat := 0x0B

/-- DRL_TM_LOAD_DONE (R172, R26): the image is checked and written, or refused with its reason; an image that memory does not
have is reported as every such access. -/
def execDrlTmLoadDone (s : State) : Host.Outcome State Fault Refusal :=
  .next <|
    if s.rdF DRL_TM_STATUS 2 2 = 0 then s
    else
      let a := s.drl.loadAddr
      let s := s.wrF DRL_TM_STATUS 2 2 0
      let may := s.rangeMay clLoader a 2080
      let poison := s.rangePoisoned a 2080
      let s := if may then (s.useRange .steward false a 2080).consumePoison clLoader a 2080 else s.refuseRange clLoader a 2080
      let b := s.memGet a 2080
      let reason := if a % 64 ≠ 0 ∨ !may ∨ poison then 4 else tmImageReason b
      if reason = 0 then s.setInactive (tmImage b)
      else (s.wrF DRL_TM_STATUS 6 4 reason).report Ev.DRL_TM_LOAD_FAIL [reason]

/-- DRL_TM_DATA_ACCESS (R172, R174): a read or a write of a curve entry pair; DRL_TM_ADDR advances by 2 entries. -/
def execDrlTmDataAccess (write : Option Word) (s : State) : Host.Outcome State Fault Refusal :=
  if s.shut .service DRL_TM_DATA then .next (s.turnedAway .service DRL_TM_DATA) else
  let i := s.rdF DRL_TM_ADDR 9 1 * 2
  let s' := s.wrF DRL_TM_ADDR 9 1 (s.rdF DRL_TM_ADDR 9 1 + 1)
  .next (match write with
    | none => s'.result 0 (s.tmInactive.tone i + s.tmInactive.tone (i + 1) * 2 ^ 16)
    | some v =>
      if s.tmLocked then (s'.report Ev.DRL_TM_BUSY []).result 0 0
      else
        let b := s.tmInactive
        let rest := b.curve.filter (fun e => e.1 != i && e.1 != i + 1)
        (s'.setInactive { b with curve := (i, v.toNat % 2 ^ 16) :: (i + 1, v.toNat / 2 ^ 16) :: rest }).result 0 0)

/-- A write of a mode, scale, white or matrix register of the inactive bank (R172, R174). -/
def TmBank.write (b : TmBank) (a v : Nat) : Option TmBank :=
  let lo := v % 2 ^ 16
  let hi := v / 2 ^ 16
  let set (l : List (Nat × Nat)) : Option TmBank :=
    some { b with mtx := (List.range 9).map (fun i => match l.find? (fun e => e.1 == i) with
      | some e => e.2
      | none => b.mtx.getD i 0) }
  if a = DRL_TM_MODE then (if inScaleOk hi then some { b with mode := v % 2, inScale := hi } else none)
  else if a = DRL_TM_SRGB_WHITE then (if whiteOk lo then some { b with white := lo } else none)
  else if a = DRL_MTX_0 then set [(0, lo), (1, hi)]
  else if a = DRL_MTX_1 then set [(2, lo), (3, hi)]
  else if a = DRL_MTX_2 then set [(4, lo), (5, hi)]
  else if a = DRL_MTX_3 then set [(6, lo), (7, hi)]
  else if a = DRL_MTX_4 then set [(8, lo)]
  else some b

/-- The registers of DRL_TM_BANK_WRITE. -/
def tmBankRegs : List Nat := [DRL_TM_MODE, DRL_TM_SRGB_WHITE, DRL_MTX_0, DRL_MTX_1, DRL_MTX_2, DRL_MTX_3, DRL_MTX_4]

/-- DRL_TM_BANK_WRITE (R172, R174): the inactive bank changes, or the write is ignored with DRL_TM_BUSY. -/
def execDrlTmBankWrite (reg : Fin 7) (value : Word) (s : State) : Host.Outcome State Fault Refusal :=
  if s.shut .service (tmBankRegs.getD reg.val 0) then .next (s.turnedAway .service (tmBankRegs.getD reg.val 0)) else
  .next <|
    if s.tmLocked then s.report Ev.DRL_TM_BUSY []
    else match s.tmInactive.write (tmBankRegs.getD reg.val 0) value.toNat with
      | some b => s.setInactive b
      | none => s.report Ev.DRL_TM_BUSY []

end Sys2Proof.Machine
end

