-- ==== Sys2Proof/Machine/LinkBase.lean ====
section
/-! DEFINITION. The link layer's shared operations (chapter "Lysif link layer, discovery and routing"): port roles, flits,
credits and slots, output arbitration, messages, unicast routing, and the discovery of the spanning tree. A flit takes no
model time to send: what is ready and has credit goes at once, in the order of R278 and R279. -/
namespace Sys2Proof.Machine

/-! ### Port roles (R281) -/

/-- A port record (Table 10.6). -/
structure PortRole where
  role : Nat
  cap : Nat
  pref : Nat
  power : Nat
  rects : List Rect
deriving DecidableEq, Repr

/-- Port record `p` of a PORT_ROLES section. -/
def portRoleOf (b : Bytes) (p : Nat) : PortRole :=
  let o := 16 + 264 * p
  { role := byteAt b o, cap := byteAt b (o + 1), pref := byteAt b (o + 2), power := byteAt b (o + 3)
    rects := (List.range (min 16 (byteAt b (o + 4)))).map (fun i =>
      let r (j : Nat) : Int := toS 32 (leAt b (o + 8 + 16 * i + 4 * j) 4)
      ⟨r 0, r 1, r 2, r 3⟩) }

/-- The role in force; before a plan every port is FABRIC, width 8, preferred by number (R281). -/
def State.portRole (s : State) (p : Nat) : PortRole :=
  match s.fpl.plan with
  | none => ⟨1, 8, p, 0, []⟩
  | some q => portRoleOf (q.sec 0x07 0) p

/-- ROOT_CAND and ROOT_PRIO of the plan in force (R281). -/
def State.rootCand (s : State) : Bool := match s.fpl.plan with
  | none => false
  | some q => bit (byteAt (q.sec 0x07 0) 0) 0 == 1
def State.rootPrio (s : State) : Nat := match s.fpl.plan with
  | none => 0
  | some q => byteAt (q.sec 0x07 0) 1

/-- The fused ID (R443). -/
def fusedId : Nat := Config.fusedId.toNat

/-! ### Ports -/

/-- A port's training state (Table 9.12). -/
def State.lneState (s : State) (p : Nat) : Nat := s.rdF (LNE_PORT_STATUS p) 3 0

/-- A port is ACTIVE. -/
def State.portActive (s : State) (p : Nat) : Bool := s.lneState p == 6

/-- The ACTIVE ports. -/
def State.activePorts (s : State) : List Nat := (List.range 4).filter s.portActive

/-- A port's lane layer record, read and changed. -/
def State.portSt (s : State) (p : Nat) : PortSt := sget PortSt.init s.lne.ports p
def State.modPort (s : State) (p : Nat) (f : PortSt → PortSt) : State :=
  { s with lne := { s.lne with ports := smod PortSt.init s.lne.ports p f } }

/-- A port's link layer record, read and changed. -/
def State.lnkPort (s : State) (p : Nat) : LinkPort := sget LinkPort.init s.lnk.ports p
def State.modLnk (s : State) (p : Nat) (f : LinkPort → LinkPort) : State :=
  { s with lnk := { s.lnk with ports := smod LinkPort.init s.lnk.ports p f } }

/-- An event that is reported once per port per tick. -/
def State.sayOnce (s : State) (code p : Nat) (args : List Nat) : State :=
  if s.lnk.said.contains (code, p) then s
  else { s.report code args with lnk := { (s.report code args).lnk with said := (code, p) :: s.lnk.said } }

/-- Table 9.7, R253: the transmit direction of a port is asked to wake. -/
def State.wakeTx (s : State) (p : Nat) : State :=
  let x := s.portSt p
  let tx := s.rdF (LNE_PORT_STATUS p) 17 16
  if x.txEntry ≠ 0 then s.modPort p (fun x => { x with wakePend := true })
  else if tx = 1 then s.wrF (LNE_PORT_STATUS p) 17 16 0
  else if tx = 2 then
    if x.resident then s.modPort p (fun x => { x with waking := true, wakePend := false })
    else s.modPort p (fun x => { x with wakePend := true })
  else s

/-- A port may send flits: ACTIVE, and its transmit direction awake. -/
def State.txAwake (s : State) (p : Nat) : Bool :=
  s.portActive p && s.rdF (LNE_PORT_STATUS p) 17 16 == 0 && (s.portSt p).txEntry == 0

/-- MSG flits may flow on a port: it is synced and no sync runs (R270, R272). -/
def State.txMsg (s : State) (p : Nat) : Bool :=
  s.txAwake p && s.rdF (LNK_PORT_STATUS p) 2 2 == 1 && !(s.lnkPort p).syncing

/-! ### Flits (R261 to R263) -/

/-- Four 12-bit counts in 48 bits (Table 10.1). -/
def packFreed (l : List Nat) : Nat := (List.range 4).foldl (fun a v => a + (l.getD v 0 % 4096) * 2 ^ (12 * v)) 0

/-- Bytes with zeros after them up to a length. -/
def padTo (n : Nat) (b : Bytes) : Bytes := b ++ List.replicate (n - b.length) 0#8

/-- The 256 bytes of a flit (Table 10.1). -/
def flitBytes (seq vc kind ack : Nat) (nak abort : Bool) (len som : Nat) (freed : List Nat) (payload : Bytes) : Bytes :=
  let b := toLe 2 (seq % 4096 + vc * 4096 + kind * 16384) ++ toLe 2 (ack % 4096 + b2n nak * 4096 + b2n abort * 8192) ++
    toLe 1 len ++ toLe 1 som ++ toLe 6 (packFreed freed) ++ padTo 240 payload
  b ++ toLe 4 (crc32c b)

/-- A flit goes out: its ACK, NAK and FREED tell the partner all that is due (R264, R265). -/
def State.sendFlit (s : State) (p seq vc kind : Nat) (abort : Bool) (len som : Nat) (payload : Bytes) : State :=
  let x := s.lnkPort p
  let s := s.put (.flit p seq (flitBytes seq vc kind (x.rxNext + 4095) x.nakDue abort len som x.freed payload))
  s.modLnk p (fun x => { x with nakDue := false, ackOwed := 0, freeOwed := false })

/-- An LCTL flit (Table 10.3). -/
def State.sendLctl (s : State) (p : Nat) (payload : Bytes) : State :=
  if s.txAwake p then s.sendFlit p 0 0 1 false 0 0xFF payload else s

/-- An LCTL NOP (R265). -/
def State.sendNop (s : State) (p : Nat) : State := s.sendLctl p [1#8]

/-- R280: a direction that rests and has a flit to send asks for wake. -/
def State.wakeNow (s : State) (p : Nat) : State := if s.portActive p && !s.txAwake p then s.wakeTx p else s

/-- An IDLE control block (Table 9.3). -/
def idleBlock : Bytes :=
  let b := padTo 30 [0x1E#8]
  b ++ toLe 2 (crc16 b)

/-- A MSG flit and its place in the retry buffer. -/
def State.sendTx (s : State) (p : Nat) (f : TxFlit) : State :=
  s.sendFlit p f.seq f.vc 0 f.abort f.payload.length f.som f.payload

/-! ### Slots and credits (R268, R269) -/

/-- A message is still held by an output, or holds a Sheaf block that waits for a slot (R105). -/
def State.midLive (s : State) (mid : Nat) : Bool :=
  s.plt.waiting.any (fun w => w.1 == mid) || (List.range 4).any (fun q => (s.lnkPort q).txq.any (fun m => m.mid == mid))

/-- A receive slot of a port can be freed: all its bytes are taken and every message it holds has completed. -/
def State.slotDone (s : State) (p : Nat) (t : RxSlot) : Bool :=
  decide (t.data.length ≤ t.off) && t.mids.all (fun m => !s.midLive m.1 &&
    (((sget none (s.lnkPort p).rx t.vc).map (·.mid)) != some m.1))

/-- R269: slots whose readers have completed are freed and counted. -/
def State.freeSlots (s : State) (p : Nat) : State :=
  let x := s.lnkPort p
  let done := x.slots.filter (s.slotDone p)
  if done.isEmpty then s
  else s.modLnk p (fun x => { x with
    slots := x.slots.filter (fun t => !s.slotDone p t)
    freed := x.freed.mapIdx (fun v n => (n + (done.filter (fun t => t.vc == v)).length) % 4096)
    freeOwed := true })

/-- The LINKp client of a port (Table 3.2). -/
def linkClient (p : Nat) : Nat := p + 1

/-- The LINKp client takes plots one by one up to a number, as far as it has credit. -/
def State.linkPlots (c : Nat) : Nat → State → State
  | 0, s => s
  | n + 1, s => match s.plotFor c with
    | some k => State.linkPlots c n (s.allocPlot c k)
    | none => s

/-- R268: the slots granted to each VC at a sync, with the plots taken for them; before S3 the Steward's SRAM holds 16 slots
for VC0 and 16 for VC1 (R410). -/
def State.takeSlots (s : State) (p : Nat) : State :=
  if s.stageNow < 3 then s.modLnk p (fun x => { x with total := [16, 16, 0, 0] })
  else
    let want := (s.lnkPort p).alloc
    let plots (n : Nat) : Nat := ceilDiv n 16
    let need := (want.map plots).sum
    let c := linkClient p
    let held (s : State) : Nat := (s.grn.held.filter (fun h => h.1 == c)).length
    let s := State.linkPlots c (need - held s) s
    let short := need - held s
    let cut (n d : Nat) : Nat := if d = 0 then n else 16 * (plots n - d)
    let d3 := min short (plots (want.getD 3 0))
    let d2 := min (short - d3) (plots (want.getD 2 0))
    let s := s.modLnk p (fun x => { x with total := [want.getD 0 0, want.getD 1 0, cut (want.getD 2 0) d2, cut (want.getD 3 0) d3] })
    if short = 0 then s else s.report Ev.LNK_CREDIT_SHORT [p]

/-- Addresses of the receive slots in the plots that LINKp holds: 16 to a plot (R268), in the order in which the plots were taken
(DESIGN CHOICE, log entry 280). -/
def State.slotHomes (s : State) (p : Nat) : List Nat :=
  (s.grn.held.filter (fun h => h.1 == linkClient p)).flatMap (fun h =>
    (List.range 16).map (fun i => grnBase + 4096 * h.2 + 256 * i))

/-- The place of the next flit that is accepted: the first that no slot of the port uses. -/
def State.freeHome (s : State) (p : Nat) : Option Nat :=
  (s.slotHomes p).find? (fun a => !(s.lnkPort p).slots.any (fun t => t.home == some a))

/-- The payload of an accepted flit goes into its slot; the access is the LINKp receiver's (R66). -/
def State.fillSlot (s : State) (p : Nat) (pay : Bytes) : Option Nat → State
  | none => s
  | some a => (s.grantRange (.linkRx (Fin.ofNat 4 p)) a 256).memSet a (padTo 256 pay)

/-- The staging that holds the next `n` bytes of a VC: addresses and lengths. -/
def stagedAt (v : Nat) : Nat → List RxSlot → List (Nat × Nat)
  | _, [] => []
  | n, t :: l =>
    if t.vc ≠ v then stagedAt v n l
    else
      let k := min n (t.data.length - t.off)
      match t.home with
      | some a => if k = 0 then stagedAt v (n - k) l else (a + t.off, k) :: stagedAt v (n - k) l
      | none => stagedAt v (n - k) l

/-- The requester that reads a message from link staging (Table 3.2): the link that forwards it, else DMC_UNSCHED for content,
SOWING for bulk and the Steward for the rest (DEDUCED, log entry 281). -/
def stageReader (p vc : Nat) (fwd : Bool) : GrnReq :=
  if fwd then .linkFwd (Fin.ofNat 4 p) else if vc = 2 then .dmcUnsched else if vc = 3 then .sowing else .steward

/-- Staging read by a requester: its grants, and the poison it meets (R66, R78). The flag says that it met some. -/
def State.readStaging (s : State) (req : GrnReq) (l : List (Nat × Nat)) : State × Bool :=
  let s := l.foldl (fun s r => s.grantRange req r.1 r.2) s
  (l.foldl (fun s r => s.consumePoison (reqClient req) r.1 r.2) s, l.any (fun r => s.rangePoisoned r.1 r.2))

/-- The staging that still holds bytes of a message: addresses and lengths. -/
def State.heldAt (s : State) (mid : Nat) : List (Nat × Nat) :=
  (List.range 4).flatMap (fun p => (s.lnkPort p).slots.flatMap (fun t => match t.home with
    | none => []
    | some a => (t.mids.filter (fun m => m.1 == mid)).map (fun m => (a + m.2.1, m.2.2))))

/-- R279: the SRC of a message received on a port, for the weights of the next period. -/
def State.noteSource (s : State) (p vc : Nat) (m : Bytes) : State :=
  s.modLnk p (fun x => { x with srcs := x.srcs.insert (vc, leAt m 2 2) })

/-- R78: a Sheaf block that waits for a slot and whose staging is poisoned by then is discarded. -/
def State.dropPoisonedWaiting (s : State) : State :=
  s.plt.waiting.foldl (fun s w =>
    let (s, bad) := s.readStaging .dmcUnsched (s.heldAt w.1)
    if bad then { s with plt := { s.plt with waiting := s.plt.waiting.filter (fun x => x != w) } } else s) s

/-! ### Credit synchronisation, the sender's half (R270) -/

/-- The CREDIT_SYNC payload: the snapshot of this moment (Table 10.3). -/
def LinkPort.snapshot (x : LinkPort) : Bytes :=
  let n (v : Nat) : Nat := x.total.getD v 0 - (x.slots.filter (fun t => t.vc == v)).length
  [2#8] ++ toLe 1 x.syncId ++ toLe 1 (b2n x.lost) ++ toLe 1 0 ++ toLe 2 x.rxNext ++
    (List.range 4).flatMap (fun v => toLe 2 (x.total.getD v 0)) ++ (List.range 4).flatMap (fun v => toLe 2 (n v)) ++
    toLe 6 (packFreed x.freed) ++ toLe 8 fusedId

/-- The CREDIT_SYNC of a port; a direction that rests wakes for it (R280). -/
def State.sendSync (s : State) (p : Nat) : State :=
  let s := s.wakeNow p
  if s.txAwake p then s.sendLctl p (s.lnkPort p).snapshot
  else if s.portActive p then s.modLnk p (fun x => { x with syncDue := true })
  else s

/-- The CREDIT_SYNC_ACK for a SYNC_ID; a direction that rests wakes for it (R280). -/
def State.sendSyncAck (s : State) (p id : Nat) : State :=
  let s := s.wakeNow p
  if s.txAwake p then s.sendLctl p [3#8, BitVec.ofNat 8 id]
  else if s.portActive p then s.modLnk p (fun x => { x with ackDue := some id })
  else s

/-- R264, R265: an LCTL NOP goes at once; a direction that rests wakes for it (R280). -/
def State.nopNow (s : State) (p : Nat) : State :=
  let s := s.wakeNow p
  if s.txAwake p then s.sendNop p
  else if s.portActive p then s.modPort p (fun x => { x with nopDue := true })
  else s

/-- LCTL flits that waited for the direction to wake. -/
def State.sendDue (s : State) (p : Nat) : State :=
  let x := s.lnkPort p
  let nop := (s.portSt p).nopDue
  let s := (s.modPort p (fun x => { x with nopDue := false })).modLnk p (fun x => { x with syncDue := false, ackDue := none })
  let s := if nop then s.sendNop p else s
  let s := if x.syncDue ∧ x.syncing then s.sendLctl p x.snapshot else s
  match x.ackDue with
  | some id => s.sendLctl p [3#8, BitVec.ofNat 8 id]
  | none => s

/-- The partner's fused ID, as its HANDSHAKE gave it, differs from that of the last sync (R270). -/
def State.partnerNew (s : State) (p : Nat) : Bool :=
  match (s.lnkPort p).peerId with
  | some j => j != s.rd (LNE_PORT_PEER_LO p) + s.rd (LNE_PORT_PEER_HI p) * 2 ^ 32
  | none => false

/-- R270: a sync starts with a new SYNC_ID; a port whose own RESET is set, as towards another partner, expects SEQ 0 (R271). -/
def State.syncStart (s : State) (p : Nat) : State :=
  let s := s.takeSlots p
  let other := s.partnerNew p
  let s := s.modLnk p (fun x => { x with lost := x.lost || other })
  let s := s.modLnk p (fun x => { x with
    syncing := true, syncId := (x.syncId + 1) % 256, applied := false, acked := false
    rxNext := if x.lost then 0 else x.rxNext })
  let s := (s.wrF (LNK_PORT_STATUS p) 2 2 0).wrF (LNK_PORT_STATUS p) 3 3 0
  s.sendSync p

/-! ### Output arbitration (R278, R279) -/

/-- The inputs of an output: the other three ports, then local injection (4). -/
def inputsOf (o : Nat) : List Nat := (List.range 4).filter (fun i => i != o) ++ [4]

/-- The message in progress on a VC of an output. -/
def LinkPort.txCur (x : LinkPort) (v : Nat) : Option TxMsg := x.txq.find? (fun m => m.vc == v && m.begun)

/-- The first message of an input that waits to start on a VC. -/
def LinkPort.waitingMsg (x : LinkPort) (v i : Nat) : Option TxMsg :=
  x.txq.find? (fun m => m.vc == v && m.input == i && !m.begun)

/-- R279: whenever VC2 or VC3 of output `o` is free to start a message, an input without one banks no credit. -/
def LinkPort.bankNone (x : LinkPort) (o : Nat) : LinkPort :=
  [2, 3].foldl (fun x v =>
    if (x.txCur v).isSome then x
    else { x with acc := (List.range 4).foldl (fun a k =>
      if (x.waitingMsg v ((inputsOf o).getD k 4)).isSome then a else sset 0 a (4 * v + k) 0) x.acc }) x

/-- R279: the weight of an input: LNK_PORT_WEIGHT of a port input, at least 1, and 1 for local injection. -/
def State.inputWeight (s : State) (v i : Nat) : Nat :=
  if i = 4 then 1 else max 1 (if v = 2 then s.rdF (LNK_PORT_WEIGHT i) 6 0 else s.rdF (LNK_PORT_WEIGHT i) 14 8)

/-- The input that may start its next message on a VC: turn by turn on VC0 and VC1 (R278), by sources on VC2 and VC3
(R279). The record that comes back holds the turn or the accumulators. -/
def State.pickInput (s : State) (o v : Nat) (x : LinkPort) : Option (TxMsg × LinkPort) :=
  let ins := inputsOf o
  if v < 2 then
    let last := sget 4 x.turn v
    let order := (List.range 5).map (fun k => (last + 1 + k) % 5)
    match order.findSome? (fun i => if ins.contains i then x.waitingMsg v i else none) with
    | some m => some (m, { x with turn := sset 4 x.turn v m.input })
    | none => none
  else
    let ws := ins.map (fun i => if (x.waitingMsg v i).isSome then s.inputWeight v i else 0)
    let total := ws.sum
    let key (k : Nat) : Nat := 4 * v + k
    let acc := (List.range 4).foldl (fun a k => if ws.getD k 0 = 0 then sset 0 a (key k) 0 else a) x.acc
    if total = 0 then none
    else
      let best := (List.range 4).foldl (fun (b : Option Nat) k =>
        if ws.getD k 0 = 0 then b else match b with
          | none => some k
          | some j => if sget 0 acc (key j) < sget 0 acc (key k) then some k else some j) none
      let k := best.getD 0
      match x.waitingMsg v (ins.getD k 4) with
      | none => none
      | some m =>
        let n := leAt m.data 4 2
        let acc := (List.range 4).foldl (fun a j =>
          if ws.getD j 0 = 0 then a else smod (0 : Int) a (key j) (fun z => z + (ws.getD j 0 * n : Nat))) acc
        some (m, { x with acc := smod (0 : Int) acc (key k) (fun z => z - (total * n : Nat)) })

/-- A VC of an output has a flit ready: an ABORT to tell, bytes of the message in progress, or a message to start. -/
def LinkPort.vcReady (x : LinkPort) (v : Nat) : Bool :=
  x.abortDue.contains v || (match x.txCur v with
    | some m => !m.data.isEmpty
    | none => x.txq.any (fun m => m.vc == v))

/-- R296: the AGE of a TICK, filled in when its header is sent, `d` cycles after it was given to the port. -/
def ageTick (d : Nat) (b : Bytes) : Bytes :=
  if byteAt b 6 = 0x01 then b.take 32 ++ toLe 4 ((leAt b 32 4 + d) % 2 ^ 32) ++ b.drop 36 else b

/-- The payload of the next flit of a VC: bytes of the message in progress, then further messages back to back, up to 240
bytes; with SOM (R274). -/
def State.fillFlit (s : State) (o v : Nat) : Nat → LinkPort → Bytes → Nat → LinkPort × Bytes × Nat
  | 0, x, pay, som => (x, pay, som)
  | n + 1, x, pay, som =>
    if 240 ≤ pay.length then (x, pay, som)
    else match x.txCur v with
      | some m =>
        let k := min (240 - pay.length) m.data.length
        let rest := m.data.drop k
        let q : List TxMsg := if rest.isEmpty && m.whole then x.txq.filter (fun e => !(e.mid == m.mid && e.vc == v))
          else x.txq.map (fun e => if e.mid == m.mid && e.vc == v then { e with data := rest } else e)
        if k = 0 then ({ x with txq := q }, pay, som)
        else State.fillFlit s o v n { x with txq := q } (pay ++ m.data.take k) som
      | none => match s.pickInput o v x with
        | none => (x, pay, som)
        | some (m, x) =>
          let q := x.txq.map (fun e => if e.mid == m.mid && e.vc == v then
              { e with begun := true, data := if v = 0 then ageTick (s.now - e.at') e.data else e.data } else e)
          State.fillFlit s o v n { x with txq := q } pay (if som = 0xFF then pay.length else som)

/-- R278: the VC of the next flit: VC0 first, then smooth weighted round robin among VC1 to VC3. -/
def State.pickVc (s : State) (x : LinkPort) : Option (Nat × LinkPort) :=
  let ok (v : Nat) : Bool := x.vcReady v && decide (0 < x.credits.getD v 0)
  if ok 0 then some (0, x)
  else
    let w (v : Nat) : Nat := if ok v then fld (s.rd LNK_VC_WEIGHT) (8 * v - 1) (8 * v - 8) else 0
    let vs := (List.range 4).filter (fun v => v != 0 && ok v)
    if vs.isEmpty then none
    else
      let total := (vs.map w).sum
      let acc := vs.foldl (fun a v => smod (0 : Int) a v (fun z => z + (w v : Nat))) x.vcAcc
      let best := vs.foldl (fun b v => if sget 0 acc b < sget 0 acc v then v else b) (vs.headD 1)
      some (best, { x with vcAcc := smod (0 : Int) acc best (fun z => z - (total : Nat)) })

/-- One MSG flit of an output, if a VC is ready, has a credit, and the retry buffer has room (R263). -/
def State.sendNext (s : State) (o : Nat) : Option State :=
  let x := s.lnkPort o
  if !s.txMsg o || decide (512 ≤ x.retry.length) then none
  else match s.pickVc x with
    | none => none
    | some (v, x) =>
      let (x, pay, som) := s.fillFlit o v 40 x [] 0xFF
      let f : TxFlit := ⟨x.txSeq, v, x.abortDue.contains v, som, pay⟩
      let x := { x with
        txSeq := (x.txSeq + 1) % 4096
        retry := x.retry ++ [f]
        abortDue := x.abortDue.filter (fun w => w != v)
        credits := modAt x.credits v (fun c => c - 1) }
      some ((s.modLnk o (fun _ => x)).sendTx o f)

/-- R266: a replay that waits runs: an IDLE block, then the retained flits from its SEQ in order. -/
def State.runReplay (s : State) (p : Nat) : State :=
  let x := s.lnkPort p
  match x.replay with
  | none => s
  | some q =>
    let s := s.wakeNow p
    if s.txMsg p then
      let s := (s.put (.ctl p 0x1E idleBlock)).wrF (LNK_PORT_STATUS p) 3 3 0
      let s := s.modLnk p (fun x => { x with replay := none })
      (x.retry.dropWhile (fun f => later 12 q f.seq)).foldl (fun s f => s.sendTx p f) s
    else s.wrF (LNK_PORT_STATUS p) 3 3 1

/-- R277: a message is ended with ABORT on every output that has started it, and dropped on the others. -/
def State.abortMsg (s : State) (mid : Nat) : State :=
  (List.range 4).foldl (fun s q =>
    match (s.lnkPort q).txq.find? (fun m => m.mid == mid) with
    | none => s
    | some m => s.modLnk q (fun x => { x with
        txq := x.txq.filter (fun e => e.mid != mid)
        abortDue := if m.begun then x.abortDue.filter (fun v => v != m.vc) ++ [m.vc] else x.abortDue })) s

/-- The rest of a message that comes in is taken and goes nowhere. -/
def State.stopForward (s : State) (mid : Nat) : State :=
  (List.range 4).foldl (fun s q => s.modLnk q (fun x => { x with
    rx := x.rx.map (fun e => (e.1, e.2.map (fun m => if m.mid = mid then { m with route := [] } else m))) })) s

/-- Flits go out as long as one can. -/
def State.pumpLoop (o : Nat) : Nat → State → State
  | 0, s => s
  | n + 1, s => match s.sendNext o with
    | some s => State.pumpLoop o n s
    | none => s

/-- A port sends what it can, and the slots this frees are counted. -/
def State.pump (s : State) (o : Nat) : State :=
  let s := (State.pumpLoop o 512 (s.runReplay o)).modLnk o (fun x => x.bankNone o)
  (List.range 4).foldl (fun s p => s.freeSlots p) s

/-! ### Messages (R275, R276) -/

/-- The VC of a message type (Table 10.2). -/
def vcOf (mtype : Nat) : Nat :=
  if mtype < 0x10 then 0 else if mtype < 0x20 then 1 else if mtype < 0x30 then 2 else 3

/-- Own address. -/
def State.addr (s : State) : Nat := s.rdF LNK_STATUS 15 0

/-- A message of this device: header of Table 10.4 and body. -/
def State.mkMsg (s : State) (dst mtype flags tag : Nat) (body : Bytes) : Bytes :=
  toLe 2 dst ++ toLe 2 s.addr ++ toLe 2 (16 + body.length) ++ toLe 1 mtype ++ toLe 1 flags ++ toLe 1 255 ++ toLe 1 0 ++
    toLe 4 tag ++ toLe 2 0 ++ body

/-- A whole message given to an output port by local injection. -/
def State.inject (s : State) (p vc : Nat) (b : Bytes) : State :=
  if s.portActive p then
    let s := s.put (.msg p vc b)
    let s := s.modLnk p (fun x => { x with txq := x.txq ++ [⟨vc, 4, s.lnk.nextMid, b, true, false, s.now⟩] })
    let s := { s with lnk := { s.lnk with nextMid := s.lnk.nextMid + 1 } }
    (s.wakeTx p).pump p
  else s

/-- A LOCAL message to the neighbour on a port. -/
def State.sendLocal (s : State) (p mtype : Nat) (body : Bytes) : State :=
  s.inject p (vcOf mtype) (s.mkMsg 0 mtype 1 0 body)

/-! ### Unicast routing (R285) -/

/-- A port's place in the tree in force. -/
def State.treeOf (s : State) (p : Nat) : Nat := s.rdF (LNK_PORT_STATUS p) 1 0

/-- The parent port, if one is known; a device without an address uses its best-beacon port. -/
def State.parentPort (s : State) : Option Nat :=
  if s.rdF LNK_TREE 18 18 = 1 then some (s.rdF LNK_TREE 17 16)
  else match s.lnk.best with
    | some b => if b.port < 4 then some b.port else none
    | none => none

/-- The CHILD ports. -/
def State.childPorts (s : State) : List Nat := (List.range 4).filter (fun p => s.treeOf p == 2)

/-- Where a unicast address goes. -/
inductive Route where
  | here
  | port (p : Nat)
  | nowhere
deriving DecidableEq, Repr

/-- R285 for a DST other than broadcast. -/
def State.routeOf (s : State) (dst : Nat) : Route :=
  if dst = s.addr ∧ dst ≠ 0 then .here
  else
    let up : Route := match s.parentPort with
      | some p => .port p
      | none => .nowhere
    if s.addr = 0 then if 0xFFF0 ≤ dst then up else .nowhere
    else if dst < 0xFFF0 then
      match s.childPorts.find? (fun p => decide (s.rdF (LNK_PORT_INTERVAL p) 15 0 ≤ dst) &&
          decide (dst ≤ s.rdF (LNK_PORT_INTERVAL p) 31 16)) with
      | some p => .port p
      | none => up
    else
      match s.childPorts.find? (fun p => bit (s.rd (LNK_PORT_BRIDGES p)) (dst - 0xFFF0) == 1) with
      | some p => .port p
      | none => up

/-- A broadcast goes to every tree port but the arrival port. -/
def State.treePorts (s : State) (arrival : Nat) : List Nat :=
  (List.range 4).filter (fun p => p != arrival && (s.treeOf p == 1 || s.treeOf p == 2))

/-- A message of this device to an address: unicast or broadcast. -/
def State.sendTo (s : State) (dst mtype tag : Nat) (body : Bytes) : State :=
  let m := s.mkMsg dst mtype 0 tag body
  if dst = 0xFFFF then (s.treePorts 4).foldl (fun s p => s.inject p (vcOf mtype) m) s
  else match s.routeOf dst with
    | .here => s
    | .port p => s.inject p (vcOf mtype) m
    | .nowhere => if s.rdF LNK_STATUS 16 16 = 1 then s.report Ev.LNK_UNREACHABLE [dst] else s

/-! ### Discovery (R282 to R284) -/

/-- DOP values (Table 10.7). -/
def dopBeacon : Nat := 1
def dopAssign : Nat := 2
def dopAccept : Nat := 3
def dopRefuse : Nat := 4
def dopDone : Nat := 5
def dopLost : Nat := 6

/-- This device's own beacon is the best it holds: it is the root. -/
def State.isRoot (s : State) : Bool := match s.lnk.best with
  | some b => b.port == 4
  | none => false

/-- The epoch in force at this device. -/
def State.epoch (s : State) : Nat := (s.lnk.best.map (·.epoch)).getD 0

/-- A DISC body (Table 10.7). -/
def State.discBody (s : State) (dop base last bridges hops : Nat) : Bytes :=
  let b := s.lnk.best
  toLe 1 dop ++ toLe 1 ((b.map (·.prio)).getD 0) ++ toLe 2 s.epoch ++ toLe 8 ((b.map (·.root)).getD 0) ++ toLe 2 base ++
    toLe 2 last ++ toLe 2 bridges ++ toLe 1 hops ++ toLe 1 s.stageNow ++ toLe 8 fusedId ++ toLe 4 0

/-- A DISC message on a port. -/
def State.sendDisc (s : State) (p dop base last bridges hops : Nat) : State :=
  s.sendLocal p 0x10 (s.discBody dop base last bridges hops)

/-- R282: one beacon is better than another. -/
def Beacon.better (s : State) (a b : Beacon) : Bool :=
  let pref (x : Beacon) : Nat := if x.port < 4 then (s.portRole x.port).pref else 0
  if a.prio ≠ b.prio then decide (b.prio < a.prio)
  else if a.root ≠ b.root then decide (a.root < b.root)
  else if a.epoch ≠ b.epoch then later 16 a.epoch b.epoch
  else if a.hops ≠ b.hops then decide (a.hops < b.hops)
  else if pref a ≠ pref b then decide (pref a < pref b)
  else decide (a.port < b.port)

/-- The port under construction in the new tree. -/
def State.newPort (s : State) (p : Nat) : TreePort := sget TreePort.none s.lnk.newTree p
def State.setNewPort (s : State) (p : Nat) (t : TreePort) : State :=
  { s with lnk := { s.lnk with newTree := sset TreePort.none s.lnk.newTree p t } }

/-- R280: both directions of a port wake: the transmit direction asks, and the receive direction leaves QUIET; from SLEEP it is
awake when its short retrain ends. -/
def State.wakeBoth (s : State) (p : Nat) : State :=
  let s := s.wakeTx p
  if s.rdF (LNE_PORT_STATUS p) 19 18 = 1 then s.wrF (LNE_PORT_STATUS p) 19 18 0 else s

/-- The tree under construction comes into force (R283): addresses, parent, intervals; LNK_TREE_CHANGED, which carries address,
parent port (4: none) and depth in its first word and the fused ID (R284) in the others (DESIGN CHOICE, log entry
285). -/
def State.treeCommit (s : State) : State :=
  let parent := match s.lnk.best with
    | some b => if b.port < 4 then some b.port else none
    | none => none
  let a := s.lnk.newAddr.getD 0
  let s := (s.wrF LNK_STATUS 15 0 a).wrF LNK_STATUS 17 17 0
  let s := match s.lnk.best with
    | some b => (s.wr LNK_ROOT_LO b.root).wr LNK_ROOT_HI (b.root / 2 ^ 32)
    | none => s
  let s := s.wr LNK_TREE (s.epoch % 65536 + (parent.getD 0) * 65536 + b2n parent.isSome * 2 ^ 18 + (s.lnk.newDepth % 256) * 2 ^ 24)
  let s := s.wr LNK_SUBTREE (s.lnk.nextAddr - 1)
  let s := (List.range 4).foldl (fun s p =>
    let t := s.newPort p
    let was := s.treeOf p
    let code := if parent = some p then 1 else t.tree
    let s := (s.wrF (LNK_PORT_STATUS p) 1 0 code).wrF (LNK_PORT_STATUS p) 5 5 
      (b2n (t.bridge || (s.portRole p).role == 2 || (parent == some p && (s.lnkPort p).bridgeSrc)))
    let s := (s.wr (LNK_PORT_INTERVAL p) (t.first + t.last * 65536)).wr (LNK_PORT_BRIDGES p) t.bridges
    if was ≠ code ∧ (code = 1 ∨ code = 2) then s.wakeBoth p else s) s
  s.report Ev.LNK_TREE_CHANGED [a % 65536 + (parent.getD 4) * 65536 + (s.lnk.newDepth % 256) * 2 ^ 24,
    fusedId % 2 ^ 32, fusedId / 2 ^ 32]

/-- R283: the next port is offered the next address; when none is left the subtree is done, and a DONE goes to the parent. -/
def State.offerFrom (s : State) (p : Nat) : State :=
  let parent := (s.lnk.best.map (·.port)).getD 4
  match (List.range 4).find? (fun q => decide (p ≤ q) && q != parent && s.portActive q) with
  | some q =>
    let s := { s with lnk := { s.lnk with offer := some ⟨q, s.lnk.nextAddr, false, 1⟩ } }
    s.sendDisc q dopAssign s.lnk.nextAddr 0 0 (s.lnk.newDepth + 1)
  | none =>
    let s := { s with lnk := { s.lnk with offer := none } }
    let s := if parent < 4 then s.sendDisc parent dopDone (s.lnk.newAddr.getD 0) (s.lnk.nextAddr - 1) s.lnk.bridges s.lnk.newDepth else s
    s.treeCommit

/-- R283: the offer on a port has ended; the next port follows. -/
def State.offerNext (s : State) : State := match s.lnk.offer with
  | some o => s.offerFrom (o.port + 1)
  | none => s

/-- The device's own beacon. -/
def State.ownBeacon (s : State) (epoch : Nat) : Beacon := ⟨s.rootPrio, fusedId, epoch, 0, 4⟩

/-- The root's beacon on every ACTIVE port. -/
def State.beaconOut (s : State) : State :=
  s.activePorts.foldl (fun s p => s.sendDisc p dopBeacon 0 0 0 0) s

/-- R282: a beacon is taken as the best held; the tree under construction starts anew. -/
def State.takeBest (s : State) (b : Beacon) : State :=
  let s := { s with lnk := { s.lnk with
    best := some b, offer := none, newAddr := none, newDepth := 0, newTree := [], bridges := 0 } }
  (s.wrF LNK_STATUS 16 16 (b2n (b.port == 4))).wrF LNK_STATUS 17 17 1

/-- R282: a root starts a new epoch. -/
def State.startEpoch (s : State) : State :=
  let e := (s.epoch + 1) % 65536
  let s := s.takeBest (s.ownBeacon e)
  let s := { s with lnk := { s.lnk with heard := [] } }
  s.beaconOut

/-- R284: LOST toward the root; the root starts a new epoch, and so does a candidate that holds no beacon (R282). -/
def State.treeLost (s : State) : State :=
  if s.isRoot then s.startEpoch
  else match s.lnk.best with
    | some b => if b.port < 4 then s.sendDisc b.port dopLost 0 0 0 0 else s
    | none => if s.rootCand then s.startEpoch else s

/-- R284: a port has left ACTIVE; the tree in force stays until a new epoch completes. A device that loses its parent adopts its
next-best beacon of the same epoch; a device on either side of a lost tree port sends LOST toward the root. -/
def State.treePortLost (s : State) (p : Nat) : State :=
  let heard := s.lnk.heard.filter (fun h => h.1 != p)
  let s := { s with lnk := { s.lnk with heard := heard } }
  match s.lnk.best with
  | none => s
  | some b =>
    if b.port = p then
      let same := (heard.map (·.2)).filter (fun h => h.root == b.root && h.epoch == b.epoch && h.port < 4)
      match same with
      | [] =>
        { s with lnk := { s.lnk with best := none, offer := none } }
      | h :: t =>
        let n := t.foldl (fun m x => if x.better s m then x else m) h
        State.treeLost { s with lnk := { s.lnk with best := some n } }
    else if s.treeOf p = 2 ∨ (s.newPort p).tree = 2 then s.treeLost
    else s

/-! ### A port that leaves ACTIVE, the link layer's part (R277, R284, R289) -/

/-- R289, R277, R284: the link layer's part of a port that leaves ACTIVE: a sync is abandoned, messages begun on the port end
with ABORT on every output, and the tree loses the port. -/
def State.linkDown (s : State) (p : Nat) : State :=
  let s := s.modLnk p (fun x => { x with
    syncing := false, inStep := false, nakDue := false, nakOut := false, syncDue := false, ackDue := none, peerSync := none })
  let s := (s.wrF (LNK_PORT_STATUS p) 2 2 0).wrF (LNK_PORT_STATUS p) 3 3 0
  let begun := ((s.lnkPort p).txq.filter (fun m => m.begun)).map (·.mid)
  let s := begun.foldl (fun s m => (s.abortMsg m).stopForward m) s
  let s := (List.range 4).foldl (fun s q => if q = p then s else s.pump q) s
  s.treePortLost p

end Sys2Proof.Machine
end

