-- ==== Sys2Proof/Machine/Flash.lean ====
section
/-! DEFINITION. The two flash devices with their layout (R415 to R418), the activation record (R428), and the manifest with
its checks (R420 to R422). -/
namespace Sys2Proof.Machine

/-! ### The devices (R415, R416) -/

/-- `n` bytes of a flash device; an erased byte reads 0xFF. -/
def State.flashGet (s : State) (dev off n : Nat) : Bytes :=
  let m := if dev = 0 then s.flash0 else s.flash1
  (List.range n).map (fun i => sget 0xFF#8 m (off + i))

/-- Bytes put at an offset of a cell list whose unlisted byte is 0xFF. -/
def flashCells : List Host.Cell → Nat → Bytes → List Host.Cell
  | m, _, [] => m
  | m, a, b :: t => flashCells (sset 0xFF#8 m a b) (a + 1) t

/-- Bytes programmed. -/
def State.flashPut (s : State) (dev off : Nat) (b : Bytes) : State :=
  if dev = 0 then { s with flash0 := flashCells s.flash0 off b } else { s with flash1 := flashCells s.flash1 off b }

/-- Size of a sector (R415). -/
def sectorSize : Nat := 65536

/-- A range erased. -/
def State.flashErase (s : State) (dev off n : Nat) : State :=
  let keep (c : Host.Cell) : Bool := decide (c.1 < off) || decide (off + n ≤ c.1)
  if dev = 0 then { s with flash0 := s.flash0.filter keep } else { s with flash1 := s.flash1.filter keep }

/-- The sector that holds an offset erased. -/
def State.eraseSector (s : State) (dev off : Nat) : State := s.flashErase dev (off / sectorSize * sectorSize) sectorSize

/-- Table 16.6: the regions of device 0. -/
def bootCopyAt (x : Nat) : Nat := x * 0x200000
def fwSlotAt (x : Nat) : Nat := 0x400000 + x * 0x2000000
def planSlotAt (n : Nat) : Nat := 0x4400000 + n * 0x400000
def planSlotSize : Nat := 0x400000
def hglFactoryAt : Nat := 0x6400000
def hglCurrentAt : Nat := 0x7400000
def logsAt : Nat := 0x8400000
def logsSize : Nat := 0x1000000
def flashReservedAt : Nat := 0x9400000

/-- Size of a flash device: 2 Gib. -/
def flashSize : Nat := 0x10000000

/-- R421: where image block `b` of slot `x` lies. -/
def imageBlockAt (x b : Nat) : Nat := if b < 8192 then fwSlotAt x + 4096 * b else bootCopyAt x + 4096 * (b - 8192)

/-- Image blocks of a slot. -/
def imageBlocks : Nat := 8704

/-- R418: a program or erase failed twice. -/
def State.flashFail (s : State) (dev off : Nat) : State := s.report Ev.UPD_FLASH_FAIL [dev, off]

/-- Bytes that a failed program or erase leaves: open values. -/
def State.tornFlash (s : State) (dev off n : Nat) : State :=
  let (d, s) := s.draw
  s.flashPut dev off ((List.range n).map (fun i => Config.tornByte (n * d + i)))

/-! ### The activation record (R428, Table 16.11) -/

/-- STATE values. -/
def actNone : Nat := 0
def actConfirmed : Nat := 1
def actArmed : Nat := 2
def actTrial : Nat := 3
def actFallenBack : Nat := 4

/-- A field of the record. -/
def State.act (s : State) (off n : Nat) : Nat := s.sramLe (0x100 + off) n

/-- The record is present. -/
def State.actOk (s : State) : Bool := s.act 0 2 == 0x5241 && s.act 2 1 == 1

/-- A field written by the Steward; an absent record is written first, as a tile leaves the factory with it (R428; DEDUCED, log
entry 190). -/
def State.actPut (s : State) (off : Nat) (b : Bytes) : State :=
  let s := if s.actOk then s else s.sramWrite 0x100
    (toLe 2 0x5241 ++ toLe 1 1 ++ toLe 1 actConfirmed ++ List.replicate 24 0#8 ++ toLe 1 0xFF ++ List.replicate 227 0#8)
  s.sramWrite (0x100 + off) b

/-- STATE, the active slot (A when the record is absent, R419), the confirmed slot, PLAN_SLOT (0xFF when absent). -/
def State.actState (s : State) : Nat := if s.actOk then s.act 3 1 else 0
def State.activeSlot (s : State) : Nat := if s.actOk then s.act 4 1 % 2 else 0
def State.confirmedSlot (s : State) : Nat := if s.actOk then s.act 5 1 % 2 else 0
def State.planSlot (s : State) : Nat := if s.actOk then s.act 28 1 else 0xFF

/-- The mode (Table 16.14). -/
def modeNormal : Nat := 0
def modeRecovery : Nat := 1
def modeTest : Nat := 2
def modeLoad : Nat := 3
def State.mode (s : State) : Nat := s.rdF UPD_BOOT_STATUS 5 4

/-! ### The manifest (R420 to R422) -/

/-- A part entry (Table 16.8). -/
structure PartEntry where
  ty : Nat
  first : Nat
  len : Nat
  digest : Bytes
deriving DecidableEq, Repr

/-- Entry `k` of a manifest. -/
def partEntry (m : Bytes) (k : Nat) : PartEntry :=
  let o := 64 + 64 * k
  ⟨byteAt m o, leAt m (o + 4) 4, leAt m (o + 8) 4, sub m (o + 32) 32⟩

/-- The parts of a manifest. -/
def manifestParts (m : Bytes) : List PartEntry := (List.range (min 16 (byteAt m 3))).map (partEntry m)

/-- The part of a type. -/
def partOfType (m : Bytes) (ty : Nat) : Option PartEntry := (manifestParts m).find? (fun e => e.ty == ty)

/-- GEN, SETTINGS_FORMAT and RECOVERY_OK of a manifest (Table 16.7). -/
def manifestGen (m : Bytes) : Nat := leAt m 4 4
def manifestFormat (m : Bytes) : Nat := leAt m 8 2
def manifestRecoveryOk (m : Bytes) : Bool := bit (byteAt m 11) 0 == 1

/-- Image blocks that a part takes. -/
def PartEntry.blocks (e : PartEntry) : Nat := ceilDiv e.len 4096

/-- The part lies within its placement (Table 16.9). -/
def PartEntry.placed (e : PartEntry) : Bool :=
  decide (1 ≤ e.len) &&
    (if e.ty = 1 then e.first == 8192 && decide (e.len ≤ 262144)
     else decide (1 ≤ e.first) && decide (e.first + e.blocks ≤ 8192) &&
       (e.ty != 7 || decide (e.len ≤ 3072)) && (e.ty != 5 || e.len == 4096))

/-- Two parts share no image block. -/
def PartEntry.apart (a b : PartEntry) : Bool :=
  decide (a.first + a.blocks ≤ b.first) || decide (b.first + b.blocks ≤ a.first)

/-- No two parts of a list share a block. -/
def partsApart : List PartEntry → Bool
  | [] => true
  | e :: t => t.all (fun f => e.apart f) && partsApart t

/-- No type appears twice. -/
def typesOnce : List Nat → Bool
  | [] => true
  | t :: l => !l.contains t && typesOnce l

/-- R422: the reserved fields of a manifest are 0. -/
def manifestReserved (m : Bytes) : Bool :=
  byteAt m 11 / 2 == 0 && zeroAt m 12 4 && zeroAt m 48 16 && zeroAt m 1088 2944 &&
    (List.range 16).all (fun k => if k < byteAt m 3 then byteAt m (64 + 64 * k + 1) == 0 && zeroAt m (64 + 64 * k + 2) 2 &&
      zeroAt m (64 + 64 * k + 16) 16 else zeroAt m (64 + 64 * k) 64)

/-- R422: the first condition that a manifest fails, the generation test apart: 1 form, 2 key, 3 signature, 4 entries, 5
placement. -/
def manifestFault (m : Bytes) : Option Nat :=
  let ps := manifestParts m
  if m.length ≠ 4096 ∨ leAt m 0 2 ≠ 0x464D ∨ byteAt m 2 ≠ 1 ∨ !manifestReserved m then some 1
  else if 2 ≤ byteAt m 10 ∨ sha256 (sub m 16 32) ≠ Config.keyHash (byteAt m 10) ∨ Config.keyRevoked (byteAt m 10) then some 2
  else if !edVerify (sub m 16 32) (sub m 0 4032) (sub m 4032 64) then some 3
  else if byteAt m 3 < 1 ∨ 16 < byteAt m 3 ∨ !typesOnce (ps.map (·.ty)) ∨ !(ps.all (fun e => decide (1 ≤ e.ty) && decide (e.ty ≤ 9))) ∨
      !([1, 2, 3, 4].all (fun t => ps.any (fun e => e.ty == t))) then some 4
  else if !ps.all PartEntry.placed ∨ !partsApart ps then some 5
  else none

/-- The manifest of a slot. -/
def State.manifestOf (s : State) (x : Nat) : Bytes := s.flashGet 0 (imageBlockAt x 0) 4096

/-- R422: the GEN of the active slot: ACTIVE_GEN, or, the record being absent, that of slot A's manifest (R419), when it is
valid. -/
def State.activeGen (s : State) : Option Nat :=
  if s.actOk then some (s.act 8 4)
  else if (manifestFault (s.manifestOf 0)).isNone then some (manifestGen (s.manifestOf 0))
  else none

/-- R422: the generation test against the active slot; none can be made when no slot has a generation. -/
def State.manifestStale (s : State) (m : Bytes) : Bool :=
  s.rdF UPD_CTRL 2 2 == 0 && (match s.activeGen with
    | some g => !later 32 (manifestGen m) g
    | none => false)

/-- The bytes of a part in a slot. -/
def State.partBytes (s : State) (x : Nat) (e : PartEntry) : Bytes := s.flashGet 0 (imageBlockAt x e.first) e.len

/-- A part matches its digest. -/
def State.partGood (s : State) (x : Nat) (e : PartEntry) : Bool := sha256 (s.partBytes x e) == e.digest

/-- R419: the step at which slot X fails: 1 the manifest, 2 the BOOT part, 3 another part. -/
def State.bootFault (s : State) (x : Nat) : Option Nat :=
  let m := s.manifestOf x
  if (manifestFault m).isSome then some 1
  else
    match partOfType m 1 with
    | none => some 1
    | some e =>
      if !s.partGood x e then some 2
      else if (manifestParts m).all (fun q => q.ty == 1 || s.partGood x q) then none
      else some 3

/-- The slot that sowing writes: the inactive one; in recovery mode slot A when it does not boot, else B (R435). -/
def State.sowSlot (s : State) : Nat :=
  if s.mode = modeRecovery then (if (s.bootFault 0).isSome then 0 else 1) else 1 - s.activeSlot

/-- A part of the active slot, when its manifest names one and it matches its digest. -/
def State.activePart (s : State) (ty : Nat) : Option Bytes :=
  let x := s.rdF UPD_BOOT_STATUS 6 6
  match partOfType (s.manifestOf x) ty with
  | some e => if s.partGood x e then some (s.partBytes x e) else none
  | none => none

end Sys2Proof.Machine
end

