-- ==== Sys2Proof/Machine/Burin.lean ====
section
/-! DEFINITION. The Burin 2-D engine (chapter "Burin 2-D engine"): surfaces, the command ring, fill, copy and stipple. -/
namespace Sys2Proof.Machine

/-- Client BURIN (Table 3.2). -/
def clBurin : Nat := 0x0A

/-! ### Commands (Tables 13.1 to 13.3) -/

/-- Bits of a pixel; 0 for NONE and the reserved formats. -/
def pixelBits : Nat → Nat
  | 1 => 1
  | 2 => 8
  | 3 => 16
  | 4 => 32
  | 5 => 32
  | 6 => 64
  | _ => 0

/-- A surface: base, pitch, bits of a pixel. -/
structure Surface where
  base : Nat
  pitch : Nat
  bits : Nat
deriving DecidableEq, Repr

/-- A command as its fields (Table 13.2), with its words. -/
structure BurCmd where
  w0 : Nat
  w1 : Nat
  w2 : Nat
  w3 : Nat
deriving DecidableEq, Repr

/-- The words of 32 bytes. -/
def burCmd (b : Bytes) : BurCmd := ⟨leAt b 0 8, leAt b 8 8, leAt b 16 8, leAt b 24 8⟩

def BurCmd.op (c : BurCmd) : Nat := fld c.w0 3 0
def BurCmd.irq (c : BurCmd) : Bool := bit c.w0 4 == 1
def BurCmd.revX (c : BurCmd) : Bool := bit c.w0 5 == 1
def BurCmd.revY (c : BurCmd) : Bool := bit c.w0 6 == 1
def BurCmd.transparent (c : BurCmd) : Bool := bit c.w0 7 == 1
def BurCmd.dstFmt (c : BurCmd) : Nat := fld c.w0 15 12
def BurCmd.srcFmt (c : BurCmd) : Nat := fld c.w0 19 16
def BurCmd.xform (c : BurCmd) : Nat := fld c.w0 22 20
def BurCmd.width (c : BurCmd) : Nat := fld c.w0 37 24 + 1
def BurCmd.height (c : BurCmd) : Nat := fld c.w0 51 38 + 1
def BurCmd.dx (c : BurCmd) : Nat := fld c.w1 47 34
def BurCmd.dy (c : BurCmd) : Nat := fld c.w1 61 48
def BurCmd.sx (c : BurCmd) : Nat := fld c.w2 47 34
def BurCmd.sy (c : BurCmd) : Nat := fld c.w2 61 48
/-- The destination and the source surface. -/
def BurCmd.dst (c : BurCmd) : Surface := ⟨fld c.w1 33 0 * 64, (fld c.w0 61 52 + 1) * 64, pixelBits c.dstFmt⟩
def BurCmd.src (c : BurCmd) : Surface := ⟨fld c.w2 33 0 * 64, (fld c.w3 9 0 + 1) * 64, pixelBits c.srcFmt⟩
/-- ROT90 and ROT270 exchange width and height. -/
def BurCmd.turned (c : BurCmd) : Bool := c.op == 2 && (c.xform == 1 || c.xform == 3)
def BurCmd.dstW (c : BurCmd) : Nat := if c.turned then c.height else c.width
def BurCmd.dstH (c : BurCmd) : Nat := if c.turned then c.width else c.height

/-- Results of Table 13.4. -/
def burDone : Nat := 1
def burInvalid : Nat := 2
def burFormat : Nat := 3
def burLimit : Nat := 4
def burOverlap : Nat := 5
def burMode : Nat := 6
def burAccess : Nat := 7
def burPoison : Nat := 8
def burAborted : Nat := 9

/-- The event of a result. -/
def burEvent : Nat → Nat
  | 1 => Ev.BUR_CMD_DONE
  | 2 => Ev.BUR_INVALID
  | 3 => Ev.BUR_FORMAT
  | 4 => Ev.BUR_LIMIT
  | 5 => Ev.BUR_OVERLAP_ROTATE
  | 6 => Ev.BUR_MODE
  | 7 => Ev.BUR_ACCESS
  | 8 => Ev.BUR_POISON
  | _ => Ev.BUR_ABORTED

/-! ### Checks (R348) -/

/-- INVALID: reserved OP or XFORM, or a bit or field set that the operation does not use. -/
def BurCmd.invalid (c : BurCmd) : Bool :=
  let reserved := fld c.w0 11 8 != 0 || bit c.w0 23 != 0 || fld c.w0 63 62 != 0
  match c.op with
  | 0 => reserved || c.w0 / 32 != 0 || c.w1 != 0 || c.w2 != 0 || c.w3 != 0
  | 1 => reserved || fld c.w0 7 5 != 0 || c.xform != 0 || fld c.w1 63 62 != 0 || c.w3 != 0 ||
      (pixelBits c.dstFmt != 0 && decide (2 ^ pixelBits c.dstFmt ≤ c.w2))
  | 2 => reserved || c.transparent || decide (5 < c.xform) || fld c.w1 63 62 != 0 || fld c.w2 63 62 != 0 || fld c.w3 63 10 != 0
  | 3 => reserved || fld c.w0 6 5 != 0 || c.xform != 0 || fld c.w1 63 62 != 0 || fld c.w2 63 62 != 0 || fld c.w3 63 58 != 0
  | _ => true

/-- FORMAT. -/
def BurCmd.badFormat (c : BurCmd) : Bool :=
  c.op != 0 && (pixelBits c.dstFmt == 0 ||
    (c.op == 1 && c.srcFmt != 0) || (c.op == 2 && c.srcFmt != c.dstFmt) || (c.op == 3 && (c.srcFmt != 1 || c.dstFmt == 1)))

/-- A rectangle lies within the limits of R344. -/
def Surface.holds (f : Surface) (x y w h : Nat) : Bool :=
  decide (x + w ≤ 16384) && decide (y + h ≤ 16384) && decide (ceilDiv ((x + w) * f.bits) 8 ≤ f.pitch)

/-- LIMIT. -/
def BurCmd.badLimit (c : BurCmd) : Bool :=
  c.op != 0 && (!c.dst.holds c.dx c.dy c.dstW c.dstH || (c.op != 1 && !c.src.holds c.sx c.sy c.width c.height))

/-- The BUR domain is stopped (R357). -/
def State.burStopped (s : State) : Bool := s.rdF BUR_STATUS 3 3 == 1

/-- R355: a STIPPLE started now would be accepted. -/
def State.stippleOk (s : State) : Bool := decide (s.stageNow < 5) || s.mode == modeTest || s.mode == modeRecovery

/-- The footprint of a rectangle (R353): first and last byte. -/
def Surface.footprint (f : Surface) (x y w h : Nat) : Nat × Nat :=
  (f.base + y * f.pitch + x * f.bits / 8, f.base + (y + h - 1) * f.pitch + (x + w - 1) * f.bits / 8)

/-- OVERLAP_ROTATE. -/
def BurCmd.overlaps (c : BurCmd) : Bool :=
  c.op == 2 && c.xform != 0 &&
    (let a := c.dst.footprint c.dx c.dy c.dstW c.dstH
     let b := c.src.footprint c.sx c.sy c.width c.height
     decide (a.1 ≤ b.2) && decide (b.1 ≤ a.2))

/-- R348: the first check that fails. -/
def State.burCheck (s : State) (c : BurCmd) : Option Nat :=
  if c.invalid then some burInvalid
  else if c.badFormat then some burFormat
  else if c.badLimit then some burLimit
  else if c.op = 3 ∧ !s.stippleOk then some burMode
  else if c.overlaps then some burOverlap
  else none

/-! ### Pixels -/

/-- Address of pixel (x, y)'s first byte (R344). -/
def Surface.at (f : Surface) (x y : Nat) : Nat := f.base + y * f.pitch + x * f.bits / 8

/-- A pixel's value. -/
def State.pixel (s : State) (f : Surface) (x y : Nat) : Nat :=
  if f.bits = 1 then bit (s.memLe (f.at x y) 1) (x % 8) else s.memLe (f.at x y) (f.bits / 8)

/-- Pixels of a row from x on written; `none` leaves a pixel as it is. Bits outside keep their values (R351). -/
def State.putPixels (s : State) (f : Surface) (x y : Nat) (ps : List (Option Nat)) : State :=
  if f.bits = 1 then
    let s' := (ps.mapIdx (fun i p => (x + i, p))).foldl (fun s q => match q.2 with
      | some v => s.memPut (f.at q.1 y) (toLe 1 (putFld (s.memLe (f.at q.1 y) 1) (q.1 % 8) (q.1 % 8) v))
      | none => s) s
    { s' with bur := { s'.bur with wrote := s'.bur.wrote + (f.at (x + ps.length - 1) y - f.at x y + 1) } }
  else
    let n := f.bits / 8
    let s' := if ps.all Option.isSome then s.memSet (f.at x y) (ps.flatMap (fun p => toLe n (p.getD 0)))
      else (ps.mapIdx (fun i p => (x + i, p))).foldl (fun s q => match q.2 with
        | some v => s.memSet (f.at q.1 y) (toLe n v)
        | none => s) s
    { s' with bur := { s'.bur with wrote := s'.bur.wrote + n * (ps.filter Option.isSome).length } }

/-- R354: a stippled colour in a destination format. -/
def stippleColour (fmt r g b : Nat) : Nat :=
  -- c ÷ 255 with a sticky bit for the remainder, rounded once to binary16
  let half (c : Nat) : Nat := bits16 (.fin false (2 * (c * 2 ^ 40 / 255) + if c * 2 ^ 40 % 255 = 0 then 0 else 1) (-41))
  match fmt with
  | 2 => r
  | 3 => b / 8 + g / 4 * 32 + r / 8 * 2048
  | 6 => half r + half g * 2 ^ 16 + half b * 2 ^ 32 + bits16 Fl.one * 2 ^ 48
  | _ => r + g * 2 ^ 8 + b * 2 ^ 16 + 255 * 2 ^ 24

/-- Table 13.3 inverted: the source pixel of destination pixel (x, y). -/
def BurCmd.from (c : BurCmd) (x y : Nat) : Nat × Nat :=
  match c.xform with
  | 1 => (y, c.height - 1 - x)
  | 2 => (c.width - 1 - x, c.height - 1 - y)
  | 3 => (c.width - 1 - y, x)
  | 4 => (c.width - 1 - x, y)
  | 5 => (x, c.height - 1 - y)
  | _ => (x, y)

/-! ### Segments (R351, R352) -/

/-- Pixels of a segment, segments of a row, and segments of a command. -/
def BurCmd.segPixels (c : BurCmd) : Nat := 131072 / max 1 c.dst.bits
def BurCmd.segsPerRow (c : BurCmd) : Nat := ceilDiv c.dstW c.segPixels
def BurCmd.segments (c : BurCmd) : Nat := if c.op = 0 then 0 else c.segsPerRow * c.dstH

/-- Segment `k`: its row, and its pixels from x0 to before x1, relative to the destination rectangle. -/
def BurCmd.segment (c : BurCmd) (k : Nat) : Nat × Nat × Nat :=
  let i := k / max 1 c.segsPerRow
  let j := k % max 1 c.segsPerRow
  let plain := c.op = 2 && c.xform = 0
  let y := if plain && c.revY then c.dstH - 1 - i else i
  if plain && c.revX then
    let x1 := c.dstW - j * c.segPixels
    (y, x1 - c.segPixels, x1)
  else (y, j * c.segPixels, min c.dstW (j * c.segPixels + c.segPixels))

/-- The byte ranges a segment reads. -/
def BurCmd.reads (c : BurCmd) (y x0 x1 : Nat) : List (Nat × Nat) :=
  let span (f : Surface) (x y n : Nat) : Nat × Nat := (f.at x y, f.at (x + n - 1) y + max 1 (f.bits / 8) - f.at x y)
  let edges := if c.dst.bits = 1 then [span c.dst (c.dx + x0) (c.dy + y) (x1 - x0)] else []
  (if c.op = 1 then []
   else if c.op = 3 ∨ c.xform = 0 then [span c.src (c.sx + x0) (c.sy + y) (x1 - x0)]
   else (List.range (x1 - x0)).map (fun i => let p := c.from (x0 + i) y; span c.src (c.sx + p.1) (c.sy + p.2) 1)) ++ edges

/-- The byte range a segment writes. -/
def BurCmd.writes (c : BurCmd) (y x0 x1 : Nat) : Nat × Nat :=
  let a := c.dst.at (c.dx + x0) (c.dy + y)
  (a, c.dst.at (c.dx + x1 - 1) (c.dy + y) + max 1 (c.dst.bits / 8) - a)

/-- The pixels a segment writes. -/
def State.segValues (s : State) (c : BurCmd) (y x0 x1 : Nat) : List (Option Nat) :=
  (List.range (x1 - x0)).map (fun i =>
    match c.op with
    | 1 => some c.w2
    | 2 => let p := c.from (x0 + i) y; some (s.pixel c.src (c.sx + p.1) (c.sy + p.2))
    | _ =>
      if s.pixel c.src (c.sx + x0 + i) (c.sy + y) = 1 then some (stippleColour c.dstFmt (fld c.w3 17 10) (fld c.w3 25 18) (fld c.w3 33 26))
      else if c.transparent then none
      else some (stippleColour c.dstFmt (fld c.w3 41 34) (fld c.w3 49 42) (fld c.w3 57 50)))

/-- One segment performed, or the result that ends the command: nothing of a segment that fails is written. -/
def State.burSegment (s : State) (c : BurCmd) (k : Nat) : State × Option Nat :=
  let (y, x0, x1) := c.segment k
  let rs := c.reads y x0 x1
  match rs.find? (fun r => !s.rangeMay clBurin r.1 r.2) with
  | some r => (s.refuseRange clBurin r.1 r.2, some burAccess)
  | none =>
    let s := rs.foldl (fun s r => s.useRange .burin false r.1 r.2) s
    match rs.find? (fun r => s.rangePoisoned r.1 r.2) with
    | some r => (s.consumePoison clBurin r.1 r.2, some burPoison)
    | none =>
      let w := c.writes y x0 x1
      if !s.rangeMay clBurin w.1 w.2 then (s.refuseRange clBurin w.1 w.2, some burAccess)
      else ((s.useRange .burin true w.1 w.2).putPixels c.dst (c.dx + x0) (c.dy + y) (s.segValues c y x0 x1), none)

/-! ### The ring (R346, R347, R349) -/

/-- Ring base, size and status array. -/
def State.burRing (s : State) : Nat := s.rdF BUR_RING_LO 31 6 * 64 + s.rdF BUR_RING_HI 7 0 * 2 ^ 32
def State.burSize (s : State) : Nat := s.rdF BUR_RING_SIZE 12 0
def State.burStat (s : State) : Nat := s.rdF BUR_STAT_LO 31 6 * 64 + s.rdF BUR_STAT_HI 7 0 * 2 ^ 32

/-- A command waits and the engine may fetch it. -/
def State.burReady (s : State) : Bool :=
  s.bur.run.isNone && s.rdF BUR_CTRL 0 0 == 1 && s.rdF BUR_STATUS 2 1 == 0 && s.rdF BUR_HEAD 11 0 != s.rdF BUR_TAIL 11 0

/-- R357: nothing is fetched or running: the engine goes fallow, the BUR domain stops, and STIPPLE_OK keeps its value. After a
reset the domain runs until the engine first goes fallow (BUR_STATUS resets to FALLOW 0; DEDUCED, log entry 294). -/
def State.burFallow (s : State) : State :=
  if s.bur.run.isSome || s.burReady then s
  else { s.wrF BUR_STATUS 3 3 1 with bur := { s.bur with stipple := s.stippleOk } }

/-- A command ends: its status word, BUR_HEAD, totals, events, and the halt unless it is DONE. `rows` are the destination rows
completed. -/
def State.burEnd (s : State) (slot op : Nat) (irq : Bool) (result rows : Nat) : State :=
  let a := s.burStat + 4 * slot
  let s := if s.rangeMay clBurin a 4 then (s.useRange .burin true a 4).memSet a (toLe 4 (result + min rows 16383 * 2 ^ 16))
    else s.refuseRange clBurin a 4
  let s := s.wr BUR_HEAD ((slot + 1) % max 1 s.burSize)
  let s : State := { s with bur := { s.bur with run := none } }
  let s := if result = burDone then
      let s := s.bump BUR_DONE_TOTAL
      if irq then s.report Ev.BUR_CMD_DONE [slot, op] else s
    else
      let s := (s.wrF BUR_STATUS 1 1 1).bump BUR_ERR_TOTAL
      let s := s.wr BUR_ERR_LAST (slot + op * 2 ^ 12 + result * 2 ^ 16 + s.fpl.frame % 256 * 2 ^ 24)
      s.report (burEvent result) [slot, op]
  s.burFallow

/-- Up to `n` segments of the command in progress; the command ends after its last. -/
def State.burRun : Nat → State → State
  | n, s => match s.bur.run with
    | none => s
    | some r =>
      let c := burCmd r.cmd
      let rows := r.seg / max 1 c.segsPerRow
      if c.segments ≤ r.seg then s.burEnd r.slot c.op c.irq burDone c.dstH
      else match n with
        | 0 => s
        | n + 1 =>
          match s.burSegment c r.seg with
          | (s, some e) => s.burEnd r.slot c.op c.irq e rows
          | (s, none) => State.burRun n { s with bur := { s.bur with run := some { r with seg := r.seg + 1 } } }

/-- The command at BUR_HEAD fetched, when its OP is one of those asked for, and checked; then segments performed. A command that
cannot be read, or is poisoned, ends with its OP unknown: a free value (log entry 165). -/
def State.burFetch (s : State) (ops : Nat → Bool) (n : Nat) : State :=
  match s.bur.run with
  | some r => if ops (burCmd r.cmd).op then State.burRun n s else s
  | none =>
    if !s.burReady then s
    else
      let slot := s.rdF BUR_HEAD 11 0
      let a := s.burRing + 32 * slot
      let b := s.memGet a 32
      let c := burCmd b
      if !s.rangeMay clBurin a 32 then
        let (d, s) := s.draw
        (s.refuseRange clBurin a 32).burEnd slot ((Config.openCode Ev.BUR_ACCESS d).toNat % 16) false burAccess 0
      else if s.rangePoisoned a 32 then
        let (d, s) := s.draw
        ((s.useRange .burin false a 32).consumePoison clBurin a 32).burEnd slot ((Config.openCode Ev.BUR_POISON d).toNat % 16) false
          burPoison 0
      else if !ops c.op then s
      else
        let s := (s.useRange .burin false a 32).wrF BUR_STATUS 3 3 0
        match s.burCheck c with
        | some e => s.burEnd slot c.op c.irq e 0
        | none =>
          if c.op = 0 then s.burEnd slot 0 c.irq burDone 0
          else State.burRun n { s with bur := { s.bur with run := some ⟨slot, b, 0⟩ } }

/-- R356: the command in progress ends ABORTED. -/
def State.burAbort (s : State) : State :=
  match s.bur.run with
  | none => s
  | some r =>
    let c := burCmd r.cmd
    s.burEnd r.slot c.op c.irq burAborted (r.seg / max 1 c.segsPerRow)

/-- R350: an invalid ring write. -/
def State.ringBad (s : State) : State := (s.wrF BUR_STATUS 2 2 1).report Ev.BUR_RING_BAD []

/-- R350: BUR_RING_SIZE written. -/
def State.burSizeWrite (s : State) (v : Nat) : State :=
  if s.rdF BUR_CTRL 0 0 = 1 then s
  else if !pow2In v 16 4096 then s.ringBad
  else (s.wr BUR_RING_SIZE v).wrF BUR_STATUS 2 2 0

/-- R350: another ring or status register written. -/
def State.burRingWrite (s : State) (a v : Nat) : State :=
  if s.rdF BUR_CTRL 0 0 = 1 then s
  else
    let s := s.regWrite a v
    if a = BUR_RING_LO then (s.wr BUR_HEAD 0).wr BUR_TAIL 0 else s

/-- BUR_CTRL.EN written (R356). -/
def State.burEnable (s : State) (en : Bool) : State :=
  State.burFallow (if en then s.wrF BUR_CTRL 0 0 1 else s.burAbort.wrF BUR_CTRL 0 0 0)

/-- BUR_CTRL.RESUME (R349). -/
def State.burResume (s : State) : State := (s.wrF BUR_STATUS 1 1 0).burFallow

/-- A write of a control field, as it takes effect. -/
def State.burTake (s : State) : BurWrite → State
  | .resume => s.burResume
  | .abort => s.burAbort
  | .enable en => s.burEnable en
  | .size v => s.burSizeWrite v
  | .ringLo v => s.burRingWrite BUR_RING_LO v
  | .ringHi v => s.burRingWrite BUR_RING_HI v
  | .statLo v => s.burRingWrite BUR_STAT_LO v
  | .statHi v => s.burRingWrite BUR_STAT_HI v

/-- R24: a write of a control field takes effect at once, or is held while the BUR domain is stopped, which it does not restart. -/
def State.burControl (s : State) (w : BurWrite) : State :=
  if s.burStopped then { s with bur := { s.bur with held := s.bur.held ++ [w] } } else s.burTake w

/-- R357, R24: the domain restarts, BUR_BYTES_LAST shows the last tick's count, and the writes held take effect in order. -/
def State.burRestart (s : State) : State :=
  let s' := s.wr BUR_BYTES_LAST s.bur.last
  (s.bur.held.foldl State.burTake { s' with bur := { s'.bur with held := [] } }).wrF BUR_STATUS 3 3 0

/-- The doorbell (R346, R350, R357). It restarts the domain; the engine is fallow again when nothing is to be fetched. -/
def State.burTail (s : State) (v : Nat) : State :=
  let s := s.burRestart
  State.burFallow (if s.burSize ≤ v then s.ringBad else s.wr BUR_TAIL v)

/-- The registers of the block computed when read; while the domain is stopped the status fields read as they were (R24). -/
def State.burView (s : State) (a : Nat) : Option Nat :=
  if a = BUR_STATUS then
    some (putFld (putFld (s.rd BUR_STATUS) 0 0 (b2n s.bur.run.isNone)) 4 4 (b2n (if s.burStopped then s.bur.stipple else s.stippleOk)))
  else none

/-- The boundary: bytes of the tick that ended. BUR_BYTES_LAST keeps its value while the domain is stopped (R24). -/
def State.burTick (s : State) : State :=
  let n := satN 32 s.bur.wrote
  let s := if s.burStopped then s else s.wr BUR_BYTES_LAST n
  { s with bur := { s.bur with wrote := 0, last := n } }

/-! ### The commands -/

/-- BUR_TAIL_WRITE (R346, R350). -/
def execBurTailWrite (value : Word) (s : State) : Host.Outcome State Fault Refusal :=
  if s.shut .service BUR_TAIL then .next (s.turnedAway .service BUR_TAIL) else
  .next (s.burTail value.toNat)

/-- BUR_NOP (R348): a NOP at BUR_HEAD ends DONE; a reserved OP ends INVALID. -/
def execBurNop (s : State) : Host.Outcome State Fault Refusal :=
  .next (s.oneCycle fun s => s.burFetch (fun o => o == 0 || decide (3 < o)) 0)

/-- BUR_FILL (R351). -/
def execBurFill (segments : Nat) (s : State) : Host.Outcome State Fault Refusal :=
  .next (s.oneCycle fun s => s.burFetch (· == 1) segments)

/-- BUR_COPY (R352, R353). -/
def execBurCopy (segments : Nat) (s : State) : Host.Outcome State Fault Refusal :=
  .next (s.oneCycle fun s => s.burFetch (· == 2) segments)

/-- BUR_STIPPLE (R354, R355). -/
def execBurStipple (segments : Nat) (s : State) : Host.Outcome State Fault Refusal :=
  .next (s.oneCycle fun s => s.burFetch (· == 3) segments)

/-- BUR_CTRL_RESUME (R349). -/
def execBurCtrlResume (s : State) : Host.Outcome State Fault Refusal :=
  if s.shut .service BUR_CTRL then .next (s.turnedAway .service BUR_CTRL) else
  .next (s.burControl .resume)

/-- BUR_CTRL_ABORT (R356). -/
def execBurCtrlAbort (s : State) : Host.Outcome State Fault Refusal :=
  if s.shut .service BUR_CTRL then .next (s.turnedAway .service BUR_CTRL) else
  .next (s.oneCycle fun s => s.burControl .abort)

/-- BUR_CTRL_EN_WRITE (R356). -/
def execBurCtrlEnWrite (en : Bool) (s : State) : Host.Outcome State Fault Refusal :=
  if s.shut .service BUR_CTRL then .next (s.turnedAway .service BUR_CTRL) else
  .next (s.oneCycle fun s => s.burControl (.enable en))

/-- BUR_RING_SIZE_WRITE (R350). -/
def execBurRingSizeWrite (value : Word) (s : State) : Host.Outcome State Fault Refusal :=
  if s.shut .service BUR_RING_SIZE then .next (s.turnedAway .service BUR_RING_SIZE) else
  .next (s.burControl (.size value.toNat))

/-- BUR_RING_LO_WRITE (R350). -/
def execBurRingLoWrite (value : Word) (s : State) : Host.Outcome State Fault Refusal :=
  if s.shut .service BUR_RING_LO then .next (s.turnedAway .service BUR_RING_LO) else
  .next (s.burControl (.ringLo value.toNat))

end Sys2Proof.Machine
end

