-- ==== Sys2Proof/Machine/Thermal.lean ====
section
/-! DEFINITION. Temperature and throttling: sensors, bands, levels, rate steps and the hold (chapter "Temperature and
throttling"). Temperatures are in 1/256 °C, the unit of s7.8. -/
namespace Sys2Proof.Machine

/-- Core cycles in a millisecond (Table 0.1). -/
def cyclesPerMs : Nat := 1600000

/-- A die sensor. -/
def State.sensor (s : State) (n : Nat) : Sensor := sget Sensor.init s.thm.sensors n

/-- A die sensor changed. -/
def State.setSensor (s : State) (n : Nat) (x : Sensor) : State :=
  { s with thm := { s.thm with sensors := sset Sensor.init s.thm.sensors n x } }

/-- R360: the neighbours of a sensor in the grid of 4 rows and 6 columns. -/
def sensorNeighbours (n : Nat) : List Nat :=
  (if 6 ≤ n then [n - 6] else []) ++ (if n < 18 then [n + 6] else []) ++
    (if 0 < n % 6 then [n - 1] else []) ++ (if n % 6 < 5 then [n + 1] else [])

/-- A sensor whose last reading counts (R366, R367). -/
def Sensor.valid (x : Sensor) : Bool := x.has && !x.failed

/-- The largest of a list of temperatures. -/
def maxTemp : List Int → Option Int
  | [] => none
  | t :: l => some (l.foldl max t)

/-- R366: what a failed sensor counts as. -/
def State.estimate (s : State) (n : Nat) : Option Int :=
  let temps (l : List Nat) := (l.filter (fun k => (s.sensor k).valid)).map (fun k => (s.sensor k).temp)
  match maxTemp (temps (sensorNeighbours n)) with
  | some t => some (t + 8 * 256)
  | none => (maxTemp (temps (List.range 24))).map (· + 8 * 256)

/-- The value a sensor contributes to the die temperature, with a flag for an estimate (R367). -/
def State.contribution (s : State) (n : Nat) : Option (Int × Bool) :=
  let x := s.sensor n
  if x.failed then (s.estimate n).map (·, true) else if x.has then some (x.temp, false) else none

/-- The die temperature with the sensor that gives it (R367). -/
def State.dieTemp (s : State) : Option (Int × Nat × Bool) :=
  (List.range 24).foldl (fun b n =>
    match s.contribution n, b with
    | none, _ => b
    | some (t, e), none => some (t, n, e)
    | some (t, e), some (u, _) => if u < t then some (t, n, e) else b) none

/-- The hottest sensor: the valid sensor with the highest last reading (R372). -/
def State.hottest (s : State) : Option Nat :=
  ((List.range 24).foldl (fun (b : Option (Int × Nat)) n =>
    let x := s.sensor n
    if !x.valid then b else match b with
      | none => some (x.temp, n)
      | some (u, _) => if u < x.temp then some (x.temp, n) else b) none).map (·.2)

/-- Table 14.2: the band that contains a temperature. -/
def bandOf (t : Int) : Nat :=
  if t < 0 then 0 else if t < 70 * 256 then 1 else if t < 85 * 256 then 2 else if t < 100 * 256 then 3 else 4

/-- Table 14.2: the lower limit of a band above COLD. -/
def bandLow : Nat → Int
  | 1 => 0
  | 2 => 70 * 256
  | 3 => 85 * 256
  | _ => 100 * 256

/-- R368: the band in force after a temperature. -/
def bandNext (hyst : Nat) (band : Nat) (t : Int) : Nat :=
  let b := bandOf t
  if band < b then b else if b < band && decide (t ≤ bandLow band - (hyst : Int) * 256) then b else band

/-- THM_HYST in °C; 0 lies outside its range and acts as 1. -/
def State.hyst (s : State) : Nat := max 1 (s.rdF THM_HYST 3 0)

/-- R370: the level that every standing reason asks for together. -/
def State.levelTarget (s : State) : Nat :=
  let band := s.rdF THM_STATUS 2 0
  let bl := fld (s.rd THM_LEVEL_MAP) (2 * band + 1) (2 * band)
  let rate := if s.rdF THM_STATUS 8 8 = 1 ∧ s.rdF THM_CTRL 0 0 = 1 then bl + 1 else 0
  let hold := if s.rdF THM_STATUS 9 9 = 1 then s.thm.holdLevel else 0
  let force := if s.rdF THM_CTRL 1 1 = 1 then s.rdF THM_CTRL 3 2 else 0
  let hot3 := if s.rdF THM_STATUS 10 10 = 1 || s.rdF THM_STATUS 12 12 = 1 then 3 else 0
  min 3 (max (max bl rate) (max (max hold force) hot3))

/-- R57: a level asked for within the tick; the highest one stands. -/
def State.askLevel (s : State) (l : Nat) : State :=
  { s with fpl := { s.fpl with levelReq := some (max l (s.fpl.levelReq.getD 0)) } }

/-- R370: a conversion asks for a level; a rise is asked at once. -/
def State.updateLevel (s : State) : State :=
  let t := s.levelTarget
  let a := s.rdF THM_STATUS 7 6
  let s := if a < t then (s.wrF THM_STATUS 7 6 t).report Ev.THM_LEVEL_CHANGE [] else s
  s.askLevel (s.rdF THM_STATUS 7 6)

/-- R362: every sensor has been converted once; until then both bands read NORMAL. -/
def State.firstRound (s : State) : Bool := (List.range 24).all (fun n => (s.sensor n).has || (s.sensor n).failed)

/-- R365: a sensor's self-test queued; it reads TESTING until the result (DEDUCED, log entry 313). -/
def State.queueSensorTest (s : State) (n : Nat) (faulted : Bool) : State :=
  let s := s.queueTest 5 n faulted
  s.setSensor n { s.sensor n with testing := true }

/-- R366 to R368, R374: the die band after a change of the readings, with THM_HOTTEST and NO_VALID; both bands read NORMAL
until every sensor has been converted once (R362). -/
def State.updateDieBand (s : State) : State :=
  let old := s.rdF THM_STATUS 2 0
  if !s.firstRound then s
  else
    let s := s.wrF THM_STATUS 12 12 (b2n s.dieTemp.isNone)
    let new := match s.dieTemp with
      | none => 4
      | some (t, _) => bandNext s.hyst old t
    let s := match s.dieTemp with
      | none => s
      | some (t, n, e) => s.wr THM_HOTTEST (ofS 16 (clampS 16 t) + n * 2 ^ 16 + b2n e * 2 ^ 24)
    if new = old then s
    else
      let s := ((s.wrF THM_STATUS 2 0 new).report Ev.THM_BAND_CHANGE []).refreshFloors
      if new = 4 then s.requestOp s.opFloor else s

/-- R364, R372: a sensor declared failed for a reason (1 TIMEOUT, 2 RANGE, 3 JUMP). -/
def State.failSensor (s : State) (n reason : Nat) : State :=
  let hot := s.hottest == some n && decide (0 < s.fpl.level)
  let x := s.sensor n
  let s := s.bump THM_FAIL_TOTAL
  let s := s.report Ev.THM_SENSOR_FAIL [n, reason]
  let s := s.queueSensorTest n true
  let s := s.setSensor n { x with failed := true, serv := false, testing := true, reason := reason }
  let s := if hot then
      let s := { s with thm := { s.thm with holdLevel := min 3 (s.fpl.level + 1), holdSensor := n } }
      (s.wrF THM_STATUS 9 9 1).report Ev.THM_HOTTEST_LOST [n]
    else s
  s.updateDieBand.updateLevel

/-- R371: the readings that a reference can come from, newest first: those of the longest WINDOW, 10 s, and the one before. -/
def pastReadings (now : Nat) (l : List (Nat × Int)) : List (Nat × Int) :=
  let inside (p : Nat × Int) : Bool := decide (now < p.1 + 10000 * cyclesPerMs)
  l.takeWhile inside ++ (l.dropWhile inside).take 1

/-- R371: the reference of a sensor for a result at this moment. -/
def Sensor.reference (x : Sensor) (now window : Nat) : Option (Nat × Int) :=
  let old := x.past.find? (fun p => decide (p.1 + window ≤ now))
  match x.ref, old with
  | some r, some o => if o.1 < r.1 then some r else some o
  | some r, none => some r
  | none, o => o

/-- THM_RATE.WINDOW in core cycles (10 to 10,000 ms). -/
def State.rateWindow (s : State) : Nat := max 10 (min 10000 (s.rdF THM_RATE 23 8)) * cyclesPerMs

/-- R371: the rise that exceeds the limit, if it does. -/
def State.rateExceeded (s : State) (x : Sensor) (temp : Int) : Option Int :=
  if s.rdF THM_CTRL 0 0 = 0 then none
  else match x.reference s.now s.rateWindow with
    | none => none
    | some (t0, r0) =>
      let rise := temp - r0
      let lim : Int := (max 1 (s.rdF THM_RATE 7 0) : Nat) * 64
      if lim * ((s.now - t0 : Nat) : Int) < rise * (s.rateWindow : Nat) then some rise else none

/-- R362: a conversion of a sensor stands: the first round's and the periodic ones before a plan runs, a task's, or the host's. -/
def State.convAsked (s : State) (n : Nat) : Bool :=
  bit s.thm.convReq n == 1 || (s.fpl.plan.isNone && decide (1 ≤ s.stageNow))

/-- R362: a conversion of a sensor has run, so a host request for it is served. -/
def State.convServed (s : State) (n : Nat) : State :=
  { s with thm := { s.thm with convReq := putFld s.thm.convReq n n 0 } }

/-- R375: a valid result at or above 115 °C: reported once while OVERTEMP stands; the panel goes down, also when its supplies were
raised since. -/
def State.overtemp (s : State) : State :=
  if s.rdF THM_STATUS 10 10 = 0 then ((s.wrF THM_STATUS 10 10 1).report Ev.THM_OVERTEMP []).supplyDown
  else if s.supState = supUp || s.supState = supOn || s.supState = supRetry then s.supplyDown
  else s

/-- A conversion result of a die sensor (R364 to R375). Conversions run only on request (R362). -/
def State.convResult (s : State) (n : Nat) (temp : Int) : State :=
  if !s.convAsked n then s
  else
  let s := (s.convServed n).bump THM_CONV_TOTAL
  let x := s.sensor n
  if temp < -40 * 256 || 150 * 256 < temp then s.failSensor n 2
  else if x.has && decide ((20 * 256 : Int) * ((max cyclesPerMs (s.now - x.time) : Nat) : Int) <
      (temp - x.temp) * (cyclesPerMs : Int)) then s.failSensor n 3
  else if x.failed && !x.serv then s.updateLevel
  else
    let rise := s.rateExceeded x temp
    let y : Sensor := { x with
      has := true, temp := temp, time := s.now, failed := false, serv := false, stale := false
      past := pastReadings s.now ((s.now, temp) :: x.past)
      ref := if rise.isSome then some (s.now, temp) else x.ref }
    let s := s.setSensor n y
    let s := s.updateDieBand
    let s := match rise with
      | some r => (s.wrF THM_STATUS 8 8 1).report Ev.THM_RATE_LIMIT [n, ofS 32 r]
      | none => s
    (if 115 * 256 ≤ temp then s.overtemp else s).updateLevel

/-- R367, R368: a panel reading from a STATUS packet with THERM_VALID set; every packet of the last 1 s counts. -/
def State.panelReading (s : State) (driver : Nat) (temp : Int) : State :=
  let keep := s.thm.panel.filter (fun p => decide (s.now - p.2.2 < 1000 * cyclesPerMs))
  let l := keep ++ [(driver, temp, s.now)]
  let top := l.foldl (fun (b : Int × Nat) p => if b.1 < p.2.1 then (p.2.1, p.1) else b) (temp, driver)
  let s := { s with thm := { s.thm with panel := l, panelUnknown := false } }
  let s := s.wr THM_PANEL (ofS 16 (clampS 16 top.1) + top.2 * 2 ^ 16 + 2 ^ 24)
  let old := s.rdF THM_STATUS 5 3
  let new := bandNext s.hyst old top.1
  if new = old || !s.firstRound then s else (s.wrF THM_STATUS 5 3 new).report Ev.THM_PANEL_BAND []

/-! ### The commands -/

/-- THM_CONVERSION_RESULT (R364). -/
def execThmConversionResult (sensor : Fin 24) (temp : Int) (s : State) : Host.Outcome State Fault Refusal :=
  .next (s.oneCycle fun s => s.convResult sensor.val temp)

/-- THM_CONVERSION_TIMEOUT (R364): no result within 80 µs. -/
def execThmConversionTimeout (sensor : Fin 24) (s : State) : Host.Outcome State Fault Refusal :=
  .next (s.oneCycle fun s =>
    if s.convAsked sensor.val then ((s.convServed sensor.val).bump THM_CONV_TOTAL).failSensor sensor.val 1 else s)

/-- THM_CONV_REQ (R362): the sensors named are queued for conversion. -/
def execThmConvReq (value : Word) (s : State) : Host.Outcome State Fault Refusal :=
  if s.shut .service THM_CONV_REQ then .next (s.turnedAway .service THM_CONV_REQ) else
  .next { s with thm := { s.thm with convReq := s.thm.convReq ||| fld value.toNat 24 0 } }

/-- THM_SELFTEST_REQ (R365): the sensor's self-test is queued, with no error behind it. -/
def execThmSelftestReq (value : Word) (s : State) : Host.Outcome State Fault Refusal :=
  if s.shut .service THM_SELFTEST_REQ then .next (s.turnedAway .service THM_SELFTEST_REQ) else
  let n := fld value.toNat 4 0
  .next (if n < 24 then s.queueSensorTest n false else s)

/-- THM_SELFTEST_DONE (R365, R456, R457): the result of a queued test is classed. -/
def execThmSelftestDone (sensor : Fin 24) (pass : Bool) (reading : Option Int) (s : State) :
    Host.Outcome State Fault Refusal :=
  let n := sensor.val
  .next <| s.oneCycle fun s =>
    match s.tests.find? (fun t => t.kind == 5 && t.idx == n) with
    | none => s
    | some t =>
      let ok := pass && reading.isSome
      let fig := match reading with
        | some r => ofS 16 (clampS 16 r)
        | none => 2 ^ 16
      let (s, cls) := s.testResult Ev.THM_SELFTEST_RESULT 5 n t.faulted (!ok) fig
      let s := s.wr THM_SELFTEST_LAST (n + cls * 2 ^ 8 + (s.fpl.frame % 2 ^ 16) * 2 ^ 16)
      let x := s.sensor n
      let perm := x.perm || cls == 3
      let s := s.setSensor n { x with
        testing := false, cls := cls, perm := perm
        failed := x.failed || !ok
        serv := ok && x.failed && !perm }
      if ok then s else s.updateDieBand.updateLevel

/-- THM_SENSOR_STALE (R363): at stage S5 a sensor not converted for 500 ms is marked STALE, once. -/
def execThmSensorStale (sensor : Fin 24) (s : State) : Host.Outcome State Fault Refusal :=
  let x := s.sensor sensor.val
  .next (if s.rdF GBL_STATE 2 0 = 5 && !x.stale then
      (s.setSensor sensor.val { x with stale := true }).report Ev.THM_SENSOR_STALE [sensor.val]
    else s)

/-- THM_LEVEL_RELEASE (R370): after 2 s without the reasons for it, the level asked for falls one step. -/
def execThmLevelRelease (s : State) : Host.Outcome State Fault Refusal :=
  let a := s.rdF THM_STATUS 7 6
  .next (if s.levelTarget < a then
      ((s.wrF THM_STATUS 7 6 (a - 1)).report Ev.THM_LEVEL_CHANGE []).askLevel (a - 1)
    else s)

/-- THM_RATE_STEP_END (R371): no sensor has exceeded the limit for 1 s. -/
def execThmRateStepEnd (s : State) : Host.Outcome State Fault Refusal := .next (s.wrF THM_STATUS 8 8 0)

/-- THM_HOLD_RELEASE (R372): the hold is released. -/
def execThmHoldRelease (s : State) : Host.Outcome State Fault Refusal :=
  .next { s.wrF THM_STATUS 9 9 0 with thm := { s.thm with holdLevel := 0 } }

/-- THM_OVERTEMP_CLEAR (R375): OVERTEMP clears, and the up sequence runs unless LOCKOUT stands; a down sequence still running goes
to its end first. A reset that waits for it takes the device instead. -/
def execThmOvertempClear (s : State) : Host.Outcome State Fault Refusal :=
  .next (if s.rdF THM_STATUS 10 10 = 1 then
      let s := s.wrF THM_STATUS 10 10 0
      if s.supState ≠ supDown then s.supplyUp
      else if s.etc.after = .off && s.boot.request.isNone then { s with etc := { s.etc with after := .up } }
      else s
    else s)

/-- THM_OP_RESTORE (R374): the band has stayed at HOT or below for 10 s, so OP_MAX is requested. -/
def execThmOpRestore (s : State) : Host.Outcome State Fault Refusal :=
  .next (if s.rdF THM_STATUS 2 0 ≤ 3 then s.requestOp s.opMax else s)

/-- THM_PANEL_UNKNOWN (R368): no panel reading has been valid for 1 s; the band stays, and it is reported once. -/
def execThmPanelUnknown (s : State) : Host.Outcome State Fault Refusal :=
  .next (if s.thm.panelUnknown then s
    else
      let s := { s with thm := { s.thm with panelUnknown := true, panel := [] } }
      (s.wrF THM_PANEL 24 24 0).report Ev.THM_PANEL_UNKNOWN [])

end Sys2Proof.Machine
end

