-- ==== Sys2Proof/Machine/Sowing.lean ====
section
/-! DEFINITION. Sowing and the arming of an activation (R423 to R430): the bitmap, blocks handed down the tree, their
acknowledgements, queries, ARM and CANCEL. -/
namespace Sys2Proof.Machine

/-- The client SOWING (Table 3.2). -/
def clSowing : Nat := 0x0E

/-! ### The bitmap (R426) -/

/-- A field of the bitmap header. -/
def State.sow (s : State) (off n : Nat) : Nat := s.sramLe (0xC00 + off) n

/-- The header is present. -/
def State.sowOk (s : State) : Bool := s.sow 0 2 == 0x5753 && s.sow 2 1 == 1

/-- Bit of a block. -/
def State.sowBit (s : State) (b : Nat) : Bool := bit (s.sramLe (0xC40 + b / 8) 1) (b % 8) == 1

/-- Blocks held, counted in the header. -/
def State.sowHeld (s : State) : Nat := ((List.range imageBlocks).filter s.sowBit).length

/-- The first missing block, 8,704 when none. -/
def State.sowMissing (s : State) : Nat := ((List.range imageBlocks).find? (fun b => !s.sowBit b)).getD imageBlocks

/-- The image is complete. -/
def State.sowComplete (s : State) : Bool := s.sowOk && s.sowMissing == imageBlocks

/-- A block's bit stored, with the count of blocks held. -/
def State.setSowBit (s : State) (b : Nat) (v : Bool) : State :=
  let old := s.sramLe (0xC40 + b / 8) 1
  let s := s.sramWrite (0xC40 + b / 8) (toLe 1 (putFld old (b % 8) (b % 8) (b2n v)))
  s.sramWrite 0xC0C (toLe 4 s.sowHeld)

/-- The bitmap cleared. -/
def State.sowClear (s : State) : State := s.sramWrite 0xC00 (List.replicate 2048 0#8)

/-- A new session: header written, bits of the blocks that no part covers set. Block 0, the manifest itself, is to be
written. -/
def State.sowNew (s : State) (slot session : Nat) (m : Bytes) : State :=
  let s := s.sowClear
  let ps := manifestParts m
  let covered (b : Nat) : Bool := b == 0 || ps.any (fun e => decide (e.first ≤ b) && decide (b < e.first + e.blocks))
  let bits := (List.range 1088).map (fun i =>
    BitVec.ofNat 8 ((List.range 8).foldl (fun a j => a + b2n (!covered (8 * i + j)) * 2 ^ j) 0))
  let s := s.sramWrite 0xC40 bits
  let s := s.sramWrite 0xC00 (toLe 2 0x5753 ++ toLe 1 1 ++ toLe 1 slot ++ toLe 4 session ++ toLe 4 (manifestGen m) ++
    toLe 4 s.sowHeld ++ sha256 m ++ List.replicate 16 0#8)
  s

/-- R426: a session resumes after a reset: sectors with a clear and a set bit are erased and their bits cleared. -/
def State.sowResume (s : State) (session : Nat) : State :=
  let slot := s.sow 3 1
  let bad := (List.range (imageBlocks / 16)).filter (fun g =>
    let l := (List.range 16).map (fun i => s.sowBit (16 * g + i))
    l.any id && !l.all id)
  let s := bad.foldl (fun s g =>
    (List.range 16).foldl (fun s i => s.setSowBit (16 * g + i) false) (s.eraseSector 0 (imageBlockAt slot (16 * g)))) s
  (s.sramWrite 0xC04 (toLe 4 session)).report Ev.UPD_SOW_RESUMED [bad.length]

/-! ### Messages (R423, Table 16.10) -/

def sopBlock : Nat := 1
def sopAck : Nat := 2
def sopQuery : Nat := 3
def sopStatus : Nat := 4
def sopArm : Nat := 5
def sopCancel : Nat := 6

/-- A SOW body. -/
def sowBody (sop flags reason session gen index crc : Nat) (data : Bytes) : Bytes :=
  toLe 1 sop ++ toLe 1 flags ++ toLe 1 reason ++ toLe 1 0 ++ toLe 4 session ++ toLe 4 gen ++ toLe 4 index ++ toLe 4 crc ++
    toLe 6 0 ++ toLe 6 0 ++ data

/-- A STATUS, unicast. -/
def State.sowStatus (s : State) (dst tag session gen reason : Nat) : State :=
  s.sendTo dst 0x30 tag (sowBody sopStatus (b2n s.sowComplete + b2n (s.actState == actArmed) * 2) reason session gen s.sowMissing s.sowHeld [])

/-- The bytes of an image block in the slot that is sown. -/
def State.sownBlock (s : State) (b : Nat) : Bytes := s.flashGet 0 (imageBlockAt (s.sow 3 1) b) 4096

/-- A BLOCK to a child port. -/
def State.sowSend (s : State) (p b : Nat) (data : Bytes) : State :=
  let s := s.sendLocal p 0x30 (sowBody sopBlock 0 0 (s.sow 4 4) (s.sow 8 4) b (crc32c data) data)
  { s with boot := { s.boot with sent := s.boot.sent ++ [⟨b, p, 0⟩] } }

/-- R424: blocks that wait for a child port go out, at most 64 ahead of its ACKs. -/
def State.sowFeed (s : State) (p : Nat) : State :=
  (s.boot.queued.filter (fun q => q.2 == p)).foldl (fun s q =>
    if (s.boot.sent.filter (fun e => e.port == p)).length < 64 then
      { s with boot := { s.boot with queued := s.boot.queued.erase q } }.sowSend p q.1 (s.sownBlock q.1)
    else s) s

/-- An ACK for a block, with the SESSION and GEN that it carried: to the neighbour that the session's blocks come from, or by
unicast to the source of a unicast BLOCK. -/
def State.sowReply (s : State) (src : Option (Nat × Nat)) (p session gen block lacking : Nat) (part : Bool) : State :=
  let body := sowBody sopAck (b2n part) 0 session gen block lacking []
  match src with
  | none => s.sendLocal p 0x30 body
  | some (dst, tag) => s.sendTo dst 0x30 tag body

/-- R424 step 5: the ACK of a block goes out once it is programmed and every child port has answered. -/
def State.sowSettle (s : State) : State :=
  (s.boot.owed.filter (fun o => o.programmed && o.waits.isEmpty)).foldl (fun s o =>
    let s := { s with boot := { s.boot with owed := s.boot.owed.filter (fun e => !(e.block == o.block && e.src == o.src)) } }
    s.sowReply o.src s.boot.sowFrom o.session o.gen o.block o.lacking o.part) s

/-- A child port has answered for a block, or will not. -/
def State.sowAnswered (s : State) (b p lacking : Nat) (part : Bool) : State :=
  { s with boot := { s.boot with
      sent := s.boot.sent.filter (fun e => !(e.block == b && e.port == p))
      owed := s.boot.owed.map (fun (o : SowOwed) => if o.block = b ∧ o.waits.contains p then
        { o with waits := o.waits.erase p, part := o.part || part, lacking := o.lacking + lacking } else o) } }

/-- A port is lagging. -/
def State.lagging (s : State) (p : Nat) : Bool := bit (s.rd UPD_SOW_STATUS) (3 + p) == 1

/-- Devices behind a CHILD port. -/
def State.subtreeSize (s : State) (p : Nat) : Nat :=
  s.rdF (LNK_PORT_INTERVAL p) 31 16 + 1 - s.rdF (LNK_PORT_INTERVAL p) 15 0

/-- R425: a port is marked lagging for the session. -/
def State.sowLag (s : State) (p : Nat) : State :=
  if s.rdF UPD_SOW_STATUS 0 0 = 1 ∧ s.treeOf p = 2 ∧ !s.lagging p then
    let s := (s.orR UPD_SOW_STATUS (2 ^ (3 + p))).report Ev.UPD_SOW_LAGGING [p]
    let blocks := (s.boot.owed.filter (fun o => o.waits.contains p)).map (·.block)
    let s := { s with boot := { s.boot with queued := s.boot.queued.filter (fun q => q.2 != p)
                                            sent := s.boot.sent.filter (fun e => e.port != p) } }
    (blocks.foldl (fun s b => s.sowAnswered b p (s.subtreeSize p) true) s).sowSettle
  else s

/-! ### Blocks (R424) -/

/-- The SOWING partition has a plot, or SOWING holds one. -/
def State.sowHasPlot (s : State) : Bool := s.grn.held.any (fun h => h.1 == clSowing) || (s.plotFor clSowing).isSome

/-- R424: the session is refused now. -/
def State.sowRefuses (s : State) : Bool := s.actState == actTrial || s.actState == actArmed || !s.sowHasPlot

/-- A manifest's failure reported (R422): UPD_MANIFEST_BAD with the condition, or UPD_STALE. -/
def State.reportManifest (s : State) (m : Bytes) : State × Bool :=
  match manifestFault m with
  | some c => (s.report Ev.UPD_MANIFEST_BAD [c], false)
  | none => if s.manifestStale m then (s.report Ev.UPD_STALE [], false) else (s, true)

/-- Block 0 opens or resumes its session: the flag says whether the block is taken. A bitmap of the slot that is not sown now cannot
resume (R418, R435). -/
def State.sowOpen (s : State) (session : Nat) (m : Bytes) : State × Bool :=
  let same := s.sowOk && s.sramBytes 0xC10 32 == sha256 m && (s.boot.opened || s.sow 3 1 == s.sowSlot)
  if same then
    let s : State := if s.boot.opened then s.sramWrite 0xC04 (toLe 4 session)
      else State.sowResume { s with boot := { s.boot with erased := [] } } session
    ({ s with boot := { s.boot with opened := true } }.wrF UPD_SOW_STATUS 0 0 1, true)
  else
    let (s, ok) := s.reportManifest m
    if ok then
      let s := s.sowNew s.sowSlot session m
      let s := { s with boot := { s.boot with opened := true, erased := [], sent := [], owed := [], queued := [] } }
      ((s.wr UPD_SOW_STATUS (1 + s.sow 3 1 * 4)), true)
    else (s, false)

/-- R424 step 4: the block written into the slot that is sown; a sector is erased before its first block of the session. A session
that resumes holds whole sectors only (R426), so that its blocks to come lie in sectors without one. -/
def State.sowProgram (s : State) (b : Nat) (data : Bytes) : State :=
  let slot := s.sow 3 1
  let g := b / 16
  let s : State := if s.boot.erased.any (fun e => e.1 == g) then s
    else { s with boot := { s.boot with erased := (g, false) :: s.boot.erased } }.eraseSector 0 (imageBlockAt slot b)
  s.flashPut 0 (imageBlockAt slot b) data

/-- R425: the port that blocks of the session come from. -/
def State.sowFromPort (s : State) (p : Nat) : State := { s with boot := { s.boot with sowFrom := p } }

/-- R425: what a block's acknowledgement waits for. -/
def State.sowOwe (s : State) (o : SowOwed) : State :=
  { s with boot := { s.boot with
      owed := s.boot.owed.filter (fun e => !(e.block == o.block && e.src.isSome == o.src.isSome)) ++ [o] } }

/-- R423: the devices of this device's subtree, itself among them. -/
def State.subtreeAll (s : State) : Nat := 1 + (s.childPorts.map s.subtreeSize).sum

/-- R425: a block sent on to a child port, or queued for it while 64 are outstanding there. -/
def State.sowOnward (s : State) (b : Nat) (data : Bytes) (q : Nat) : State :=
  if (s.boot.sent.filter (fun e => e.port == q)).length < 64 then s.sowSend q b data
  else { s with boot := { s.boot with queued := s.boot.queued ++ [(b, q)] } }

/-- R424: a BLOCK from a port: a LOCAL one from the tree parent alone, or a unicast one, which is programmed and acknowledged to
its source, and not forwarded. The subtree of a LOCAL block that is not taken lacks it. -/
def State.sowBlock (s : State) (p : Nat) (msg : Bytes) : State :=
  let body := msg.drop 16
  let data := body.drop 32
  let b := leAt body 12 4
  let session := leAt body 4 4
  let gen := leAt body 8 4
  let isLocal := bit (byteAt msg 7) 0 == 1
  let src := if isLocal then none else some (leAt msg 2 2, leAt msg 10 4)
  let lacks := if isLocal then s.subtreeAll else 1
  if isLocal && s.parentPort != some p then s
  else if data.length ≠ 4096 ∨ crc32c data ≠ leAt body 16 4 then s.report Ev.UPD_SOW_BLOCK_BAD [b]
  else if imageBlocks ≤ b then s
  else if s.sowRefuses then (s.sowReply src p session gen b lacks true).report Ev.UPD_SOW_REFUSED []
  else
    let (s, ok) := if b = 0 then s.sowOpen session data
      else (s, s.sowOk && s.boot.opened && session == s.sow 4 4)
    if !ok then if b = 0 then s.sowReply src p session gen b lacks true else s
    else
      let have_ := s.sowBit b
      let kids := if isLocal then s.childPorts.filter (fun q => q != p && !s.lagging q) else []
      let lag := if isLocal then s.childPorts.filter (fun q => q != p && s.lagging q) else []
      let s := if have_ then s else s.sowProgram b data
      let s := if isLocal then s.sowFromPort p else s
      let s := s.sowOwe ⟨b, session, gen, src, have_, kids, !lag.isEmpty, (lag.map s.subtreeSize).sum⟩
      (kids.foldl (fun s q => s.sowOnward b data q) s).sowSettle

/-- R424: a block of a sector is programmed since its erase. -/
def State.sowTouched (s : State) (g : Nat) : State :=
  { s with boot := { s.boot with erased := s.boot.erased.map (fun e => if e.1 = g then (g, true) else e) } }

/-- R424 steps 4 and 5: the program of a block ends: its bit is set when it verified; a failure that its retry repeats is
reported (R418). -/
def State.sowProgrammed (s : State) (b : Nat) (verified : Bool) : State :=
  if !(s.sowOk && s.boot.opened) then s
  else
    let was := s.sowComplete
    let s := if verified then (s.setSowBit b true).sowTouched (b / 16)
      else (s.tornFlash 0 (imageBlockAt (s.sow 3 1) b) 4096).flashFail 0 (imageBlockAt (s.sow 3 1) b)
    let s := { s with boot := { s.boot with owed := s.boot.owed.map (fun (o : SowOwed) =>
      if o.block = b then { o with programmed := o.programmed || verified } else o) } }
    let s := if !was && s.sowComplete then (s.wrF UPD_SOW_STATUS 1 1 1).report Ev.UPD_SOW_COMPLETE [] else s
    s.sowSettle

/-- R425: a child's ACK for a block. -/
def State.sowAckIn (s : State) (p : Nat) (msg : Bytes) : State :=
  let body := msg.drop 16
  let s := s.sowAnswered (leAt body 12 4) p (leAt body 16 4) (bit (byteAt body 1) 0 == 1)
  (s.sowFeed p).sowSettle

/-- R425: a block unacknowledged for 1 s is resent, unicast (R423), at most three times; then the port lags. -/
def State.sowResend (s : State) (p b : Nat) : State :=
  match s.boot.sent.find? (fun e => e.port == p && e.block == b) with
  | none => s
  | some e =>
    if e.tries < 3 then
      let data := s.sownBlock b
      let s := { s with boot := { s.boot with sent := s.boot.sent.map (fun f => if f = e then { f with tries := f.tries + 1 } else f) } }
      s.sendTo (s.rdF (LNK_PORT_INTERVAL p) 15 0) 0x30 0 (sowBody sopBlock 0 0 (s.sow 4 4) (s.sow 8 4) b (crc32c data) data)
    else s.sowLag p

/-! ### Arming and activation (R429, R430) -/

/-- R430: an activation begins: PORTS_BEFORE, TRIAL with the armed slot, the store. Its ACTIVATION reset follows the store. -/
def State.activate (s : State) : State :=
  let ports := s.activePorts.foldl (fun a p => a + 2 ^ p) 0
  let s := s.actPut 3 (toLe 1 actTrial)
  let s := s.actPut 4 (toLe 1 (s.sow 3 1))
  let s := s.actPut 6 (toLe 1 0)
  let s := s.actPut 7 (toLe 1 ports)
  let s := s.actPut 8 (toLe 4 (s.sow 8 4))
  let s := s.actPut 32 (s.sramBytes 0xC10 32)
  { (s.requestStore 5).1 with boot := { (s.requestStore 5).1.boot with activating := true } }

/-- The reason an ARM is refused with (R429, R435), if any. Frame numbers compare as plain integers (R10). -/
def State.armReason (s : State) (session gen frame : Nat) : Option Nat :=
  let slot := s.sow 3 1
  let m := s.manifestOf slot
  if !(s.sowComplete && s.sow 4 4 == session && s.sow 8 4 == gen) then some 1
  else if !(manifestParts m).all (s.partGood slot) then some 2
  else if frame ≠ 0 ∧ frame ≤ s.fpl.frame then some 3
  else if s.actState = actTrial then some 4
  else if frame = 0 ∧ !(s.mode == modeRecovery && manifestRecoveryOk m) then some 5
  else none

/-- R422 at arming: the manifest of the armed slot is tested again, with the generation test; a failure is reported, and the ARM
refused with a REASON that Table 16.10 does not number (DESIGN CHOICE, log entry 261). -/
def State.armChecked (s : State) (session gen frame : Nat) : State × Option Nat :=
  if s.sowComplete && s.sow 4 4 == session && s.sow 8 4 == gen then
    match s.reportManifest (s.manifestOf (s.sow 3 1)) with
    | (s, true) => (s, s.armReason session gen frame)
    | (s, false) => (s, some ((Config.openCode Ev.UPD_ARM_REFUSED 0).toNat % 256))
  else (s, s.armReason session gen frame)

/-- R429: an ARM. -/
def State.sowArm (s : State) (msg : Bytes) : State :=
  let body := msg.drop 16
  let session := leAt body 4 4
  let gen := leAt body 8 4
  let frame := leAt body 20 6
  let src := leAt msg 2 2
  let tag := leAt msg 10 4
  match s.armChecked session gen frame with
  | (s, some r) => (s.sowStatus src tag session gen r).report Ev.UPD_ARM_REFUSED [r]
  | (s, none) =>
    let prev := s.actState
    let s : State := { s with boot := { s.boot with armPrev := if prev = actArmed then s.boot.armPrev else prev, armedHere := true } }
    let s := s.actPut 3 (toLe 1 actArmed)
    let s := (s.actPut 16 (toLe 6 frame)).actPut 24 (toLe 4 session)
    if frame = 0 then s.activate
    else
      let s := (s.requestStore 5).1
      { s with boot := { s.boot with armOwed := some (src, tag, session, gen) } }

/-- R429: the store of an ARM has completed. -/
def State.armDone (s : State) : State :=
  match s.boot.armOwed with
  | none => s
  | some (src, tag, session, gen) =>
    let s := { s with boot := { s.boot with armOwed := none } }
    (s.sowStatus src tag session gen 0).report Ev.UPD_ARMED []

/-- R429: a CANCEL for the armed session. -/
def State.sowCancel (s : State) (msg : Bytes) : State :=
  if s.actState = actArmed ∧ s.act 24 4 = leAt msg 20 4 then
    let s := s.actPut 3 (toLe 1 s.boot.armPrev)
    { s with boot := { s.boot with armOwed := none } }.report Ev.UPD_CANCELLED []
  else s

/-- R427: a QUERY. -/
def State.sowQuery (s : State) (msg : Bytes) : State :=
  s.sowStatus (leAt msg 2 2) (leAt msg 10 4) (s.sow 4 4) (s.sow 8 4) 0

/-- A SOW message that came on a port, by its SOP. -/
def State.sowMessage (s : State) (p : Nat) (msg : Bytes) : State :=
  let sop := byteAt msg 16
  if sop = sopBlock then s.sowBlock p msg
  else if sop = sopAck then s.sowAckIn p msg
  else if sop = sopQuery then s.sowQuery msg
  else if sop = sopArm then s.sowArm msg
  else if sop = sopCancel then s.sowCancel msg
  else s

/-! ### The commands -/

/-- SOW_BLOCK_RECEIVE (R424). -/
def execSowBlockReceive (port : Fin 4) (msg : Bytes) (s : State) : Host.Outcome State Fault Refusal :=
  .next (s.oneCycle fun s => (s.noteSource port.val 3 msg).sowBlock port.val msg)

/-- SOW_BLOCK_PROGRAMMED (R424). -/
def execSowBlockProgrammed (block : Fin 8704) (verified : Bool) (s : State) : Host.Outcome State Fault Refusal :=
  .next (s.oneCycle fun s => s.sowProgrammed block.val verified)

/-- SOW_ACK_RECEIVE (R425). -/
def execSowAckReceive (port : Fin 4) (msg : Bytes) (s : State) : Host.Outcome State Fault Refusal := .next ((s.noteSource port.val 3 msg).sowAckIn port.val msg)

/-- SOW_RESEND_TIMER (R425). -/
def execSowResendTimer (port : Fin 4) (block : Fin 8704) (s : State) : Host.Outcome State Fault Refusal :=
  .next (s.oneCycle fun s => s.sowResend port.val block.val)

/-- SOW_QUERY_RECEIVE (R427). -/
def execSowQueryReceive (msg : Bytes) (s : State) : Host.Outcome State Fault Refusal := .next (s.sowQuery msg)

/-- SOW_ARM_RECEIVE (R429). -/
def execSowArmReceive (msg : Bytes) (s : State) : Host.Outcome State Fault Refusal :=
  .next (s.oneCycle fun s => s.sowArm msg)

/-- SOW_CANCEL_RECEIVE (R429). -/
def execSowCancelReceive (msg : Bytes) (s : State) : Host.Outcome State Fault Refusal := .next (s.sowCancel msg)

end Sys2Proof.Machine
end

