-- ==== Sys2Proof/Machine/Lanes.lean ====
section
/-! DEFINITION. The lane layer (chapter "Lysif lanes"): training of the four fabric ports, equalisation, errors, self-tests,
power states, loops and patterns, and the panel lanes. Symbols, scrambling and FEC (R233 to R237) lie below the blocks that
arrive here whole; what only a receiver's analog part can find (signal, lock, histograms, bit errors) is an operand. -/
namespace Sys2Proof.Machine

/-- States of a port (Table 9.12). -/
def lneDisabled : Nat := 0
def lneDetect : Nat := 1
def lneWake : Nat := 2
def lneEq : Nat := 3
def lneAlign : Nat := 4
def lneHandshake : Nat := 5
def lneActive : Nat := 6
def lneTest : Nat := 7

/-- Reasons of LNE_PORT_DOWN (Table 9.20). -/
def downLos : Nat := 1
def downErrors : Nat := 2
def downRetrain : Nat := 3
def downDisable : Nat := 4
def downTest : Nat := 5
def downWakeFail : Nat := 6

/-- A lane's record, read and changed: lane 8p + l of a port, 32 + m of the panel. -/
def State.lane (s : State) (l : Nat) : Lane := sget Lane.init s.lne.lanes l
def State.modLane (s : State) (l : Nat) (f : Lane → Lane) : State :=
  { s with lne := { s.lne with lanes := smod Lane.init s.lne.lanes l f } }

/-- Lane `i` of port `p`. -/
def laneOf (p i : Nat) : Nat := 8 * p + i

/-- Lanes of a port with a status bit, as a mask. -/
def State.laneMask (s : State) (p b : Nat) : Nat :=
  (List.range 8).foldl (fun a i => a + bit (s.rd (LNE_LANE_STATUS (laneOf p i))) b * 2 ^ i) 0

/-- A status bit set on the lanes of a mask. -/
def State.setLanesBit (s : State) (p mask b v : Nat) : State :=
  (setBits 8 mask).foldl (fun s i => s.wrF (LNE_LANE_STATUS (laneOf p i)) b b v) s

/-- EXCLUDED lanes of a port. -/
def State.excluded (s : State) (p : Nat) : Nat := s.laneMask p 11

/-- A field of LNE_PORT_LANES: 0 TX_MASK, 1 RX_MASK, 2 lanes remaining, 3 EXCLUDED. -/
def State.setPortLanes (s : State) (p k v : Nat) : State := s.wrF (LNE_PORT_LANES p) (8 * k + 7) (8 * k) v

/-- MAX_WIDTH of R245. -/
def State.maxWidth (s : State) (p : Nat) : Nat := min (s.portRole p).cap (s.rdF (LNE_PORT_CTRL p) 11 8)

/-- The largest of 8, 4, 2, 1 within a limit, 0 when none is. -/
def widthWithin (n : Nat) : Nat := if 8 ≤ n then 8 else if 4 ≤ n then 4 else if 2 ≤ n then 2 else if 1 ≤ n then 1 else 0

/-- The `w` lowest lanes of a mask. -/
def lowestLanes (mask w : Nat) : Nat := ((setBits 8 mask).take w).foldl (fun a i => a + 2 ^ i) 0

/-! ### Transitions -/

/-- The state of a port set. -/
def State.setLne (s : State) (p v : Nat) : State := s.wrF (LNE_PORT_STATUS p) 3 0 v

/-- R243: a training failure is counted; the third in a row sets ABSENT. -/
def State.trainFail (s : State) (p : Nat) : State :=
  let n := (s.portSt p).fails + 1
  let s := (s.modPort p (fun x => { x with fails := n })).wrF (LNE_PORT_STATUS p) 22 20 (min 7 n)
  if 3 ≤ n ∧ s.rdF (LNE_PORT_STATUS p) 4 4 = 0 then (s.wrF (LNE_PORT_STATUS p) 4 4 1).report Ev.LNE_PORT_ABSENT [p] else s

/-- What a port forgets when it leaves training or service: widths, power states, locks and the training's own record. -/
def State.portClear (s : State) (p : Nat) : State :=
  let s := (s.wrF (LNE_PORT_STATUS p) 15 8 0).wrF (LNE_PORT_STATUS p) 19 16 0
  let s := (s.wrF (LNE_PORT_STATUS p) 6 5 0).wrF (LNE_PORT_LATENCY p) 31 31 0
  let s := ((s.setPortLanes p 0 0).setPortLanes p 1 0).setPortLanes p 2 0
  let s := (List.range 8).foldl (fun s i =>
    let a := LNE_LANE_STATUS (laneOf p i)
    (s.wrF a 6 0 0).wrF a 10 8 0) s
  let s := (List.range 8).foldl (fun s i =>
    s.modLane (laneOf p i) (fun x => { x with uncorr := [], peerReady := false, peerPre := false })) s
  s.modPort p (fun x => { PortSt.init with fails := x.fails })

/-- R250: lanes of a port that are WEAK or whose self-test is queued. -/
def State.testLanes (s : State) (p : Nat) : Nat :=
  (List.range 8).foldl (fun a i =>
    let l := laneOf p i
    let t := bit (s.rd (LNE_LANE_STATUS l)) 7 == 1 || s.tests.any (fun e => e.kind == 3 && e.idx == l)
    a + b2n t * 2 ^ i) 0

/-- Entry to DETECT: transmitters idle, lane self-tests first (R248, R250). -/
def State.enterDetect (s : State) (p : Nat) : State :=
  let s := (s.portClear p).setLne p lneDetect
  let t := s.testLanes p
  s.modPort p (fun x => { x with testing := t })

/-- A port leaves ACTIVE for a reason: counted and reported, and the layers above lose it (R244, R249, R252, R255). -/
def State.leaveActive (s : State) (p reason : Nat) : State :=
  if s.portActive p then
    let s := s.bump (LNE_PORT_RETRAIN_TOTAL p)
    let s := s.wr (LNE_PORT_LAST_DOWN p) (reason + s.lneState p * 16 + (s.fpl.frame % 65536) * 65536)
    let s := (s.report Ev.LNE_PORT_DOWN [p, reason]).setLne p lneDetect
    ((s.linkDown p).sowLag p)
  else s

/-- A port taken to DETECT with a reason, no failure counted. -/
def State.portDown (s : State) (p reason : Nat) : State := (s.leaveActive p reason).enterDetect p

/-- R248: a retrain, when the port trains or is in service. -/
def State.portRetrain (s : State) (p : Nat) : State :=
  if s.lneState p = lneDisabled ∨ s.lneState p = lneTest then s else s.portDown p downRetrain

/-- R242: a port may train: its role is used and ENABLE is set, from stage S2. -/
def State.portMayTrain (s : State) (p : Nat) : Bool :=
  decide (2 ≤ s.stageNow) && (s.portRole p).role != 0 && s.rdF (LNE_PORT_CTRL p) 0 0 == 1

/-- R242, R248: a port put where its ENABLE, its role and MODE say: DISABLED, TEST, or training from DETECT. -/
def State.portSettle (s : State) (p : Nat) : State :=
  if !s.portMayTrain p then
    if s.lneState p = lneDisabled then s
    else (((s.leaveActive p downDisable).portClear p).setLne p lneDisabled)
  else if s.rdF (LNE_PORT_CTRL p) 1 1 = 1 then
    if s.lneState p = lneTest then s else ((s.leaveActive p downTest).portClear p).setLne p lneTest
  else if s.lneState p = lneDisabled ∨ s.lneState p = lneTest then s.enterDetect p
  else s

/-- R256: a lane of the port is in a far-end loop that the partner asked for; the port does not train meanwhile (DEDUCED, log
entry 264). -/
def State.portHeld (s : State) (p : Nat) : Bool := (List.range 8).any (fun i => (s.lane (laneOf p i)).feHeld)

/-- A training state ended without success: reported, and DETECT with a failure (Table 9.6). -/
def State.trainLost (s : State) (p dropped : Nat) : State :=
  ((s.report Ev.LNE_TRAIN_TIMEOUT [p, s.lneState p, dropped]).trainFail p).enterDetect p

/-! ### Training (R242 to R248) -/

/-- R242, R243: signal on lanes of a port in DETECT leads to WAKE; lanes whose signal comes later in WAKE take part too. While lane
self-tests run the port does not listen. -/
def State.signalFound (s : State) (p lanes : Nat) : State :=
  let lanes := lanes &&& (0xFF ^^^ s.excluded p)
  if s.lneState p = lneWake then s.setLanesBit p lanes 0 1
  else if s.lneState p = lneDetect ∧ (s.portSt p).testing = 0 ∧ lanes ≠ 0 ∧ !s.portHeld p then
    let s := ((s.setLne p lneWake).wrF (LNE_PORT_STATUS p) 4 4 0).setLanesBit p lanes 0 1
    s.modPort p (fun x => { x with waiting := false })
  else s

/-- R243: an attempt ends without signal. -/
def State.attemptEnd (s : State) (p : Nat) : State :=
  let x := s.portSt p
  if s.lneState p = lneDetect ∧ x.testing = 0 ∧ !x.waiting ∧ !s.portHeld p then
    (s.trainFail p).modPort p (fun x => { x with waiting := true })
  else s

/-- R243: the backoff wait after n failures, in ms. -/
def backoffMs (n : Nat) : Nat := min (2 ^ (n - 1)) 64

/-- R238: the taps of a preset: |c₋₁|, |c₊₁| (Table 9.5). -/
def presetTaps : Nat → Nat × Nat
  | 2 => (0, 8)
  | 3 => (4, 8)
  | 4 => (4, 16)
  | 5 => (8, 16)
  | _ => (0, 0)

/-- C0 as LNE_LANE_TXEQ shows it in 6 bits; what they read for the peak of 64 is a free value (log entry 269). -/
def txMain (c : Nat) : Nat := if c < 64 then c else (Config.openRead (LNE_LANE_TXEQ 0) c).toNat % 64

/-- LNE_LANE_TXEQ of two taps, a start preset and limit bits. -/
def txEq (pre post preset limits : Nat) : Nat :=
  pre + txMain (64 - pre - post) * 2 ^ 8 + post * 2 ^ 16 + preset * 2 ^ 24 + limits * 2 ^ 27

/-- R238: the start preset for the die band in force, 0 COLD to 4 CRIT (Table 14.2). -/
def State.startPreset (s : State) : Nat :=
  let b := s.rdF THM_STATUS 2 0
  s.rdF LNE_PRESET_BAND (3 * b + 2) (3 * b)

/-- A control block is whole: 32 bytes whose CRC-16 holds (R237). -/
def ctlGood (b : Bytes) : Bool := b.length == 32 && crc16 (sub b 0 30) == leAt b 30 2

/-- A control block of a type, with its CRC. -/
def ctlBlock (b : Bytes) : Bytes := padTo 30 b ++ toLe 2 (crc16 (padTo 30 b))

/-- One tap step: the magnitude moves down for REQ 1 (+1) and up for REQ 2 (−1); a step out of range is not applied and
reports the limit. -/
def tapStep (mag limit req : Nat) : Nat × Nat :=
  if req = 1 then if mag = 0 then (mag, 1) else (mag - 1, 0)
  else if req = 2 then if mag = limit then (mag, 1) else (mag + 1, 0)
  else (mag, 0)

/-- R241: the receiver of a lane asks for precoding. -/
def State.precodeReq (s : State) (p l : Nat) : Bool :=
  let pol := s.rdF (LNE_PORT_CTRL p) 13 12
  pol == 2 || (pol != 0 && decide (48 < (toS 8 (s.rdF (LNE_LANE_RXEQ l) 15 8)).natAbs))

/-- The TRAIN EQ block of a lane (Table 9.3): the answer to a request, or none, and RX_READY, PRECODE_REQ and the figure of
merit of the device's own receiver. What that receiver asks of the partner is left open, and the model asks for nothing (log
entry 293). -/
def State.eqBlock (s : State) (l answer : Nat) : Bytes :=
  let p := l / 8
  let ready := decide (s.rdF LNE_FOM_MIN 7 0 ≤ s.rdF (LNE_LANE_STATUS l) 23 16)
  ctlBlock (toLe 1 0x78 ++ toLe 1 1 ++ toLe 1 lneEq ++ toLe 1 (l % 8) ++ toLe 1 0 ++ toLe 1 0 ++
    toLe 1 (answer + b2n ready * 16 + b2n (s.precodeReq p l) * 32) ++ toLe 1 (s.rdF (LNE_LANE_STATUS l) 23 16))

/-- The TRAIN EQ block of a lane put out. -/
def State.eqSend (s : State) (l answer : Nat) : State := s.put (.ctl (l / 8) 0x78 (s.eqBlock l answer))

/-- Entry to EQ: every transmitter takes the start preset and sends TRAIN blocks of KIND 1 (Table 9.6), which the model shows by the
first of each lane. -/
def State.enterEq (s : State) (p locked : Nat) : State :=
  let pr := s.startPreset
  let t := presetTaps pr
  let s := (s.setLne p lneEq).setLanesBit p locked 1 1
  let s := (List.range 8).foldl (fun s i => s.wr (LNE_LANE_TXEQ (laneOf p i)) (txEq t.1 t.2 pr 0)) s
  let s := (List.range 8).foldl (fun s i => s.eqSend (laneOf p i) 0) s
  let sig := s.laneMask p 0
  s.modPort p (fun x => { x with remain := sig &&& (0xFF ^^^ s.excluded p) })

/-- R238: a TRAIN EQ block on a lane: the transmit taps move and the request is acknowledged, with RX_READY and PRECODE_REQ of the
device's own receiver. -/
def State.eqRequest (s : State) (l : Nat) (b : Bytes) : State :=
  let p := l / 8
  if !ctlGood b ∨ byteAt b 0 ≠ 0x78 ∨ byteAt b 1 ≠ 1 ∨ s.lneState p ≠ lneEq then s
  else
    let cur := s.rd (LNE_LANE_TXEQ l)
    let pre := fld cur 4 0
    let post := fld cur 20 16
    let preset := byteAt b 5
    let req := byteAt b 4
    let (n, m) := if 1 ≤ preset ∧ preset ≤ 5 then (((presetTaps preset).1, 0), ((presetTaps preset).2, 0))
      else (tapStep pre 16 (fld req 1 0), tapStep post 24 (fld req 5 4))
    let s := s.wr (LNE_LANE_TXEQ l) (txEq n.1 m.1 (fld cur 26 24) (n.2 + m.2 * 2))
    let st := byteAt b 6
    let s := s.modLane l (fun x => { x with peerReady := bit st 4 == 1, peerPre := bit st 5 == 1 })
    s.eqSend l (n.2 + m.2 * 2 + 8)

/-- Count of a bin in a histogram of four levels, level by level. -/
def histAt (h : List Nat) (level b : Nat) : Nat := h.getD (256 * level + b) 0

/-- R240: the figure of merit of a histogram. -/
def fomOf (h : List Nat) : Nat :=
  let lo (i : Nat) : Int := (((List.range 256).find? (fun b => decide (2 ≤ histAt h i b))).getD 0 : Nat)
  let hi (i : Nat) : Int := (((List.range 256).reverse.find? (fun b => decide (2 ≤ histAt h i b))).getD 255 : Nat)
  let eye (i : Nat) : Int := lo (i + 1) - hi i
  let m := max 0 (min (eye 0) (min (eye 1) (eye 2)))
  min 255 (255 * m.toNat / 64)

/-- R239: the receiver of a lane adapts: in EQ and in ACTIVE of its port, not in QUIET and SLEEP; on a panel return lane while it
trains and in ACTIVE. -/
def State.adapts (s : State) (l : Nat) : Bool :=
  if l < 32 then
    s.lneState (l / 8) == lneEq || (s.lneState (l / 8) == lneActive && s.rdF (LNE_PORT_STATUS (l / 8)) 19 18 == 0)
  else decide (48 ≤ l) && decide (1 ≤ s.rdF (LNE_PL_STATUS (l - 32)) 2 0) && decide (s.rdF (LNE_PL_STATUS (l - 32)) 2 0 < 6)

/-- R239, R240: a histogram completes on a lane, with what the receiver has adapted to; where adaptation is frozen the settings
stay. In EQ the lane's TRAIN block carries the new figure. -/
def State.histogram (s : State) (l : Nat) (h : List Nat) (ctle dfe : Nat) (taps : List Nat) : State :=
  let on := s.adapts l
  let s := s.wrF (LNE_LANE_STATUS l) 23 16 (fomOf h)
  let s := if on then s.wr (LNE_LANE_RXEQ l) (ctle % 16 + (dfe % 256) * 256) else s
  let s := s.modLane l (fun x => { x with
    hist := (List.range 256).map (fun b => (List.range 4).foldl (fun a i => a + histAt h i b) 0)
    taps := if on then (List.range 12).map (fun i => taps.getD i 0 % 1024) else x.taps })
  if l < 32 ∧ s.lneState (l / 8) = lneEq then s.eqSend l 0 else s

/-- A lane qualifies (R240) with its receiver locked. -/
def State.laneReady (s : State) (l : Nat) : Bool :=
  bit (s.rd (LNE_LANE_STATUS l)) 1 == 1 && decide (s.rdF LNE_FOM_MIN 7 0 ≤ s.rdF (LNE_LANE_STATUS l) 23 16)

/-- Entry to ALIGN with the lanes that remain: each transmitter precodes as the partner's receiver asked for (R241). -/
def State.enterAlign (s : State) (p keep : Nat) : State :=
  let s := (s.setLne p lneAlign).modPort p (fun x => { x with remain := keep })
  let s := (s.setPortLanes p 2 keep).setLanesBit p keep 2 1
  (List.range 8).foldl (fun s i =>
    let l := laneOf p i
    s.wrF (LNE_LANE_STATUS l) 5 5 (b2n (s.lane l).peerPre)) s

/-- Lanes of the remaining ones that are ready on both ends: the receiver qualifies, and the partner has told RX_READY. -/
def State.readyLanes (s : State) (p : Nat) : Nat :=
  ((setBits 8 (s.portSt p).remain).filter (fun i => s.laneReady (laneOf p i) && (s.lane (laneOf p i)).peerReady)).foldl
    (fun a i => a + 2 ^ i) 0

/-- Table 9.6: EQ ends when every lane that remains qualifies with RX_READY on both ends. -/
def State.eqDone (s : State) (p : Nat) : State :=
  let keep := s.readyLanes p
  if s.lneState p = lneEq ∧ keep ≠ 0 ∧ keep = (s.portSt p).remain ∧ !s.portHeld p then s.enterAlign p keep else s

/-- Table 9.6: after 20 ms the lanes that are not ready are dropped. -/
def State.eqTimeout (s : State) (p : Nat) : State :=
  if s.lneState p ≠ lneEq ∨ s.portHeld p then s
  else
    let keep := s.readyLanes p
    let dropped := (s.portSt p).remain - keep
    if keep = 0 then s.trainLost p dropped
    else (s.report Ev.LNE_TRAIN_TIMEOUT [p, lneEq, dropped]).enterAlign p keep

/-- A HANDSHAKE block of the device (Table 9.4): T_TX is this cycle, and TURN counts from the last block received, so that
it is 0 in the answer to that block. -/
def State.handshakeOut (s : State) (p : Nat) (ack : Bool) : State :=
  let x := s.portSt p
  let own := x.remain &&& (0xFF ^^^ s.excluded p)
  let w := widthWithin (min (popCount 8 own) (s.maxWidth p))
  let s := s.put (.ctl p 0x78 (ctlBlock (toLe 1 0x78 ++ toLe 1 2 ++ toLe 8 fusedId ++ toLe 1 p ++ toLe 1 w ++
    toLe 1 (lowestLanes own w) ++ toLe 1 s.stageNow ++ toLe 1 1 ++ toLe 1 (b2n ack) ++ toLe 4 s.now ++ toLe 4 x.lastTx ++
    toLe 4 ((x.lastRx.map (s.now - ·)).getD 0))))
  s.modPort p (fun x => { x with sentTx := x.sentTx.insert (s.now % 2 ^ 32) })

/-- Entry to HANDSHAKE with the lanes that remain, each decoding as the partner's alignment markers report (R241). -/
def State.enterHandshake (s : State) (p keep precode : Nat) : State :=
  let s := (s.setLne p lneHandshake).setPortLanes p 2 keep
  let s := ((s.setLanesBit p keep 3 1).setLanesBit p 0xFF 6 0).setLanesBit p (keep &&& precode) 6 1
  let s := s.modPort p (fun x => { x with
    remain := keep, ackGot := false, ackSent := 0, sentTx := [], lastEcho := none, samples := [] })
  s.handshakeOut p false

/-- Table 9.6: ALIGN ends when every remaining lane holds AM lock within the skew limit. -/
def State.alignDone (s : State) (p aligned precode : Nat) : State :=
  let r := (s.portSt p).remain
  if s.lneState p = lneAlign ∧ r ≠ 0 ∧ r &&& aligned = r ∧ !s.portHeld p then s.enterHandshake p r precode else s

/-- Table 9.6: after 1 ms the lanes that are not aligned are dropped. -/
def State.alignTimeout (s : State) (p aligned precode : Nat) : State :=
  if s.lneState p ≠ lneAlign ∨ s.portHeld p then s
  else
    let r := (s.portSt p).remain
    let keep := r &&& aligned
    if keep = 0 then s.trainLost p r
    else (s.report Ev.LNE_TRAIN_TIMEOUT [p, lneAlign, r - keep]).enterHandshake p keep precode

/-- R245: the port enters ACTIVE: widths, masks, latency, and a credit synchronisation (R270). -/
def State.enterActive (s : State) (p : Nat) : State :=
  let x := s.portSt p
  let own := x.remain &&& (0xFF ^^^ s.excluded p)
  let rw := widthWithin (min (popCount 8 own) (s.maxWidth p))
  let rm := lowestLanes own rw
  let s := (s.setLne p lneActive).wrF (LNE_PORT_STATUS p) 11 8 x.peerWidth
  let s := s.wrF (LNE_PORT_STATUS p) 15 12 rw
  let s := (s.setPortLanes p 0 x.peerMask).setPortLanes p 1 rm
  let s := ((setBits 8 rm).zipIdx).foldl (fun s e =>
    (s.wrF (LNE_LANE_STATUS (laneOf p e.1)) 4 4 1).wrF (LNE_LANE_STATUS (laneOf p e.1)) 10 8 e.2) s
  let lat := roundDivN x.samples.sum 32
  let s := s.wr (LNE_PORT_LATENCY p) (min lat (2 ^ 20 - 1) + 2 ^ 31)
  let s := (s.wrF (LNE_PORT_STATUS p) 4 4 0).wrF (LNE_PORT_STATUS p) 22 20 0
  let s := s.modPort p (fun x => { x with fails := 0 })
  let s := { s with boot := { s.boot with portsUp := s.boot.portsUp ||| 2 ^ p } }
  let s := s.report Ev.LNE_PORT_UP [p, x.peerWidth + rw * 65536, lat]
  let s := if rw < s.maxWidth p ∨ x.peerWidth < s.maxWidth p then s.report Ev.LNE_WIDTH_DEGRADED [p, x.peerWidth, rw] else s
  (s.modLnk p (fun y => { y with inStep := true, nakOut := false })).syncStart p

/-- R246: the peer is refused; the port sends HANDSHAKE with ACK clear. -/
def State.refusePeer (s : State) (p reason : Nat) : State :=
  let s := if s.rdF (LNE_PORT_STATUS p) 6 6 = 1 then s
    else (s.wrF (LNE_PORT_STATUS p) 6 6 1).report Ev.LNE_PEER_REFUSED [p, reason]
  s.handshakeOut p false

/-- R246: a port takes HANDSHAKE blocks in HANDSHAKE, and in the ALIGN that a silent port repeats. -/
def State.shaking (s : State) (p : Nat) : Bool :=
  s.lneState p == lneHandshake || (s.lneState p == lneAlign && s.rdF (LNE_PORT_STATUS p) 5 5 == 1)

/-- R245 to R247: a HANDSHAKE block is received. The device answers each with one of its own, which is the rate at which both
ends send them. A refused port sends its blocks with ACK clear and stays (R246). -/
def State.handshake (s : State) (p : Nat) (b : Bytes) : State :=
  if !ctlGood b ∨ byteAt b 0 ≠ 0x78 ∨ byteAt b 1 ≠ 2 ∨ !s.shaking p then s
  else
    let s := s.modPort p (fun x => { x with lastTx := leAt b 16 4, lastRx := some s.now })
    if s.rdF (LNE_PORT_STATUS p) 6 6 = 1 then s.handshakeOut p false
    else
    let s := (s.setLne p lneHandshake).wrF (LNE_PORT_STATUS p) 5 5 0
    let s := (s.wr (LNE_PORT_PEER_LO p) (leAt b 2 4)).wr (LNE_PORT_PEER_HI p) (leAt b 6 4)
    let s := s.wr (LNE_PORT_PEER_INFO p) (byteAt b 10 % 4 + (byteAt b 13 % 8) * 256 + byteAt b 14 * 65536)
    if leAt b 2 8 = fusedId then s.refusePeer p 1
    else if byteAt b 14 ≠ 1 then s.refusePeer p 2
    else
      let x := s.portSt p
      let echo := leAt b 20 4
      let rtt := (s.now + 2 ^ 33 - echo - leAt b 24 4) % 2 ^ 32
      let fresh := x.sentTx.contains echo && x.lastEcho != some echo && decide (x.samples.length < 16)
      let s := s.modPort p (fun x => { x with
        silent := 0, peerWidth := byteAt b 11 % 16, peerMask := byteAt b 12, ackGot := x.ackGot || bit (byteAt b 15) 0 == 1
        ackSent := x.ackSent + 1
        lastEcho := if fresh then some echo else x.lastEcho
        samples := if fresh then x.samples ++ [rtt] else x.samples })
      let s := s.handshakeOut p true
      let x := s.portSt p
      if x.ackGot ∧ 16 ≤ x.ackSent ∧ x.samples.length = 16 then s.enterActive p else s

/-- R246: 10 ms without a HANDSHAKE; the third such wait sets PEER_SILENT. -/
def State.handshakeSilence (s : State) (p : Nat) : State :=
  if s.lneState p ≠ lneHandshake ∨ s.rdF (LNE_PORT_STATUS p) 6 6 = 1 then s
  else
    let n := (s.portSt p).silent + 1
    let s := s.modPort p (fun x => { x with silent := min 3 n })
    if 3 ≤ n ∧ s.rdF (LNE_PORT_STATUS p) 5 5 = 0 then (s.wrF (LNE_PORT_STATUS p) 5 5 1).report Ev.LNE_PEER_SILENT [p]
    else s

/-- R246: once per second a silent port repeats ALIGN and a HANDSHAKE attempt. -/
def State.silentRetry (s : State) (p : Nat) : State :=
  if s.lneState p = lneHandshake ∧ s.rdF (LNE_PORT_STATUS p) 6 5 = 1 then s.setLne p lneAlign else s

/-- A port's failure to train is counted where a return to DETECT from WAKE, EQ or ALIGN is (R243). -/
def State.failIfTraining (s : State) (p : Nat) : State :=
  if lneWake ≤ s.lneState p ∧ s.lneState p ≤ lneAlign then s.trainFail p else s

/-- R244: loss of signal on a lane that is in use. A sleeping receiver does not detect it (Table 9.7). From WAKE, EQ and ALIGN
the return to DETECT counts as a failure (R243). -/
def State.lossOfSignal (s : State) (p i : Nat) : State :=
  let st := s.lneState p
  let used := if st = lneActive then bit (s.rdF (LNE_PORT_LANES p) 15 8) i == 1
    else if st = lneWake then bit (s.rd (LNE_LANE_STATUS (laneOf p i))) 0 == 1 && bit (s.excluded p) i == 0
    else bit (s.portSt p).remain i == 1
  if st < lneWake ∨ lneActive < st ∨ !used then s
  else if st = lneActive then if s.rdF (LNE_PORT_STATUS p) 19 18 = 2 then s else s.portDown p downLos
  else
    ((s.report Ev.LNE_TRAIN_TIMEOUT [p, st, 2 ^ i]).failIfTraining p).enterDetect p

/-! ### Panel lanes (R257, R258) -/

/-- A panel lane's record changed. -/
def State.modPanel (s : State) (m : Nat) (f : PanelLane → PanelLane) : State :=
  { s with lne := { s.lne with panels := smod PanelLane.init s.lne.panels m f } }

/-- States of a panel lane (Table 9.17). -/
def plDown : Nat := 0
def plDetect : Nat := 1
def plWake : Nat := 2
def plRetry : Nat := 6

/-- A panel lane's state set. -/
def State.setPl (s : State) (m v : Nat) : State := s.wrF (LNE_PL_STATUS m) 2 0 v

/-- A panel lane may train: it is enabled, the panel's lanes run (from the work of S4 on), and an excluded return lane stays
out (R250). -/
def State.plMayTrain (s : State) (m : Nat) : Bool :=
  s.rdF (LNE_PL_CTRL m) 0 0 == 1 && !(decide (16 ≤ m) && bit (s.rd (LNE_LANE_STATUS (32 + m))) 11 == 1)

/-- A panel lane starts its training sequence. -/
def State.plStart (s : State) (m : Nat) : State :=
  if s.plMayTrain m then
    let s := s.modPanel m (fun x => { x with await := false, polls := 0, since := s.now })
    s.setPl m (if m < 16 then plWake else plDetect)
  else s.setPl m plDown

/-- Table 9.9: a panel lane is in its training sequence. -/
def State.plTraining (s : State) (m : Nat) : Bool := decide (plDetect ≤ s.plState m) && decide (s.plState m < plActive)

/-- LNE_PL_STATUS.STATE as it reads: an out lane in training passes WAKE, EQ and ALIGN by the clock (Table 9.9); which of its
training states a return lane is in is a free value (log entry 272). -/
def State.plStage (s : State) (m : Nat) : Nat :=
  if !s.plTraining m then s.plState m
  else if m < 16 then
    let t := s.now - (s.panelLane m).since
    if t < 320000 then plWake else if t < 1920000 then 3 else 4
  else plDetect + (Config.openRead (LNE_PL_STATUS m) s.now).toNat % 4

/-- LNE_PL_CTRL.PRESET: 1 to 5, other values act as 3 (Table 9.17). -/
def State.plPreset (s : State) (m : Nat) : Nat :=
  let v := s.rdF (LNE_PL_CTRL m) 4 2
  if 1 ≤ v ∧ v ≤ 5 then v else 3

/-- R258: a panel lane fails to train: counted as a failure, reported with its reason, retried later. An out lane that fails for
want of its STATUS departs from ACTIVE. -/
def State.plFail (s : State) (m reason : Nat) : State :=
  let n := (s.panelLane m).fails + 1
  let s := if s.plState m = plActive then s.bump (LNE_PL_RETRAIN_TOTAL m) else s
  let s := (s.modPanel m (fun x => { x with fails := n, await := false, polls := 0 })).setPl m plRetry
  let s := s.wrF (LNE_PL_STATUS m) 6 4 (min 7 n)
  let s := if 3 ≤ n then s.wrF (LNE_PL_STATUS m) 3 3 1 else s
  s.report Ev.LNE_PANEL_LANE_DOWN [32 + m, reason]

/-- A panel lane leaves ACTIVE. -/
def State.plLeave (s : State) (m reason : Nat) : State :=
  if s.plState m = plActive then
    let s := (s.bump (LNE_PL_RETRAIN_TOTAL m)).wr (LNE_LANE_STATUS (32 + m)) (s.rd (LNE_LANE_STATUS (32 + m)) &&& (0xFFFFFFFF ^^^ 0xF))
    let s := (s.modPanel m (fun x => { x with await := false, polls := 0 })).setPl m plRetry
    s.report Ev.LNE_PANEL_LANE_DOWN [32 + m, reason]
  else s

/-- Table 9.9: an out lane's transmitter as LNE_PL_CTRL states: its preset and its precoding (log entry 271). -/
def State.plTransmit (s : State) (m : Nat) : State :=
  let t := presetTaps (s.plPreset m)
  (s.wr (LNE_LANE_TXEQ (32 + m)) (txEq t.1 t.2 (s.plPreset m) 0)).wrF (LNE_LANE_STATUS (32 + m)) 5 5 (s.rdF (LNE_PL_CTRL m) 5 5)

/-- Table 9.9: a panel lane's training sequence has ended: ACTIVE. An out lane is trained once the STATUS packet comes. A lane
under self-test does not train (R258). -/
def State.plTrainDone (s : State) (m : Nat) : State :=
  if !s.plTraining m ∨ (s.panelLane m).testing ∨ !s.plMayTrain m then s
  else
    let s := if m < 16 then s.plTransmit m else s
    let s := (s.setPl m plActive).modPanel m (fun x => { x with await := decide (m < 16), polls := 0, fails := if m < 16 then x.fails else 0 })
    let s := if m < 16 then s
      else ((s.wrF (LNE_PL_STATUS m) 6 3 0).wr (LNE_LANE_STATUS (32 + m)) (s.rd (LNE_LANE_STATUS (32 + m)) ||| 0xF))
    s.report Ev.LNE_PANEL_LANE_UP [32 + m]

/-- A STATUS packet of the driver that an out lane serves has come: the lane is trained, its count of failures clears. -/
def State.plStatus (s : State) (m : Nat) : State :=
  if s.plState m = plActive then
    (s.modPanel m (fun x => { x with await := false, polls := 0, fails := 0 })).wrF (LNE_PL_STATUS m) 6 3 0
  else s

/-- R257: the STATUS packet that completes an out lane's training has not come within 10 ms; a return lane's training state
has timed out (Table 9.6). -/
def State.plTrainTimeout (s : State) (m : Nat) : State :=
  if m < 16 then if s.plState m = plActive ∧ (s.panelLane m).await then s.plFail m 2 else s
  else if s.plTraining m then s.plFail m 1 else s

/-- R258: queued panel lane self-tests run in a headland: the lane leaves ACTIVE, or stops its training, for the test. -/
def State.panelTests (s : State) : State :=
  (List.range 18).foldl (fun s m =>
    if s.tests.any (fun t => t.kind == 3 && t.idx == 32 + m) ∧ !(s.panelLane m).testing then
      let s := s.plLeave m 4
      (if s.plTraining m then s.setPl m plRetry else s).modPanel m (fun x => { x with testing := true })
    else s) s

/-! ### Errors and self-tests (R249, R250) -/

/-- A lane marked WEAK, with its self-test queued as a fault. -/
def State.markWeak (s : State) (l : Nat) : State := (s.wrF (LNE_LANE_STATUS l) 7 7 1).queueTest 3 l true

/-- R249, R262: an uncorrectable codeword on a lane. Its 20 blocks arrive marked bad, so the link layer leaves step. -/
def State.fecUncorrectable (s : State) (l : Nat) : State :=
  let s := s.bump (LNE_LANE_UNCORR_TOTAL l)
  if 32 ≤ l then s
  else
    let p := l / 8
    let s := if s.lne.fecTick.contains p then s
      else { s.report Ev.LNE_FEC_UNCORRECTABLE [p] with lne := { (s.report Ev.LNE_FEC_UNCORRECTABLE [p]).lne with fecTick := p :: s.lne.fecTick } }
    let times := s.now :: (s.lane l).uncorr.filter (fun t => decide (s.now - t < 1600000))
    let s := s.modLane l (fun x => { x with uncorr := times })
    if 16 ≤ times.length then
      let s := (s.modLane l (fun x => { x with uncorr := [] })).markWeak l
      if s.lneState p = lneDisabled ∨ s.lneState p = lneTest then s else (s.failIfTraining p).portDown p downErrors
    else s

/-- R249: corrected symbols of a lane within 1 s. -/
def State.correctedSymbols (s : State) (l n : Nat) : State :=
  let s := s.bumpBy (LNE_LANE_CORR_TOTAL l) n
  if 2 ^ 20 < n then (s.markWeak l).report Ev.LNE_LANE_WEAK [l] else s

/-- R250, R258: a lane's self-test ends with its count of bit errors. -/
def State.laneTestDone (s : State) (l errors : Nat) : State :=
  let p := l / 8
  let running := if l < 32 then bit (s.portSt p).testing (l % 8) == 1 else (s.panelLane (l - 32)).testing
  if !running then s
  else
    let weak := bit (s.rd (LNE_LANE_STATUS l)) 7 == 1
    let faulted := weak || s.tests.any (fun t => t.kind == 3 && t.idx == l && t.faulted)
    let (s, cls) := s.testResult Ev.LNE_SELFTEST_RESULT 3 l faulted (decide (errors ≠ 0)) (min errors 0xFFFFFFFF)
    let s := (s.wrF (LNE_LANE_STATUS l) 13 12 cls).wr LNE_SELFTEST_LAST (l + cls * 256 + (min errors 65535) * 65536)
    let s := if cls = 3 then s.wrF (LNE_LANE_STATUS l) 11 11 1 else s.wrF (LNE_LANE_STATUS l) 7 7 0
    if l < 32 then
      let s := s.setPortLanes p 3 (s.excluded p)
      s.modPort p (fun x => { x with testing := putFld x.testing (l % 8) (l % 8) 0 })
    else
      let m := l - 32
      (s.modPanel m (fun x => { x with testing := false })).plStart m

/-- R250: EXCLUDED cleared on every lane of a port. -/
def State.clearExclude (s : State) (p : Nat) : State := (s.setLanesBit p 0xFF 11 0).setPortLanes p 3 0

/-- LNE_SELFTEST_REQ (R250, R258): a request without an error behind it. -/
def State.laneTestReq (s : State) (v : Nat) : State := if v % 64 < 50 then s.queueTest 3 (v % 64) false else s

/-! ### Power states (Table 9.7, R251 to R253, R280) -/

/-- R280: the transmit direction of a port may leave the ACTIVE power state. -/
def State.mayRest (s : State) (p level : Nat) : Bool :=
  s.portActive p && s.treeOf p == 3 && (s.portRole p).rects.isEmpty && decide (level ≤ (s.portRole p).power)

/-- Nothing to send and nothing due on a port. -/
def State.txIdle (s : State) (p : Nat) : Bool :=
  let x := s.lnkPort p
  x.txq.isEmpty && x.abortDue.isEmpty && x.ackOwed == 0 && !x.freeOwed && !x.nakDue && !x.syncing

/-- TX_POWER and RX_POWER. -/
def State.txPower (s : State) (p : Nat) : Nat := s.rdF (LNE_PORT_STATUS p) 17 16
def State.rxPower (s : State) (p : Nat) : Nat := s.rdF (LNE_PORT_STATUS p) 19 18
def State.setRxPower (s : State) (p v : Nat) : State := s.wrF (LNE_PORT_STATUS p) 19 18 v

/-- R280: the direction asks for QUIET after 2 µs of idleness: the countdown blocks go out. -/
def State.quietRequest (s : State) (p : Nat) : State :=
  if s.mayRest p 1 ∧ s.txPower p = 0 ∧ (s.portSt p).txEntry = 0 ∧ s.txIdle p then
    (s.put (.ctl p 0x2D (ctlBlock [0x2D#8, 3#8]))).modPort p (fun x => { x with txEntry := 1 })
  else s

/-- R280: after 10 ms in QUIET the direction asks for SLEEP. -/
def State.sleepRequest (s : State) (p : Nat) : State :=
  if s.mayRest p 2 ∧ s.txPower p = 1 ∧ (s.portSt p).txEntry = 0 then
    (s.put (.ctl p 0x33 (ctlBlock [0x33#8, 3#8]))).modPort p (fun x => { x with txEntry := 2 })
  else s

/-- The transmit direction runs again: what waited goes out, and the liveness NOP. -/
def State.txResume (s : State) (p : Nat) : State :=
  let s := s.modPort p (fun x => { x with waking := false, wakePend := false })
  ((s.wrF (LNE_PORT_STATUS p) 17 16 0).sendDue p).pump p

/-- R253: a wake request of the transmit direction. -/
def State.wakeRequest (s : State) (p : Nat) : State :=
  if !s.portActive p then s
  else if (s.portSt p).txEntry = 0 ∧ s.txPower p = 1 then s.txResume p
  else s.wakeTx p

/-- R253, Table 9.7: the countdown of the transmit direction ends: the pattern or the idle begins; a wake that came during
the countdown starts at once for QUIET and after the residency for SLEEP. -/
def State.txEntryDone (s : State) (p : Nat) : State :=
  let e := (s.portSt p).txEntry
  if e = 0 ∨ !s.portActive p then s
  else
    let s := (s.modPort p (fun x => { x with txEntry := 0, resident := false })).wrF (LNE_PORT_STATUS p) 17 16 e
    if e = 1 ∧ (s.portSt p).wakePend then s.txResume p else s

/-- R253: the minimum residency of SLEEP ends, and a pending wake starts. -/
def State.residencyEnd (s : State) (p : Nat) : State :=
  if s.portActive p ∧ s.txPower p = 2 then
    s.modPort p (fun x => { x with resident := true, waking := x.wakePend, wakePend := false })
  else s

/-- R280: a sleeping direction wakes once per second to send one LCTL NOP. -/
def State.livenessWake (s : State) (p : Nat) : State :=
  if s.portActive p ∧ s.txPower p = 2 then (s.modPort p (fun x => { x with nopDue := true })).wakeTx p else s

/-- R252: a waking receiver failed. -/
def State.wakeFail (s : State) (p : Nat) : State := (s.report Ev.LNE_SLEEP_WAKE_FAIL [p]).portDown p downWakeFail

/-! ### Loops and patterns (R254 to R256) -/

/-- A lane accepts loop and PRBS settings: its port is in TEST, or it is a panel lane. -/
def State.testable (s : State) (l : Nat) : Bool := decide (32 ≤ l) || s.rdF (LNE_PORT_CTRL (l / 8)) 1 1 == 1

/-- The loop in force: FE on a panel lane acts as none (R257). -/
def State.loopOf (s : State) (l : Nat) : Nat :=
  let v := s.rdF (LNE_LANE_LOOP l) 1 0
  if 32 ≤ l ∧ v = 3 then 0 else v

/-- Bits checked so far at 60 Gb/s, 37.5 bits in a core cycle (R233, R254), in 48 bits. -/
def State.prbsBits (s : State) (l : Nat) : Nat :=
  let x := s.lane l
  (x.bits + match x.chkFrom with
    | some t => (s.now - t) * 75 / 2
    | none => 0) % 2 ^ 48

/-- The checker of a lane is synchronised: in a loop inside the lane it hears the lane's own generator; with no such loop it hears
the partner, in FE its own pattern come back, and whether it is synchronised there is a free value (log entry 118). -/
def State.prbsLocked (s : State) (l : Nat) : Bool :=
  bit (s.rd (LNE_LANE_PRBS_CTRL l)) 1 == 1 &&
    (if s.loopOf l = 1 ∨ s.loopOf l = 2 then bit (s.rd (LNE_LANE_PRBS_CTRL l)) 0 == 1
    else (Config.openRead (LNE_LANE_PRBS_CTRL l) s.now).toNat % 2 == 1)

/-- The checker's account after a change of loop or control. -/
def State.prbsUpdate (s : State) (l : Nat) : State :=
  let n := s.prbsBits l
  let on := s.prbsLocked l
  (s.modLane l (fun x => { x with bits := n, chkFrom := if on then some s.now else none })).wrF (LNE_LANE_PRBS_CTRL l) 5 5 (b2n on)

/-- R254: CLEAR. -/
def State.prbsClear (s : State) (l : Nat) : State :=
  if s.testable l then
    (s.wr (LNE_LANE_PRBS_ERR l) 0).modLane l (fun x => { x with bits := 0, chkFrom := x.chkFrom.map (fun _ => s.now) })
  else s

/-- R254: INJECT inverts one transmitted bit; a checker that hears the lane counts one bit error. -/
def State.prbsInject (s : State) (l : Nat) : State :=
  if s.testable l ∧ bit (s.rd (LNE_LANE_PRBS_CTRL l)) 0 = 1 then
    let s := s.put (.ctl (if l < 32 then l / 8 else 4) 0 (toLe 1 l))
    if s.rdF (LNE_LANE_PRBS_CTRL l) 5 5 = 1 ∧ s.loopOf l ≠ 0 then s.bump (LNE_LANE_PRBS_ERR l) else s
  else s

/-- R254, R255: a write of LNE_LANE_PRBS_CTRL: CLEAR and INJECT act, the other bits are stored. -/
def State.prbsCtrl (s : State) (l v : Nat) : State :=
  if s.testable l then
    let s := (s.regWrite (LNE_LANE_PRBS_CTRL l) v).prbsUpdate l
    let s := if bit v 3 = 1 then s.prbsClear l else s
    if bit v 4 = 1 then s.prbsInject l else s
  else s

/-- R255, R256: a write of LNE_LANE_LOOP; FE on a port lane sends TRAIN blocks of KIND 3 with ENTER. -/
def State.loopWrite (s : State) (l v : Nat) : State :=
  if s.testable l then
    let s := (s.wr (LNE_LANE_LOOP l) (v % 4)).prbsUpdate l
    if v % 4 = 3 ∧ l < 32 then s.put (.ctl (l / 8) 0x78 (ctlBlock [0x78#8, 3#8, 1#8])) else s
  else s

/-- R255: a write of MODE: TEST claims the port (class 5) for software and takes it out of ACTIVE; NORMAL releases it. -/
def State.modeWrite (s : State) (p : Nat) (test : Bool) : State :=
  let now := s.rdF (LNE_PORT_CTRL p) 1 1 == 1
  if test == now then s
  else if test then
    let (s, ok) := s.claim 5 p 0x0100
    if ok then (s.wrF (LNE_PORT_CTRL p) 1 1 1).portSettle p else s
  else ((s.unclaim 5 p 0x0100).wrF (LNE_PORT_CTRL p) 1 1 0).portSettle p

/-- R242, R248: a write of ENABLE. -/
def State.enableWrite (s : State) (p : Nat) (v : Bool) : State :=
  if s.rdF (LNE_PORT_CTRL p) 0 0 = b2n v then s
  else (s.wrF (LNE_PORT_CTRL p) 0 0 (b2n v)).portSettle p

/-- A host write of LNE_PORT_CTRL (Table 9.13), field by field. -/
def State.portCtrl (s : State) (p v : Nat) : State :=
  let w := fld v 11 8
  let s := if w = 8 ∨ w = 4 ∨ w = 2 ∨ w = 1 then s.wrF (LNE_PORT_CTRL p) 11 8 w else s
  let s := (s.wrF (LNE_PORT_CTRL p) 3 3 (bit v 3)).wrF (LNE_PORT_CTRL p) 13 12 (fld v 13 12)
  let s := if bit v 4 = 1 then s.clearExclude p else s
  let s := (s.enableWrite p (bit v 0 == 1)).modeWrite p (bit v 1 == 1)
  if bit v 2 = 1 then s.portRetrain p else s

/-- R256: the partner asks for the far-end loop on a lane. -/
def State.feRequest (s : State) (l : Nat) (b : Bytes) : State :=
  let p := l / 8
  let st := s.lneState p
  if ctlGood b ∧ byteAt b 0 = 0x78 ∧ byteAt b 1 = 3 ∧ bit (byteAt b 2) 0 = 1 ∧ s.rdF (LNE_PORT_CTRL p) 3 3 = 1 ∧
      (lneDetect ≤ st ∧ st ≤ lneAlign) ∧ !(s.lane l).feHeld then
    (s.modLane l (fun x => { x with feHeld := true })).report Ev.LNE_FE_LOOP [1]
  else s

/-- R256: the far-end loop ends, and the port enters DETECT. -/
def State.feEnd (s : State) (l : Nat) : State :=
  if (s.lane l).feHeld then
    let s := s.modLane l (fun x => { x with feHeld := false })
    let s := if s.lneState (l / 8) = lneDisabled ∨ s.lneState (l / 8) = lneTest then s
      else (s.failIfTraining (l / 8)).portDown (l / 8) downRetrain
    s.report Ev.LNE_FE_LOOP [0]
  else s

/-- R258: RETRAIN of a panel lane: an ACTIVE lane leaves and is retried after the backoff, a lane in training starts anew. -/
def State.plRetrain (s : State) (m : Nat) : State :=
  if s.plState m = plActive then s.plLeave m 3 else if s.plTraining m then s.plStart m else s

/-- A write of LNE_PL_CTRL (Table 9.17): RETRAIN and ENABLE act. -/
def State.plCtrl (s : State) (m v : Nat) : State :=
  let was := s.rdF (LNE_PL_CTRL m) 0 0
  let s := s.wr (LNE_PL_CTRL m) ((v &&& 0x3D) &&& (if m < 16 then 0x3D else 0x1D))
  if bit v 0 = 0 then if s.plState m = plDown then s else (s.plLeave m 3).setPl m plDown
  else if was = 0 ∧ 3 ≤ s.stageNow then s.plStart m
  else if bit v 1 = 1 then s.plRetrain m else s

/-- The lane layer's computed registers. -/
def State.lneView (s : State) (a : Nat) : Option Nat :=
  if a = LNE_STATUS then
    some ((List.range 4).foldl (fun n p => n + b2n (s.portActive p) * 2 ^ p +
        b2n (s.portActive p && (decide (s.rdF (LNE_PORT_STATUS p) 11 8 < s.maxWidth p) ||
          decide (s.rdF (LNE_PORT_STATUS p) 15 12 < s.maxWidth p))) * 2 ^ (4 + p)) 0 +
      (List.range 18).foldl (fun n m => n + b2n (s.plState m == plActive) * 2 ^ (8 + m)) 0)
  else
    (List.range 50).findSome? (fun l =>
      if 32 ≤ l ∧ l < 48 ∧ s.plTraining (l - 32) ∧ 3 ≤ s.plStage (l - 32) ∧ (a = LNE_LANE_TXEQ l ∨ a = LNE_LANE_STATUS l) then
        some ((s.plTransmit (l - 32)).rd a)
      else
      if a = LNE_LANE_FFE l then some ((s.lane l).taps.getD (s.rdF (LNE_LANE_FFE_SEL l) 3 0) 0)
      else if a = LNE_LANE_HIST l then some (satN 21 ((s.lane l).hist.getD (s.rdF (LNE_LANE_HIST_SEL l) 7 0) 0))
      else if a = LNE_LANE_PRBS_BITS_LO l then some (s.prbsBits l % 2 ^ 32)
      else if 32 ≤ l ∧ a = LNE_PL_STATUS (l - 32) then some (s.plStage (l - 32) + s.rdF a 6 3 * 8)
      else none)

/-! ### The commands -/

/-- LANE_SIGNAL_DETECT (R242). -/
def execLaneSignalDetect (port : Fin 4) (lanes : BitVec 8) (s : State) : Host.Outcome State Fault Refusal :=
  .next (s.signalFound port.val lanes.toNat)

/-- TRAIN_ATTEMPT_END (R243). -/
def execTrainAttemptEnd (port : Fin 4) (s : State) : Host.Outcome State Fault Refusal := .next (s.attemptEnd port.val)

/-- TRAIN_BACKOFF_END (R243): a new attempt starts. -/
def execTrainBackoffEnd (port : Fin 4) (s : State) : Host.Outcome State Fault Refusal :=
  .next (s.modPort port.val (fun x => { x with waiting := false }))

/-- WAKE_LOCK (R242): the lanes named have clock lock and 2^16 symbols without error; an EXCLUDED lane takes no part (R250). -/
def execWakeLock (port : Fin 4) (lanes : BitVec 8) (s : State) : Host.Outcome State Fault Refusal :=
  let locked := lanes.toNat &&& (0xFF ^^^ s.excluded port.val)
  .next (if s.lneState port.val = lneWake ∧ locked ≠ 0 ∧ !s.portHeld port.val then s.enterEq port.val locked else s)

/-- WAKE_TIMEOUT (R242). -/
def execWakeTimeout (port : Fin 4) (s : State) : Host.Outcome State Fault Refusal :=
  .next (s.oneCycle fun s => if s.lneState port.val = lneWake ∧ !s.portHeld port.val then s.trainLost port.val (s.laneMask port.val 0) else s)

/-- EQ_REQUEST_RECEIVE (R238). -/
def execEqRequestReceive (lane : Fin 32) (block : Bytes) (s : State) : Host.Outcome State Fault Refusal :=
  .next (s.eqRequest lane.val block)

/-- FOM_HISTOGRAM_DONE (R240). -/
def execFomHistogramDone (lane : Fin 50) (counts : List Nat) (ctle : BitVec 4) (dfe : BitVec 8) (taps : List (BitVec 10)) (s : State) :
    Host.Outcome State Fault Refusal :=
  .next (s.histogram lane.val counts ctle.toNat dfe.toNat (taps.map BitVec.toNat))

/-- EQ_DONE (R242). -/
def execEqDone (port : Fin 4) (s : State) : Host.Outcome State Fault Refusal := .next (s.eqDone port.val)

/-- EQ_TIMEOUT (R242). -/
def execEqTimeout (port : Fin 4) (s : State) : Host.Outcome State Fault Refusal :=
  .next (s.oneCycle fun s => s.eqTimeout port.val)

/-- ALIGN_DONE (R242), with the lanes whose alignment markers report precoding (R241). -/
def execAlignDone (port : Fin 4) (lanes : AlignLanes) (s : State) : Host.Outcome State Fault Refusal :=
  .next (s.alignDone port.val lanes.lock.toNat lanes.precode.toNat)

/-- ALIGN_TIMEOUT (R242), with the lanes whose alignment markers report precoding (R241). -/
def execAlignTimeout (port : Fin 4) (lanes : AlignLanes) (s : State) : Host.Outcome State Fault Refusal :=
  .next (s.oneCycle fun s => s.alignTimeout port.val lanes.lock.toNat lanes.precode.toNat)

/-- HANDSHAKE_RECEIVE (R245). -/
def execHandshakeReceive (port : Fin 4) (block : Bytes) (s : State) : Host.Outcome State Fault Refusal :=
  .next (s.oneCycle fun s => s.handshake port.val block)

/-- HANDSHAKE_SILENCE (R246). -/
def execHandshakeSilence (port : Fin 4) (s : State) : Host.Outcome State Fault Refusal := .next (s.handshakeSilence port.val)

/-- PEER_SILENT_RETRY (R246). -/
def execPeerSilentRetry (port : Fin 4) (s : State) : Host.Outcome State Fault Refusal := .next (s.silentRetry port.val)

/-- LOSS_OF_SIGNAL (R244): on a lane of a port, or on a return lane of the panel (48, 49). -/
def execLossOfSignal (lane : Fin 50) (s : State) : Host.Outcome State Fault Refusal :=
  .next (s.oneCycle fun s => if lane.val < 32 then s.lossOfSignal (lane.val / 8) (lane.val % 8)
    else if 48 ≤ lane.val then s.plLeave (lane.val - 32) 1 else s)

/-- FEC_UNCORRECTABLE (R249). -/
def execFecUncorrectable (lane : Fin 50) (s : State) : Host.Outcome State Fault Refusal :=
  .next (s.oneCycle fun s => s.fecUncorrectable lane.val)

/-- LANE_CORRECTED_LIMIT (R249): the symbols corrected on a lane within 1 s. -/
def execLaneCorrectedLimit (lane : Fin 50) (symbols : Nat) (s : State) : Host.Outcome State Fault Refusal :=
  .next (s.correctedSymbols lane.val symbols)

/-- LANE_SELFTEST_DONE (R250, R258). -/
def execLaneSelftestDone (lane : Fin 50) (errors : Nat) (s : State) : Host.Outcome State Fault Refusal :=
  .next (s.laneTestDone lane.val errors)

/-- LNE_PORT_RETRAIN (R248). -/
def execLnePortRetrain (port : Fin 4) (s : State) : Host.Outcome State Fault Refusal :=
  if s.shut .service (LNE_PORT_CTRL port.val) then .next (s.turnedAway .service (LNE_PORT_CTRL port.val)) else
  .next (s.oneCycle fun s => s.portRetrain port.val)

/-- LNE_PORT_CLEAR_EXCLUDE (R250). -/
def execLnePortClearExclude (port : Fin 4) (s : State) : Host.Outcome State Fault Refusal :=
  if s.shut .service (LNE_PORT_CTRL port.val) then .next (s.turnedAway .service (LNE_PORT_CTRL port.val)) else
  .next (s.clearExclude port.val)

/-- LNE_PORT_ENABLE_WRITE (R242). -/
def execLnePortEnableWrite (port : Fin 4) (enable : Bool) (s : State) : Host.Outcome State Fault Refusal :=
  if s.shut .service (LNE_PORT_CTRL port.val) then .next (s.turnedAway .service (LNE_PORT_CTRL port.val)) else
  .next (s.oneCycle fun s => s.enableWrite port.val enable)

/-- LNE_PORT_MODE_WRITE (R255). -/
def execLnePortModeWrite (port : Fin 4) (test : Bool) (s : State) : Host.Outcome State Fault Refusal :=
  if s.shut .service (LNE_PORT_CTRL port.val) then .next (s.turnedAway .service (LNE_PORT_CTRL port.val)) else
  .next (s.oneCycle fun s => s.modeWrite port.val test)

/-- LNE_LANE_LOOP_WRITE (R255). -/
def execLneLaneLoopWrite (lane : Fin 50) (value : Word) (s : State) : Host.Outcome State Fault Refusal :=
  if s.shut .service (LNE_LANE_LOOP lane.val) then .next (s.turnedAway .service (LNE_LANE_LOOP lane.val)) else
  .next (s.loopWrite lane.val value.toNat)

/-- LNE_PRBS_CLEAR (R254). -/
def execLnePrbsClear (lane : Fin 50) (s : State) : Host.Outcome State Fault Refusal :=
  if s.shut .service (LNE_LANE_PRBS_CTRL lane.val) then .next (s.turnedAway .service (LNE_LANE_PRBS_CTRL lane.val)) else
  .next (s.prbsClear lane.val)

/-- LNE_PRBS_INJECT (R254). -/
def execLnePrbsInject (lane : Fin 50) (s : State) : Host.Outcome State Fault Refusal :=
  if s.shut .service (LNE_LANE_PRBS_CTRL lane.val) then .next (s.turnedAway .service (LNE_LANE_PRBS_CTRL lane.val)) else
  .next (s.prbsInject lane.val)

/-- Bit errors that a checker has received since they were last cleared, beside those injected: none while it has checked
nothing, and none in NEP, which is digital; otherwise a free value (R254, log entry 305). -/
def State.prbsHeard (s : State) (l : Nat) : Nat × State :=
  if s.prbsBits l = 0 ∨ s.loopOf l = 2 then (0, s)
  else ((Config.openRead (LNE_LANE_PRBS_ERR l) s.freeCtr).toNat, s.draw.2)

/-- LNE_PRBS_ERR_READ (R8): the count is returned and cleared. -/
def State.prbsErrRead (s : State) (l : Nat) : State :=
  let (n, s) := s.prbsHeard l
  (s.result 0 (min (2 ^ 32 - 1) (s.rd (LNE_LANE_PRBS_ERR l) + n))).wr (LNE_LANE_PRBS_ERR l) 0
def execLnePrbsErrRead (lane : Fin 50) (s : State) : Host.Outcome State Fault Refusal :=
  if s.shut .service (LNE_LANE_PRBS_ERR lane.val) then .next (s.turnedAway .service (LNE_LANE_PRBS_ERR lane.val)) else
  .next (s.prbsErrRead lane.val)

/-- LNE_PRBS_BITS_LO_READ (R254): the low word is returned and the high word latched. -/
def State.prbsBitsRead (s : State) (l : Nat) : State :=
  (s.result 0 (s.prbsBits l % 2 ^ 32)).wr (LNE_LANE_PRBS_BITS_HI l) (s.prbsBits l / 2 ^ 32)
def execLnePrbsBitsLoRead (lane : Fin 50) (s : State) : Host.Outcome State Fault Refusal :=
  if s.shut .service (LNE_LANE_PRBS_BITS_LO lane.val) then .next (s.turnedAway .service (LNE_LANE_PRBS_BITS_LO lane.val)) else
  .next (s.prbsBitsRead lane.val)

/-- LNE_SELFTEST_REQ (R250). -/
def execLneSelftestReq (value : Word) (s : State) : Host.Outcome State Fault Refusal :=
  if s.shut .service LNE_SELFTEST_REQ then .next (s.turnedAway .service LNE_SELFTEST_REQ) else
  .next (s.laneTestReq value.toNat)

/-- DIRECTION_QUIET_REQUEST (R280). -/
def execDirectionQuietRequest (port : Fin 4) (s : State) : Host.Outcome State Fault Refusal := .next (s.quietRequest port.val)

/-- DIRECTION_SLEEP_REQUEST (R280). -/
def execDirectionSleepRequest (port : Fin 4) (s : State) : Host.Outcome State Fault Refusal := .next (s.sleepRequest port.val)

/-- DIRECTION_WAKE_REQUEST (R253). -/
def execDirectionWakeRequest (port : Fin 4) (s : State) : Host.Outcome State Fault Refusal := .next (s.wakeRequest port.val)

/-- SLEEP_LIVENESS_WAKE (R280). -/
def execSleepLivenessWake (port : Fin 4) (s : State) : Host.Outcome State Fault Refusal := .next (s.livenessWake port.val)

/-- POWER_ENTRY_COMPLETE (R253): of the transmit direction, or of the receive direction as the partner's countdown names
it. -/
def execPowerEntryComplete (port : Fin 4) (dir : PowerDir) (s : State) : Host.Outcome State Fault Refusal :=
  .next (match dir with
    | .tx => s.txEntryDone port.val
    | .rxQuiet => if s.portActive port.val then s.setRxPower port.val 1 else s
    | .rxSleep => if s.portActive port.val then s.setRxPower port.val 2 else s)

/-- SLEEP_RESIDENCY_END (R253). -/
def execSleepResidencyEnd (port : Fin 4) (s : State) : Host.Outcome State Fault Refusal := .next (s.residencyEnd port.val)

/-- WAKE_RETRAIN_END (R252): of the transmit direction; or of the receive direction, with whether AM lock came back with no
deskew offset moved by more than 2 LRXn cycles. -/
def execWakeRetrainEnd (port : Fin 4) (rx : Option Bool) (s : State) : Host.Outcome State Fault Refusal :=
  .next (s.oneCycle fun s => match rx with
    | none => if s.portActive port.val ∧ (s.portSt port.val).waking then s.txResume port.val else s
    | some ok =>
      if s.portActive port.val ∧ s.rxPower port.val = 2 then if ok then s.setRxPower port.val 0 else s.wakeFail port.val else s)

/-- WAKE_DETECT_TIMEOUT (R252). -/
def execWakeDetectTimeout (port : Fin 4) (s : State) : Host.Outcome State Fault Refusal :=
  .next (s.oneCycle fun s => if s.portActive port.val ∧ s.rxPower port.val = 2 then s.wakeFail port.val else s)

/-- FE_LOOP_REQUEST (R256). -/
def execFeLoopRequest (lane : Fin 32) (block : Bytes) (s : State) : Host.Outcome State Fault Refusal := .next (s.feRequest lane.val block)

/-- FE_LOOP_END (R256). -/
def execFeLoopEnd (lane : Fin 32) (s : State) : Host.Outcome State Fault Refusal := .next (s.feEnd lane.val)

/-- PANEL_LANE_TRAIN_TIMEOUT (R257). -/
def execPanelLaneTrainTimeout (lane : Fin 18) (s : State) : Host.Outcome State Fault Refusal := .next (s.plTrainTimeout lane.val)

/-- PANEL_LANE_RETRY (R258): the backoff of R243 has passed. -/
def execPanelLaneRetry (lane : Fin 18) (s : State) : Host.Outcome State Fault Refusal :=
  .next (if s.plState lane.val = plRetry ∧ !(s.panelLane lane.val).testing then s.plStart lane.val else s)

/-- LNE_PL_RETRAIN (R258). -/
def execLnePlRetrain (lane : Fin 18) (s : State) : Host.Outcome State Fault Refusal :=
  if s.shut .service (LNE_PL_CTRL lane.val) then .next (s.turnedAway .service (LNE_PL_CTRL lane.val)) else
  .next (s.plRetrain lane.val)

end Sys2Proof.Machine
end

