-- ==== Sys2Proof/Machine/Link.lean ====
section
/-! DEFINITION. The link layer, chapter "Lysif link layer, discovery and routing": acknowledgement and replay, credit
synchronisation, the source weights, and the discovery of the spanning tree. Flits and messages that come in are in
Deliver.lean. -/
namespace Sys2Proof.Machine

/-! ### Acknowledgement and replay (R264 to R266) -/

/-- R264: a replay is requested, once until the expected flit is accepted. -/
def State.requestReplay (s : State) (p : Nat) : State :=
  if (s.lnkPort p).nakOut then s
  else (s.modLnk p (fun x => { x with nakOut := true, nakDue := true })).nopNow p

/-- R266: a replay counted, and reported once per port per tick. -/
def State.countReplay (s : State) (p : Nat) : State :=
  ((s.bump (LNK_PORT_REPLAY_TOTAL p)).sayOnce Ev.LNK_REPLAY p [p]).modLnk p (fun x => { x with noProgress := x.noProgress + 1 })

/-- R266: a replay starts from a SEQ. When 16 in a row have made no progress, the next request sets RETRAIN instead (DEDUCED, log
entry 279). During a sync none starts: the sync ends with its own (R272). -/
def State.replayFrom (s : State) (p q : Nat) : State :=
  if (s.lnkPort p).syncing then s
  else if 16 ≤ (s.lnkPort p).noProgress then
    ((s.modLnk p (fun x => { x with noProgress := 0, replay := none })).report Ev.LNK_RETRY_EXHAUSTED [p]).portRetrain p
  else ((s.countReplay p).modLnk p (fun x => { x with replay := some (q % 4096) })).runReplay p

/-- R266: an ACK releases flits up to and including its SEQ; that is progress. An ACK exactly 2,048 from a flit's SEQ is stale
(R10). -/
def State.ackFlits (s : State) (p ack : Nat) : State :=
  let x := s.lnkPort p
  let rest := x.retry.dropWhile (fun f => f.seq == ack || later 12 ack f.seq)
  if rest.length = x.retry.length then s
  else s.modLnk p (fun x => { x with retry := rest, noProgress := 0 })

/-- R269: the credits that FREED returns. -/
def State.takeFreed (s : State) (p freed : Nat) : State :=
  s.modLnk p (fun x =>
    let f (v : Nat) : Nat := fld freed (12 * v + 11) (12 * v)
    { x with
      credits := x.credits.mapIdx (fun v c => c + (((f v + 4096 - x.peerFreed.getD v 0) % 4096 : Nat) : Int))
      peerFreed := (List.range 4).map f })

/-- Every flit that passes R262 tells ACK, FREED and NAK; the ACK releases first (R266, R269, R289). -/
def State.flitTells (s : State) (p : Nat) (flit : Bytes) : State :=
  let w := leAt flit 2 2
  let s := (s.ackFlits p (w % 4096)).takeFreed p (leAt flit 6 6)
  if bit w 12 = 1 then s.replayFrom p (w % 4096 + 1) else s

/-! ### The byte stream of a virtual channel (R274) -/

/-- The bytes of a VC that have come and have not been taken. -/
def LinkPort.unread (x : LinkPort) (v : Nat) : Bytes :=
  (x.slots.filter (fun t => t.vc == v)).flatMap (fun t => t.data.drop t.off)

/-- The next bytes of a VC taken for a message. -/
def takeBytes (v mid : Nat) : Nat → List RxSlot → List RxSlot
  | _, [] => []
  | n, t :: l =>
    if t.vc ≠ v then t :: takeBytes v mid n l
    else
      let k := min n (t.data.length - t.off)
      (if k = 0 then t else { t with off := t.off + k, mids := t.mids ++ [(mid, t.off, k)] }) :: takeBytes v mid (n - k) l

/-- Only the next bytes of a VC are kept. -/
def keepBytes (v : Nat) : Nat → List RxSlot → List RxSlot
  | _, [] => []
  | n, t :: l =>
    if t.vc ≠ v then t :: keepBytes v n l
    else
      let k := min n (t.data.length - t.off)
      { t with data := t.data.take (t.off + k) } :: keepBytes v (n - k) l

/-- Bytes of whole messages at the front of a stream, from an offset at which a message starts. -/
def wholeBytes (u : Bytes) : Nat → Nat → Nat
  | 0, k => k
  | n + 1, k =>
    let m := leAt u (k + 4) 2
    if u.length < k + 16 ∨ m < 16 ∨ 4608 < m ∨ u.length < k + m then k else wholeBytes u n (k + m)

/-- R274, R277: the message in progress on a VC ends: dropped here, ended with ABORT on the outputs that have it. The
answer says whether a message was in progress. -/
def State.endPartial (s : State) (p v : Nat) : State × Bool :=
  let x := s.lnkPort p
  let cur := sget none x.rx v
  let u := x.unread v
  let need := match cur with
    | some m => m.len - m.data.length
    | none => 0
  let s := if u.length < need then
      (match cur with
        | some m => s.abortMsg m.mid
        | none => s).modLnk p (fun x => { x with rx := sset none x.rx v none, slots := keepBytes v 0 x.slots })
    else
      let k := wholeBytes u u.length need
      s.modLnk p (fun x => { x with slots := keepBytes v k x.slots })
  (s.modLnk p (fun x => { x with resync := x.resync.filter (fun w => w != v) }),
    decide (u.length < need) || decide (wholeBytes u u.length need < u.length))

/-- R274: a message ended with ABORT: counted, and reported once per port per tick. -/
def State.abortIn (s : State) (p v : Nat) : State :=
  let (s, had) := s.endPartial p v
  if had then (s.bump LNK_MSG_DROP_TOTAL).sayOnce Ev.LNK_MSG_ABORTED p [p] else s

/-- R277: a message whose staging is poisoned by now is ended with ABORT on every output that has started it, and dropped on the
others (R78). -/
def State.abortPoisoned (s : State) : State :=
  (List.range 4).foldl (fun s o =>
    (s.lnkPort o).txq.foldl (fun s m =>
      let l := s.heldAt m.mid
      if l.any (fun r => s.rangePoisoned r.1 r.2) then
        ((l.foldl (fun s r => s.consumePoison (reqClient (.linkFwd (Fin.ofNat 4 m.input))) r.1 r.2) s).abortMsg m.mid).stopForward m.mid
      else s) s) s

/-! ### Credit synchronisation (R270 to R273) -/

/-- R272: applied and acknowledged, the sync completes: MSG flits resume with the replay, which counts as one (R266). -/
def State.syncCheck (s : State) (p : Nat) : State :=
  let x := s.lnkPort p
  if x.syncing ∧ x.applied ∧ x.acked then
    let s := s.modLnk p (fun x => { x with syncing := false, lost := false })
    let s := if x.replay.isSome then s.countReplay p else s
    ((s.wrF (LNK_PORT_STATUS p) 2 2 1).abortPoisoned).pump p
  else s

/-- R271, partner RESET clear: what the snapshot releases, and the credits it gives. -/
def State.applySnapshot (s : State) (p : Nat) (b : Bytes) : State :=
  let x := s.lnkPort p
  let rxNext := leAt b 4 2 % 4096
  let keep := x.retry.dropWhile (fun f => later 12 rxNext f.seq)
  let total (v : Nat) : Nat := leAt b (6 + 2 * v) 2
  let freed (v : Nat) : Nat := fld (leAt b 22 6) (12 * v + 11) (12 * v)
  let new (v : Nat) : Int := (leAt b (14 + 2 * v) 2 : Nat) - ((keep.filter (fun f => f.vc == v)).length : Nat)
  let old (v : Nat) : Int := x.credits.getD v 0 + ((freed v + 4096 - x.peerFreed.getD v 0) % 4096 : Nat)
  let s := (List.range 4).foldl (fun s v =>
    if x.peerTotal.getD v 0 = total v ∧ new v ≠ old v then
      (s.report Ev.LNK_CREDIT_MISMATCH [p, v, ofS 32 (new v - old v)]).bump (LNK_PORT_MISMATCH_TOTAL p)
    else s) s
  s.modLnk p (fun x => { x with
    retry := keep
    noProgress := if keep.length = x.retry.length then x.noProgress else 0
    credits := (List.range 4).map new
    peerTotal := (List.range 4).map total
    peerFreed := (List.range 4).map freed
    replay := if keep.isEmpty then none else some rxNext })

/-- R271, R273, partner RESET set: the retry buffer is discarded and the transmit SEQ restarts; messages cut on either side
are dropped. -/
def State.applyReset (s : State) (p : Nat) (b : Bytes) : State :=
  let s := s.bumpBy (LNK_PORT_LOST_TOTAL p) (s.lnkPort p).retry.length
  let s := s.modLnk p (fun x => { x with
    retry := []
    replay := none
    noProgress := 0
    txSeq := 0
    txq := x.txq.filter (fun m => !m.begun)
    abortDue := []
    credits := (List.range 4).map (fun v => ((leAt b (14 + 2 * v) 2 : Nat) : Int))
    peerTotal := (List.range 4).map (fun v => leAt b (6 + 2 * v) 2)
    peerFreed := (List.range 4).map (fun v => fld (leAt b 22 6) (12 * v + 11) (12 * v)) })
  let s := (List.range 4).foldl (fun s v => s.abortIn p v) s
  (List.range 4).foldl (fun s q => if q = p then s else s.pump q) s

/-- R272: the snapshot lies outside the retained flits. A value half the numbers from the oldest one counts as earlier than it
(R10), since the snapshot arrives later. -/
def LinkPort.invalid (x : LinkPort) (rxNext : Nat) : Bool :=
  let oldest := (x.retry.head?.map (·.seq)).getD x.txSeq
  later 12 rxNext x.txSeq || (rxNext != oldest && !later 12 rxNext oldest)

/-- A CREDIT_SYNC names another partner than the last (R270). -/
def LinkPort.otherPeer (x : LinkPort) (b : Bytes) : Bool := match x.peerId with
  | some j => j != leAt b 28 8
  | none => false

/-- R271: a CREDIT_SYNC repeats the one applied last: the same SYNC_ID of the same partner, and no RESET that is new. -/
def State.syncRepeats (s : State) (p : Nat) (b : Bytes) : Bool :=
  let x := s.lnkPort p
  x.peerSync == some (byteAt b 1) && !x.otherPeer b &&
    !(bit (byteAt b 2) 0 == 1 && s.rdF (LNK_PORT_STATUS p) 4 4 == 0)

/-- A CREDIT_SYNC (Table 10.3) on a port (R270, R271). -/
def State.creditSync (s : State) (p : Nat) (b : Bytes) : State :=
  if !s.portActive p then s
  else
    let x := s.lnkPort p
    let id := byteAt b 1
    let peer := leAt b 28 8
    let reset := bit (byteAt b 2) 0 == 1
    let other := x.otherPeer b
    let ack (s : State) : State := s.sendSyncAck p id
    if s.syncRepeats p b then ack s
    else
      let s := if reset || other then s.report Ev.LNK_PEER_RESET [p] else s
      let s := s.modLnk p (fun x => { x with peerId := some peer, lost := x.lost || other })
      let s := if !x.syncing || other then s.syncStart p else s
      let s := (ack s).modLnk p (fun x => { x with peerSync := some id })
      let s := s.wrF (LNK_PORT_STATUS p) 4 4 (b2n reset)
      if !reset && (s.lnkPort p).invalid (leAt b 4 2 % 4096) then (s.report Ev.LNK_SYNC_INVALID [p]).portRetrain p
      else
        let s := if reset then s.applyReset p b else s.applySnapshot p b
        (s.modLnk p (fun x => { x with applied := true })).syncCheck p

/-- A CREDIT_SYNC_ACK for the latest SYNC_ID (R272). -/
def State.creditSyncAck (s : State) (p id : Nat) : State :=
  let x := s.lnkPort p
  if s.portActive p ∧ x.syncing ∧ id = x.syncId then (s.modLnk p (fun x => { x with acked := true })).syncCheck p else s

/-- R290: SYNC_NOW. -/
def State.syncNow (s : State) (p : Nat) : State := if s.portActive p then s.syncStart p else s

/-- R268, R290: the allocation that the two registers ask for, when it keeps the limits. -/
def allocOf (a b : Nat) : Option (List Nat) :=
  let l := [fld a 12 0, fld a 28 16, fld b 12 0, fld b 28 16]
  if 16 ≤ l.getD 0 0 ∧ 16 ≤ l.getD 1 0 ∧ l.sum ≤ 4096 then some l else none

/-- A write of one allocation register: taken when the pair keeps R268. One that breaks R268 by itself leaves the previous
values, and waits for the write of the other register that makes the pair (log entry 127). -/
def State.allocReg (s : State) (p a v : Nat) : State :=
  let first := a == LNK_PORT_ALLOC01 p
  let other := if first then LNK_PORT_ALLOC23 p else LNK_PORT_ALLOC01 p
  let new := (s.regWrite a v).rd a
  let waits := (s.lnkPort p).allocPend.filter (fun e => e.1 == other)
  let o := (waits.map (·.2)).getD (s.rd other)
  match (if first then allocOf new o else allocOf o new) with
  | some l => ((s.wr a new).wr other o).modLnk p (fun x => { x with alloc := l, allocPend := none })
  | none => s.modLnk p (fun x => { x with allocPend := if waits.isSome then none else some (a, new) })

/-- R290: a pair of allocation writes; one that breaks R268 leaves the previous values. -/
def State.allocPair (s : State) (p a b : Nat) : State :=
  match allocOf a b with
  | some l => ((s.regWrite (LNK_PORT_ALLOC01 p) a).regWrite (LNK_PORT_ALLOC23 p) b).modLnk p (fun x => { x with alloc := l })
  | none => s

/-- R279: the weights of the next period. -/
def State.sourceWeights (s : State) : State :=
  (List.range 4).foldl (fun s p =>
    let n (v : Nat) : Nat := max 1 (min 64 (((s.lnkPort p).srcs.filter (fun e => e.1 == v)).eraseDups).length)
    (s.wr (LNK_PORT_WEIGHT p) (n 2 + n 3 * 256)).modLnk p (fun x => { x with srcs := [] })) s

/-! ### Discovery (R282 to R284) -/

/-- R282: this device's own beacon is better than one of another root. -/
def State.ownBetter (s : State) (b : Beacon) : Bool :=
  decide (b.prio < s.rootPrio) || (b.prio == s.rootPrio && decide (fusedId < b.root))

/-- R282: a candidate without a better beacon starts an epoch, or repeats its own. -/
def State.originate (s : State) : State :=
  if !s.rootCand then s
  else match s.lnk.best with
    | none => s.startEpoch
    | some b => if b.port = 4 then s.beaconOut
      else if s.ownBetter b then s.startEpoch
      else s

/-- The beacon goes on to every other ACTIVE port with HOPS + 1 (R282). -/
def State.forwardBeacon (s : State) (b : Beacon) : State :=
  (s.activePorts.filter (fun q => q != b.port)).foldl (fun s q => s.sendDisc q dopBeacon 0 0 0 (b.hops + 1)) s

/-- A BEACON on a port: a better one makes the port the parent; within an accepted epoch the change is told as LOST (R284,
R289). -/
def State.beaconIn (s : State) (p : Nat) (msg : Bytes) : State :=
  let body := msg.drop 16
  let b : Beacon := ⟨byteAt body 1, leAt body 4 8, leAt body 2 2, byteAt body 18, p⟩
  let s := { s with lnk := { s.lnk with heard := sins p b (sdel p s.lnk.heard) } }
  match s.lnk.best with
  | none => (s.takeBest b).forwardBeacon b
  | some c =>
    if !b.better s c then s
    else if b.root = c.root ∧ b.epoch = c.epoch ∧ s.lnk.newAddr.isSome ∧ b.port ≠ c.port then
      ({ s with lnk := { s.lnk with best := some b } }.forwardBeacon b).treeLost
    else (s.takeBest b).forwardBeacon b

/-- R289, R282: ROOT_CAND or ROOT_PRIO has changed: a new epoch, started here by a candidate without a better beacon, else asked
of the root with LOST. A root that is no candidate any more takes the best beacon it has heard. -/
def State.rootChange (s : State) : State :=
  if s.rootCand then
    if s.lnk.best.all (fun b => b.port == 4 || s.ownBetter b) then s.startEpoch else s.treeLost
  else if s.isRoot then
    match s.lnk.heard.map (·.2) with
    | [] => { s with lnk := { s.lnk with best := none, offer := none } }.wrF LNK_STATUS 16 16 0
    | h :: t =>
      let n := t.foldl (fun m x => if x.better s m then x else m) h
      ((s.takeBest n).forwardBeacon n).treeLost
  else s.treeLost

/-- R282, R283: the root takes address 1 and offers on its ports. -/
def State.assignStart (s : State) : State :=
  if s.isRoot ∧ s.lnk.newAddr.isNone then
    { s with lnk := { s.lnk with newAddr := some 1, newDepth := 0, nextAddr := 2, bridges := 0, newTree := [] } }.offerFrom 0
  else s

/-- An ASSIGN on a port (R283, R284). -/
def State.assignIn (s : State) (p : Nat) (msg : Bytes) : State :=
  let body := msg.drop 16
  let base := leAt body 12 2
  let refuse (s : State) : State :=
    let s := (s.sendDisc p dopRefuse 0 0 0 0).setNewPort p { TreePort.none with tree := 3 }
    if s.rdF LNK_STATUS 17 17 = 0 then s.wrF (LNK_PORT_STATUS p) 1 0 3 else s
  let src := leAt msg 2 2
  let s := s.modLnk p (fun x => { x with bridgeSrc := decide (0xFFF0 ≤ src) && decide (src ≤ 0xFFFE) })
  if 0xFFEF < base then refuse (s.report Ev.LNK_ADDR_EXHAUSTED [base])
  else if (s.lnk.best.map (·.port)) ≠ some p then refuse s
  else
    let s := s.sendDisc p dopAccept base 0 0 (byteAt body 18)
    if s.lnk.newAddr = some base then
      if s.lnk.offer.isNone then s.sendDisc p dopDone base (s.lnk.nextAddr - 1) s.lnk.bridges (byteAt body 18) else s
    else
      { s with lnk := { s.lnk with
        newAddr := some base, newDepth := byteAt body 18, nextAddr := base + 1, bridges := 0, newTree := [] } }.offerFrom 0

/-- An ACCEPT of the offer under way. -/
def State.acceptIn (s : State) (p : Nat) (msg : Bytes) : State :=
  match s.lnk.offer with
  | some o => if o.port = p ∧ leAt (msg.drop 16) 12 2 = o.base then
      { s with lnk := { s.lnk with offer := some { o with accepted := true } } } else s
  | none => s

/-- A port found outside the tree. -/
def State.standBy (s : State) (p : Nat) : State := (s.setNewPort p { TreePort.none with tree := 3 }).offerNext

/-- A REFUSE: both ends mark the port STANDBY. -/
def State.refuseIn (s : State) (p : Nat) : State :=
  match s.lnk.offer with
  | some o => if o.port = p then s.standBy p else s
  | none => s

/-- A DONE: the CHILD interval and the bridges are recorded, and the offers go on from LAST + 1 (R283). -/
def State.doneIn (s : State) (p : Nat) (msg : Bytes) : State :=
  match s.lnk.offer with
  | none => s
  | some o =>
    if o.port = p ∧ o.accepted then
      let body := msg.drop 16
      let last := leAt body 14 2
      let br := leAt body 16 2 % 2 ^ 15
      let s := s.setNewPort p ⟨2, o.base, last, br, decide (last + 1 = o.base) && br != 0⟩
      { s with lnk := { s.lnk with nextAddr := last + 1, bridges := s.lnk.bridges ||| br } }.offerNext
    else s

/-- R284: an offer that got no answer is repeated twice; then the port is STANDBY. -/
def State.offerAgain (s : State) (o : Offer) : State :=
  if o.tries < 3 then
    { s with lnk := { s.lnk with offer := some { o with tries := o.tries + 1, accepted := false } } }.sendDisc o.port dopAssign
      o.base 0 0 (s.lnk.newDepth + 1)
  else (s.report Ev.LNK_DISC_TIMEOUT [o.port]).standBy o.port

/-- R284: an ASSIGN without an answer for 1 ms. -/
def State.assignTimeout (s : State) : State :=
  match s.lnk.offer with
  | none => s
  | some o => if o.accepted then s else s.offerAgain o

/-- R284: no DONE within 10 s of the ACCEPT, handled the same way. -/
def State.doneTimeout (s : State) : State :=
  match s.lnk.offer with
  | none => s
  | some o => if o.accepted then s.offerAgain o else s

/-- A DISC message (Table 10.7) that came on a port. -/
def State.discIn (s : State) (p : Nat) (msg : Bytes) : State :=
  match byteAt msg 16 with
  | 1 => s.beaconIn p msg
  | 2 => s.assignIn p msg
  | 3 => s.acceptIn p msg
  | 4 => s.refuseIn p
  | 5 => s.doneIn p msg
  | 6 => s.treeLost
  | _ => s

/-! ### Views of computed registers -/

/-- The LNK_ registers that a block's state gives when read (Table 10.10). -/
def State.lnkView (s : State) (a : Nat) : Option Nat :=
  if a = LNK_MGMT_STATUS then some s.lnk.mgmt.length
  else (List.range 4).findSome? (fun p =>
    let x := s.lnkPort p
    if a = LNK_PORT_VC_STATE p then
      let v := s.rdF (LNK_PORT_VC_SEL p) 1 0
      some ((x.credits.getD v 0).toNat % 8192 + (x.peerTotal.getD v 0 % 8192) * 65536)
    else if a = LNK_PORT_SEQ p then some (x.txSeq + x.rxNext * 65536)
    else if a = LNK_PORT_UNACKED p then some x.retry.length
    else none)

/-! ### The commands -/

/-- IDLE_BLOCK_RECEIVE: the receiver is in step again (R262). -/
def execIdleBlockReceive (port : Fin 4) (s : State) : Host.Outcome State Fault Refusal :=
  .next (if s.portActive port.val then s.modLnk port.val (fun x => { x with inStep := true }) else s)

/-- NAK_REPEAT_TIMER: 8 µs without the expected flit (R264). -/
def execNakRepeatTimer (port : Fin 4) (s : State) : Host.Outcome State Fault Refusal :=
  .next (if s.portActive port.val && (s.lnkPort port.val).nakOut then
    (s.modLnk port.val (fun x => { x with nakDue := true })).nopNow port.val else s)

/-- ACK_NOP_TIMER: 0.5 µs with something untold (R265). -/
def execAckNopTimer (port : Fin 4) (s : State) : Host.Outcome State Fault Refusal :=
  .next (if 0 < (s.lnkPort port.val).ackOwed ∨ (s.lnkPort port.val).freeOwed then s.nopNow port.val else s)

/-- REPLAY_TIMEOUT: the oldest flit has waited 8 µs (R266). -/
def execReplayTimeout (port : Fin 4) (s : State) : Host.Outcome State Fault Refusal :=
  .next (s.oneCycle fun s => match (s.lnkPort port.val).retry with
    | [] => s
    | f :: _ => if s.portActive port.val then s.replayFrom port.val f.seq else s)

/-- CREDIT_SYNC_RECEIVE (R271). -/
def execCreditSyncReceive (port : Fin 4) (payload : Bytes) (s : State) : Host.Outcome State Fault Refusal :=
  .next (s.oneCycle fun s => s.creditSync port.val payload)

/-- CREDIT_SYNC_ACK_RECEIVE (R272). -/
def execCreditSyncAckReceive (port : Fin 4) (id : Byte) (s : State) : Host.Outcome State Fault Refusal :=
  .next (s.creditSyncAck port.val id.toNat)

/-- CREDIT_SYNC_RESEND: 10 µs of the sync have passed (R270). -/
def execCreditSyncResend (port : Fin 4) (s : State) : Host.Outcome State Fault Refusal :=
  .next (if s.portActive port.val && (s.lnkPort port.val).syncing then s.sendSync port.val else s)

/-- CREDIT_SYNC_TIMEOUT: 1 ms without completion (R272). -/
def execCreditSyncTimeout (port : Fin 4) (s : State) : Host.Outcome State Fault Refusal :=
  .next (s.oneCycle fun s => if s.portActive port.val && (s.lnkPort port.val).syncing then
    (s.report Ev.LNK_SYNC_TIMEOUT [port.val]).portRetrain port.val else s)

/-- LNK_PORT_SYNC_NOW (R270). -/
def execLnkPortSyncNow (port : Fin 4) (s : State) : Host.Outcome State Fault Refusal :=
  if s.shut .service (LNK_PORT_CTRL port.val) then .next (s.turnedAway .service (LNK_PORT_CTRL port.val)) else
  .next (s.syncNow port.val)

/-- LNK_PORT_ALLOC_WRITE (R290). -/
def execLnkPortAllocWrite (port : Fin 4) (alloc01 alloc23 : Word) (s : State) : Host.Outcome State Fault Refusal :=
  if s.shut .service (LNK_PORT_ALLOC01 port.val) then .next (s.turnedAway .service (LNK_PORT_ALLOC01 port.val)) else
  .next (s.allocPair port.val alloc01.toNat alloc23.toNat)

/-- SOURCE_WEIGHT_PERIOD (R279). -/
def execSourceWeightPeriod (s : State) : Host.Outcome State Fault Refusal := .next s.sourceWeights

/-- BEACON_ORIGINATE (R282). -/
def execBeaconOriginate (s : State) : Host.Outcome State Fault Refusal := .next s.originate

/-- BEACON_RECEIVE (R282). -/
def execBeaconReceive (port : Fin 4) (msg : Bytes) (s : State) : Host.Outcome State Fault Refusal := .next (s.beaconIn port.val msg)

/-- ASSIGN_START: 4 ms after the first beacon of the epoch (R282). -/
def execAssignStart (s : State) : Host.Outcome State Fault Refusal := .next s.assignStart

/-- ASSIGN_RECEIVE (R283). -/
def execAssignReceive (port : Fin 4) (msg : Bytes) (s : State) : Host.Outcome State Fault Refusal :=
  .next (s.oneCycle fun s => s.assignIn port.val msg)

/-- ACCEPT_RECEIVE (R283). -/
def execAcceptReceive (port : Fin 4) (msg : Bytes) (s : State) : Host.Outcome State Fault Refusal := .next (s.acceptIn port.val msg)

/-- REFUSE_RECEIVE (R283). -/
def execRefuseReceive (port : Fin 4) (s : State) : Host.Outcome State Fault Refusal := .next (s.refuseIn port.val)

/-- DONE_RECEIVE (R283). -/
def execDoneReceive (port : Fin 4) (msg : Bytes) (s : State) : Host.Outcome State Fault Refusal := .next (s.doneIn port.val msg)

/-- LOST_RECEIVE (R284). -/
def execLostReceive (s : State) : Host.Outcome State Fault Refusal := .next s.treeLost

/-- ASSIGN_TIMEOUT (R284). -/
def execAssignTimeout (s : State) : Host.Outcome State Fault Refusal := .next (s.oneCycle fun s => s.assignTimeout)

/-- DONE_TIMEOUT (R284). -/
def execDoneTimeout (s : State) : Host.Outcome State Fault Refusal := .next (s.oneCycle fun s => s.doneTimeout)

/-- LNK_CTRL_REDISCOVER (R282). -/
def execLnkCtrlRediscover (s : State) : Host.Outcome State Fault Refusal :=
  if s.shut .service LNK_CTRL then .next (s.turnedAway .service LNK_CTRL) else
  .next s.treeLost

end Sys2Proof.Machine
end

