-- ==== Sys2Proof/Machine/Wall.lean ====
section
/-! DEFINITION. Wall time and frame commit (chapter of that name): the COMMIT section, TICKs and their master, GENLOCK, the
vote, the decision and its root, and membership. The boundary and the commit point call this file's operations. -/
namespace Sys2Proof.Machine

/-! ### The COMMIT section (R292, R293) -/

/-- The COMMIT section in force, empty before a plan. -/
def State.commitSec (s : State) : Bytes := match s.fpl.plan with
  | some p => p.sec 0x0D 0
  | none => []
def State.repeatLimit (s : State) : Nat := byteAt s.commitSec 2
def State.genlockDiv (s : State) : Nat := max 1 (byteAt s.commitSec 4)
def State.genlockOffset (s : State) : Int := toS 32 (leAt s.commitSec 8 4)
def State.genlockStep (s : State) : Bool := bit (byteAt s.commitSec 3) 0 == 1
def State.genlockOut (s : State) : Bool := bit (byteAt s.commitSec 3) 1 == 1

/-- R302, Table 18.2: the level that GENLOCK_OUT has: the pulse of POL_OUT's polarity when GENLOCK_OUT is set, low otherwise. -/
def State.genlockLevel (s : State) : Bool :=
  let active := match s.wal.pulse with
    | some t => decide (s.now < t)
    | none => false
  s.genlockOut && !s.boot.shutdown && (active != (s.rdF WAL_GENLOCK_CTRL 1 1 == 1))

/-- R302: GENLOCK_OUT driven to its level of now. -/
def State.genlockDrive (s : State) : State :=
  let l := s.genlockLevel
  if l = s.wal.outLevel then s else { s with wal := { s.wal with outLevel := l } }.put (.genlock l)

/-- OVERRIDE and SRC_REQ of FPL_TICK_SRC (Table 2.17). -/
def State.srcOverride (s : State) : Option Nat :=
  if s.rdF FPL_TICK_SRC 8 8 = 1 then some (s.rdF FPL_TICK_SRC 1 0) else none

/-- R292, R293: the device's master rank and source, if it is a candidate. -/
def State.masterRank (s : State) : Option (Nat × Nat) :=
  if s.fpl.plan.isNone then none
  else match s.srcOverride with
    | some r => if r = 1 ∨ r = 2 then some (0, r) else none
    | none =>
      let b := s.commitSec
      ((List.range (min 4 (byteAt b 0))).find? (fun k => leAt b (16 + 16 * k) 8 == fusedId)).map
        (fun k => (k, byteAt b (24 + 16 * k)))

/-- R292: the device's root rank, if it is a candidate. -/
def State.rootRank (s : State) : Option Nat :=
  let b := s.commitSec
  (List.range (min 4 (byteAt b 1))).find? (fun k => leAt b (80 + 8 * k) 8 == fusedId)

/-- The device runs alone: source FREE (R31, R293). -/
def State.alone (s : State) : Bool := s.fpl.src == 3

def State.isMaster (s : State) : Bool := s.rdF WAL_STATUS 1 1 == 1
def State.isCommitRoot (s : State) : Bool := s.rdF WAL_STATUS 2 2 == 1
def State.isolated (s : State) : Bool := s.rdF WAL_STATUS 3 3 == 1

/-- R31, R293: the source that takes effect at a boundary. -/
def State.nextSrc (s : State) : Nat :=
  if s.fpl.plan.isNone then 3
  else if s.srcOverride = some 3 then 3
  else if s.isMaster then (s.masterRank.map (·.2)).getD 0
  else 0

/-! ### VC0 messages (R294, R295) -/

/-- The ports a TICK or DECISION is flooded on. -/
def State.floodPorts (s : State) (except : Nat) : List Nat :=
  s.activePorts.filter (fun p => p != except && ((s.portRole p).role == 1 || (s.portRole p).role == 2))

/-- LNE_PORT_LATENCY of a port, in core cycles, and its hop units. -/
def State.latency (s : State) (p : Nat) : Nat := s.rdF (LNE_PORT_LATENCY p) 19 0
def State.hopUnits (s : State) (p : Nat) : Nat := max 1 (ceilDiv (s.latency p + 160) 560)

/-- A VC0 message flooded on every port but one. -/
def State.flood (s : State) (mtype except : Nat) (body : Bytes) : State :=
  (s.floodPorts except).foldl (fun s p => s.sendLocal p mtype body) s

/-- A TICK body (Table 11.2). -/
def tickBody (frame kind rank hops len age id : Nat) : Bytes :=
  toLe 6 frame ++ toLe 1 kind ++ toLe 1 rank ++ toLe 2 hops ++ toLe 2 0 ++ toLe 4 len ++ toLe 4 age ++ toLe 8 id ++ toLe 4 0

/-- A DECISION body. -/
def Decision.body (d : Decision) : Bytes :=
  toLe 6 d.frame ++ toLe 1 d.kind ++ toLe 1 d.reason ++ toLe 2 d.tag ++ toLe 2 d.members ++ toLe 2 d.notReady ++
    toLe 2 d.firstNr ++ toLe 2 d.rank ++ toLe 2 d.hops ++ toLe 8 d.root ++ toLe 4 d.run

/-- The decision that a body carries. -/
def decisionOf (b : Bytes) : Decision :=
  { frame := leAt b 0 6, kind := byteAt b 6, reason := byteAt b 7, tag := leAt b 8 2, members := leAt b 10 2
    notReady := leAt b 12 2, firstNr := leAt b 14 2, rank := byteAt b 16, hops := leAt b 18 2, root := leAt b 20 8
    run := byteAt b 28 }

/-- A VOTE body. -/
def Vote.body (v : Vote) (frame root : Nat) : Bytes :=
  toLe 6 frame ++ toLe 1 (b2n v.ready + b2n v.noCand * 2 + b2n v.member * 4) ++ toLe 1 0 ++ toLe 2 v.tagLo ++ toLe 2 v.tagHi ++
    toLe 2 v.members ++ toLe 2 v.notReady ++ toLe 2 v.firstNr ++ toLe 2 0 ++ toLe 8 root ++ toLe 4 0

/-- The vote that a body carries. -/
def voteOf (b : Bytes) : Vote :=
  { ready := bit (byteAt b 6) 0 == 1, noCand := bit (byteAt b 6) 1 == 1, member := bit (byteAt b 6) 2 == 1
    tagLo := leAt b 8 2, tagHi := leAt b 10 2, members := leAt b 12 2, notReady := leAt b 14 2, firstNr := leAt b 16 2 }

/-! ### The tick master (R297 to R300) -/

/-- R297: the frame number of a first claim. -/
def State.claimFrame (s : State) : Nat := max s.fpl.frame (s.sramLe 0xC0 6 + 1)

/-- R303: the two 48-bit frame numbers in one event: 96 bits, the own one first, each low part first (DEDUCED, log entry 140). -/
def State.tokenMismatch (s : State) (own frame : Nat) : State :=
  s.report Ev.WAL_TOKEN_MISMATCH
    [own % 2 ^ 32, own / 2 ^ 32 % 2 ^ 16 + frame % 2 ^ 16 * 2 ^ 16, frame / 2 ^ 16 % 2 ^ 32]

/-- R300: the own boundary that a TICK names by FRAME, and whether it is still to come: B_N of the running tick, the projected
next one, or, for another FRAME, the nearer of the two (DESIGN CHOICE, log entry 315). -/
def State.boundaryOf (s : State) (frame : Nat) (est : Int) : Int × Bool :=
  let a : Int := (s.tickStart : Nat)
  let b : Int := (s.wal.next : Nat)
  if frame = s.fpl.frame then (a, false)
  else if frame = s.fpl.frame + 1 then (b, true)
  else if (est - a).natAbs ≤ (est - b).natAbs then (a, false) else (b, true)

/-- R300: a TICK from the master followed, used: the next boundary, the phase error, and the copies sent on. One that names the
coming boundary is the TICK of the tick that begins there. -/
def State.useTick (s : State) (p : Nat) (b : Bytes) : State :=
  let frame := leAt b 0 6
  let rank := byteAt b 7
  let len := leAt b 12 4
  let age := leAt b 16 4
  let id := leAt b 20 8
  let est : Int := (s.now : Int) - (age : Nat) - (s.latency p : Nat)
  let own := s.boundaryOf frame est
  let err := est - own.1
  let next := (est + (len : Nat)).toNat
  let w : Wal := { s.wal with master := some (rank, id), timed := true, lostSaid := false, len := len }
  let s : State := { s with wal := if own.2 then { w with early := some next } else { w with used := true, next := next } }
  let s := ((s.wr WAL_MASTER_LO id).wr WAL_MASTER_HI (id / 2 ^ 32)).wrF WAL_STATUS 9 8 rank
  let s := (s.wrF WAL_STATUS 31 24 0).wr WAL_PHASE_ERR (ofS 32 err)
  let s := if 1600 < err ∨ err < -1600 then s.report Ev.WAL_TICK_STEP [] else s
  let s := if !s.isCommitRoot then s
    else
      let mine := s.fpl.frame + b2n own.2
      let s := if frame = mine then s
        else (if s.wal.joining then s else s.tokenMismatch mine frame).setFrame (frame - b2n own.2)
      { s with wal := { s.wal with joining := false } }
  s.flood 0x01 p (tickBody frame (byteAt b 6) rank ((leAt b 8 2 + s.hopUnits p) % 65536) len
    ((age + s.latency p) % 2 ^ 32) id)

/-- A TICK on a port (R295, R298): first copies of the best master are used; a better one makes a master yield. -/
def State.tickIn (s : State) (p : Nat) (msg : Bytes) : State :=
  let b := msg.drop 16
  let frame := leAt b 0 6
  let rank := byteAt b 7
  let id := leAt b 20 8
  let hops := leAt b 8 2
  if s.alone || id == fusedId then s
  else if s.wal.seenTick.any (fun e => e.1 == id && e.2.1 == frame) then
    { s with wal := { s.wal with seenTick := s.wal.seenTick.map (fun (e : Nat × Nat × Nat) =>
      if e.1 = id ∧ e.2.1 = frame then (id, frame, min e.2.2 hops) else e) } }
  else
    let s : State := { s with wal := { s.wal with seenTick := (id, frame, hops) :: s.wal.seenTick.take 31 } }
    let better (r i : Nat) : Bool := decide (rank < r) || (rank == r && decide (id < i))
    if s.isMaster then
      if better (s.rdF WAL_STATUS 9 8) fusedId then
        ((s.wrF WAL_STATUS 1 1 0).report Ev.WAL_YIELD [1]).useTick p b
      else s
    else match s.wal.master with
      | none => s.useTick p b
      | some (r, i) =>
        if (r == rank && i == id) || better r i || (decide (3 ≤ s.wal.heardAge) && !s.wal.used && s.wal.early.isNone) then s.useTick p b else s

/-- R299, R300: the source's TICK at a boundary that has just come: a master floods it and places the next boundary; a
follower holds over until its TICK comes; alone, the nominal length rules. -/
def State.tickOut (s : State) : State :=
  if s.isMaster ∧ !s.alone then
    let (k, src) := s.masterRank.getD (0, 2)
    let held := s.rdF WAL_GENLOCK_STATUS 1 0 == 3
    let len := if src = 1 then s.wal.gLen.getD s.wal.len else s.nomTick
    let kind := if src = 1 then (if held then 3 else 1) else 2
    let s : State := { s with wal := { s.wal with len := len, next := s.now + len } }
    s.flood 0x01 4 (tickBody s.fpl.frame kind k 0 len 0 fusedId)
  else if s.alone then { s with wal := { s.wal with len := s.nomTick, next := s.now + s.nomTick } }
  else { s with wal := { s.wal with next := s.now + s.wal.len } }

/-- R31: the source takes effect. -/
def State.sourceInForce (s : State) : State :=
  let s : State := { s with fpl := { s.fpl with src := s.nextSrc } }
  s.wrF FPL_STATUS 9 8 s.fpl.src

/-- R297: a candidate that used no TICK for long enough claims mastership; a claim made at a boundary sends that boundary's TICK. -/
def State.masterClaim (s : State) : State :=
  match s.masterRank with
  | none => s
  | some (k, _) =>
    if s.stageNow = 5 ∧ !s.isMaster ∧ !s.alone ∧ !s.wal.used ∧ s.wal.early.isNone ∧ 3 * max 1 k ≤ s.wal.heardAge then
      let s : State := if s.wal.claimed then s
        else { s.setFrame s.claimFrame with wal := { s.wal with claimed := true } }
      let s := (s.wrF WAL_STATUS 1 1 1).wrF WAL_STATUS 9 8 k
      let s := (s.wr WAL_MASTER_LO fusedId).wr WAL_MASTER_HI (fusedId / 2 ^ 32)
      let s := s.report Ev.WAL_MASTER_CLAIMED []
      if s.tickStart = s.now then s.sourceInForce.tickOut else s
    else s

/-- R297, R298: the commit point of a follower without a TICK of this tick. -/
def State.tickMissed (s : State) : State :=
  if s.alone ∨ s.isMaster ∨ s.wal.used ∨ s.wal.early.isSome then s
  else
    let s := (s.bumpF WAL_STATUS 31 24).bump WAL_MISSED_TICK_TOTAL
    if 3 ≤ s.rdF WAL_STATUS 31 24 ∧ !s.wal.lostSaid then
      { s.report Ev.WAL_MASTER_LOST [] with wal := { s.wal with lostSaid := true } }
    else s

/-! ### GENLOCK (R299) -/

/-- The device tracks GENLOCK: its candidate's source is GENLOCK. -/
def State.tracksGenlock (s : State) : Bool := s.masterRank.map (·.2) == some 1

/-- The tolerance of the plan, in cycles of the nominal tick. -/
def State.tolCycles (s : State) : Nat := s.nomTick * ((s.fpl.plan.map Plan.tolerance).getD 0) / 1000000

/-- An edge follows another by the right time. -/
def State.edgeFits (s : State) (from' : Nat) : Bool :=
  let want := s.genlockDiv * s.nomTick
  let tol := (s.fpl.plan.map Plan.tolerance).getD 0
  let d := s.now - from'
  decide (((max d want) - (min d want)) * 1000000 ≤ want * tol)

/-- Missing or invalid edges: the third in a row is GENLOCK lost. -/
def State.badEdge (s : State) : State :=
  let s : State := { s with wal := { s.wal with badEdges := s.wal.badEdges + 1, goodEdges := 0 } }
  if s.wal.badEdges = 3 then
    let s := s.wrF WAL_GENLOCK_STATUS 1 0 3
    if s.isMaster then s.report Ev.WAL_GENLOCK_LOST [] else s
  else s

/-- e of an edge: its distance from the nearer of the running tick's boundary and the next one. -/
def State.edgeError (s : State) : Int :=
  let t : Int := (s.now : Int) + s.genlockOffset
  let a := t - (s.tickStart : Nat)
  let b := t - (s.wal.next : Nat)
  if a.natAbs ≤ b.natAbs then a else b

/-- A valid edge: the length of the tick, or the way back to lock. GENLOCK_STEP places the next boundary at the edge plus
GENLOCK_OFFSET, or, where that has passed, a tick of the edges' later (DEDUCED, log entry 267). -/
def State.goodEdge (s : State) (period : Nat) : State :=
  let e := s.edgeError
  let s : State := { s with wal := { s.wal with
    edge := some s.now, period := period, badEdges := 0, goodEdges := s.wal.goodEdges + 1 } }
  let s := s.wrF WAL_GENLOCK_STATUS 31 8 (ofS 24 (clampS 24 e))
  let st := s.rdF WAL_GENLOCK_STATUS 1 0
  let tol := s.tolCycles
  let s := if st = 3 then s else
    let len := roundDiv (8 * (period : Nat) - e * (s.genlockDiv : Nat)) (8 * s.genlockDiv)
    { s with wal := { s.wal with gLen := some (max ((s.nomTick - tol : Nat) : Int) (min ((s.nomTick + tol : Nat) : Int) len)).toNat } }
  if s.wal.goodEdges = 16 ∧ st ≠ 2 then
    let s := s.wrF WAL_GENLOCK_STATUS 1 0 2
    if !s.isMaster then s
    else
      let s := s.report Ev.WAL_GENLOCK_LOCKED []
      if s.genlockStep ∧ tol < e.natAbs then
        let t := ((s.now : Int) + s.genlockOffset).toNat
        { s with wal := { s.wal with next := if s.now ≤ t then t else t + period / s.genlockDiv } }
      else s
  else s

/-- An active edge of the GENLOCK input. -/
def State.genlockEdge (s : State) : State :=
  if !s.tracksGenlock then s
  else
    let w := s.wal
    let s : State := { s with wal := { s.wal with lastEdge := some s.now } }
    match w.edge, w.lastEdge with
    | none, _ => { s with wal := { s.wal with edge := some s.now } }.wrF WAL_GENLOCK_STATUS 1 0 1
    | some v, l =>
      if s.edgeFits v then s.goodEdge (s.now - v)
      else match l with
        | some x => if x ≠ v && s.edgeFits x then s.goodEdge (s.now - x) else s.badEdge
        | none => s.badEdge

/-! ### The vote (R304, R305) -/

/-- R308: D_max. -/
def State.dMax (s : State) : Nat := min 255 ((s.commitLead - 12800) / 1120)

/-- Depth d: that of the last DECISION applied, D_max before one (R295). -/
def State.depth (s : State) : Nat := if s.wal.root.isNone then s.dMax else s.rdF WAL_DEPTH 23 8

/-- The commit parent. -/
def State.commitParent (s : State) : Option Nat :=
  if s.rdF WAL_STATUS 5 5 = 1 then some (s.rdF WAL_STATUS 7 6) else none

/-- The earlier and the later of two tags (R9). -/
def tagMin (a b : Nat) : Nat := if later 16 a b then b else a
def tagMax (a b : Nat) : Nat := if later 16 b a then b else a

/-- R305: two votes combined. -/
def Vote.join (a b : Vote) : Vote :=
  { ready := a.ready && b.ready, noCand := a.noCand && b.noCand, member := a.member
    tagLo := if a.noCand then b.tagLo else if b.noCand then a.tagLo else tagMin a.tagLo b.tagLo
    tagHi := if a.noCand then b.tagHi else if b.noCand then a.tagHi else tagMax a.tagHi b.tagHi
    members := satN 16 (a.members + b.members), notReady := satN 16 (a.notReady + b.notReady)
    firstNr := if a.notReady = 0 then b.firstNr else if b.notReady = 0 then a.firstNr else min a.firstNr b.firstNr }

/-- The vote of no member. -/
def Vote.none : Vote :=
  ⟨true, true, false, Config.tagNone.toNat, Config.tagNone.toNat, 0, 0, Config.firstNrNone.toNat⟩

/-- R304: the device's own vote. -/
def State.ownVote (s : State) (ready : Bool) : Vote :=
  let tag := s.plt.cand.map (·.tag)
  let r := tag.isSome && ready && s.rdF WAL_CTRL 0 0 == 0
  { ready := r, noCand := tag.isNone, member := s.rdF WAL_STATUS 0 0 == 1, tagLo := tag.getD Config.tagNone.toNat
    tagHi := tag.getD Config.tagNone.toNat, members := 1, notReady := b2n (!r)
    firstNr := if r then Config.firstNrNone.toNat else s.addr }

/-- R304: the device votes: at S5, not in a cold switch, not abstaining. -/
def State.mayVote (s : State) : Bool :=
  s.stageNow == 5 && !s.fpl.coldBusy && s.rdF WAL_CTRL 1 1 == 0

/-- The member children, and their votes. -/
def State.memberVotes (s : State) : List (Option Vote) :=
  (s.wal.children.filter (fun c => c.2.state == 1)).map (fun c => c.2.vote)

/-- The own vote with those of the member children (R305). -/
def State.aggregate (s : State) : Vote :=
  (s.memberVotes.filterMap id).foldl Vote.join (s.wal.vote.getD Vote.none)

/-- WAL_VOTE_LAST and WAL_VOTE_NR of a combined vote. -/
def State.noteVote (s : State) (own all : Vote) : State :=
  (s.wr WAL_VOTE_LAST (b2n own.ready + b2n all.ready * 2 + b2n own.noCand * 4 + all.members * 65536)).wr WAL_VOTE_NR
    (all.notReady + all.firstNr * 65536)

/-- The root's decision (R306). -/
def State.rootDecide (s : State) : State :=
  if !s.isCommitRoot || !s.wal.decides || !s.fpl.committed || s.wal.voted || s.alone then s
  else
    let all := s.aggregate
    let run := s.wal.run
    let kind := if all.ready then 1 else if run < s.repeatLimit then 2 else 3
    let s := match s.wal.vote with
      | some own => s.noteVote own all
      | none => s
    let s := if kind = 2 then s.report Ev.WAL_REPEAT [all.firstNr] else s
    let s := if kind = 3 then s.report Ev.WAL_FORCED_COMMIT [] else s
    let s := if !all.noCand && all.tagLo != all.tagHi then s.report Ev.WAL_TAG_SPLIT [] else s
    let d : Decision :=
      { frame := s.fpl.frame + 1, kind := kind, reason := if kind = 2 then 1 else 0, tag := all.tagHi, members := all.members
        notReady := all.notReady, firstNr := all.firstNr, rank := s.rootRank.getD 0, hops := 0, root := fusedId
        run := min 255 run }
    let keep : Option Decision := match s.wal.decision with
      | some x => if x.rank < d.rank ∨ (x.rank = d.rank ∧ x.root < d.root) then some x else some d
      | none => some d
    let s : State := { s with wal := { s.wal with
      voted := true, decision := keep, seenDec := (fusedId, d.frame, 0, 4) :: s.wal.seenDec.take 15 } }
    s.flood 0x03 4 d.body

/-- The combined vote goes to the commit parent (R305). -/
def State.voteSend (s : State) : State :=
  if !s.fpl.committed || s.wal.voted then s
  else match s.wal.vote, s.wal.votePort with
    | some own, some p =>
      let all : Vote := { s.aggregate with member := own.member }
      let s := s.noteVote own all
      let s : State := { s with wal := { s.wal with voted := true } }
      s.sendLocal p 0x02 (all.body s.wal.voteFrame ((s.wal.root.map (·.2)).getD 0))
    | _, _ => s

/-- R305, R306: the vote goes up when every child that was a member in the previous tick has voted, a member when the commit point
came (DEDUCED, log entry 274); the root decides when every member child has. -/
def State.voteProgress (s : State) : State :=
  if !s.fpl.committed ∨ s.alone then s
  else
    let s := if s.wal.children.all (fun c => !c.2.prev || c.2.state != 1 || c.2.vote.isSome) then s.voteSend else s
    if s.memberVotes.all Option.isSome then s.rootDecide else s

/-- The commit point, this block's part (R19, R295, R297, R304, R308, R311). -/
def State.wallCommitPoint (s : State) (ready : Bool) : State :=
  if s.alone ∨ s.fpl.plan.isNone then s
  else
    let s := s.tickMissed
    let d := s.depth
    let s := s.wrF WAL_DEPTH 23 8 d
    let s := if s.dMax < d ∧ !s.isCommitRoot ∧ !s.wal.depthSaid then
        { s.report Ev.WAL_DEPTH_EXCEEDED [] with wal := { s.wal with depthSaid := true } } else s
    let own : Option Vote := if s.mayVote then some (s.ownVote ready) else none
    let s : State := { s with wal := { s.wal with
      vote := own
      voteFrame := s.fpl.frame + 1
      votePort := if s.isCommitRoot then none else s.commitParent
      voted := false
      decides := s.isCommitRoot
      children := s.wal.children.map (fun (c : Nat × Child) =>
        if c.2.joining then (c.1, { c.2 with state := 1, joining := false, readyRun := 0, prev := false })
        else (c.1, { c.2 with prev := c.2.state == 1 })) } }
    s.voteProgress

/-! ### Membership (R311) -/

/-- A MEMBER message to a child. -/
def State.sendMember (s : State) (p st : Nat) : State :=
  s.sendLocal p 0x04 (toLe 1 st ++ toLe 7 0 ++ toLe 8 ((s.wal.root.map (·.2)).getD 0) ++ toLe 16 0)

/-- R311: a child at the deadline: a miss, or an in-time vote. -/
def State.childDeadline (s : State) (p : Nat) (c : Child) : State × Child :=
  match c.vote with
  | none =>
    let c : Child := { c with missed := min 3 (c.missed + 1), readyRun := 0 }
    if c.state = 1 ∧ c.missed = 3 then
      ((s.sendMember p 1).report Ev.WAL_MEMBER_ABSENT [c.addr, p], { c with state := 2 })
    else (s, c)
  | some v =>
    let c : Child := { c with missed := 0 }
    if c.state ≠ 2 then (s, c)
    else
      let n := if v.ready then c.readyRun + 1 else 0
      if 2 ≤ n ∧ !c.joining then
        ((s.sendMember p 2).report Ev.WAL_MEMBER_REJOINED [c.addr, p], { c with readyRun := 2, joining := true })
      else (s, { c with readyRun := min 2 n })

/-- The deadline of the coming frame's votes: the vote goes, late votes are missed (R305, R311). -/
def State.voteDeadline (s : State) : State :=
  if s.alone || !s.fpl.committed || s.wal.closed then s
  else
    let s := s.voteSend
    let s : State := { s with wal := { s.wal with closed := true } }
    s.wal.children.foldl (fun s e =>
      let (s, c) := s.childDeadline e.1 e.2
      { s with wal := { s.wal with children := s.wal.children.map (fun (x : Nat × Child) => if x.1 = e.1 ∧ x.2.addr = e.2.addr then (x.1, c) else x) } }) s

/-- A VOTE on a port (R305, R311): its child, by port and address, becomes the one heard last. -/
def State.voteIn (s : State) (p : Nat) (msg : Bytes) : State :=
  let b := msg.drop 16
  let v := voteOf b
  let frame := leAt b 0 6
  let src := leAt msg 2 2
  let parent := if s.fpl.committed then s.wal.votePort else s.commitParent
  if s.alone ∨ parent = some p then s
  else
    let old : Option Child := (s.wal.children.find? (fun e => e.1 == p && e.2.addr == src)).map (·.2)
    let late := s.wal.closed || decide (frame ≤ s.fpl.frame)
    let s := if late then s.bump WAL_LATE_TOTAL else s
    let take := !late && frame == s.fpl.frame + 1
    if old.isNone && !take then s
    else
      let c : Child := old.getD ⟨src, if v.member then 1 else 2, 0, 0, 0, false, none, false⟩
      let c : Child := { c with age := 0, vote := if take then c.vote.or (some v) else c.vote }
      let rest := s.wal.children.filter (fun e => !(e.1 == p && e.2.addr == src))
      let s : State := { s with wal := { s.wal with children := (p, c) :: rest } }
      if take then s.voteProgress else s

/-- A MEMBER message (R311); while ABSTAIN is set MEMBER stays clear, but the message counts for R431. -/
def State.memberIn (s : State) (msg : Bytes) : State :=
  let st := byteAt msg 16
  if s.alone then s
  else if st = 2 then
    let s := if s.rdF WAL_CTRL 1 1 = 0 then s.wrF WAL_STATUS 0 0 1 else s
    { s with boot := { s.boot with member := true } }
  else if st = 1 then s.wrF WAL_STATUS 0 0 0
  else s

/-! ### The decision (R303, R307, R309, R310) -/

/-- R307, R312: a candidate that missed enough decisions, and has none for the coming frame, takes the root role. -/
def State.rootTakeover (s : State) : State :=
  match s.rootRank with
  | none => s
  | some k =>
    if s.stageNow = 5 ∧ !s.isCommitRoot ∧ !s.alone ∧ s.wal.decision.isNone ∧ 2 * max 1 k ≤ s.wal.missed then
      (s.wrF WAL_STATUS 2 2 1).report Ev.WAL_ROOT_TAKEOVER []
    else s

/-- A DECISION on a port (R295, R307, R309). -/
def State.decisionIn (s : State) (p : Nat) (msg : Bytes) : State :=
  let d := decisionOf (msg.drop 16)
  let u := s.hopUnits p
  if s.alone then s
  else
    let seen := s.wal.seenDec.any (fun e => e.1 == d.root && e.2.1 == d.frame)
    let loose := s.wal.joining || s.isolated
    if seen then
      let keep (h q : Nat) : Bool := decide (d.hops < h) ||
        (d.hops == h && (s.commitParent == some p || (s.commitParent != some q && decide (p < q))))
      { s with wal := { s.wal with seenDec := s.wal.seenDec.map (fun (e : Nat × Nat × Nat × Nat) =>
        if e.1 = d.root ∧ e.2.1 = d.frame ∧ e.2.2.2 < 4 ∧ keep e.2.2.1 e.2.2.2 then (e.1, e.2.1, d.hops, p) else e) } }
    else
      let s : State := { s with wal := { s.wal with seenDec := (d.root, d.frame, d.hops, p) :: s.wal.seenDec.take 15 } }
      if d.frame = s.fpl.frame ∨ (d.frame < s.fpl.frame ∧ !loose) then
        (s.bump WAL_LATE_TOTAL).report Ev.WAL_LATE_MESSAGE []
      else
        let better (r i : Nat) : Bool := decide (d.rank < r) || (d.rank == r && decide (d.root < i))
        let s := s.flood 0x03 p { d with hops := (d.hops + u) % 65536 }.body
        let s := if s.isCommitRoot && better (s.rootRank.getD 255) fusedId then
            (s.wrF WAL_STATUS 2 2 0).report Ev.WAL_YIELD [2] else s
        match s.wal.decision with
        | none => { s with wal := { s.wal with decision := some d } }
        | some x => if better x.rank x.root then { s with wal := { s.wal with decision := some d } } else s

/-- WAL_LAST_DECISION (Table 11.10). -/
def State.noteDecision (s : State) (kind : Nat) (loc : Bool) (run : Nat) : State :=
  s.wr WAL_LAST_DECISION (kind + b2n loc * 4 + min 255 run * 256 + s.fpl.frame % 65536 * 65536)

/-- The decision of a boundary (R309, R310), the frame number having risen: 1 COMMIT, 2 REPEAT, 3 FORCED. The commit parent
goes by the HOPS delivered, the depth by them and that port's hop units (DEDUCED, log entry 290). -/
def State.wallDecide (s : State) : State × Nat :=
  if s.fpl.plan.isNone ∨ s.stageNow ≠ 5 then (s, 2)
  else match s.wal.decision with
    | some d =>
      let (hops, port) : Nat × Nat := ((s.wal.seenDec.find? (fun e => e.1 == d.root && e.2.1 == d.frame)).map
        (fun e => (e.2.2.1, e.2.2.2))).getD (0, 4)
      let s := if d.frame = s.fpl.frame then s
        else
          let s := if s.wal.joining || s.isolated then s else s.tokenMismatch s.fpl.frame d.frame
          s.setFrame d.frame
      let kind := if d.kind = 1 ∨ d.kind = 3 then d.kind else 2
      let s := (s.wrF WAL_STATUS 3 3 0).wrF WAL_STATUS 23 16 0
      let s := (s.wrF WAL_STATUS 5 5 (b2n (decide (port < 4)))).wrF WAL_STATUS 7 6 (port % 4)
      let depth := hops + if port < 4 then s.hopUnits port else 0
      let s := (s.wrF WAL_STATUS 11 10 d.rank).wrF WAL_DEPTH 23 8 depth
      let s := (s.wr WAL_ROOT_LO d.root).wr WAL_ROOT_HI (d.root / 2 ^ 32)
      let s := if kind = 2 then s.bump WAL_REPEAT_TOTAL else if kind = 3 then s.bump WAL_FORCED_TOTAL else s
      let s := s.noteDecision kind false d.run
      ({ s with wal := { s.wal with
        root := some (d.rank, d.root), joining := false, missed := 0, run := if kind = 1 then 0 else s.wal.run + 1 } }, kind)
    | none =>
      let iso := s.isolated
      let s := (s.bumpF WAL_STATUS 23 16).bump WAL_MISSED_DECISION_TOTAL
      let s := s.noteDecision (if iso then 1 else 2) true s.wal.run
      let s : State := { s with wal := { s.wal with missed := s.wal.missed + 1, run := s.wal.run + 1 } }
      if iso then (s, 3)
      else
        let s := s.report Ev.WAL_DECISION_MISSED []
        let limit := max s.repeatLimit (2 * max 1 (byteAt s.commitSec 1 - 1)) + 1
        if limit ≤ s.wal.missed then ((s.wrF WAL_STATUS 3 3 1).report Ev.WAL_ISOLATED [], 2) else (s, 2)

/-- The boundary, this block's part after the decision and a switch: roles that the COMMIT section no longer names end
(R312), a master's rank follows it, the source in force (R31), the TICK and the GENLOCK pulse; votes and children of the new tick
(R311). -/
def State.wallTick (s : State) : State :=
  let s := if s.rootRank.isNone then s.wrF WAL_STATUS 2 2 0 else s
  let s := match s.masterRank with
    | none => s.wrF WAL_STATUS 1 1 0
    | some (k, _) => if s.isMaster then s.wrF WAL_STATUS 9 8 k else s
  let follower := !s.alone && !s.isMaster
  let s := s.wrF WAL_STATUS 4 4 (b2n (follower && !s.wal.used))
  let s : State := { s with
    wal := { s.wal with
      heardAge := if s.wal.used then 0 else s.wal.heardAge + 1
      used := s.wal.early.isSome, decision := none, decides := false, vote := none, votePort := none, voted := false, closed := false, depthSaid := false
      seenDec := s.wal.seenDec.filter (fun e => decide (s.fpl.frame ≤ e.2.1))
      children := (s.wal.children.map (fun (c : Nat × Child) => (c.1, { c.2 with age := c.2.age + 1, vote := none }))).filter
        (fun c => decide (c.2.age < 16))
      pulse := if s.genlockOut then some (s.now + 1600) else none } }
  let s := s.sourceInForce.genlockDrive.tickOut
  match s.wal.early with
  | some b =>
    let w : Wal := { s.wal with early := none }
    { s with wal := if s.isMaster || s.alone then w else { w with next := b } }
  | none => s

/-- R302: WAL_GENLOCK_CTRL written. -/
def State.walGenlock (s : State) (v : Nat) : State := (s.regWrite WAL_GENLOCK_CTRL v).genlockDrive

/-- R303, R311: the block joins anew: at entry to S5 and at the start of a cold switch. -/
def State.wallJoin (s : State) : State := { s.wrF WAL_STATUS 0 0 0 with wal := { s.wal with joining := true } }

/-- R311: WAL_CTRL written; ABSTAIN clears MEMBER. -/
def State.walCtrl (s : State) (v : Nat) : State :=
  let s := s.regWrite WAL_CTRL v
  if bit v 1 = 1 then s.wrF WAL_STATUS 0 0 0 else s

/-- Registers computed when read. -/
def State.walView (s : State) (a : Nat) : Option Nat :=
  if a = WAL_DEPTH then some (s.dMax + s.rdF WAL_DEPTH 23 8 * 256)
  else if a = WAL_CHILD_STATE then
    some (match (s.wal.children.find? (fun c => c.1 == s.rdF WAL_CHILD_SEL 1 0)).map (·.2) with
      | some c => c.addr + c.state * 2 ^ 16 + min 3 c.missed * 2 ^ 18 + min 2 c.readyRun * 2 ^ 20
      | none => 0)
  else none

/-! ### The commands -/

/-- TICK_MESSAGE_RECEIVE (R300). -/
def execTickMessageReceive (port : Fin 4) (msg : Bytes) (s : State) : Host.Outcome State Fault Refusal :=
  .next (s.oneCycle fun s => s.tickIn port.val msg)

/-- DECISION_RECEIVE (R309). -/
def execDecisionReceive (port : Fin 4) (msg : Bytes) (s : State) : Host.Outcome State Fault Refusal :=
  .next (s.oneCycle fun s => s.decisionIn port.val msg)

/-- VOTE_RECEIVE (R305). -/
def execVoteReceive (port : Fin 4) (msg : Bytes) (s : State) : Host.Outcome State Fault Refusal :=
  .next (s.oneCycle fun s => s.voteIn port.val msg)

/-- MEMBER_RECEIVE (R311). -/
def execMemberReceive (msg : Bytes) (s : State) : Host.Outcome State Fault Refusal := .next (s.memberIn msg)

/-- VOTE_DEADLINE (R305). -/
def execVoteDeadline (s : State) : Host.Outcome State Fault Refusal := .next (s.oneCycle fun s => s.voteDeadline)

/-- ROOT_DECIDE (R306). -/
def execRootDecide (s : State) : Host.Outcome State Fault Refusal := .next (s.oneCycle fun s => s.rootDecide)

/-- MASTER_CLAIM (R297). -/
def execMasterClaim (s : State) : Host.Outcome State Fault Refusal := .next s.masterClaim

/-- ROOT_TAKEOVER (R307). -/
def execRootTakeover (s : State) : Host.Outcome State Fault Refusal := .next s.rootTakeover

/-- GENLOCK_EDGE: an active edge now (R299). -/
def execGenlockEdge (s : State) : Host.Outcome State Fault Refusal := .next (s.oneCycle fun s => s.genlockEdge)

/-- GENLOCK_EDGE_MISSED (R299). -/
def execGenlockEdgeMissed (s : State) : Host.Outcome State Fault Refusal := .next (if s.tracksGenlock then s.badEdge else s)

end Sys2Proof.Machine
end

