-- ==== Sys2Proof/Machine/Etcher.lean ====
section
/-! DEFINITION. The Etcher (chapter "Etcher and panel drive"): colour to codes, furrow buffers, polarity, panel packets, the
row scan, the drivers' STATUS, and the sense window. -/
namespace Sys2Proof.Machine

/-! ### PANEL_TIMING (Table 8.4) and the built-in panel values (R230) -/

/-- The return lane of driver j, 0 for lane 16. -/
def State.retMap (s : State) (j : Nat) : Nat := if s.fpl.plan.isNone then j / 8 else byteAt s.panelSec (20 + j) % 2
def State.tSense (s : State) : Nat := if s.fpl.plan.isNone then 2000 else leAt s.panelSec 36 4
def State.tRet (s : State) : Nat := if s.fpl.plan.isNone then 3200 else leAt s.panelSec 44 4
def State.polMode (s : State) : Nat := s.rdF ETC_STATUS 8 7
def State.polrefInv (s : State) : Nat := if s.fpl.plan.isNone then 0 else byteAt s.panelSec 1 % 2
/-- The CONFIG entries for a waveform set (Table 8.3); the built-in values name no I_SENSE. -/
def State.configEntries (s : State) (set : Nat) : List (Nat × Nat) :=
  let b := s.panelSec
  if s.fpl.plan.isNone then [(1, 0x200), (2, 0x200), (3, 0x200), (4, 0), (6, 8)]
  else
    let w := 64 + 16 * set
    [(1, leAt b (w + 8) 2), (2, leAt b (w + 10) 2), (3, leAt b (w + 12) 2), (4, byteAt b 0), (5, leAt b 40 2), (6, leAt b 42 2)]
/-- Entry `i` of the encode curve of colour `c` (R203, R230). -/
def State.curve (s : State) (c i : Nat) : Nat :=
  if s.fpl.plan.isNone then min 4095 (8 * i) else leAt s.panelSec (256 + 1026 * c + 2 * i) 2

/-! ### From colour to code (R201 to R204, R182) -/

/-- LIM in force: 5 % at S4 (R230). -/
def State.driveLimit (s : State) : Nat := if s.rdF ETC_STATUS 6 6 = 1 then 0x0666 else s.rdF ETC_DRIVE_LIMIT 15 0

/-- R202: the value of a subpixel after limit and gains. -/
def gained (v lim gb gc : Nat) : Nat := min 0x8000 (roundDivN (v * lim * gb * gc) (2 ^ 45))

/-- R203. -/
def encodeWith (e : Nat → Nat) (q : Nat) : Nat :=
  let i := q / 64
  let f := q % 64
  e i + ((e (min (i + 1) 512) - e i) * f + 32) / 64

/-- Zone of an emitter site (R183). -/
def zoneOf (site : Nat) : Nat := 3 * (site / 12 / 4) + site % 12 / 4

/-- The same-colour neighbours of a site within its hogel. -/
def siteNext (site : Nat) : List Nat :=
  let ex := site % 12
  let ey := site / 12
  (if 0 < ex then [site - 1] else []) ++ (if ex < 11 then [site + 1] else []) ++
    (if 0 < ey then [site - 12] else []) ++ (if ey < 11 then [site + 12] else [])

/-- A subpixel is named dead (R182). -/
def HglEntry.isDead (e : HglEntry) (site c : Nat) : Bool :=
  (List.range 4).any (fun j => let r := e.deadRec j; r.2.2 && r.1 == site && bit r.2.1 c == 1)

/-- The 432 codes of a hogel, by 3 · site + colour: gains, then dead subpixels, then the curve. -/
def hogelCodes (e : HglEntry) (curve : Nat → Nat → Nat) (q : Nat → Nat → Nat) : List Nat :=
  if e.dark then List.replicate 432 0
  else (List.range 432).map (fun n =>
    let site := n / 3
    let c := n % 3
    if e.isDead site c then 0
    else
      let extra := ((siteNext site).filter (fun t => e.isDead t c)).foldl (fun a t =>
        let k := ((siteNext t).filter (fun u => !e.isDead u c)).length
        a + (q t c + k / 2) / k) 0
      encodeWith (curve c) (min 0x8000 (q site c + extra)))

/-- Codes packed two to every 3 bytes (R204). -/
def packCodes : List Nat → Bytes
  | a :: b :: l => toLe 3 (a % 4096 + b % 4096 * 4096) ++ packCodes l
  | [a] => toLe 3 (a % 4096)
  | [] => []

/-- Code `n` of a packed row. -/
def codeAt (row : Bytes) (n : Nat) : Nat := fld (leAt row (3 * (n / 2)) 3) (12 * (n % 2) + 11) (12 * (n % 2))

/-- Client FURROW (Table 3.2). -/
def clFurrow : Nat := 0x08

/-- The address of furrow buffer b: three buffers of 152 plots in the FURROW partition, or where the built-in allocator put
them. -/
def State.bufAddr (s : State) (b : Nat) : Nat :=
  (match s.clientPart clFurrow with
    | some p => grnBase + p.first * 4096
    | none => s.etc.bufBase) + b * 152 * 4096

/-- The row bytes of driver j, row k in a buffer. -/
def State.bufRow (s : State) (b j k : Nat) : Bytes := s.memGet (s.bufAddr b + (12 * j + k) * 3240) 3240

/-- The codes of a furrow, a list per hogel, written into its buffer (R204). -/
def State.writeFurrow (s : State) (f : Nat) (codes : List (List Nat)) : State :=
  let base := s.bufAddr (f % 3)
  let s := (List.range 192).foldl (fun s r =>
    let j := r / 12
    let k := r % 12
    s.engineSet 3 (base + r * 3240) ((List.range 60).flatMap (fun i => packCodes (((codes.getD (60 * j + i) []).drop (36 * k)).take 36)))) s
  let s := (linesOf base 622080).foldl (fun s l => if s.engineMay 3 (plotOf l) then s.setPoison l false else s) s
  { s with etc := { s.etc with bufs := sset FurrowBuf.init s.etc.bufs (f % 3) ⟨f, true⟩ } }

/-- The client of the stress and gain arrays (Table 3.2, log entry 283). -/
def clStress : Nat := 0x09

/-- The arrays of the ageing block, by their base registers (R183, R199). -/
def State.gainBase (s : State) : Nat := s.rd HGL_GAIN_BASE * 256
def State.accBase (s : State) : Nat := (if s.rdF HGL_STATUS 5 5 = 0 then s.rd HGL_ACC_BASE_A else s.rd HGL_ACC_BASE_B) * 256
/-- Cell index (R183). -/
def cellIdx (hx hy c z : Nat) : Nat := 27 * (960 * hy + hx) + 9 * c + z
/-- E_T of a colour, u0.16. -/
def State.targetEff (s : State) (c : Nat) : Nat :=
  if c = 0 then s.rdF HGL_TARGET_RG 15 0 else if c = 1 then s.rdF HGL_TARGET_RG 31 16 else s.rdF HGL_TARGET_B 15 0
/-- The cell gain in u1.15; a poisoned word counts as E_T (R191). -/
def State.cellGain (s : State) (i c : Nat) : Nat :=
  let a := s.gainBase + 2 * i
  if s.poisoned a then roundDivN (s.targetEff c) 2 else s.memLe a 2

/-- The codes of a composed furrow. Gains that are not mapped read without data (R26) and count as E_T, as poisoned ones do
(DEDUCED, log entry 266). -/
def State.codeFurrow (s : State) (f : Nat) (hs : List HglEntry) : State :=
  let lim := s.driveLimit
  let at' := s.gainBase + 54 * 960 * f
  let here := s.rangeMay clStress at' 51840
  let bad := if here then ((linesOf at' 51840).filter (fun l => s.marked l)).length else 0
  let codes := (List.range 960).map (fun hx =>
    let e := hs.getD hx .neutral
    hogelCodes e s.curve (fun site c =>
      let r := sget ⟨0x8001, 0, 0⟩ s.etc.rays (144 * hx + (143 - site))
      let v := if c = 0 then r.r else if c = 1 then r.g else r.b
      gained v lim (e.gains.getD c 0x8000)
        (if here then s.cellGain (cellIdx hx f c (zoneOf site)) c else roundDivN (s.targetEff c) 2)))
  ((if here then s.queueRead clStress at' 51840 else s.refuseRange clStress at' 51840).bumpBy DMC_POISON_READ_TOTAL bad).writeFurrow f codes

/-- R230, R413: the codes of a furrow of the proof surface. -/
def State.codeProof (s : State) (f : Nat) : State :=
  let lim := s.driveLimit
  s.writeFurrow f ((List.range 960).map (fun hx =>
    let px := s.memGet (s.etc.proofBase + 3840 * f + 4 * hx) 4
    hogelCodes .neutral s.curve (fun _ c => gained (roundDivN (byteAt px c * 32768) 255) lim 0x8000 0x8000)))

/-! ### Panel packets (R213, R214) -/

/-- A driver's record, read and changed. -/
def State.driver (s : State) (j : Nat) : Driver := sget Driver.init s.etc.drivers j
def State.modDriver (s : State) (j : Nat) (f : Driver → Driver) : State :=
  { s with etc := { s.etc with drivers := smod Driver.init s.etc.drivers j f } }

/-- The lane of driver j is active (R219). -/
def State.driverActive (s : State) (j : Nat) : Bool := bit (s.rdF ETC_STATUS 31 16) j == 1

/-- A panel packet (Table 8.1). -/
def panelPacket (type drv furrow frame seq arg : Nat) (payload : Bytes) : Bytes :=
  let h := toLe 1 (type + 16) ++ toLe 1 drv ++ toLe 2 furrow ++ toLe 2 payload.length ++ toLe 2 frame ++ toLe 1 seq ++
    toLe 1 0 ++ toLe 4 arg
  let b := h ++ toLe 2 (crc16 h) ++ payload ++ (if payload.isEmpty then [] else toLe 4 (crc32c payload))
  padTo (ceilDiv b.length 8 * 8) b

/-- A packet for driver j on its lane, with the lane's next SEQ; nothing after a power-loss trigger (R229). -/
def State.sendPanel (s : State) (j type furrow arg : Nat) (payload : Bytes) : State :=
  if s.panelLost then s else
  let m := s.laneMap j
  let n := sget 0 s.etc.laneSeq m
  let s := s.put (.panel m (panelPacket type j furrow (s.fpl.frame % 65536) n arg payload))
  { s with etc := { s.etc with laneSeq := sset 0 s.etc.laneSeq m ((n + 1) % 256) } }

/-- CONFIG for a waveform set. -/
def State.sendConfig (s : State) (j set : Nat) : State :=
  let l := s.configEntries set
  s.sendPanel j 4 0 l.length (l.flatMap (fun e => toLe 2 e.1 ++ toLe 2 e.2))

/-- TICK, which names the set in force. -/
def State.sendTickPacket (s : State) (j : Nat) : State :=
  s.sendPanel j 5 0 (s.rdF ETC_WAVE 2 0) (toLe 6 s.fpl.frame ++ toLe 2 0)

/-- STATUS_REQ, with CONVERT when the panel thermistor is to be converted first (R362). -/
def State.sendStatusReq (s : State) (j : Nat) (convert : Bool) : State := s.sendPanel j 6 0 (b2n convert) []

/-- The drivers whose lane has entered ACTIVE and can carry packets, whether or not its STATUS has come or a MAP fault stands:
they are polled (DEDUCED, log entry 273). -/
def State.laneUp (s : State) (j : Nat) : Bool := s.plState (s.laneMap j) == plActive

/-- A packet kind for each of some drivers. -/
def State.toDrivers (s : State) (which : State → Nat → Bool) (send : State → Nat → State) : State :=
  (List.range 16).foldl (fun s j => if which s j then send s j else s) s

/-! ### Transmit (R207, R214, R216) -/

/-- The furrow a slot of ETC_TX sends: its record's TARGET for RUN and DRAIN; the furrow of the slot before under the
built-in timing from S4 on (R17, R32). A DRAIN record transmits its TARGET, also where that is not furrow 539 (DESIGN CHOICE, log
entry 234). -/
def State.txTarget (s : State) (slot : Nat) : Option Nat :=
  if slot = 0 then none
  else if s.fpl.plan.isNone then (if 4 ≤ s.stageNow then some (slot - 1) else none)
  else
    let r := s.slotRecord slot 4
    if r.op = opRun ∨ r.op = opDrain then some (r.target % 540) else none

/-- A furrow's polarity record. -/
def State.furrow (s : State) (f : Nat) : Furrow := sget Furrow.init s.etc.furrows f

/-- R206: the sign of the subpixel at (X, Y). -/
def sigma (mode phi x y : Nat) : Nat := (phi + (if mode = 1 then y else if mode = 2 then x + y else 0)) % 2

/-- A row's codes coded for polarity (R207). -/
def polarRow (mode phi f j k : Nat) (row : Bytes) : Bytes :=
  packCodes ((List.range 2160).map (fun n =>
    let c := codeAt row n
    if sigma mode phi (720 * j + n / 3) (12 * f + k) = 0 then c else 4095 - c))

/-- The furrow's buffer holds its codes new and unpoisoned, and no repeat rules. -/
def State.freshFor (s : State) (f : Nat) : Bool :=
  let b := sget FurrowBuf.init s.etc.bufs (f % 3)
  b.fresh && b.furrow == f && !s.fpl.rep && !s.fpl.coldBusy && !s.fpl.cut.contains f

/-- An ETC_TX record sends its furrow: FURROW and ROW packets to every active driver, but for the rows a cut keeps back; a
furrow with a poisoned line (R78) or with accesses not performed (DESIGN CHOICE, log entry 291) is sent as a repeat. -/
def State.txFurrow (s : State) (f : Nat) (cut : List (Nat × Nat)) : State :=
  let base := s.bufAddr (f % 3)
  let bad := (linesOf base 622080).filter (fun l => s.poisoned l)
  let fresh := s.freshFor f
  let may := s.engineAll 4 base 622080
  let s := if !fresh then s else if may then bad.foldl (fun s l => s.poisonConsumed clFurrow (plotOf l) (l / 64 % 64)) s
    else s.engineRefuse 4 base 622080
  let fresh := fresh && bad.isEmpty && may
  let mask := if fresh then 0 else 0xFFF
  let phi := (s.furrow f).phi
  let mode := s.polMode
  let s := s.toDrivers State.driverActive (fun s j =>
    let s := s.sendPanel j 1 (f + phi * 16384) mask []
    if mask ≠ 0 then s
    else (List.range 12).foldl (fun s k =>
      if cut.contains (j, k) then s
      else s.sendPanel j 2 (f + k * 1024 + phi * 16384) 0 (polarRow mode phi f j k (s.bufRow (f % 3) j k))) s)
  { s with etc := { s.etc with
    txMask := mask, txFurrow := f
    txDrivers := ((List.range 16).filter (fun j => s.driverActive j)).foldl (fun n j => n + 2 ^ j) 0
    txCut := if mask = 0 then (cut.filter (fun c => s.driverActive c.1)).length else 0
    repeatTick := s.etc.repeatTick + b2n (mask ≠ 0) } }

/-- The stress of a furrow sent fresh (R184, R205): the cells' sums into the bank in use, for the drivers whose lane was active
from the record's start to its end, and n_s. A cell that reaches 65,535 counts as saturated (DEDUCED, log entry 277).
Accumulators that are not mapped take nothing, reported under R26. -/
def State.addStress (s : State) (f : Nat) : State :=
  let base := s.accBase
  let here := s.rangeMay clStress (base + 2 * cellIdx 0 f 0 0) 51840
  let a0 := base + 2 * cellIdx 0 f 0 0
  let s := if here then (s.queueRead clStress a0 51840).queueWrite clStress a0 51840 else s.refuseRange clStress a0 51840
  let s := if !here then s else (List.range 16).foldl (fun s j =>
    if bit s.etc.txDrivers j = 0 ∨ !s.driverActive j then s
    else
      let rows := (List.range 12).map (s.bufRow (f % 3) j)
      (List.range 60).foldl (fun s i =>
        (List.range 27).foldl (fun s n =>
          let c := n / 9
          let z := n % 9
          let sum := (List.range 16).foldl (fun a t =>
            a + codeAt (rows.getD (4 * (z / 3) + t / 4) []) (3 * (12 * i + 4 * (z % 3) + t % 4) + c)) 0
          let a := base + 2 * cellIdx (60 * j + i) f c z
          let old := s.memLe a 2
          let new := old + sum / 256
          let s := s.memSet a (toLe 2 (min 65535 new))
          if 65535 ≤ new ∧ old < 65535 then
            let s := s.bump HGL_SAT_TOTAL
            if s.hgl.satSaid then s
            else { s.report Ev.HGL_ACC_SATURATED [] with hgl := { (s.report Ev.HGL_ACC_SATURATED []).hgl with satSaid := true } }
          else s) s) s) s
  { s with hgl := { s.hgl with win := { s.hgl.win with ns := smod 0 s.hgl.win.ns f (· + 1) } } }

/-- R216: the stale rows of the tick reported, once, with their count. -/
def State.sayStale (s : State) : State :=
  if 0 < s.etc.staleTick ∧ !s.etc.staleSaid then
    { s.report Ev.ETC_STALE_ROWS [s.etc.staleTick] with
      etc := { (s.report Ev.ETC_STALE_ROWS [s.etc.staleTick]).etc with staleSaid := true } }
  else s

/-- The end of an ETC_TX record (R216, R205): stale rows, which the record of the drain, the last of a tick, reports (DEDUCED, log
entry 282); and the stress of a furrow sent whole. -/
def State.txEnd (s : State) : State :=
  let f := s.etc.txFurrow
  let away := ((List.range 16).filter (fun j => bit s.etc.txDrivers j == 0)).length
  let stale := if s.etc.txMask = 0 then s.etc.txCut + 12 * away else 0
  let s : State := { s with etc := { s.etc with staleTick := s.etc.staleTick + stale } }
  let s := if s.fpl.slot = 540 then s.sayStale else s
  let s := if s.etc.txMask = 0 ∧ s.etc.txCut = 0 ∧ s.stageNow = 5 ∧ s.rdF ETC_STATUS 0 0 = 1 ∧ s.rdF HGL_CTRL 5 5 = 1 ∧ s.rdF HGL_CTRL 3 3 = 1 ∧
      (sget FurrowBuf.init s.etc.bufs (f % 3)).fresh then s.addStress f else s
  { s with etc := { s.etc with
    txMask := 0xFFF, txCut := 0
    bufs := if s.etc.txMask = 0 then sset FurrowBuf.init s.etc.bufs (f % 3) FurrowBuf.init else s.etc.bufs } }

/-! ### Row scan and polarity (R208 to R211) -/

/-- A scan of a furrow (R208, R209, R221): POLREF carries its phase, 12 edges of ROW_CK select its rows, and the phase toggles; an
owed furrow is compensated. A scan that an early boundary left to slot 0 was counted in its tick (R224). -/
def State.rowScan (s : State) (f : Nat) : State :=
  if s.rdF ETC_STATUS 0 0 = 0 then s
  else
    let x := s.furrow f
    let counted := s.etc.carry == some f
    let s := s.put (.scan f ((x.phi + s.polrefInv) % 2) true)
    let s := (List.range 12).foldl (fun s k => s.put (.rowClock (12 * f + k) (f == 0 && k == 0) (k == 0))) s
    let y : Furrow := if counted then { x with phi := 1 - x.phi }
      else { x with phi := 1 - x.phi, cur := x.cur + 1, owed := false, comp := x.comp || x.owed }
    { s with etc := { s.etc with
      furrows := sset Furrow.init s.etc.furrows f y, carry := if counted then none else s.etc.carry } }

/-- R224: a tick that ends before its drain leaves the scan that ETC_ROW was at to slot 0 of the new tick; it counts in the old one.
An ETC_ROW record that has not ended counts as begun (DEDUCED, log entry 278). -/
def State.carryScan (s : State) : State :=
  let r := s.slotRecord s.fpl.slot 5
  if s.fpl.running.contains 5 ∧ (r.op = opRun ∨ r.op = opDrain) ∧ s.rdF ETC_STATUS 0 0 = 1 then
    let x := s.furrow (r.target % 540)
    { s with etc := { s.etc with
      furrows := sset Furrow.init s.etc.furrows (r.target % 540) { x with cur := x.cur + 1, owed := false, comp := x.comp || x.owed }
      carry := some (r.target % 540) } }
  else s

/-- R210: the check of a boundary, and the counts of the tick that begins. -/
def State.polarityCheck (s : State) : State :=
  let lit := !s.etc.darkTick
  let age := if lit then s.etc.scanAge + 1 else 0
  let bad := if 2 ≤ age then (List.range 540).filter (fun f =>
      let x := s.furrow f
      x.cur + x.prev != 2 && !x.owed && !x.comp) else []
  let s := if bad.isEmpty then s
    else (s.bumpBy ETC_IMBALANCE_TOTAL bad.length).report Ev.ETC_POLARITY_IMBALANCE [bad.length, bad.headD 0]
  let furrows := (List.range 540).foldl (fun l f =>
    let x := s.furrow f
    sset Furrow.init l f { x with owed := x.owed || bad.contains f, prev2 := x.prev, prev := x.cur, cur := 0, comp := false }) s.etc.furrows
  { s with etc := { s.etc with furrows := furrows, scanAge := age, darkTick := s.rdF ETC_STATUS 0 0 == 0 } }

/-! ### Waveform sets (R214, R220) -/

/-- The commit point: the set for the panel band is selected, and its CONFIG goes out. -/
def State.etcCommitPoint (s : State) : State :=
  let set := min 4 (s.rdF THM_STATUS 5 3)
  (s.wrF ETC_WAVE 10 8 set).toDrivers State.driverActive (fun s j => s.sendConfig j set)

/-- The boundary: the selected set takes effect. A driver whose lane is not active has no CONFIG of it, so that R219 sends one. -/
def State.waveBoundary (s : State) : State :=
  let new := s.rdF ETC_WAVE 10 8
  if new = s.rdF ETC_WAVE 2 0 then s
  else
    let s := s.toDrivers (fun s j => !s.driverActive j) (fun s j => s.modDriver j (fun d => { d with greeted := false }))
    (s.wrF ETC_WAVE 2 0 new).report Ev.ETC_WAVE_CHANGE []

/-- R214, R257: the polls of a headland; a poll counts towards the loss of its lane while the driver's return lane is ACTIVE. -/
def State.pollDrivers (s : State) (convert : Bool) : State :=
  if s.rdF ETC_CTRL 1 1 = 0 then s
  else s.toDrivers State.laneUp (fun s j =>
    (s.sendStatusReq j convert).modPanel (s.laneMap j) (fun x => { x with
      polls := x.polls + b2n (s.plState (16 + s.retMap j) == plActive) }))

/-- The boundary: counts of the tick that ended (Table 8.9). -/
def State.etcTick (s : State) : State :=
  let s := s.sayStale
  let s := (s.wr ETC_REPEAT_LAST s.etc.repeatTick).wr ETC_STALE_LAST s.etc.staleTick
  { s with etc := { s.etc with repeatTick := 0, staleTick := 0, staleSaid := false, returnSaid := false } }

/-! ### Return packets (R217 to R219) -/

/-- A return packet that passes its checks: HCRC, version, and the CRC of its payload. -/
def returnOk (b : Bytes) : Bool :=
  let n := leAt b 4 2
  decide (16 ≤ b.length) && crc16 (sub b 0 14) == leAt b 14 2 && byteAt b 0 / 16 == 1 &&
    (n == 0 || (decide (20 + n ≤ b.length) && crc32c (sub b 16 n) == leAt b (16 + n) 4))

/-- A return packet discarded: counted; a failed check is reported once per tick. -/
def State.returnBad (s : State) (check : Bool) : State :=
  let s := s.bump ETC_RETURN_ERR_TOTAL
  if check ∧ !s.etc.returnSaid then
    { s.report Ev.ETC_RETURN_CHECK [] with etc := { (s.report Ev.ETC_RETURN_CHECK []).etc with returnSaid := true } }
  else s

/-- A STATUS packet of driver j. -/
def State.driverStatus (s : State) (j : Nat) (b : Bytes) : State :=
  let id := byteAt b 0 % 16
  if id ≠ j then
    let s := if (s.driver j).mapFault then s else s.report Ev.ETC_DRIVER_LOST [j, 2]
    (s.modDriver j (fun d => { d with mapFault := true, greeted := false })).wrF ETC_STATUS (16 + j) (16 + j) 0
  else
    let row := leAt b 2 2
    let hdr := leAt b 4 2
    let (ri, hi) := match (s.driver j).counts with
      | some (r, h) => ((row + 65536 - r) % 65536, (hdr + 65536 - h) % 65536)
      | none => (0, 0)
    let s := s.modDriver j (fun d => { d with
      mapFault := false, clamped := bit (byteAt b 1) 0 == 1, configOk := bit (byteAt b 1) 1 == 1, counts := some (row, hdr)
      rowInc := min 255 ri, hdrInc := min 255 hi, therm := leAt b 6 2, thermValid := bit (byteAt b 8) 0 == 1
      lastTherm := if bit (byteAt b 8) 0 = 1 then some (toS 16 (leAt b 6 2)) else d.lastTherm })
    let s := if 0 < ri + hi then (s.bumpBy ETC_DRV_ERR_TOTAL (ri + hi)).report Ev.ETC_DRIVER_ERR [j, ri, hi] else s
    let t := toS 16 (leAt b 6 2)
    let s := if bit (byteAt b 8) 0 = 1 then
        let s := s.panelReading j t
        let old := (s.hgl.win.temps.find? (fun e => e.1 == j)).map (·.2)
        let hot := match old with
          | some o => max o t
          | none => t
        { s with hgl := { s.hgl with win := { s.hgl.win with
          temps := s.hgl.win.temps.filter (fun e => e.1 != j) ++ [(j, hot)] } } }
      else s
    s.plStatus (s.laneMap j)

/-- A packet on a return lane that is to be a STATUS. -/
def State.statusIn (s : State) (b : Bytes) : State :=
  if !returnOk b then s.returnBad true
  else if byteAt b 0 % 16 ≠ 9 ∨ leAt b 4 2 ≠ 16 then s.returnBad false
  else s.driverStatus (byteAt b 1 % 16) (b.drop 16)

/-- R219: a driver's lane has left the active state. -/
def State.driverLost (s : State) (j : Nat) : State :=
  if s.driverActive j ∧ !s.plTrained (s.laneMap j) then
    ((s.modDriver j (fun d => { d with greeted := false })).wrF ETC_STATUS (16 + j) (16 + j) 0).report Ev.ETC_DRIVER_LOST [j, 1]
  else s

/-- R219: CONFIG for the set in force, TICK and STATUS_REQ for a driver. -/
def State.greetDriver (s : State) (j : Nat) : State :=
  (((s.sendConfig j (s.rdF ETC_WAVE 2 0)).sendTickPacket j).sendStatusReq j false).modDriver j (fun d => { d with greeted := true })

/-- R219, R257: an out lane enters ACTIVE: CONFIG, TICK and STATUS_REQ for its driver. -/
def State.driverEnter (s : State) (m : Nat) : State := s.toDrivers (fun s j => s.laneMap j == m) State.greetDriver

/-- R219: a driver whose lane is trained, without a MAP fault, is back in service, the three packets sent first where the lane's
entry to ACTIVE did not send them. -/
def State.driverBack (s : State) (j : Nat) : State :=
  if !s.driverActive j ∧ s.plTrained (s.laneMap j) ∧ !(s.driver j).mapFault then
    let s := if (s.driver j).greeted then s else s.greetDriver j
    (s.wrF ETC_STATUS (16 + j) (16 + j) 1).report Ev.ETC_DRIVER_RESTORED [j]
  else s

/-! ### Sensing (R192, R225, R226) -/

/-- The next subpixel of the sense list: regions in turn; in a region the hogels with SENSE_OK in raster order, a colour per
pass; subpixels that are dead, named in the table or beyond its records, are passed over (R194). -/
def State.nextInRegion (s : State) (r : Nat) : Nat → Nat → Nat → Option (Nat × Nat)
  | 0, _, _ => none
  | n + 1, pos, c =>
    let (pos, c) := if 3600 ≤ pos then (0, (c + 1) % 3) else (pos, c)
    let hx := 60 * (r % 16) + pos % 60
    let hy := 60 * (r / 16) + pos / 60
    let e := ((s.hglRaw hx hy).limit).1
    if e.senseOk && !e.isDead e.site c && !s.hgl.noSense.contains (960 * hy + hx, c) then some (pos, c) else State.nextInRegion s r n (pos + 1) c

/-- One subpixel taken from the list, trying at most `n` regions. -/
def State.takeSense : Nat → State → Option ((Nat × Nat × Nat) × State)
  | 0, _ => none
  | n + 1, s =>
    let r := s.hgl.senseNext
    let (pos, c) := ((s.hgl.senseAt.find? (fun e => e.1 == r)).map (fun e => (e.2.1, e.2.2))).getD (0, 0)
    let s' : State := { s with hgl := { s.hgl with senseNext := (r + 1) % 144 } }
    match s.nextInRegion r 10801 pos c with
    | none => State.takeSense n s'
    | some (p, c) =>
      some ((60 * (r % 16) + p % 60, 60 * (r / 16) + p / 60, c),
        { s' with hgl := { s'.hgl with senseAt := s'.hgl.senseAt.filter (fun e => e.1 != r) ++ [(r, p + 1, c)] } })

/-- Up to `n` subpixels taken. -/
def State.takeSenses : Nat → State → List SenseReq → State × List SenseReq
  | 0, s, l => (s, l)
  | n + 1, s, l => match State.takeSense 144 s with
    | none => (s, l)
    | some ((hx, hy, c), s) => State.takeSenses n s (l ++ [⟨hx, hy, c, 0, false⟩])

/-- The emitter row of a request. -/
def State.senseRow (s : State) (q : SenseReq) : Nat := 12 * q.hy + ((s.hglRaw q.hx q.hy).limit).1.site / 12

/-- The SENSE task has started in this headland. -/
def State.senseTask (s : State) : Bool :=
  s.fpl.tasks.any (fun t => t.started && ((s.taskRecs[t.idx]?).map (·.kind)) == some 1)

/-- R222, R225: a step of the sense window: the SEEK of an emitter row, and its selection in sense mode. -/
def State.seekRow (s : State) (row : Nat) : State :=
  (s.put (.seek (false :: (List.range 13).map (fun i => row.testBit (12 - i))))).put (.senseSelect row)

/-- R225: the sense window opens: EMIT_EN low, the requests sent, steps beyond n_max handed back, and a step run for each emitter
row. After a power-loss trigger none opens (R229). -/
def State.senseOpen (s : State) (slot : Nat) : State :=
  let r := s.slotRecord slot 5
  if r.op ≠ opSense ∨ s.stageNow ≠ 5 ∨ s.rdF ETC_STATUS 3 3 = 1 ∨ s.panelLost = true then s
  else
    let s := (s.wrF ETC_STATUS 0 0 0).wrF ETC_STATUS 3 3 1
    let count := if s.rdF HGL_SENSE_CTRL 8 8 = 1 ∧ s.senseTask then min 64 (s.rdF HGL_SENSE_CTRL 6 0) else 0
    let back := s.etc.senseBack.take count
    let (s, l) := State.takeSenses (count - back.length) s back
    let nMax := (r.wcet - 3200 - s.tRet) / (896 + s.tSense)
    let rows := (l.map s.senseRow).eraseDups
    let step (q : SenseReq) : Nat := (rows.findIdx? (· == s.senseRow q)).getD 0
    let now := (l.filter (fun q => decide (step q < min 64 nMax))).mapIdx (fun i q => { q with tag := i })
    let late := l.filter (fun q => !decide (step q < min 64 nMax))
    let s := if late.isEmpty then s else s.report Ev.ETC_SENSE_SHORT [late.length]
    let s : State := { s with etc := { s.etc with sense := now, senseBack := late ++ s.etc.senseBack.drop count } }
    let s := s.toDrivers State.driverActive (fun s j =>
      let mine := now.filter (fun q => q.hx / 60 == j)
      if mine.isEmpty then s
      else s.sendPanel j 3 0 mine.length (mine.flatMap (fun q =>
        let x := 12 * q.hx + ((s.hglRaw q.hx q.hy).limit).1.site % 12 - 720 * j
        toLe 1 (step q) ++ toLe 2 (x + q.colour * 1024) ++ toLe 1 q.tag)))
    (rows.take (min 64 nMax)).foldl State.seekRow s

/-- HGL_SENSE_LAST_POS and HGL_SENSE_LAST_VF. -/
def State.senseLast (s : State) (q : SenseReq) (vf cls : Nat) : State :=
  (s.wr HGL_SENSE_LAST_POS (960 * q.hy + q.hx + q.colour * 2 ^ 20)).wr HGL_SENSE_LAST_VF (vf + cls * 4096)

/-- R226: the window ends: EMIT_EN returns, and requests without a result have failed. -/
def State.senseClose (s : State) : State :=
  if s.rdF ETC_STATUS 3 3 = 0 then s
  else
    let s := s.wrF ETC_STATUS 3 3 0
    let s := if s.supState = supOn ∧ s.etc.seq = .idle ∧ s.rdF ETC_STATUS 2 2 = 0 then s.wrF ETC_STATUS 0 0 1 else s
    let s := (s.etc.sense.filter (fun q => !q.done)).foldl (fun s q =>
      ((s.bump HGL_SENSE_FAIL_TOTAL).report Ev.HGL_SENSE_FAIL [q.hx / 60]).senseLast q 0 3) s
    { s with etc := { s.etc with sense := [] } }

/-! ### Views (Table 8.9) -/

/-- The registers of the block computed when read. -/
def State.etcView (s : State) (a : Nat) : Option Nat :=
  let j := s.rdF ETC_DRV_SEL 3 0
  let d := s.driver j
  if a = ETC_FURROW_STATE then
    let f := s.furrow (s.rdF ETC_FURROW_SEL 9 0)
    some (f.phi + b2n f.owed * 2 + min 3 (f.prev + f.prev2) * 4)
  else if a = ETC_DRV_STATUS then
    some (b2n (s.driverActive j) + b2n d.clamped * 2 + b2n d.configOk * 4 + b2n d.mapFault * 8 + s.laneMap j * 16 +
      d.rowInc * 256 + d.hdrInc * 65536)
  else if a = ETC_DRV_THERM then some (d.therm + b2n d.thermValid * 65536)
  else if a = ETC_SUPPLY_STATUS then some (putFld (s.rd a) 15 14 (min 3 s.failsNow.length))
  else if a = ETC_DRIVE_LIMIT ∧ s.rdF ETC_STATUS 6 6 = 1 then some 0x0666
  else none

/-! ### The commands -/

/-- ETC_COL_RECORD (R201): the colour stage codes the furrow of the slot once its rays are complete; under the built-in
timing, from S4 on, a row of the proof surface. -/
def execEtcColRecord (slot : Fin 560) (s : State) : Host.Outcome State Fault Refusal :=
  .next (if s.fpl.plan.isNone then
      if 4 ≤ s.stageNow ∧ slot.val < 540 then (s.codeProof slot.val).finish 3 else s
    else match s.liveRecord slot.val 3 with
      | none => s
      | some r =>
        let f := r.target % 540
        if s.drl.furrow = some f ∧ s.etc.rays.length = 138240 then
          match s.hglOf f with
          | some hs => (s.codeFurrow f hs).finish 3
          | none => s
        else s)

/-- ETC_TX_RECORD (R214): the TICK packets of slot 0, or the packets of the slot's furrow. -/
def execEtcTxRecord (slot : Fin 541) (cut : List (Fin 16 × Fin 12)) (s : State) : Host.Outcome State Fault Refusal :=
  .next (if slot.val = 0 then s.toDrivers State.driverActive State.sendTickPacket
    else match s.txTarget slot.val with
      | some f => s.txFurrow f (cut.map (fun c => (c.1.val, c.2.val)))
      | none => s)

/-- ETC_TX_RECORD_END (R216, R205). -/
def execEtcTxRecordEnd (s : State) : Host.Outcome State Fault Refusal := .next (s.oneCycle fun s => s.txEnd.finish 4)

/-- ETC_ROW_SCAN (R221, R208). -/
def execEtcRowScan (furrow : Fin 540) (s : State) : Host.Outcome State Fault Refusal := .next ((s.rowScan furrow.val).finish 5)

/-- STATUS_PACKET_RECEIVE (R217, R218). -/
def execStatusPacketReceive (_lane : Fin 2) (packet : Bytes) (s : State) : Host.Outcome State Fault Refusal :=
  .next (s.oneCycle fun s => s.statusIn packet)

/-- PANEL_LANE_TRAIN_DONE (R257, R219). -/
def execPanelLaneTrainDone (lane : Fin 18) (s : State) : Host.Outcome State Fault Refusal :=
  let s1 := s.plTrainDone lane.val
  .next (if lane.val < 16 ∧ s1.plState lane.val = plActive ∧ s.plState lane.val ≠ plActive then s1.driverEnter lane.val else s1)

/-- PANEL_DRIVER_LOST (R219). -/
def execPanelDriverLost (driver : Fin 16) (s : State) : Host.Outcome State Fault Refusal := .next (s.driverLost driver.val)

/-- PANEL_DRIVER_RESTORED (R219). -/
def execPanelDriverRestored (driver : Fin 16) (s : State) : Host.Outcome State Fault Refusal := .next (s.driverBack driver.val)

/-- PANEL_LANE_NO_STATUS (R257): three polls without STATUS, of a driver on the lane whose return lane, as RET_MAP has it, is `ret`
and is ACTIVE. -/
def execPanelLaneNoStatus (lane : Fin 16) (ret : Fin 2) (s : State) : Host.Outcome State Fault Refusal :=
  let m := lane.val
  .next (if 3 ≤ (s.panelLane m).polls ∧ (List.range 16).any (fun j => s.laneMap j == m && s.retMap j == ret.val) ∧
        s.plState (16 + ret.val) = plActive then
      s.plLeave m 2 else s)

/-- SENSE_WINDOW (R225). -/
def execSenseWindow (slot : Fin 560) (s : State) : Host.Outcome State Fault Refusal := .next (s.senseOpen slot.val)

/-- SENSE_WINDOW_END (R225, R226). -/
def execSenseWindowEnd (s : State) : Host.Outcome State Fault Refusal := .next s.senseClose

end Sys2Proof.Machine
end

