-- ==== Sys2Proof/Machine/Ageing.lean ====
section
/-! DEFINITION. The Hogel Table images, folds, gains, sense results, checkpoints and the reconciliation at start (chapter
"Hogel Table, calibration and ageing"). -/
namespace Sys2Proof.Machine

/-! ### The stress record in the Seedbank (Table 15.4) -/

/-- Place of the record. -/
def stressAt : Nat := 0x280
/-- A field of the record. -/
def State.stress (s : State) (off n : Nat) : Nat := s.sramLe (stressAt + off) n
/-- Fields read with what the read meets (R393, R30). -/
def State.stressMeet (s : State) (off n : Nat) : State := s.sramMeet (stressAt + off) n
/-- A field written. -/
def State.stressPut (s : State) (off n v : Nat) : State := s.sramWrite (stressAt + off) (toLe n v)
/-- STRESS_FRAMES. -/
def State.stressFrames (s : State) : Nat := s.stress 0 6
/-- FLAGS: KAPPA, LIFE, NEW and PREV valid. -/
def State.stressFlag (s : State) (b : Nat) : Bool := bit (s.stress 68 1) b == 1
/-- A flag set. -/
def State.stressFlagSet (s : State) (b : Nat) : State := s.stressPut 68 1 (s.stress 68 1 ||| 2 ^ b)
/-- MEAN and LIFE_MEAN of a colour. -/
def State.meanOf (s : State) (c : Nat) : Nat := s.stress (38 + 2 * c) 2
def State.lifeMean (s : State) (c : Nat) : Nat := if s.stressFlag 1 then s.stress (44 + 6 * c) 6 else 0
/-- κ[r][c] in u2.14: 1.0 while the Seedbank holds none (R193). -/
def State.kappa (s : State) (r c : Nat) : Nat := if s.stressFlag 0 then s.stress (72 + 2 * (3 * r + c)) 2 else 0x4000
/-- κ[r][c] stored; the first store gives every other entry 1.0. -/
def State.setKappa (s : State) (r c v : Nat) : State :=
  let s := if s.stressFlag 0 then s
    else (s.sramWrite (stressAt + 72) ((List.range 432).flatMap (fun _ => toLe 2 0x4000))).stressFlagSet 0
  s.stressPut (72 + 2 * (3 * r + c)) 2 v

/-- The sense region of a hogel (R190). -/
def regionOf (hx hy : Nat) : Nat := 16 * (hy / 60) + hx / 60

/-! ### Images of the table (R178 to R180) -/

/-- KIND of an image header. -/
def kindFactory : Nat := 0
def kindCurrent : Nat := 1
/-- The device offset of an image. -/
def imageAt (kind : Nat) : Nat := if kind = kindFactory then hglFactoryAt else hglCurrentAt
/-- An image header. -/
def State.imageHeader (s : State) (kind : Nat) : Bytes := s.flashGet 0 (imageAt kind) 8192
/-- R179 step 1: MAGIC, VERSION, KIND and HDR_CRC. -/
def headerGood (b : Bytes) (kind : Nat) : Bool :=
  leAt b 0 2 == 0x5448 && byteAt b 2 == 1 && byteAt b 3 == kind &&
    crc32c (putBytes (sub b 0 6208) 60 (toLe 4 0)) == leAt b 60 4
/-- VF_BASE to CURVE of a header (Table 7.3). -/
def headerFields (b : Bytes) : HglHeader :=
  { vfBase := (List.range 3).map (fun c => leAt b (16 + 2 * c) 2), tc := (List.range 3).map (fun c => toS 16 (leAt b (22 + 2 * c) 2))
    sv := (List.range 3).map (fun c => leAt b (28 + 2 * c) 2), tRef := toS 16 (leAt b 34 2), vfShort := leAt b 36 2
    curve := sub b 64 6144 }
/-- The entries of row hy of an image, when the row's CRC passes. -/
def State.imageRow (s : State) (kind hy : Nat) : Option Bytes :=
  let b := s.flashGet 0 (imageAt kind + 8192 + 23552 * hy) 23044
  if crc32c (sub b 0 23040) = leAt b 23040 4 then some (sub b 0 23040) else none
/-- A neutral row. -/
def neutralRow : Bytes := (List.range 960).flatMap (fun _ => neutralBytes)

/-- R179: a row with where it comes from: 0 the chosen image, 1 the factory image instead, 2 neutral. -/
def State.rowFrom (s : State) (kind hy : Nat) : Bytes × Nat :=
  match s.imageRow kind hy with
  | some b => (b, if kind = kindFactory then 1 else 0)
  | none => match s.imageRow kindFactory hy with
    | some b => (b, 1)
    | none => (neutralRow, 2)

/-- R179 as far as the rows: the header in use, and the staged rows; none when DEVICE_ID differs. Rows are reported and
counted. -/
def State.stageTable (s : State) (kind : Nat) : State × Option Reload :=
  let good := kind = kindFactory || headerGood (s.imageHeader kind) kind
  let s := if good then s else s.report Ev.HGL_ROW_FROM_FACTORY [0x3FF]
  let h := s.imageHeader (if good then kind else kindFactory)
  if leAt h 8 8 ≠ Config.fusedId.toNat then (s.report Ev.HGL_TABLE_MISMATCH [], none)
  else
    let rows := (List.range 540).map (s.rowFrom kind)
    let s := (rows.mapIdx (fun i r => (i, r.2))).foldl (fun s r =>
      if r.2 = 2 then s.report Ev.HGL_ROW_NEUTRAL [r.1]
      else if r.2 = 1 ∧ kind = kindCurrent then s.report Ev.HGL_ROW_FROM_FACTORY [r.1] else s) s
    let n (k : Nat) : Nat := (rows.filter (fun r => r.2 == k)).length
    let s := s.wr HGL_TABLE_ROWS (n 1 + n 2 * 2 ^ 16)
    (s, some ⟨0, rows.map (·.1), headerFields h, leAt h 4 4⟩)

/-- A row written whole into the partition. -/
def State.putHglRow (s : State) (hy : Nat) (b : Bytes) : State :=
  match s.hglAddr 0 hy with
  | some a => s.memSet a b
  | none => s

/-- Subpixels that a row's entries name dead. -/
def deadIn (b : Bytes) : Nat :=
  ((List.range 960).map (fun hx =>
    let e := hglEntry (sub b (24 * hx) 24)
    ((List.range 4).map (fun j => let r := e.deadRec j; if r.2.2 then popCount 3 r.2.1 else 0)).sum)).sum

/-- HGL_DEAD_COUNT from the table as it stands. -/
def State.countDead (s : State) : State :=
  s.wr HGL_DEAD_COUNT (((List.range 540).map (fun hy => match s.hglAddr 0 hy with
    | some a => deadIn (s.memGet a 23040)
    | none => 0)).sum)

/-- The header of a load in use. -/
def State.headerInUse (s : State) (r : Reload) : State :=
  { s.wr HGL_TABLE_GEN r.gen with hgl := { s.hgl with header := r.header } }

/-- R179: the load at S5. The flag says that the table is in the partition. -/
def State.loadTable (s : State) : State × Bool :=
  match s.stageTable kindCurrent with
  | (s, none) => (s, false)
  | (s, some r) =>
    let s := (r.rows.mapIdx (fun i b => (i, b))).foldl (fun s x => s.putHglRow x.1 x.2) s
    (((s.headerInUse r).countDead).wrF HGL_STATUS 0 0 1, true)

/-- R180: a reload asked for. -/
def State.startReload (s : State) (kind : Nat) : State :=
  match s.stageTable kind with
  | (s, none) => s
  | (s, some r) => { s.wrF HGL_STATUS 1 1 1 with hgl := { s.hgl with reload := some r } }

/-- R180: 48 rows copied in a headland. -/
def State.reloadRows (s : State) : State :=
  match s.hgl.reload with
  | none => s
  | some r =>
    let s := ((r.rows.take 48).mapIdx (fun i b => (r.next + i, b))).foldl (fun s x => s.putHglRow x.1 x.2) s
    let r : Reload := { r with next := r.next + 48, rows := r.rows.drop 48 }
    if r.rows.isEmpty then
      let s := ((s.headerInUse r).countDead).wrF HGL_STATUS 1 0 1
      { s.report Ev.HGL_TABLE_RELOADED [] with hgl := { (s.report Ev.HGL_TABLE_RELOADED []).hgl with reload := none } }
    else { s with hgl := { s.hgl with reload := some r } }

/-- R78: entries found poisoned come back from the image, a line at a time. -/
def State.refetchEntries (s : State) : State :=
  let s := s.hgl.refetch.foldl (fun s e =>
    match s.hglAddr e.2 e.1, s.hglAddr 0 e.1 with
    | some a, some base =>
      let row := (s.rowFrom kindCurrent e.1).1
      (linesOf a 24).foldl (fun s l => s.memSet l (sub row (l - base) 64)) s
    | _, _ => s) s
  { s with hgl := { s.hgl with refetch := [] } }

/-! ### Rewriting the current image (R181) -/

/-- The sectors of the current image that a changed entry touches; the header's sector comes last. -/
def entrySectors (hy hx : Nat) : List Nat :=
  let o := 8192 + 23552 * hy
  (((linesOf (o + 24 * hx) 24 ++ linesOf (o + 23040) 4).map (· / 65536)).eraseDups).filter (· != 0)

/-- A changed entry queued for the image: its sectors, and the header after them. The retry of a header that failed keeps its
place. -/
def State.queueEntry (s : State) (hy hx : Nat) : State :=
  let old := s.hgl.rewrite.filter (fun e => e != (0, 0))
  let new := (entrySectors hy hx).filter (fun k => !old.any (fun e => e.1 == k))
  { s with hgl := { s.hgl with
    rewrite := old ++ new.map (fun k => (k, 0)) ++ [(0, 0)]
    dirty := if s.hgl.dirty.contains hy then s.hgl.dirty else s.hgl.dirty ++ [hy] } }

/-- The row record of a row as the table holds it (R178). -/
def State.rowRecord (s : State) (hy : Nat) : Bytes :=
  match s.hglAddr 0 hy with
  | some a =>
    let b := s.memGet a 23040
    b ++ toLe 4 (crc32c b) ++ List.replicate 508 0#8
  | none => []

/-- The part of a record at `ro` laid over a sector that begins at image offset `off`. -/
def layOver (sec : Bytes) (off : Nat) (rec' : Bytes) (ro : Nat) : Bytes :=
  let a := max off ro
  let e := min (off + sec.length) (ro + rec'.length)
  if a < e then putBytes sec (a - off) (sub rec' (a - ro) (e - a)) else sec

/-- The header written last: the one in force, as CURRENT, with GEN raised by 1. -/
def State.nextHeader (s : State) : Bytes :=
  let cur := s.imageHeader kindCurrent
  let h := if headerGood cur kindCurrent then cur else s.imageHeader kindFactory
  let h := putBytes h 3 (toLe 1 kindCurrent)
  let h := putBytes h 4 (toLe 4 (succW 32 (leAt h 4 4)))
  putBytes h 60 (toLe 4 (crc32c (putBytes (sub h 0 6208) 60 (toLe 4 0))))

/-- The new bytes of sector `k` of the current image: what was read from it, before a first try that failed, with the changed
rows and the new header over it. -/
def State.sectorBytes (s : State) (k : Nat) : Bytes :=
  let off := 65536 * k
  let rows (b : Bytes) : Bytes := s.hgl.dirty.foldl (fun b hy => layOver b off (s.rowRecord hy) (8192 + 23552 * hy)) b
  match s.hgl.held.filter (fun h => h.1 == k) with
  | some h => rows h.2
  | none =>
    let b := rows (s.flashGet 0 (hglCurrentAt + off) 65536)
    if k = 0 then layOver b 0 s.nextHeader 0 else b

/-- The first row with bytes in a sector. -/
def firstRow (k : Nat) : Nat := (65536 * k - 8192) / 23552

/-- R181: the sector at the front of the queue is rewritten, or its failure reported; one retry follows, of the same bytes. -/
def State.rewriteSector (s : State) (fail : Bool) : State :=
  match s.hgl.rewrite with
  | [] => s
  | (k, tries) :: rest =>
    let dev := hglCurrentAt + 65536 * k
    let b := s.sectorBytes k
    if fail then
      let s := (s.tornFlash 0 dev 65536).report Ev.HGL_ROW_WRITE_FAIL [firstRow k]
      if tries = 0 then { s with hgl := { s.hgl with rewrite := (k, 1) :: rest, held := some (k, b) } }
      else { s.flashFail 0 dev with hgl := { (s.flashFail 0 dev).hgl with rewrite := rest, held := none } }
    else
      let s := (s.eraseSector 0 dev).flashPut 0 dev b
      let s := if k = 0 then s.wr HGL_TABLE_GEN (leAt b 4 4) else s
      { s with hgl := { s.hgl with rewrite := rest, held := none, dirty := if rest.isEmpty then [] else s.hgl.dirty } }

/-! ### Degradation and gains (R190) -/

/-- CURVE_c[i], u0.16. -/
def State.curveAt (s : State) (c i : Nat) : Nat := leAt s.hgl.header.curve (2048 * c + 2 * i) 2

/-- A fraction `n / d` in binary32. -/
def fl32 (n d : Nat) : Fl := flRat false n d

/-- D of a master in binary32. -/
def State.degradation (s : State) (c m : Nat) : Fl :=
  let idx := min 1023 (m / 2 ^ 30)
  let f := if 2 ^ 40 ≤ m then Fl.zero else fl32 (m % 2 ^ 30) (2 ^ 30)
  let d0 := fl32 (s.curveAt c idx) 65536
  let d1 := fl32 (s.curveAt c (min (idx + 1) 1023)) 65536
  d0.add (f.mul (d1.sub d0))

/-- E of a cell: 1 − κ · D, limited to 1/16 to 1. -/
def State.efficiency (s : State) (r c m : Nat) : Fl :=
  (fl32 1 16).max (Fl.one.min (Fl.one.sub ((fl32 (s.kappa r c) 16384).mul (s.degradation c m))))

/-- g of a cell in u1.15, and whether E lies below the target. -/
def State.gainOf (s : State) (r c m : Nat) : Nat × Bool :=
  let e := s.efficiency r c m
  let t := fl32 (s.targetEff c) 65536
  (flToU15 (Fl.one.min (t.div e)), e.lt t)

/-- A cell's gain computed from its master and written, unless the hogel or HGL_CTRL holds gains. -/
def State.putGain (s : State) (i m : Nat) : State :=
  let hog := i / 27
  let c := i / 9 % 3
  let (g, low) := s.gainOf (regionOf (hog % 960) (hog / 960)) c m
  let s : State := if low then { s with hgl := { s.hgl with fold := { s.hgl.fold with below := s.hgl.fold.below + 1 } } } else s
  if s.rdF HGL_CTRL 4 4 = 0 ∨ bit (s.hglRaw (hog % 960) (hog / 960)).flags 3 = 1 then s
  else s.memSet (s.gainBase + 2 * i) (toLe 2 g)

/-! ### Folding (R186 to R189) -/

/-- Cells of a portion, and portions of a fold. -/
def portionCells : Nat := 54675
def cellCount : Nat := 13996800

/-- Address of the masters and of the bank that folds. -/
def State.masterBase (s : State) : Nat := s.rd HGL_MASTER_BASE * 256
def State.foldBase (s : State) : Nat := (if s.rdF HGL_STATUS 5 5 = 0 then s.rd HGL_ACC_BASE_B else s.rd HGL_ACC_BASE_A) * 256

/-- Table 7.4: k of a temperature in 1/256 °C. -/
def State.bandWeight (s : State) (t : Int) : Nat :=
  let at' (hi lo : Nat) : Int := (s.rdF HGL_TBAND hi lo : Int) * 256
  if t < at' 7 0 then 2 else if t < at' 15 8 then 3 else if t < at' 23 16 then 4 else 6

/-- R188: k of the cells of driver j, unknown temperatures reported once per window. -/
def State.foldK (s : State) (j : Nat) : State × Nat :=
  match s.hgl.fold.temps.find? (fun e => e.1 == j) with
  | some e => (s, s.bandWeight e.2)
  | none =>
    if s.hgl.fold.tempSaid.contains j then (s, 6)
    else
      let s := s.report Ev.HGL_TEMP_UNKNOWN [j]
      ({ s with hgl := { s.hgl with fold := { s.hgl.fold with tempSaid := j :: s.hgl.fold.tempSaid } } }, 6)

/-- R189, R30: a poisoned count met by the fold: the DRAM event, then HGL_STRESS_RECONCILED with reason POISON and the cell (log
entries 86 and 284). A line whose fault stands was reported as it was read. -/
def State.stressPoison (s : State) (a i : Nat) : State :=
  if !(linesOf a 6).any (fun l => s.marked l) then s
  else ((s.bump DMC_POISON_READ_TOTAL).report Ev.DMC_ECC_UNCORRECTABLE [a % 2 ^ 32, a / 2 ^ 32]).reportJoined
    Ev.HGL_STRESS_RECONCILED [(Config.openCode Ev.HGL_STRESS_RECONCILED 0).toNat, i]

/-- R189: the master of a cell, a poisoned one replaced. -/
def State.foldMaster (s : State) (i : Nat) : State × Nat :=
  let a := s.masterBase + 6 * i
  if !s.rangePoisoned a 6 then (s, s.memLe a 6)
  else
    let hx := i / 27 % 960
    let near := ((if 0 < hx then [i - 27] else []) ++ (if hx < 959 then [i + 27] else [])).filter (fun k =>
      !s.rangePoisoned (s.masterBase + 6 * k) 6)
    let m := if near.isEmpty then s.lifeMean (i / 9 % 3)
      else roundDivN ((near.map (fun k => s.memLe (s.masterBase + 6 * k) 6)).sum) near.length
    (s.stressPoison a i, m)

/-- R189: the accumulator of a cell, a poisoned one taken as 0. -/
def State.foldAcc (s : State) (i : Nat) : State × Nat :=
  let a := s.foldBase + 2 * i
  if !s.rangePoisoned a 2 then (s, s.memLe a 2)
  else (s.stressPoison a i, 0)

/-- R186: one cell folded. -/
def State.foldCell (s : State) (i : Nat) : State :=
  let c := i / 9 % 3
  let hy := i / 27 / 960
  let (s, k) := s.foldK (i / 27 % 960 / 60)
  let (s, m) := s.foldMaster i
  let (s, acc) := s.foldAcc i
  let w := s.hgl.fold
  let n := sget 0 w.ns hy
  let add := if n = 0 then (w.f * s.meanOf c * k + 256) / 512 else (k * acc * w.f + n) / (2 * n)
  let s := if n = 0 ∧ !w.estSaid.contains hy then
      let s := s.report Ev.HGL_STRESS_ESTIMATED [hy]
      { s with hgl := { s.hgl with fold := { s.hgl.fold with estSaid := hy :: s.hgl.fold.estSaid } } }
    else s
  let s := if 2 ^ 48 ≤ m + add then s.report Ev.HGL_MASTER_SATURATED [] else s
  let new := min (2 ^ 48 - 1) (m + add)
  let s := (s.memSet (s.masterBase + 6 * i) (toLe 6 new)).memSet (s.foldBase + 2 * i) (toLe 2 0)
  let s := s.putGain i new
  { s with hgl := { s.hgl with fold := { s.hgl.fold with
    sumAcc := smod 0 s.hgl.fold.sumAcc (3 * hy + c) (· + acc)
    sumAdd := modAt s.hgl.fold.sumAdd c (· + add)
    kMax := max k s.hgl.fold.kMax } } }

/-- Lines whose last byte lies in a range that a fold rewrites in ascending order: they are written whole by now, also a line that
the portion before began, and their poison is gone. -/
def State.clearPoison (s : State) (a n : Nat) : State :=
  ((linesOf a n).filter (fun l => decide (l + 64 ≤ a + n))).foldl (fun s l => (s.setPoison l false).lineRenewed l) s

/-- The same for the gains: a line that holds a word of a hogel with GAIN_HOLD is not written whole. -/
def State.clearGainPoison (s : State) (a n : Nat) : State :=
  let held (l : Nat) : Bool := (List.range 32).any (fun k =>
    let hog := ((l - s.gainBase) / 2 + k) / 27
    bit (s.hglRaw (hog % 960) (hog / 960)).flags 3 == 1)
  ((linesOf a n).filter (fun l => decide (l + 64 ≤ a + n) && !held l)).foldl (fun s l => (s.setPoison l false).lineRenewed l) s

/-- A sum of fractions as numerator and denominator. -/
def sumFrac (l : List (Nat × Nat)) : Nat × Nat :=
  l.foldl (fun a x => if x.2 = 0 then a else
    let d := Nat.lcm a.2 x.2
    (a.1 * (d / a.2) + x.1 * (d / x.2), d)) (0, 1)

/-- Cells of a colour. -/
def colourCells : Nat := 4665600

/-- R186: what follows portion 255; the catch-up of R187 ends, and a checkpoint of the window takes its K_LAST and MEAN. -/
def State.foldDone (s : State) : State :=
  let w := s.hgl.fold
  let s := s.stressMeet 38 31
  let s := (List.range 3).foldl (fun s c =>
    let (num, den) := sumFrac ((List.range 540).map (fun f => (sget 0 w.sumAcc (3 * f + c), sget 0 w.ns f)))
    let s := s.stressPut (38 + 2 * c) 2 (min 65535 (roundDivN (256 * num) (den * colourCells)))
    s.stressPut (44 + 6 * c) 6 (min (2 ^ 48 - 1) (s.lifeMean c + roundDivN (w.sumAdd.getD c 0) colourCells))) s
  let s := ((s.stressPut 62 6 s.stressFrames).stressPut 7 1 w.kMax).stressFlagSet 1
  let s := (s.bump HGL_FOLD_WINDOWS).wr HGL_BELOW_TARGET (w.below % 2 ^ 24)
  let s := if 0 < w.below then s.report Ev.HGL_GAIN_FLOOR [w.below] else s
  let figures := some (w.kMax, (List.range 3).map s.meanOf)
  { s.wrF HGL_STATUS 4 4 0 with hgl := { s.hgl with
    folding := false
    ckpt := s.hgl.ckpt.map (fun k => { k with figures := if k.figures.isSome then k.figures else figures }) } }

/-! ### Checkpoints (R195, R196) -/

/-- Reasons of Table 7.13. -/
def ckptLate : Nat := 1
def ckptRefused : Nat := 2
def ckptProgram : Nat := 3
def ckptErase : Nat := 4

/-- Feature STRESS_CKPT (Table 2.10). -/
def featCkpt : Nat := 4

/-- A checkpoint failed: the next window starts a new one. -/
def State.ckptFail (s : State) (reason : Nat) : State :=
  let s := match s.hgl.ckpt with
    | some k => s.unclaim 2 k.pipe featCkpt
    | none => s
  let s := (s.wrF HGL_CKPT_STATE 14 12 reason).report Ev.HGL_CKPT_FAIL [reason]
  { s with hgl := { s.hgl with ckpt := none, ckptNow := true } }

/-- HGL_CKPT_INTERVAL in seconds. -/
def State.ckptInterval (s : State) : Nat := max 60 (s.rdF HGL_CKPT_INTERVAL 15 0)

/-- Bytes of `n` Sheaf blocks laid out from a ring offset, walked by their PAYLOAD_LEN (R135). -/
def State.walkBlocks (s : State) (off : Nat) : Nat → Nat → Nat
  | 0, len => len
  | n + 1, len => State.walkBlocks s off n (len + ceilDiv (32 + le (s.flashGet 1 (off + 64 + len + 14) 2)) 32 * 32)

/-- Sheaf blocks of an image. -/
def imageCount : Nat := 57600

/-- R196: where the next image begins. -/
def State.ckptOffset (s : State) : Nat :=
  if !s.stressFlag 2 then 0
  else
    let off := s.stress 8 4
    let next := ceilDiv (off + 128 + State.walkBlocks s off imageCount 0) 65536 * 65536
    if flashSize < next + 83 * 2 ^ 20 then 0 else next

/-- The encode pipe a checkpoint claims: the plan's for STRESS_CKPT, else the first that may be claimed. -/
def State.ckptPipe (s : State) : Nat :=
  match [8, 9].find? (fun p => s.planOwner 2 p == featCkpt) with
  | some p => p
  | none => ([8, 9].find? (fun p => s.mayClaim 2 p featCkpt)).getD 8

/-- R195: a checkpoint starts with the fold of a window. -/
def State.ckptStart (s : State) : State :=
  let p := s.ckptPipe
  let seq := succW 32 (if s.stressFlag 2 then s.stress 12 4 else 0)
  let s : State := { s with hgl := { s.hgl with ckptNow := false, ckptStart := some s.now } }
  match s.claim 2 p featCkpt with
  | (s, false) => s.ckptFail ckptRefused
  | (s, true) =>
    { s.wrF HGL_CKPT_STATE 14 12 0 with
      hgl := { s.hgl with ckpt := some ⟨seq, s.ckptOffset, s.stressFrames, p, [], 0, none, none⟩ } }

/-- A checkpoint is due for the window that has just closed. -/
def State.ckptDue (s : State) : Bool :=
  s.hgl.ckpt.isNone && (s.hgl.ckptNow || match s.hgl.ckptStart with
    | none => true
    | some t => decide (t + s.ckptInterval * 1600000000 ≤ s.hgl.fold.began))

/-- Where the Steward has ENCODE jobs put their blocks: in the Steward store (R319). -/
def State.ckptDst (s : State) : Nat := s.fixedBase + 0x500000

/-- The ENCODE job of a portion from chunk `n` on (R195 step 2). -/
def State.ckptDesc (s : State) (k : Ckpt) (p n : Nat) : Bytes :=
  toLe 1 1 ++ toLe 1 4 ++ toLe 1 0x0F ++ toLe 1 0 ++ toLe 2 (k.seq % 65536) ++ toLe 2 0 ++
    toLe 5 (s.rd HGL_CKPT_STAGE_BASE * 256 + 1458 * n) ++ toLe 3 0 ++ toLe 5 s.ckptDst ++ toLe 3 0 ++
    toLe 4 (328050 - 1458 * n) ++ toLe 4 0 ++ toLe 4 0x100000 ++ toLe 2 n ++ toLe 2 p ++ toLe 12 0 ++ toLe 2 1458 ++ toLe 10 0

/-- A job that the ring does not take: it never ends. -/
def noJob : Nat := 0xFFFF

/-- A job submitted for the checkpoint. -/
def State.ckptSubmit (s : State) (k : Ckpt) (p n : Nat) : State :=
  let (s, i) := s.jobSubmit (s.ckptDesc k p n) featCkpt
  { s with hgl := { s.hgl with ckpt := some { k with job := some (i.getD noJob) } } }

/-- R195 steps 1 and 2: the masters of a folded portion, byte plane by byte plane, and their job. An image whose portions are all
encoded is programming, and takes none of a later window. Arrays that are not mapped are not accessed (R26), and the portion has no
job, so that the checkpoint fails at the next fold. -/
def State.ckptPortion (s : State) (p : Nat) : State :=
  match s.hgl.ckpt with
  | none => s
  | some k =>
    if k.portions = 256 then s
    else
    let base := s.masterBase + 6 * portionCells * p
    let arrays := [(base, 6 * portionCells), (s.rd HGL_CKPT_STAGE_BASE * 256, 6 * portionCells)]
    let chunk (g : Nat) : Bytes := (List.range 6).flatMap (fun b =>
      (List.range 243).flatMap (fun x => s.memGet (base + 6 * (243 * g + x) + b) 1))
    if arrays.any (fun r => !s.rangeMay clStress r.1 r.2) then
      { s.refuseFirst clStress arrays with hgl := { (s.refuseFirst clStress arrays).hgl with ckpt := some { k with job := some noJob } } }
    else
      let s := (s.queueRead clStress base (6 * portionCells)).queueWrite clStress (s.rd HGL_CKPT_STAGE_BASE * 256) (6 * portionCells)
      let s := s.memSet (s.rd HGL_CKPT_STAGE_BASE * 256) ((List.range 225).flatMap chunk)
      s.ckptSubmit k p 0

/-- The checkpoint's job looked at: a job that ended DONE completes its portion, one that was preempted is queued again for
the rest (R138). -/
def State.ckptPoll (s : State) : State :=
  match s.hgl.ckpt with
  | none => s
  | some k => match k.job with
    | none => s
    | some i =>
      if i = noJob ∨ s.thr.jobs.any (fun j => j.idx == i) then s
      else
        let d := s.jobDesc i
        let st := byteAt d 40
        let blocks := k.blocks ++ s.memGet s.ckptDst (leAt d 44 4)
        if st = jobDone then
          let k : Ckpt := { k with blocks := blocks, portions := k.portions + 1, job := none }
          let s := if k.portions = 256 then s.unclaim 2 k.pipe featCkpt else s
          { s with hgl := { s.hgl with ckpt := some k } }
        else if st = jobPreempted then
          s.ckptSubmit { k with blocks := blocks } (leAt d 38 2) (leAt d 36 2 + leAt d 48 4)
        else s

/-- Bytes put into the ring, each sector erased just before it is programmed (R196). -/
def State.ringPut (s : State) (off : Nat) (b : Bytes) : State :=
  let s := (List.range (ceilDiv b.length sectorSize)).foldl (fun s k => s.eraseSector 1 (off + sectorSize * k)) s
  s.flashPut 1 off b

/-- Header and trailer of an image (Table 7.5), with the figures of its window. -/
def State.ckptHeader (s : State) (k : Ckpt) : Bytes :=
  let fig := k.figures.getD (s.stress 7 1, (List.range 3).map s.meanOf)
  let b := toLe 2 0x4353 ++ toLe 1 1 ++ toLe 1 fig.1 ++ toLe 4 k.seq ++ toLe 8 Config.fusedId.toNat ++ toLe 6 k.sf ++
    fig.2.flatMap (toLe 2) ++ List.replicate 32 0#8
  b ++ toLe 4 (crc32c b)
def ckptTrailer (k : Ckpt) : Bytes :=
  let b := toLe 2 0x4553 ++ toLe 1 1 ++ toLe 1 0 ++ toLe 4 k.seq ++ toLe 8 k.blocks.length ++ toLe 4 imageCount ++ List.replicate 40 0#8
  b ++ toLe 4 (crc32c b)

/-- R195 steps 3 and 4: the image is programmed and read back, the stress record updated, and a store requested; or
programming failed, and the image has no trailer. -/
def State.ckptProgrammed (s : State) (fail : Option Bool) : State :=
  match s.hgl.ckpt with
  | none => s
  | some k =>
    if k.portions < 256 then s
    else
      let body := s.ckptHeader k ++ k.blocks
      match fail with
      | some e =>
        let s := s.ringPut k.off body
        (s.flashFail 1 k.off).ckptFail (if e then ckptErase else ckptProgram)
      | none =>
        let s := s.ringPut k.off (body ++ ckptTrailer k)
        let s := if s.stressFlag 2 then
            (((s.stressPut 24 4 (s.stress 8 4)).stressPut 28 4 (s.stress 12 4)).stressPut 32 6 (s.stress 16 6)).stressFlagSet 3
          else s
        let s := (((s.stressPut 8 4 k.off).stressPut 12 4 k.seq).stressPut 16 6 k.sf).stressFlagSet 2
        let s := s.wr HGL_CKPT_SEQ k.seq
        let s : State := { s with hgl := { s.hgl with ckpt := none } }
        (s.requestStore 5).1.report Ev.HGL_CKPT_DONE [k.seq]

/-! ### Windows (R185, R187) -/

/-- R185: a tick at S5 with emission enabled. With ACC_EN or FOLD_EN 0 it belongs to no window, so that its stress is lost
(R199, log entry 268). -/
def State.stressTick (s : State) : State :=
  if s.stageNow = 5 ∧ s.rdF ETC_STATUS 0 0 = 1 then
    let s := s.stressMeet 0 6
    let s := s.stressPut 0 6 (s.stressFrames + 1)
    if s.rdF HGL_CTRL 3 3 = 1 ∧ s.rdF HGL_CTRL 5 5 = 1 then
      { s with hgl := { s.hgl with win := { s.hgl.win with f := min 65535 (s.hgl.win.f + 1) } } }
    else s
  else s

/-- A window that has reached F = 256 ends, or continues while its predecessor folds. -/
def State.windowEnd (s : State) : State :=
  if s.hgl.win.f < 256 then s
  else if s.hgl.folding then
    if s.hgl.lateSaid then s
    else
      let s := (s.wrF HGL_STATUS 4 3 3).report Ev.HGL_FOLD_LATE []
      { s with hgl := { s.hgl with lateSaid := true } }
  else
    let s := (s.wrF HGL_STATUS 5 5 (1 - s.rdF HGL_STATUS 5 5)).wrF HGL_STATUS 4 3 0
    let s : State := { s with hgl := { s.hgl with
      fold := s.hgl.win, win := { FoldWin.init with began := s.now }, folding := true, foldNext := 0
      satSaid := false, lateSaid := false } }
    if s.ckptDue then s.ckptStart else s

/-- R187: the first boundary after a late fold has completed ends the extended window. -/
def State.lateWindow (s : State) : State :=
  if s.rdF HGL_STATUS 3 3 = 1 ∧ !s.hgl.folding then s.windowEnd else s

/-- R186: the cells of a portion folded, after the figures and the κ of its sense regions have been read. An array that is not
mapped there is not accessed, reported under R26, and the portion
takes nothing (DEDUCED, log entry 265). -/
def State.foldCells (s : State) (p : Nat) : State :=
  let i := portionCells * p
  let arrays := [(s.masterBase + 6 * i, 6 * portionCells), (s.foldBase + 2 * i, 2 * portionCells),
    (s.gainBase + 2 * i, 2 * portionCells)]
  if arrays.all (fun r => s.rangeMay clStress r.1 r.2) then
    let row (n : Nat) : Nat := (i + n) / 27 / 960 / 60
    let s := (s.queueRead clStress (s.masterBase + 6 * i) (6 * portionCells)).queueRead clStress (s.foldBase + 2 * i) (2 * portionCells)
    let s := (s.stressMeet 38 31).stressMeet (72 + 96 * row 0) (96 * (row (portionCells - 1) - row 0 + 1))
    let s : State := (List.range portionCells).foldl (fun s n => s.foldCell (i + n)) s
    let s := arrays.foldl (fun s r => s.queueWrite clStress r.1 r.2) s
    let s := (s.clearPoison (s.masterBase + 6 * i) (6 * portionCells)).clearPoison (s.foldBase + 2 * i) (2 * portionCells)
    if s.rdF HGL_CTRL 4 4 = 1 then s.clearGainPoison (s.gainBase + 2 * i) (2 * portionCells) else s
  else s.refuseFirst clStress arrays

/-- R186: the next portion folded. -/
def State.foldPortion (s : State) : State :=
  if !s.hgl.folding ∨ s.rdF HGL_CTRL 3 3 = 0 then s
  else
    let p := s.hgl.foldNext
    let s := s.ckptPoll
    let s : State := match s.hgl.ckpt with
      | some k => if k.job.isSome then s.ckptFail ckptLate else s
      | none => s
    let s := (s.foldCells p).ckptPortion p
    let s : State := { s with hgl := { s.hgl with foldNext := p + 1 } }
    if p = 255 then s.foldDone else s

/-! ### Reconciliation at start (R197) -/

/-- The masters of an image at a ring offset, when it is valid, with its header. -/
def State.readImage (s : State) (off : Nat) : Option (Bytes × List Nat) :=
  let h := s.flashGet 1 off 64
  if leAt h 0 2 ≠ 0x4353 ∨ byteAt h 2 ≠ 1 ∨ crc32c (sub h 0 60) ≠ leAt h 60 4 ∨ leAt h 8 8 ≠ Config.fusedId.toNat then none
  else
    let len := State.walkBlocks s off imageCount 0
    let t := s.flashGet 1 (off + 64 + len) 64
    if leAt t 0 2 ≠ 0x4553 ∨ byteAt t 2 ≠ 1 ∨ crc32c (sub t 0 60) ≠ leAt t 60 4 ∨ leAt t 4 4 ≠ leAt h 4 4 ∨ leAt t 8 8 ≠ len ∨
        leAt t 16 4 ≠ imageCount then none
    else
      let r := (List.range imageCount).foldl (fun (a : Option (Nat × List (List Nat))) _ => match a with
        | none => none
        | some (o, l) =>
          let n := 32 + le (s.flashGet 1 (off + 64 + o + 14) 2)
          let d := decodeSheaf (s.flashGet 1 (off + 64 + o) n) none none none
          if d.fail.isNone ∧ d.out.length = 1458 then
            some (o + ceilDiv n 32 * 32, (List.range 243).map (fun x =>
              ((List.range 6).map (fun b => byteAt d.out (243 * b + x) * 256 ^ b)).sum) :: l)
          else none) (some (0, []))
      r.map (fun x => (h, x.2.reverse.flatten))

/-- An image offset is one the ring may hold. -/
def ringOffset (off : Nat) : Bool := off % 65536 == 0 && decide (off < flashSize)

/-- The case of Table 7.7: number, masters (none for LIFE_MEAN), L, MEAN and K_LAST used, and STRESS_FRAMES when it restarts. -/
structure Recon where
  case : Nat
  masters : Option (List Nat)
  lost : Nat
  mean : List Nat
  kLast : Nat
  frames : Option Nat
  newest : Option (Nat × Nat × Nat)
deriving DecidableEq, Repr

/-- Table 7.7. -/
def State.reconCase (s : State) : Recon :=
  let nominal := s.ckptInterval * s.nomRate / 1000
  let mean := [s.meanOf 0, s.meanOf 1, s.meanOf 2]
  let k := s.stress 7 1
  let since (sf : Nat) : Nat := (s.stressFrames - sf) + if s.stress 6 1 = 0 then nominal else 0
  let running := s.stress 6 1 = 0
  let life : Recon := ⟨4, none, since (if s.stressFlag 1 then s.stress 62 6 else 0), mean, k, none, none⟩
  let badOff := (s.stressFlag 2 && !ringOffset (s.stress 8 4)) || (s.stressFlag 3 && !ringOffset (s.stress 24 4))
  if s.sbk.empty || badOff then
    let best := (List.range (flashSize / 65536)).foldl (fun (b : Option (Nat × Bytes × List Nat)) i =>
      match s.readImage (65536 * i) with
      | none => b
      | some (h, m) => match b with
        | none => some (65536 * i, h, m)
        | some (_, g, _) => if later 32 (leAt h 4 4) (leAt g 4 4) then some (65536 * i, h, m) else b) none
    match best with
    | some (off, h, m) => ⟨5, some m, nominal, (List.range 3).map (fun c => leAt h (22 + 2 * c) 2), byteAt h 3, some (leAt h 16 6),
        some (off, leAt h 4 4, leAt h 16 6)⟩
    | none => life
  else
    match (if s.stressFlag 2 then s.readImage (s.stress 8 4) else none) with
    | some (_, m) => ⟨if running then 2 else 1, some m, since (s.stress 16 6), mean, k, none, none⟩
    | none => match (if s.stressFlag 3 then s.readImage (s.stress 24 4) else none) with
      | some (_, m) => ⟨3, some m, since (s.stress 32 6), mean, k, none, none⟩
      | none => life

/-- R197: an accumulator bank cleared, or, where it is not mapped, refused (R26). -/
def State.clearBank (s : State) (a : Nat) : State :=
  if s.rangeMay clStress a (2 * cellCount) then (s.queueWrite clStress a (2 * cellCount)).zeroRange a (2 * cellCount) else s.refuseRange clStress a (2 * cellCount)

/-- R197: the masters written, or, where they are not mapped, refused (R26). -/
def State.putMasters (s : State) (ms : List Nat) : State :=
  if s.rangeMay clStress s.masterBase (6 * cellCount) then (s.queueWrite clStress s.masterBase (6 * cellCount)).memSet s.masterBase (ms.flatMap (toLe 6))
  else s.refuseRange clStress s.masterBase (6 * cellCount)

/-- R197, R190: every gain computed from the masters; gains that are not mapped take nothing (R26). -/
def State.putGains (s : State) (ms : List Nat) : State :=
  if s.rangeMay clStress s.gainBase (2 * cellCount) then
    (ms.mapIdx (fun i m => (i, m))).foldl (fun s x => s.putGain x.1 x.2) (s.queueWrite clStress s.gainBase (2 * cellCount))
  else s.refuseRange clStress s.gainBase (2 * cellCount)

/-- R197: the masters rebuilt and every gain computed. -/
def State.reconcile (s : State) : State :=
  let s := s.stressMeet 0 936
  let r := s.reconCase
  let cells := List.range cellCount
  let init : List Nat := match r.masters with
    | some m => m
    | none => cells.map (fun i => s.lifeMean (i / 9 % 3))
  let add (c : Nat) : Nat := (r.lost * r.mean.getD c 0 * r.kLast + 256) / 512
  let ms := init.mapIdx (fun i m => min (2 ^ 48 - 1) (m + add (i / 9 % 3)))
  let s := ((s.putMasters ms).clearBank (s.rd HGL_ACC_BASE_A * 256)).clearBank (s.rd HGL_ACC_BASE_B * 256)
  let s := match r.frames with
    | some f => s.stressPut 0 6 f
    | none => s
  let s := match r.newest with
    | some (off, seq, sf) => (((s.stressPut 8 4 off).stressPut 12 4 seq).stressPut 16 6 sf).stressFlagSet 2
    | none => s
  let s := if s.stressFlag 2 then s.wr HGL_CKPT_SEQ (s.stress 12 4) else s
  let s := s.putGains ms
  let s : State := { s with hgl := { s.hgl with fold := .init, win := { FoldWin.init with began := s.now } } }
  ((s.wrF HGL_STATUS 2 2 1).wr HGL_RECON_LAST (r.case + min r.lost (2 ^ 29 - 1) * 8)).report Ev.HGL_STRESS_RECONCILED [r.case, r.lost]

/-! ### Sense results (R193, R194) -/

/-- The last valid thermistor reading of a driver in 1/256 °C. -/
def State.driverTemp (s : State) (j : Nat) : Option Int := (s.driver j).lastTherm

/-- D of R193, exact, as a fraction of 2^46. -/
def State.degradationExact (s : State) (c m : Nat) : Nat :=
  let idx := min 1023 (m / 2 ^ 30)
  let f := if 2 ^ 40 ≤ m then 0 else m % 2 ^ 30
  let d0 := s.curveAt c idx
  let d1 := s.curveAt c (min (idx + 1) 1023)
  d0 * (2 ^ 30 - f) + d1 * f

/-- R193: κ after a result, in u2.14: V and V_ref in mV, T_j and T_REF in 1/256 °C, TC in 1/256 mV per °C. -/
def kappaNext (k : Nat) (v vref tj tref tc : Int) (sv d46 : Nat) : Nat :=
  -- ΔV in units of 2^-16 mV, ΔV_pred in units of 2^-46 mV
  let dv : Int := (v - vref) * 65536 - tc * (tj - tref)
  let pred := sv * d46
  if pred < 5 * 2 ^ 46 then k
  else
    -- κ + (ΔV ÷ ΔV_pred − κ) ÷ 64, in units of 2^-14
    let num : Int := 63 * (k : Int) * pred + dv * 2 ^ 44
    (max 0x2000 (min 0x8000 (roundDiv num (64 * pred)))).toNat

/-- Visits in a row that found a subpixel a candidate. -/
def State.candidate (s : State) (hog c : Nat) : Nat :=
  ((s.hgl.cand.find? (fun e => e.1 == hog && e.2.1 == c)).map (·.2.2)).getD 0
/-- The count stored; 0 removes it. -/
def State.setCandidate (s : State) (hog c n : Nat) : State :=
  { s with hgl := { s.hgl with
    cand := s.hgl.cand.filter (fun e => !(e.1 == hog && e.2.1 == c)) ++ (if n = 0 then [] else [(hog, c, n)]) } }

/-- R194: the subpixel written as dead, in the entry and into the image. -/
def State.nameDead (s : State) (hx hy c : Nat) : State :=
  match s.hglAddr hx hy with
  | none => s
  | some a =>
    let raw := s.memGet a 24
    let e := hglEntry raw
    let site := e.site
    let used (j : Nat) : Bool := (e.deadRec j).2.2
    let old := (List.range 4).find? (fun j => used j && (e.deadRec j).1 == site)
    let place := match old with
      | some j => some j
      | none => (List.range 4).find? (fun j => !used j)
    match place with
    | some j =>
      let cols := (if old.isSome then (e.deadRec j).2.1 else 0) ||| 2 ^ c
      let dead := putFld e.dead (12 * j + 11) (12 * j) (site + cols * 256 + 2048)
      let s := (s.memSet a (putBytes raw 12 (toLe 6 dead))).bumpF HGL_DEAD_COUNT 19 0
      (s.report Ev.HGL_EMITTER_DEAD [960 * hy + hx, site, c]).queueEntry hy hx
    | none =>
      let s := s.memSet a (putBytes raw 22 (toLe 1 (e.flags ||| 4)))
      let s : State := { s with hgl := { s.hgl with noSense := s.hgl.noSense.insert (960 * hy + hx, c) } }
      (s.report Ev.HGL_DEAD_OVERFLOW [960 * hy + hx]).queueEntry hy hx

/-- R193: κ after a result V, with the last valid reading of the hogel's driver; without one the rule forms nothing. -/
def State.updateKappa (s : State) (q : SenseReq) (e : HglEntry) (v vref : Nat) : State :=
  let c := q.colour
  let h := s.hgl.header
  match s.driverTemp (q.hx / 60) with
  | none => s
  | some t =>
    let r := regionOf q.hx q.hy
    let a := s.masterBase + 6 * cellIdx q.hx q.hy c (zoneOf e.site)
    if !s.rangeMay clStress a 6 then s.refuseRange clStress a 6
    else
      let s := (s.queueRead clStress a 6).stressMeet (72 + 2 * (3 * r + c)) 2
      let k := s.kappa r c
      let n := kappaNext k v vref t h.tRef (h.tc.getD c 0) (h.sv.getD c 0) (s.degradationExact c (s.memLe a 6))
      if n = k then s else s.setKappa r c n

/-- One result (R193, R194). A shorted subpixel's result forms κ like any other; 0xFFF is no voltage (DEDUCED, log entry
270). -/
def State.senseResult (s : State) (q : SenseReq) (v : Nat) : State :=
  let e := ((s.hglRaw q.hx q.hy).limit).1
  let c := q.colour
  let hog := 960 * q.hy + q.hx
  let h := s.hgl.header
  let vref := h.vfBase.getD c 0 + 10 * e.vf.getD c 0
  let isOpen := v == 0xFFF
  let isShort := decide (v + h.vfShort < vref)
  let s := (s.bump HGL_SENSE_TOTAL).senseLast q v (if isOpen then 1 else if isShort then 2 else 0)
  let s := if isOpen then s else s.updateKappa q e v vref
  if isOpen || isShort then
    let n := s.candidate hog c + 1
    if 3 ≤ n then (s.setCandidate hog c 0).nameDead q.hx q.hy c else s.setCandidate hog c n
  else s.setCandidate hog c 0

/-- R226: a SENSE_RES packet. -/
def State.senseIn (s : State) (b : Bytes) : State :=
  let n := byteAt b 10
  if !returnOk b then s.returnBad true
  else if byteAt b 0 % 16 ≠ 8 ∨ leAt b 4 2 ≠ 4 * n then s.returnBad false
  else
    let j := byteAt b 1 % 16
    (List.range n).foldl (fun s i =>
      let tag := byteAt b (16 + 4 * i)
      let v := leAt b (17 + 4 * i) 2 % 4096
      match s.etc.sense.find? (fun q => q.tag == tag && !q.done && q.hx / 60 == j) with
      | none => s
      | some q =>
        let s : State := { s with etc := { s.etc with
          sense := s.etc.sense.map (fun (p : SenseReq) => if p = q then { p with done := true } else p) } }
        s.senseResult q v) s

/-! ### Views (Tables 7.9, 7.12, 7.13) -/

/-- The curve entry that HGL_CURVE_ADDR names. -/
def State.curveData (s : State) : Nat :=
  let c := s.rdF HGL_CURVE_ADDR 11 10
  if c = 3 then (Config.openRead HGL_CURVE_DATA (s.rd HGL_CURVE_ADDR)).toNat % 2 ^ 16 else s.curveAt c (s.rdF HGL_CURVE_ADDR 9 0)

/-- The registers of the block computed when read. -/
def State.hglView (s : State) (a : Nat) : Option Nat :=
  if a = HGL_FOLD_STATE then some (s.hgl.foldNext + s.hgl.win.f * 2 ^ 16)
  else if a = HGL_CKPT_STATE then
    some (s.rd HGL_CKPT_STATE + match s.hgl.ckpt with
      | none => 0
      | some k => (if k.portions < 256 then 1 else 2) + k.portions * 4)
  else if a = HGL_KAPPA then
    let r := s.rdF HGL_KAPPA_SEL 7 0
    let c := s.rdF HGL_KAPPA_SEL 9 8
    some (if r < 144 ∧ c < 3 then s.kappa r c else (Config.openRead HGL_KAPPA (s.rd HGL_KAPPA_SEL)).toNat % 2 ^ 16)
  else if a = HGL_CURVE_DATA then some s.curveData
  else if a = HGL_STRESS_FRAMES_LO then some (s.stressFrames % 2 ^ 32)
  else if a = HGL_CKPT_INTERVAL then some s.ckptInterval
  else if a = HGL_SENSE_CTRL then some (min 64 (s.rdF HGL_SENSE_CTRL 6 0) + s.rdF HGL_SENSE_CTRL 8 8 * 256)
  else none

/-- A read of HGL_STRESS_FRAMES_LO latches the high part (R199). -/
def State.stressLoRead (s : State) : State × Nat := (s.wr HGL_STRESS_FRAMES_HI (s.stressFrames / 2 ^ 32), s.stressFrames % 2 ^ 32)

/-- A read of HGL_CURVE_DATA advances HGL_CURVE_ADDR: the index, and past its end the colour. -/
def State.curveRead (s : State) : State × Nat :=
  (s.wrF HGL_CURVE_ADDR 11 0 (s.rdF HGL_CURVE_ADDR 11 0 + 1), s.curveData)

/-! ### The commands -/

/-- HGL_CTRL_RELOAD (R180). -/
def execHglCtrlReload (s : State) : Host.Outcome State Fault Refusal :=
  if s.shut .service HGL_CTRL then .next (s.turnedAway .service HGL_CTRL) else
  .next (s.oneCycle fun s => s.startReload kindCurrent)

/-- HGL_CTRL_RELOAD_FACTORY (R180). -/
def execHglCtrlReloadFactory (s : State) : Host.Outcome State Fault Refusal :=
  if s.shut .service HGL_CTRL then .next (s.turnedAway .service HGL_CTRL) else
  .next (s.oneCycle fun s => s.startReload kindFactory)

/-- HGL_CTRL_CKPT_NOW (R195). -/
def execHglCtrlCkptNow (s : State) : Host.Outcome State Fault Refusal :=
  if s.shut .service HGL_CTRL then .next (s.turnedAway .service HGL_CTRL) else
  .next { s with hgl := { s.hgl with ckptNow := true } }

/-- FLASH_SECTOR_REWRITE (R181). -/
def execFlashSectorRewrite (fail : Bool) (s : State) : Host.Outcome State Fault Refusal :=
  .next (s.oneCycle fun s => s.rewriteSector fail)

/-- FOLD_WINDOW_END (R185, R187). -/
def execFoldWindowEnd (s : State) : Host.Outcome State Fault Refusal := .next (s.oneCycle fun s => s.windowEnd)

/-- FOLD_PORTION (R186). -/
def execFoldPortion (s : State) : Host.Outcome State Fault Refusal := .next (s.oneCycle fun s => s.foldPortion)

/-- CHECKPOINT_PROGRAM_DONE (R195). -/
def execCheckpointProgramDone (fail : Option Bool) (s : State) : Host.Outcome State Fault Refusal :=
  .next (s.oneCycle fun s => s.ckptProgrammed fail)

/-- SENSE_RES_RECEIVE (R226, R193, R194). -/
def execSenseResReceive (_lane : Fin 2) (packet : Bytes) (s : State) : Host.Outcome State Fault Refusal :=
  .next (s.oneCycle fun s => s.senseIn packet)

/-- THR_JOB_BLOCK (R136): a job pipe completes one block; an aborted job ends there. -/
def execThrJobBlock (pipe : Fin 10) (s : State) : Host.Outcome State Fault Refusal :=
  .next (s.oneCycle fun s => match s.thr.jobs.find? (fun j => j.pipe == pipe.val) with
    | none => s
    | some j =>
      let s := if j.abort then s.endJob j jobAborted 0 else if byteAt j.desc 0 = 1 then s.encodeBlock j else s.decodeBlock j
      s.ckptPoll)

/-- HGL_STRESS_FRAMES_LO_READ (R199). -/
def execHglStressFramesLoRead (s : State) : Host.Outcome State Fault Refusal :=
  if s.shut .service HGL_STRESS_FRAMES_LO then .next (s.turnedAway .service HGL_STRESS_FRAMES_LO) else
  let (s, v) := s.stressLoRead
  .next (s.result 0 v)

/-- HGL_CURVE_DATA_READ (R199). -/
def execHglCurveDataRead (s : State) : Host.Outcome State Fault Refusal :=
  if s.shut .service HGL_CURVE_DATA then .next (s.turnedAway .service HGL_CURVE_DATA) else
  let (s, v) := s.curveRead
  .next (s.result 0 v)

end Sys2Proof.Machine
end

