-- ==== Sys2Proof/Machine/PlanCheck.lean ====
section
/-! DEFINITION. The load checks of a Field Plan (R41, R42, R49, R50, R483 and the section rules that R50 orders), and the
classification of a switch (R54). -/
namespace Sys2Proof.Machine

/-! ### Header and directory (R41, R42, R483) -/

/-- A directory entry (R42). -/
structure DirEntry where
  ty : Nat
  sflags : Nat
  off : Nat
  len : Nat
  crc : Nat
deriving DecidableEq, Repr

/-- TOTAL_LEN. -/
def planTotal (b : Bytes) : Nat := leAt b 24 4

/-- The directory. -/
def planDir (b : Bytes) : List DirEntry :=
  (List.range (min 64 (leAt b 6 2))).map (fun i =>
    let o := 64 + 16 * i
    ⟨leAt b o 2, leAt b (o + 2) 2, leAt b (o + 4) 4, leAt b (o + 8) 4, leAt b (o + 12) 4⟩)

/-- The bytes of a section. -/
def DirEntry.bytes (b : Bytes) (e : DirEntry) : Bytes := sub b e.off e.len

/-- A type of Table 2.4. -/
def knownType (t : Nat) : Bool := decide (1 ≤ t) && decide (t ≤ 13)

/-- VARIANT of an entry. -/
def DirEntry.variant (e : DirEntry) : Nat := fld e.sflags 3 2

/-- Table 2.25: the length of a section. -/
def sectionLenOk (t n : Nat) : Bool :=
  match t with
  | 1 => n == 20
  | 2 => n == 96
  | 3 => decide (1088 ≤ n) && decide (n ≤ 1600)
  | 4 => n == 128
  | 5 => n == 71680
  | 6 => n % 32 == 0 && decide (n ≤ 1024)
  | 7 => n == 1072
  | 8 => n == 336
  | 9 => n == 3334
  | 10 => n == 20
  | 11 => n % 16 == 0 && decide (n ≤ 1024)
  | 12 => n % 8 == 0 && decide (n ≤ 896)
  | 13 => n == 128
  | _ => true

/-- The conditions on one entry (R42, R483). -/
def DirEntry.ok (total : Nat) (e : DirEntry) : Bool :=
  e.off % 64 == 0 && decide (e.off + e.len ≤ total) &&
    (if e.ty = 5 then bit e.sflags 1 == 0 && fld e.sflags 15 4 == 0 else fld e.sflags 15 1 == 0) &&
    (knownType e.ty || bit e.sflags 0 == 1) && sectionLenOk e.ty e.len

/-- Two sections share no byte. -/
def DirEntry.apart (a b : DirEntry) : Bool :=
  decide (a.off + a.len ≤ b.off) || decide (b.off + b.len ≤ a.off) || a.len == 0 || b.len == 0

/-- Every pair of a list is apart. -/
def pairwiseOk {α : Type} (f : α → α → Bool) : List α → Bool
  | [] => true
  | a :: t => t.all (f a) && pairwiseOk f t

/-- No number appears twice. -/
def distinct (l : List Nat) : Bool := pairwiseOk (fun a b => a != b) l

/-- The directory obeys R42 and R483. -/
def dirOk (total : Nat) (d : List DirEntry) : Bool :=
  let vars := (d.filter (fun e => e.ty == 5)).map DirEntry.variant
  d.all (DirEntry.ok total) && pairwiseOk DirEntry.apart d &&
    distinct ((d.filter (fun e => knownType e.ty && e.ty != 5)).map (·.ty)) &&
    distinct vars && (List.range vars.length).all (fun v => vars.contains v)

/-- The header fields obey R41. -/
def headerOk (b : Bytes) : Bool :=
  leAt b 0 4 == 0x4E4C5046 && leAt b 4 2 == 1 && zeroAt b 32 28 && leAt b 28 4 / 2 == 0 &&
    decide (1 ≤ leAt b 6 2) && decide (leAt b 6 2 ≤ 64) && planTotal b % 64 == 0 && decide (planTotal b ≤ 4194304)

/-- The plan that checked bytes give: the known sections by type and variant. -/
def planOf (b : Bytes) : Plan :=
  { planId := leAt b 16 4, planGen := leAt b 20 4, target := leAt b 8 8, dflt := bit (leAt b 28 4) 0 == 1
    secs := ((planDir b).filter (fun e => knownType e.ty)).map (fun e => (e.ty, if e.ty = 5 then e.variant else 0, e.bytes b)) }

/-- The variants that have SLOT_RECORDS. -/
def Plan.variants (p : Plan) : List Nat := (List.range 4).filter (fun v => p.has 5 v)

/-! ### Slot records (Tables 2.6, 2.7, 2.12) -/

/-- The record of a variant. -/
def Plan.record (p : Plan) (v slot e : Nat) : SlotRec := slotRec (p.sec 5 v) slot e

/-- OP and FLAGS of a record (Table 2.6, Table 2.7). -/
def recordFormOk (b : Bytes) (slot e : Nat) : Bool :=
  let o := 128 * slot + 16 * e
  let op := byteAt b o
  byteAt b (o + 1) / 4 == 0 && decide (op ≤ 4) &&
    (op != opFill || ((e == 0 || e == 1 || e == 6) && decide (541 ≤ slot))) &&
    (op != opDrain || (e == 4 && slot == 540)) &&
    (op != opSense || ((e == 4 || e == 5) && decide (541 ≤ slot)))

/-- All records of a variant satisfy a condition. -/
def Plan.allRecords (p : Plan) (v first n : Nat) (f : Nat → Nat → SlotRec → Bool) : Bool :=
  (List.range n).all (fun i => (List.range 8).all (fun e => f (first + i) e (p.record v (first + i) e)))

/-- Every engine fits its slot (Table 2.12, R156); the row covers every record, IDLE ones too. -/
def Plan.slotsFit (p : Plan) (v : Nat) : Bool :=
  p.allRecords v 0 540 (fun _ e r =>
      decide (r.start + r.wcet + 512 ≤ p.slotLen) && (e != 2 || r.op != opRun || decide (64 ≤ r.start))) &&
    p.allRecords v 540 1 (fun _ _ r => decide (r.start + r.wcet ≤ p.slotLen)) &&
    p.allRecords v 541 19 (fun _ _ r =>
      if r.op = opFill then decide (r.start + r.wcet ≤ p.commitLead)
      else decide ((541 * p.slotLen + r.start + r.wcet) * 1000000 ≤ p.nomTick * (1000000 - p.tolerance)))

/-- R52, R154: the drill worst case is honest. -/
def Plan.drillsHonest (p : Plan) (v : Nat) : Bool :=
  let d := p.variant v
  (List.range 560).all (fun sl =>
    let r := p.record v sl 2
    let n := popCount 32 r.plates
    decide (n * (2 * p.maxCols + 32) ≤ 3584) && (decide (540 ≤ sl) || decide (boundOf d r p.maxCols n 8 ≤ r.wcet)))

/-- The plate count of a variant that Table 2.12 holds to its BUDGET: the plates that its drill RUN records of slots 0 to 539 name
together. The spec does not define the count (DESIGN CHOICE, log entry 233). -/
def Plan.plateCount (p : Plan) (v : Nat) : Nat :=
  popCount 32 (p.drillMask v)

/-! ### Timing (R35, R20, R36) -/

/-- R35. -/
def Plan.timingOk (p : Plan) : Bool :=
  let rate := p.nomRate
  let n := roundDivN 1600000000000 rate
  decide (8192 ≤ p.slotLen) && decide (p.slotLen ≤ 122880) && decide (24000 ≤ rate) && decide (rate ≤ 240000) &&
    decide (p.nomTick ≤ n + 1) && decide (n ≤ p.nomTick + 1) && decide (p.tolerance ≤ 2000) &&
    decide ((if rate ≤ 120000 then 400000 else 192000) ≤ p.headland) &&
    decide ((540 * p.slotLen + p.headland) * 1000000 ≤ p.nomTick * (1000000 - p.tolerance))

/-- R20: bytes that the first-band fill of a variant decodes; a scaled plate counts at its record's scale. -/
def Plan.fillBytes (p : Plan) (v : Nat) : Nat :=
  (List.range 19).foldl (fun a i =>
    let r := p.record v (541 + i) 0
    if r.op ≠ opFill then a
    else (setBits 32 r.plates).foldl (fun a k =>
      match p.plates[k]? with
      | none => a
      | some q => a + ((rowEntries q (geomOf q none) p.window r.target).map (fun e =>
          if e.2.1 then decompLen 2 else decompLen q.fmt)).foldl (· + ·) 0) a) 0

/-- R20: the fill time in core cycles, at 64 bytes per cycle. -/
def Plan.fillTime (p : Plan) : Nat := ceilDiv (p.variants.foldl (fun m v => max m (p.fillBytes v)) 0) 64

/-- R36: the commit point lies at or after the end of the drain in the shortest admitted tick. -/
def Plan.leadFits (p : Plan) : Bool :=
  decide ((541 * p.slotLen + p.commitLead) * 1000000 ≤ p.nomTick * (1000000 - p.tolerance))

/-! ### The other rows of Table 2.12 -/

/-- The drill ranges cover columns 0 to 959 once each. -/
def Plan.drillsCover (p : Plan) : Bool :=
  (List.range 24).all (fun d => decide ((p.drillCols d).2 = 0) || decide ((p.drillCols d).1 + (p.drillCols d).2 ≤ 960)) &&
    (List.range 960).all (fun c =>
      ((List.range 24).filter (fun d => decide ((p.drillCols d).1 ≤ c) && decide (c < (p.drillCols d).1 + (p.drillCols d).2))).length == 1)

/-- R45, R46 and the budgets. -/
def Plan.throttleOk (p : Plan) : Bool :=
  let b := p.sec 10 0
  let levels := [byteAt b 0, byteAt b 1, byteAt b 2]
  byteAt b 3 == 0 && levels.all (fun v => decide (v ≤ 3) && p.has 5 v) &&
    (List.range 4).all (fun v =>
      let d := p.variant v
      decide (d.kind ≤ 1) && decide (d.skip ≤ 3) && decide (1 ≤ d.budget) && decide (d.budget ≤ 32) && decide (d.halve ≤ 1)) &&
    (!levels.any (fun v => v != 0 && (p.variant v).kind == 0) ||
      p.allRecords 0 0 540 (fun _ e r => e == 4 || e == 5 ||
        decide (4 * (r.start + r.wcet) ≤ 3 * (p.slotLen - 512)))) &&
    p.variants.all (fun v => decide (p.plateCount v ≤ (p.variant v).budget))

/-- A stretch of plots. -/
def rangesApart (a b : Nat × Nat) : Bool :=
  decide (a.1 + a.2 ≤ b.1) || decide (b.1 + b.2 ≤ a.1) || a.2 == 0 || b.2 == 0

/-- R72: no reserved entry, and 32 unscheduled cycles in every bank. -/
def wheelOk (w : Bytes) : Bool :=
  (List.range 32).all (fun b =>
    (List.range 64).all (fun c => let e := wheelEntry w c b; decide (e ≤ 4) || e == 6 || e == 7 || e == 15) &&
      decide (32 ≤ ((List.range 64).filter (fun c => wheelEntry w c b == 15)).length))

/-- R69, R452. -/
def Plan.granaryOk (p : Plan) : Bool :=
  let b := p.sec 3 0
  let n := leAt b 0 2
  let parts := grnParts b
  let wheelAt := ceilDiv (16 + 8 * n) 64 * 64
  decide (1 ≤ n) && decide (n ≤ 64) && b.length == wheelAt + 1024 && leAt b 4 2 == 64 && zeroAt b 6 10 &&
    distinct (parts.map (·.id)) &&
    ((leAt b 2 2, 64) :: parts.map (fun q => (q.first, q.count))).all (fun r => decide (r.1 + r.2 ≤ 16384)) &&
    pairwiseOk rangesApart ((leAt b 2 2, 64) :: parts.map (fun q => (q.first, q.count))) &&
    distinct ((parts.filter (fun q => q.client != 6)).map (·.client)) &&
    p.plates.all (fun r => parts.any (fun q => q.id == r.ring && q.client == 6)) &&
    parts.all (fun q => !(q.client == 6 || q.client == 7 || q.client == 8) || q.isStatic) &&
    parts.all (fun q => decide (1 ≤ q.client) && decide (q.client ≤ 0x10)) &&
    (List.range n).all (fun i => byteAt b (16 + 8 * i + 6) / 4 == 0 && byteAt b (16 + 8 * i + 7) == 0) &&
    wheelOk (sub b wheelAt 1024) && parts.any (fun q => q.client == 0x0C && decide (32 ≤ q.count))

/-- No resource has two owners. -/
def Plan.ownersOnce (p : Plan) : Bool := distinct (p.owners.map (fun o => o.1 * 256 + o.2.1))

/-! ### Section checks of other chapters, by TYPE (R50) -/

/-- R482. -/
def Plan.routesOk (p : Plan) : Bool :=
  let b := p.sec 4 0
  let e (i : Nat) : Nat × Nat := (byteAt b (4 * i), byteAt b (4 * i + 1))
  let l := (List.range 32).map e
  (List.range 32).all (fun i => byteAt b (4 * i + 2) == 0 && byteAt b (4 * i + 3) == 0) &&
    l.all (fun x => (x.1 == 1 && decide (x.2 < 8)) || (x.1 == 2 && decide (x.2 < 24))) &&
    (List.range 8).all (fun i => (l.filter (· == (1, i))).length == 1) &&
    (List.range 24).all (fun i => (l.filter (· == (2, i))).length == 1)

/-- R155: the prime's TARGET is 0. -/
def Plan.primeOk (p : Plan) (v : Nat) : Bool :=
  (List.range 19).all (fun i => let r := p.record v (541 + i) 2; r.op != opRun || r.target == 0)

/-- R281, Table 10.6. -/
def Plan.portsOk (p : Plan) : Bool :=
  let b := p.sec 7 0
  byteAt b 0 / 2 == 0 && zeroAt b 2 14 &&
    (List.range 4).all (fun q =>
      let o := 16 + 264 * q
      let role := byteAt b o
      let n := byteAt b (o + 4)
      let c (i j : Nat) : Int := toS 32 (leAt b (o + 8 + 16 * i + 4 * j) 4)
      decide (role ≤ 2) && [1, 2, 4, 8].contains (byteAt b (o + 1)) && decide (byteAt b (o + 2) ≤ 3) &&
        decide (byteAt b (o + 3) ≤ 2) && decide (n ≤ 16) && (role != 2 || n == 0) && zeroAt b (o + 5) 3 &&
        (List.range 16).all (fun i => if i < n then decide (c i 0 < c i 2) && decide (c i 1 < c i 3)
          else zeroAt b (o + 8 + 16 * i) 16))

/-- R95: the content window is aligned. -/
def Plan.windowOk (p : Plan) : Bool := p.window.1 % 16 == 0 && p.window.2 % 8 == 0

/-- Lengths of the base-table arrays: MASTER, ACC_A, ACC_B, GAIN, CKPT_STAGE. -/
def baseLens : List Nat := [83980800, 27993600, 27993600, 27993600, 328050]

/-- R318, R320. -/
def State.addressesOk (s : State) (p : Plan) : Bool :=
  let b := p.sec 8 0
  let n := byteAt b 0
  let ws := (List.range n).map (windowRec b)
  let arrays := baseLens.mapIdx (fun i len => (leAt b (272 + 8 * i) 8, len))
  decide (1 ≤ n) && decide (n ≤ 8) && zeroAt b 2 14 && zeroAt b 312 8 && zeroAt b 328 8 &&
    (List.range 8).all (fun w =>
      let o := 16 + 32 * w
      if w < n then byteAt b (o + 8) / 2 == 0 && zeroAt b (o + 9) 3 && zeroAt b (o + 28) 4 && decide (byteAt b (o + 6) ≤ 1)
      else zeroAt b o 32) &&
    ws.all (fun w =>
      decide (24 ≤ w.size) && decide (w.size ≤ 35) && decide (dramBase ≤ w.base) && w.base % 2 ^ w.size == 0 &&
        decide (w.base + 2 ^ w.size ≤ s.fixedBase) &&
        (if w.scattered then w.order == 0 && w.xmask.all (fun m => decide (m < 2 ^ (w.size - 19)))
         else decide (w.order ≤ 2) && w.xmask.all (· == 0))) &&
    pairwiseOk (fun a c : Window => decide (a.base + 2 ^ a.size ≤ c.base) || decide (c.base + 2 ^ c.size ≤ a.base)) ws &&
    arrays.all (fun a => a.1 % 256 == 0 && decide (a.1 < 2 ^ 40) && ws.any (fun w =>
      w.scattered && w.ecc && decide (w.base ≤ a.1) && decide (a.1 + a.2 ≤ w.base + 7 * 2 ^ w.size / 8))) &&
    pairwiseOk rangesApart arrays

/-- R320: OP_FLOOR is not faster than training allows. -/
def State.opFloorOk (s : State) (p : Plan) : Bool := decide (s.opMax ≤ byteAt (p.sec 8 0) 1)

/-- R223. -/
def Plan.panelOk (p : Plan) : Bool :=
  let b := p.sec 9 0
  let lanes := (List.range 16).map (fun j => byteAt b (4 + j))
  let ret := (List.range 16).map (fun j => byteAt b (20 + j))
  let chain (r : Nat) : List Nat := (ret.filter (fun x => x % 2 == r)).map (fun x => x / 2)
  decide (byteAt b 0 ≤ 2) && byteAt b 1 / 2 == 0 && zeroAt b 2 2 && zeroAt b 48 16 && zeroAt b 144 112 &&
    lanes.all (fun l => decide (l < 16)) && distinct lanes && ret.all (fun x => decide (x < 16)) &&
    [0, 1].all (fun r => distinct (chain r) && (chain r).all (fun c => decide (c < (chain r).length))) &&
    decide (2 ≤ leAt b 42 2) && decide (leAt b 42 2 ≤ 255) && decide (800 ≤ leAt b 36 4) && decide (leAt b 36 4 ≤ 16000) &&
    (List.range 5).all (fun w => zeroAt b (64 + 16 * w + 14) 2) &&
    (List.range 3).all (fun c => (List.range 513).all (fun i =>
      let v := leAt b (256 + 1026 * c + 2 * i) 2
      decide (v ≤ 4095) && (i == 0 || decide (leAt b (256 + 1026 * c + 2 * (i - 1)) 2 ≤ v))))

/-- R224. -/
def Plan.waveOk (p : Plan) : Bool :=
  let b := p.sec 9 0
  (List.range 5).all (fun w =>
    let o := 64 + 16 * w
    let rs := leAt b o 4
    let tr := leAt b (o + 4) 2
    let tw := leAt b (o + 6) 2
    decide (rs + 12 * tr + 512 ≤ p.slotLen) && decide (tw + 64 ≤ tr) &&
      p.variants.all (fun v => (List.range 540).all (fun i =>
        let tx := p.record v (i + 1) 4
        let row := p.record v (i + 1) 5
        (tx.op == opIdle || (List.range 12).all (fun k => decide (tx.start + 747 + 743 * k + 480 ≤ rs + k * tr))) &&
          (row.op == opIdle || (decide (row.start ≤ rs) && decide (rs + 12 * tr ≤ row.start + row.wcet))))))

/-- R292, Table 11.1. -/
def Plan.commitOk (p : Plan) : Bool :=
  let b := p.sec 13 0
  let nm := byteAt b 0
  let nr := byteAt b 1
  let mid (k : Nat) : Nat := leAt b (16 + 16 * k) 8
  let rid (k : Nat) : Nat := leAt b (80 + 8 * k) 8
  decide (1 ≤ nm) && decide (nm ≤ 4) && decide (1 ≤ nr) && decide (nr ≤ 4) && byteAt b 3 / 4 == 0 &&
    [1, 2, 4].contains (byteAt b 4) && zeroAt b 5 3 && zeroAt b 12 4 && zeroAt b 112 16 &&
    decide ((toS 32 (leAt b 8 4)).natAbs < p.nomTick) &&
    (List.range 4).all (fun k => if k < nm then
        mid k != 0 && (byteAt b (24 + 16 * k) == 1 || byteAt b (24 + 16 * k) == 2) && zeroAt b (25 + 16 * k) 7
      else zeroAt b (16 + 16 * k) 16) &&
    (List.range 4).all (fun k => if k < nr then rid k != 0 else rid k == 0) &&
    distinct ((List.range nm).map mid) && distinct ((List.range nr).map rid)

/-! ### The order of the checks (R49, R50) -/

/-- Row 1 of Table 2.12: header, directory, section CRCs, records. -/
def planFormFault (b : Bytes) : Option Nat :=
  let d := planDir b
  if b.length < 64 ∨ crc32c (sub b 0 60) ≠ leAt b 60 4 then some Ev.FPL_HDR_CHECK
  else if !headerOk b then some Ev.FPL_FORMAT
  else if !dirOk (planTotal b) d then some Ev.FPL_FORMAT
  else if !d.all (fun e => crc32c (e.bytes b) == e.crc) then some Ev.FPL_SECTION_CHECK
  else if !d.all (fun e => e.ty != 5 || (List.range 560).all (fun sl => (List.range 8).all (recordFormOk (e.bytes b) sl))) then
    some Ev.FPL_FORMAT
  else none

/-- The first condition of a list that fails. -/
def firstFault : List (Bool × Nat) → Option Nat
  | [] => none
  | (ok, ev) :: t => if ok then firstFault t else some ev

/-- The later rows, then the section checks in ascending order of TYPE (R50). -/
def State.planBodyFault (s : State) (p : Plan) : Option Nat :=
  firstFault
    [(p.target == fusedId || (p.target == 0 && p.dflt), Ev.FPL_TARGET_MISMATCH),
     ((List.range 13).all (fun i => p.secs.any (fun e => e.1 == i + 1)), Ev.FPL_SECTION_MISSING),
     (p.timingOk, Ev.FPL_TIMING_INVALID),
     (decide (p.fillTime + 3200 ≤ p.commitLead), Ev.FPL_COMMIT_LEAD_SHORT),
     (p.leadFits, Ev.FPL_COMMIT_LEAD_LONG),
     (p.drillsCover, Ev.FPL_DRILL_BIND),
     (p.variants.all p.slotsFit, Ev.FPL_CONTRACT_SLOT),
     (p.variants.all p.drillsHonest, Ev.FPL_CONTRACT_DRILL),
     (p.throttleOk, Ev.FPL_THROTTLE_INVALID),
     (p.granaryOk, Ev.FPL_GRANARY_MAP),
     (p.ownersOnce, Ev.FPL_RESOURCE_CONFLICT),
     (p.routesOk, Ev.FPL_FORMAT),
     (p.variants.all p.primeOk, Ev.FPL_FORMAT),
     (p.portsOk, Ev.FPL_FORMAT),
     (p.windowOk, Ev.FPL_FORMAT),
     (s.addressesOk p, Ev.FPL_FORMAT),
     (s.opFloorOk p, Ev.FPL_TIMING_INVALID),
     (p.panelOk, Ev.FPL_FORMAT),
     (p.waveOk, Ev.FPL_CONTRACT_SLOT),
     (p.commitOk, Ev.FPL_FORMAT)]

/-- The event that a plan's bytes are refused with, if any (R49). -/
def State.planFault (s : State) (b : Bytes) : Option Nat :=
  match planFormFault b with
  | some e => some e
  | none => s.planBodyFault (planOf b)

/-- The plan that bytes give, or the refusing event; every refusal is reported, and sets REFUSED (R49). -/
def State.loadPlan (s : State) (b : Bytes) : State × Option Plan × Nat :=
  match s.planFault b with
  | none => (s, some (planOf b), 0)
  | some e => ((s.report e []).orR FPL_EVENT_STATUS 0x20, none, e)

/-! ### The classification of a switch (R54) -/

/-- What a warm switch keeps of a GRANARY_MAP: the partitions of LINK0 to LINK3, DRAM_STAGE, HOGEL, BURIN, STEWARD and
EVENTS, and the spare pool. -/
def keptParts (p : Plan) : List Part × Nat × Nat :=
  let b := p.sec 3 0
  ((grnParts b).filter (fun q => [1, 2, 3, 4, 5, 7, 0x0A, 0x0B, 0x0C].contains q.client), leAt b 2 2, leAt b 4 2)

/-- R54: a switch to `p` is COLD; without a running plan nothing is identical. -/
def State.coldFor (s : State) (p : Plan) : Bool :=
  match s.fpl.plan with
  | none => true
  | some q => !(p.sec 8 0 == q.sec 8 0 && keptParts p == keptParts q)

end Sys2Proof.Machine
end

