-- ==== Sys2Proof/Machine/Reset.lean ====
section
/-! DEFINITION. Resets and their release (R404 to R407), the trial boot and its health (R431, R432), the load over the
service port (R436), the update registers (R437), and the thermal trip (R376). -/
namespace Sys2Proof.Machine

/-! ### Taking a reset (R404 to R406) -/

/-- Reset kinds (Table 16.1). -/
def rstPowerOn : Nat := 0
def rstPin : Nat := 1
def rstSoft : Nat := 2
def rstWatchdog : Nat := 3
def rstActivation : Nat := 4
def rstFallback : Nat := 5
def rstPfail : Nat := 6

/-- `n` cells of open bytes, numbered by a draw. -/
def openCells (d n : Nat) : List Host.Cell :=
  ((List.range n).map (fun i => (i, Config.tornByte (n * d + i)))).filter (fun c => c.2 != 0#8)

/-- A reset stops the store that runs: its copy has no header, and its bytes are open (R387). -/
def State.storeCut (s : State) : State :=
  match s.sbk.store with
  | none => s
  | some r =>
    let (d, s) := s.draw
    let b := s.sbk.setCopy r.copy { s.sbk.copy r.copy with image := openCells d sramSize, hdr := none }
    { s with sbk := { b with store := none, held := 0 } }

/-- R417: the blocks whose program a reset interrupts: every byte of the page is open, or of the sector whose erase came first, when
no block of it is programmed since. Other programs and erases end within their command (log entry 205). -/
def State.flashCut (s : State) : State :=
  (s.boot.owed.filter (fun o => !o.programmed)).foldl (fun s o =>
    let slot := s.sow 3 1
    if s.boot.erased.contains (o.block / 16, true) then s.tornFlash 0 (imageBlockAt slot o.block) 4096
    else s.tornFlash 0 (imageBlockAt slot (16 * (o.block / 16))) sectorSize) s

/-- What a reset leaves of the Seedbank (R404, R406, R396): the SRAM and the copies with what is known of them; guards
closed, attempts forgotten, no request. -/
def Sbk.afterReset (b : Sbk) : Sbk :=
  { Sbk.init with
    sram := b.sram, poison := b.poison, copyA := b.copyA, copyB := b.copyB, newest := b.newest, store := b.store
    held := b.held, ready := b.ready, final := b.final, empty := b.empty, fallback := b.fallback, tripped := b.tripped }

/-- The reset of R404 takes hold: every block, register, Granary plot and DRAM byte is as after reset. The Seedbank's SRAM
and copies, the flash devices, the pins and the trip latch keep what they hold; `keepStore` lets a running store go on. -/
def State.resetTo (s : State) (kind : Nat) (keepStore : Bool) : State :=
  let s := (if keepStore then s else s.storeCut).flashCut
  { State.reset with
    pending := s.pending, freeCtr := s.freeCtr, flash0 := s.flash0, flash1 := s.flash1, history := s.history, out := s.out
    acc := s.acc, accBytes := s.accBytes
    sbk := s.sbk.afterReset
    thm := { Thm.init with tripLatch := s.thm.tripLatch }
    hst := { Hst.init with pins := s.hst.pins }
    boot := { Boot.init with kind := kind, strap := s.boot.strap, fellBack := s.boot.fellBack, armPrev := s.boot.armPrev } }

/-- R405: a reset that waits for the down sequence. The first request stands; a power loss takes over. -/
def State.requestReset (s : State) (kind : Nat) : State :=
  if s.boot.inReset || s.boot.request.isSome || s.etc.seq == .pfail || s.rdF ETC_STATUS 5 5 == 1 then s
  else { s.supplyDown with boot := { s.supplyDown.boot with request := some kind } }

/-- R405: the down sequence has ended. -/
def State.downEnded (s : State) : Bool :=
  s.etc.seq == .idle && (s.supState == supOff || s.supState == supLockout)

/-! ### The stage and the mode (R407, R408) -/

/-- MODE in both registers that show it. -/
def State.setMode (s : State) (m : Nat) : State := (s.wrF UPD_BOOT_STATUS 5 4 m).wrF GBL_STATE 5 4 m

/-- Table 16.2. -/
def strapMode : Nat → Nat
  | 0 => modeNormal
  | 1 => modeLoad
  | 2 => modeRecovery
  | _ => modeTest

/-- HELD (R409). -/
def State.isHeld (s : State) : Bool := s.rdF UPD_BOOT_STATUS 3 3 == 1

/-- Milliseconds since the release. -/
def State.bootMs (s : State) : Nat := min 65535 (s.now / cyclesPerMs)

/-- R408: a stage is reached: the registers show it, UPD_STAGE_REACHED carries stage and time, the console prints it
(R459), and at S5 the flash log owes a BOOT entry (R458). -/
def State.stageReached (s : State) (n : Nat) : State :=
  let s := (s.wrF GBL_STATE 2 0 n).wrF UPD_BOOT_STATUS 2 0 n
  let s := s.wr UPD_STAGE_TIME s.bootMs
  let s := s.report Ev.UPD_STAGE_REACHED [n, s.bootMs]
  let s := s.put (.uart (.stage n s.bootMs))
  if n = 5 then
    { s with ev := { s.ev with
      flashPend := s.ev.flashPend ++ [LogItem.boot (s.rd UPD_BOOT_STATUS) (s.rd UPD_STAGE_TIME) (s.sramLe 0x108 4)] } }
  else s

/-! ### The activation record at a release (R431, R432, R434) -/

/-- Causes of UPD_RECOVERY in the order of R434, then the load of R436: the spec numbers none of them. -/
def recoveryCause (i : Nat) : Nat := (Config.openCode Ev.UPD_RECOVERY i).toNat

/-- Recovery mode entered (R434). -/
def State.enterRecovery (s : State) (cause : Nat) : State :=
  (s.setMode modeRecovery).report Ev.UPD_RECOVERY [recoveryCause cause]

/-- R432: the record returns to the confirmed slot; the fallback is counted (R394), stored, and reported at the next S2. -/
def State.fallBack (s : State) (reason missing : Nat) : State :=
  let s := s.actPut 4 (toLe 1 s.confirmedSlot)
  let s := s.actPut 3 (toLe 1 actFallenBack)
  let s := s.actPut 8 (toLe 4 (s.act 12 4))
  let s := s.actPut 32 (s.sramBytes 0x140 32)
  let s := (s.bumpLifetime 3).requestStore 5 |>.1
  { s with boot := { s.boot with fellBack := some (reason, missing) } }

/-- What the boot ROM does with the record before it boots: RECOVERY_REQ (R434), then the trial (R431, R432). -/
def State.releaseChecks (s : State) : State :=
  let s : State := { s with boot := { s.boot with checked := true } }
  let s :=
    if s.actOk && bit (s.act 29 1) 0 == 1 then
      (s.actPut 29 (toLe 1 (putFld (s.act 29 1) 0 0 0))).enterRecovery 2
    else if s.mode = modeRecovery then s.enterRecovery 0
    else s
  if s.actState = actTrial then
    if 2 ≤ s.act 6 1 then s.fallBack 2 0 else ((s.actPut 6 (toLe 1 (s.act 6 1 + 1))).requestStore 5).1
  else s

/-- R406, R407: a release. -/
def State.release (s : State) (strap : Nat) (a b : CopyRead) : State :=
  let s : State := { s with now := 0, boot := { s.boot with inReset := false, strap := strap }
                            sbk := { s.sbk with tripped := false } }
  let s := if s.sbk.final then s.recall a b else s
  let s := s.wr UPD_BOOT_STATUS (s.boot.kind * 2 ^ 7 + strap * 2 ^ 10)
  let s := s.setMode (strapMode strap)
  let s := if s.boot.kind = rstWatchdog then s.report Ev.UPD_WATCHDOG [] else s
  if s.sbk.ready then s.releaseChecks else s

/-! ### Health (R431, R432) -/

/-- The conditions of R431 met: bit 0 S5, bit 1 ports, bit 2 member. -/
def State.healthMet (s : State) : Nat :=
  let before := if s.actOk then s.act 7 1 % 16 else 0
  b2n (s.rdF GBL_STATE 2 0 == 5) + b2n (before &&& s.boot.portsUp == before) * 2 +
    b2n (s.boot.member || s.isCommitRoot || s.alone) * 4

/-- Seconds since the release. -/
def State.bootSeconds (s : State) : Nat := s.now / (1000 * cyclesPerMs)

/-- R431: the active slot is confirmed. -/
def State.confirm (s : State) : State :=
  let s := s.actPut 3 (toLe 1 actConfirmed)
  let s := s.actPut 5 (toLe 1 s.activeSlot)
  let s := s.actPut 12 (toLe 4 (s.act 8 4))
  let s := s.actPut 64 (s.sramBytes 0x120 32)
  ((s.requestStore 5).1).report Ev.UPD_HEALTH_CONFIRMED [s.bootSeconds]

/-! ### The load over the service port (R436) -/

/-- R436, R409: the manifest and the BOOT part of the load are checked, and the part runs in recovery mode, which ends a hold; a
failure holds at S1 (Table 16.3) and waits again. -/
def State.loadGo (s : State) : State :=
  let again (code : Nat) (s : State) : State := State.holdStage { s with boot := { s.boot with load := [] } } code
  if !s.boot.waitLoad then s
  else
    let m := s.boot.load.take 4096
    match manifestFault m with
    | some c => again Ev.UPD_MANIFEST_BAD (s.report Ev.UPD_MANIFEST_BAD [c])
    | none =>
      match partOfType m 1 with
      | some e =>
        if sub s.boot.load 4096 e.len |> (fun d => d.length == e.len && sha256 d == e.digest) then
          let s : State := { s with boot := { s.boot with waitLoad := false, fromLoad := true } }
          let s := (s.wrF UPD_BOOT_STATUS 3 3 0).wrF GBL_STATE 3 3 0
          if s.mode = modeRecovery then s else s.enterRecovery 3
        else again Ev.UPD_BOOT_INVALID (s.report Ev.UPD_BOOT_INVALID [(Config.openCode Ev.UPD_BOOT_INVALID 0).toNat, 2])
      | none => again Ev.UPD_MANIFEST_BAD s

/-! ### Registers computed when read (Tables 16.13, 16.16, 16.17) -/

/-- UPD_SOW_STATUS: ACTIVE from block 0 of a session on; LAGGING stands in the register. -/
def State.sowStatusReg (s : State) : Nat :=
  putFld (s.rd UPD_SOW_STATUS) 2 0 (b2n s.boot.opened + b2n s.sowComplete * 2 + (if s.sowOk then s.sow 3 1 % 2 else 0) * 4)

/-- UPD_ACT_STATUS, 0 while the record is absent: MET and SECONDS tell of the trial boot. -/
def State.actStatusReg (s : State) : Nat :=
  let trial := s.actState == actTrial
  s.actState % 8 + (if s.actOk then s.act 6 1 % 4 else 0) * 2 ^ 3 + (if s.actOk then s.act 7 1 % 16 else 0) * 2 ^ 5 +
    (if trial then s.healthMet * 2 ^ 9 + min 63 s.bootSeconds * 2 ^ 12 else 0) +
    (if s.actOk then s.planSlot % 8 * 2 ^ 18 + b2n (s.planSlot == 0xFF) * 2 ^ 21 else 0)

/-- Registers of the update block that are computed. -/
def State.updView (s : State) (a : Nat) : Option Nat :=
  if a = UPD_GEN_ACTIVE then some (if s.actOk then s.act 8 4 else 0)
  else if a = UPD_GEN_CONFIRMED then some (if s.actOk then s.act 12 4 else 0)
  else if a = UPD_SOW_STATUS then some s.sowStatusReg
  else if a = UPD_SOW_SESSION then some (if s.sowOk then s.sow 4 4 else 0)
  else if a = UPD_SOW_GEN then some (if s.sowOk then s.sow 8 4 else 0)
  else if a = UPD_SOW_HELD then some (if s.sowOk then s.sowHeld + s.sowMissing * 2 ^ 16 else 0)
  else if a = UPD_ACT_STATUS then some s.actStatusReg
  else if a = UPD_LOAD_COUNT then some (satN 19 s.boot.load.length)
  else none

/-- ACT_FRAME. -/
def State.actFrame (s : State) : Nat := if s.actOk then s.act 16 6 else 0

/-- A read of UPD_ACT_FRAME_LO latches the high word (R437). -/
def State.actFrameRead (s : State) : State × Nat := (s.wr UPD_ACT_FRAME_HI (s.actFrame / 2 ^ 32), s.actFrame % 2 ^ 32)

/-- SOW_ABORT (Table 16.15): the bitmap is cleared, and with it the session. -/
def State.sowAbort (s : State) : State :=
  if s.actState = actArmed then s
  else
    let s := s.sowClear.wr UPD_SOW_STATUS 0
    { s with boot := { s.boot with sent := [], owed := [], queued := [], opened := false } }

/-- RECOVERY_REQ (R434): the flag is set and a SOFT reset requested. -/
def State.recoveryReq (s : State) : State := (s.actPut 29 (toLe 1 (putFld (s.act 29 1) 0 0 1))).requestReset rstSoft

/-- RESUME_STAGE (R409): the failed stage may be tried again. -/
def State.resumeStage (s : State) : State :=
  if s.isHeld then
    let s := (s.wrF UPD_BOOT_STATUS 3 3 0).wrF GBL_STATE 3 3 0
    { s with grn := { s.grn with bistFailed := false } }
  else s

/-- GBL_RESET (R444): the value of the command requests a SOFT reset, from S1 on. -/
def State.gblReset (s : State) (v : Nat) : State :=
  if v % 2 ^ 16 = 0x7440 ∧ bit v 16 = 1 ∧ s.stageNow ≠ 0 then s.requestReset rstSoft else s

/-- A word of the load (R436). -/
def State.loadWord (s : State) (v : Nat) : State :=
  if s.boot.waitLoad then { s with boot := { s.boot with load := s.boot.load ++ toLe 4 v } } else s

/-! ### The commands -/

/-- POWER_ON_RESET (R404): the always-on domain is reset too. -/
def execPowerOnReset (s : State) : Host.Outcome State Fault Refusal :=
  let s := s.resetTo rstPowerOn false
  .next { s with thm := Thm.init, sbk := { s.sbk with tripped := false } }

/-- PIN_RESET (R404): also the way out of a thermal trip once every comparator reads below 110 °C (R376). -/
def execPinReset (cool : Bool) (s : State) : Host.Outcome State Fault Refusal :=
  .next (if s.thm.tripped && !cool then s else s.resetTo rstPin false)

/-- GBL_RESET (R444). -/
def execGblReset (value : Word) (s : State) : Host.Outcome State Fault Refusal :=
  if s.shut .service GBL_RESET then .next (s.turnedAway .service GBL_RESET) else
  .next (s.gblReset value.toNat)

/-- WATCHDOG_EXPIRY (R404): from S2 on. -/
def execWatchdogExpiry (s : State) : Host.Outcome State Fault Refusal :=
  .next (if 2 ≤ s.stageNow then s.requestReset rstWatchdog else s)

/-- PFAIL_RESTART (R404, R229). -/
def execPfailRestart (s : State) : Host.Outcome State Fault Refusal :=
  .next (if s.rdF ETC_STATUS 5 5 = 1 && !s.thm.tripped then s.resetTo rstPfail false else s)

/-- RESET_EFFECT (R405). -/
def execResetEffect (s : State) : Host.Outcome State Fault Refusal :=
  .next <|
    match s.boot.request with
    | some k => if s.downEnded then s.resetTo k false else s
    | none => s

/-- RESET_RELEASE (R406, R407, R431). -/
def execResetRelease (strap : Fin 4) (a b : CopyRead) (s : State) : Host.Outcome State Fault Refusal :=
  .next (s.oneCycle fun s => if s.boot.inReset && !s.thm.tripped then s.release strap.val a b else s)

/-- UPD_CTRL_RESUME_STAGE (R409). -/
def execUpdCtrlResumeStage (s : State) : Host.Outcome State Fault Refusal :=
  if s.shut .service UPD_CTRL then .next (s.turnedAway .service UPD_CTRL) else
  .next s.resumeStage

/-- UPD_CTRL_RECOVERY_REQ (R434). -/
def execUpdCtrlRecoveryReq (s : State) : Host.Outcome State Fault Refusal :=
  if s.shut .service UPD_CTRL then .next (s.turnedAway .service UPD_CTRL) else
  .next s.recoveryReq

/-- UPD_CTRL_LOAD_GO (R436). -/
def execUpdCtrlLoadGo (s : State) : Host.Outcome State Fault Refusal :=
  if s.shut .service UPD_CTRL then .next (s.turnedAway .service UPD_CTRL) else
  .next (s.oneCycle fun s => s.loadGo)

/-- UPD_CTRL_SOW_ABORT (Table 16.15). -/
def execUpdCtrlSowAbort (s : State) : Host.Outcome State Fault Refusal :=
  if s.shut .service UPD_CTRL then .next (s.turnedAway .service UPD_CTRL) else
  .next s.sowAbort

/-- UPD_LOAD_DATA_WRITE (R436). -/
def execUpdLoadDataWrite (value : Word) (s : State) : Host.Outcome State Fault Refusal :=
  if s.shut .service UPD_LOAD_DATA then .next (s.turnedAway .service UPD_LOAD_DATA) else
  .next (s.loadWord value.toNat)

/-- UPD_ACT_FRAME_LO_READ (R437). -/
def execUpdActFrameLoRead (s : State) : Host.Outcome State Fault Refusal :=
  if s.shut .service UPD_ACT_FRAME_LO then .next (s.turnedAway .service UPD_ACT_FRAME_LO) else
  .next (s.actFrameRead.1.result 0 s.actFrameRead.2)

/-- HEALTH_CONFIRM (R431): the trial is confirmed when its three conditions hold, once the slot on trial has booted. -/
def execHealthConfirm (s : State) : Host.Outcome State Fault Refusal :=
  .next (s.oneCycle fun s => if s.actState = actTrial ∧ s.healthMet = 7 ∧ !s.boot.inReset ∧ !s.boot.activating then s.confirm else s)

/-- HEALTH_TIMEOUT (R432): 60 s have passed without confirmation. -/
def execHealthTimeout (s : State) : Host.Outcome State Fault Refusal :=
  .next (s.oneCycle fun s =>
    if s.actState = actTrial ∧ !s.boot.inReset ∧ !s.boot.activating then (s.fallBack 1 (7 - s.healthMet)).requestReset rstFallback else s)

/-- R376: the pads take their S0 defaults, and every domain but AON and NVM is held in reset. -/
def State.tripHold (s : State) : State :=
  let t := s.resetTo s.boot.kind true
  { t with thm := { t.thm with tripped := true } }

/-- THERMAL_TRIP (R376, R388): the sites are latched, no further store starts, and the device is held in reset. During the
power-loss sequence the sequence runs on (R229), and the hold follows at its end (DEDUCED, log entry 187). -/
def execThermalTrip (sites : BitVec 24) (s : State) : Host.Outcome State Fault Refusal :=
  let t : State := { s with thm := { s.thm with tripLatch := s.thm.tripLatch ||| sites.toNat } }
  .next <|
    if s.thm.tripped then t
    else if s.etc.seq = .pfail then { t.tripStore with thm := { t.tripStore.thm with tripped := true } }
    else t.tripStore.tripHold

/-- POWER_LOSS_SEQUENCE_END (R229): row pins low, PSEQ[3:0] low together, ETC_DISCHARGE with cause POWER_FAIL. A trip that came
during the sequence holds the device from here on (R376). -/
def execPowerLossSequenceEnd (s : State) : Host.Outcome State Fault Refusal :=
  .next (if s.etc.seq = .pfail then
      let s := s.dischargeDone dischPowerFail
      let s := ((s.wrF ETC_SUPPLY_STATUS 11 4 0).setSup supOff |>.wrF ETC_STATUS 5 5 1).setSeq .idle
      if s.thm.tripped then s.tripHold else s
    else s)

end Sys2Proof.Machine
end

