-- ==== Sys2Proof/Machine/Switch.lean ====
section
/-! DEFINITION. Staging, arming and switching of Field Plans (R53 to R57), what comes into force with a plan, and the
computed registers of the TICK and Field Plan block (Tables 2.15 to 2.22). -/
namespace Sys2Proof.Machine

/-! ### Staging (R53) -/

/-- What is staged is discarded, and a pending switch disarmed. -/
def State.unstage (s : State) : State :=
  { s with fpl := { s.fpl with
      stage := .idle, stageEvent := 0, stageCold := false, stageBytes := [], staged := none, arm := none, missed := false } }

/-- The STEWARD client (Table 3.2). -/
def clSteward : Nat := 0x0B

/-- Bytes that the Steward reads: none, with its report, when a line may not be accessed (R26, R80, R84); a poisoned line is
reported (R78) and reads as zeros. -/
def State.stewardRead (s : State) (a n : Nat) : State × Option Bytes :=
  if !s.rangeMay clSteward a n then (s.refuseRange clSteward a n, none)
  else
    let b := (s.memGet a n).mapIdx (fun i b => if s.poisoned (a + i) then 0#8 else b)
    ((s.useRange .steward false a n).consumePoison clSteward a n, some b)

/-- How many bytes of a source the header asks for: a TOTAL_LEN that R41 refuses is refused on the header alone. -/
def planLen (header : Bytes) : Nat := if planTotal header ≤ 4194304 then max 64 (planTotal header) else 64

/-- The bytes of the staging source (R53). -/
def State.stageSource (s : State) : State × Bytes :=
  if s.rdF FPL_STAGE_CTRL 5 4 = 0 then
    let a := s.rd FPL_STAGE_ADDR_LO + s.rdF FPL_STAGE_ADDR_HI 7 0 * 2 ^ 32
    match s.stewardRead a 64 with
    | (s, none) => (s, [])
    | (s, some h) =>
      match s.stewardRead a (planLen h) with
      | (s, none) => (s, [])
      | (s, some b) => (s, b)
  else
    let a := planSlotAt (s.rdF FPL_STAGE_CTRL 10 8)
    (s, s.flashGet 0 a (planLen (s.flashGet 0 a 64)))

/-- A staged plan refused (R49, R53). -/
def State.stageRefused (s : State) (ev : Nat) : State :=
  { s with fpl := { s.fpl with stage := .refused, stageEvent := ev, staged := none, arm := none, missed := false } }

/-- VALIDATE (R53): the copy into the staging area, the first 4 MiB of the fixed region, and the start of validation. -/
def State.stageValidate (s : State) (v : Nat) : State :=
  let s := s.unstage.regWrite FPL_STAGE_CTRL v
  if 1 < s.rdF FPL_STAGE_CTRL 5 4 then
    ((s.report Ev.FPL_FORMAT []).orR FPL_EVENT_STATUS 0x20).stageRefused Ev.FPL_FORMAT
  else
    let (s, b) := s.stageSource
    let s := if s.dramOn then (s.queueWrite clSteward s.fixedBase b.length).memSet s.fixedBase b else s
    { s with fpl := { s.fpl with stage := .validating, stageBytes := b } }

/-- ABORT (R53). -/
def State.stageAbort (s : State) (v : Nat) : State := s.unstage.regWrite FPL_STAGE_CTRL v

/-- COLD_OK (Table 2.21). -/
def State.coldOk (s : State) : Bool := s.rdF FPL_SWITCH_CTRL 3 3 == 1

/-- Validation ends (R49, R53, R54): VALID with its class, or REFUSED. A switch armed meanwhile is kept, and taken at the next
boundary when its frame has passed (R56); a cold one without COLD_OK is disarmed. -/
def State.validationDone (s : State) : State :=
  if s.fpl.stage ≠ .validating then s
  else
    match s.loadPlan s.fpl.stageBytes with
    | (s, none, ev) => s.stageRefused ev
    | (s, some p, _) =>
      let s : State := { s with fpl := { s.fpl with
        stage := .valid, staged := some p, stageCold := s.coldFor p
        arm := if s.fpl.missed then some .next else s.fpl.arm, missed := false } }
      if s.fpl.arm.isSome && s.fpl.stageCold && !s.coldOk then
        { s.report Ev.FPL_COLD_REQUIRED [] with fpl := { (s.report Ev.FPL_COLD_REQUIRED []).fpl with arm := none } }
      else s

/-! ### Arming (R53, R54, R56) -/

/-- A switch armed, unless it is cold without COLD_OK; nothing staged leaves nothing to arm. -/
def State.armWith (s : State) (a : Arm) : State :=
  if s.fpl.stage ≠ .valid ∧ s.fpl.stage ≠ .validating then s
  else if s.fpl.stage = .valid ∧ s.fpl.stageCold ∧ !s.coldOk then s.report Ev.FPL_COLD_REQUIRED []
  else { s with fpl := { s.fpl with arm := some a, missed := false } }

/-- The frame of FPL_SWITCH_AT. -/
def State.switchAt (s : State) : Nat := s.rd FPL_SWITCH_AT_LO + s.rdF FPL_SWITCH_AT_HI 15 0 * 2 ^ 32

/-- ARM: frame numbers compare as plain integers; a frame that is not later than the current one is refused. -/
def State.switchArm (s : State) (v : Nat) : State :=
  let s := s.regWrite FPL_SWITCH_CTRL v
  if s.switchAt ≤ s.fpl.frame then s.report Ev.FPL_SWITCH_MISSED [] else s.armWith (.at s.switchAt)

/-- NEXT. -/
def State.switchNext (s : State) (v : Nat) : State := (s.regWrite FPL_SWITCH_CTRL v).armWith .next

/-- DISARM. -/
def State.switchDisarm (s : State) (v : Nat) : State :=
  let s := s.regWrite FPL_SWITCH_CTRL v
  { s with fpl := { s.fpl with arm := none, missed := false } }

/-! ### A plan put in force (R53 to R55, R81, R290, R320, R412, R452) -/

/-- The STATIC partition of a plan that a plot lies in, by its client (R67). -/
def Plan.staticClient (p : Plan) (n : Nat) : Option Nat :=
  ((grnParts (p.sec 3 0)).find? (fun q => q.isStatic && q.has n)).map (·.client)

/-- R67 over a warm switch: plots that leave a STATIC partition are freed, and those that enter one are allocated; a RETIRED plot
stays RETIRED (R70). Clients that wait may have credit then. -/
def State.staticChange (s : State) (old new : Plan) : State :=
  (List.range 16384).foldl (fun s n =>
    let a := old.staticClient n
    let b := new.staticClient n
    if a = b || (s.plot n).state == 3 then s
    else
      let s : State := { s with grn := { s.grn with held := s.grn.held.filter (fun h => h.2 != n) } }
      match b with
      | some c => s.allocPlot c n
      | none => s.setPlot n Plot.free) s

/-- What a port record says beside its rectangles. -/
def PortRole.link (r : PortRole) : Nat × Nat × Nat × Nat := (r.role, r.cap, r.pref, r.power)

/-- R281, R290: port roles that changed take effect; a port that gains rectangles wakes (R280); a changed ROOT_CAND or ROOT_PRIO
starts a new epoch. -/
def State.portsChange (s : State) (roles : List PortRole) (cand : Bool) (prio : Nat) : State :=
  let s := (List.range 4).foldl (fun s p =>
    if (roles.map PortRole.link)[p]? = some (s.portRole p).link then s else s.portSettle p) s
  let s := (List.range 4).foldl (fun s p =>
    if ((roles.map (fun r => r.rects.isEmpty)).getD p true) && !(s.portRole p).rects.isEmpty then s.wakeBoth p else s) s
  if cand = s.rootCand ∧ prio = s.rootPrio then s else s.rootChange

/-- R320: the base table into the base registers of the ageing block. -/
def State.basesInForce (s : State) : State :=
  let base (k : Nat) : Nat := leAt s.addrWindows (272 + 8 * k) 8 / 256
  ((((s.wr HGL_MASTER_BASE (base 0)).wr HGL_ACC_BASE_A (base 1)).wr HGL_ACC_BASE_B (base 2)).wr HGL_GAIN_BASE (base 3)).wr
    HGL_CKPT_STAGE_BASE (base 4)

/-- The EVENTS client (Table 3.2). -/
def clEvents : Nat := 0x0C

/-- R452: the ring lies in the first 32 plots of the EVENTS partition. -/
def State.eventsMove (s : State) : State :=
  match s.clientPart clEvents with
  | none => s
  | some q =>
    let s := if q.isStatic then s
      else (List.range' q.first 32).foldl (fun s n => s.allocPlot clEvents n) s
    { s with ev := { s.ev with base := grnBase + q.first * 4096 } }

/-- R268, R410: after the plot map is built anew the link clients take their plots again; a port that gets too few
synchronises its credits. -/
def State.linksRetake (s : State) : State :=
  (List.range 4).foldl (fun s p =>
    let need := ((s.lnkPort p).total.map (fun n => ceilDiv n 16)).sum
    let s := State.linkPlots (linkClient p) need s
    if (s.grn.held.filter (fun h => h.1 == linkClient p)).length < need then s.syncNow p else s) s

/-- R464: GPIO functions that the plan names as owners are claimed; a claim of a reserved one is refused (Table 18.3). -/
def State.pinClaims (s : State) : State :=
  match s.fpl.plan with
  | none => s
  | some p => (p.owners.filter (fun o => o.1 == 1 && decide (0x0100 ≤ o.2.2) && decide (o.2.2 ≤ 0x01FF))).foldl
      (fun s o => if o.2.2 ≤ 0x0105 then (s.claim 1 o.2.1 o.2.2).1 else s.report Ev.GBL_PIN_BUSY [1, o.2.1, o.2.2]) s

/-- What a new plan starts without: staged blocks and band rows of the plan before it. -/
def State.dataPathClear (s : State) : State :=
  { s with
    thr := { s.thr with rows := [], reqs := [], disp := [], pipes := [], route := [] }
    bnd := .init
    drl := { s.drl with reach := [], furrow := none, set := 0, nextSet := 0 }
    hgl := { s.hgl with pref := [] }
    etc := { s.etc with bufs := [], rays := [] } }

/-- A plan put in force at stage S5 or by a cold switch: plot map, windows, base table, event ring, link plots, ports, plates
and panel mode. -/
def State.planFresh (s : State) (p : Plan) : State :=
  let old := s.plates
  let roles := (List.range 4).map s.portRole
  let cand := s.rootCand
  let prio := s.rootPrio
  let s : State := { s with fpl := { s.fpl with plan := some p } }
  let s := s.dataPathClear.buildPlotMap
  let s := (s.windowsInForce.basesInForce).eventsMove
  let s := (s.linksRetake).portsChange roles cand prio
  (s.plateSwitch old true).wrF ETC_STATUS 8 7 (byteAt s.panelSec 0)

/-- A warm switch (R54, R56, R115, R211). The indices of headland tasks that are deferred or running stay as they are and name
the new plan's task table from then on (DESIGN CHOICE, log entry 230). -/
def State.planWarm (s : State) (q p : Plan) : State :=
  let old := s.plates
  let roles := (List.range 4).map s.portRole
  let cand := s.rootCand
  let prio := s.rootPrio
  let furrow := (s.clientPart clFurrow).map (·.first)
  let s : State := { s with fpl := { s.fpl with plan := some p } }
  let s := (s.staticChange q p).serveWaiting.portsChange roles cand prio
  let s := s.plateSwitch old false
  let s : State := if (s.clientPart clFurrow).map (·.first) = furrow then s else { s with etc := { s.etc with bufs := [] } }
  let mode := byteAt s.panelSec 0
  if mode = s.polMode then s
  else
    let s := s.wrF ETC_STATUS 8 7 mode
    if s.supState = supOn ∧ (s.etc.seq = .idle ∨ s.etc.seq = .waitTick) then s.dischargeStart dischMode else s

/-- R53 to R56: the switch at a boundary, with the armed frame's passing during validation. `s.fpl.frame` is the frame that
the boundary starts. A cold switch whose COLD_OK was cleared since it was armed does not proceed: it is disarmed and reported
(DEDUCED, log entry 232). A switch armed by NEXT while validation runs counts as missed at the next boundary, like an
armed frame that was reached (DESIGN CHOICE, log entry 231). -/
def State.switchBoundary (s : State) : State :=
  let due := match s.fpl.arm with
    | some .next => true
    | some (.at f) => decide (f ≤ s.fpl.frame)
    | none => false
  if !due then s
  else
    match s.fpl.stage, s.fpl.staged with
    | .valid, some p =>
      let cold := s.fpl.stageCold
      if cold && !s.coldOk then
        let s := s.report Ev.FPL_COLD_REQUIRED []
        { s with fpl := { s.fpl with arm := none } }
      else
      let s := if cold then s.burAbort else s
      let s : State := { s.unstage with fpl := { s.unstage.fpl with coldBusy := cold || s.fpl.coldBusy } }
      let s := match s.fpl.plan, cold with
        | some q, false => s.planWarm q p
        | _, _ => s.planFresh p
      s.report Ev.FPL_SWITCHED []
    | .validating, _ =>
      if s.fpl.missed then s
      else { s.report Ev.FPL_SWITCH_MISSED [] with fpl := { (s.report Ev.FPL_SWITCH_MISSED []).fpl with missed := true } }
    | _, _ => s

/-! ### Computed registers (Tables 2.15 to 2.22) -/

/-- The level that the next boundary puts in force (R57, R158): the highest asked for in the tick, else the level that
stands asked, and at least the lane floor. -/
def State.nextLevel (s : State) : Nat := max (s.fpl.levelReq.getD (s.rdF THM_STATUS 7 6)) s.drl.floor

/-- FPL_STAGE_STATUS.STATE. -/
def StageSt.code : StageSt → Nat
  | .idle => 0
  | .loading => 1
  | .validating => 2
  | .valid => 3
  | .refused => 4

/-- The registers of the block whose value is computed when read; DEGRADED stands in the register. -/
def State.fplView (s : State) (a : Nat) : Option Nat :=
  let f := s.fpl
  let v := s.variantNow
  if a = FPL_PLAN_ID then some ((f.plan.map (·.planId)).getD 0)
  else if a = FPL_PLAN_GEN then some ((f.plan.map (·.planGen)).getD 0)
  else if a = FPL_STATUS then
    some (f.variant % 4 + (f.level % 4) * 4 + b2n f.plan.isSome * 16 + b2n f.arm.isSome * 32 + bit (s.rd FPL_STATUS) 6 * 64 +
      b2n (v.halve == 1) * 128 + (f.src % 4) * 256 + b2n f.coldBusy * 1024)
  else if a = FPL_TIMING then some (s.slotLen / 64)
  else if a = FPL_COMMIT_LEAD then some s.commitLead
  else if a = FPL_FRAME_LO then some (f.frame % 2 ^ 32)
  else if a = FPL_SLOT_NOW then some (f.slot % 1024 + min (s.now - f.slotStart) 0x1FFFF * 2 ^ 12)
  else if a = FPL_STAGE_STATUS then some (f.stage.code + b2n f.stageCold * 8 + f.stageEvent * 2 ^ 16)
  else if a = FPL_SWITCH_CTRL then some (s.rd FPL_SWITCH_CTRL + b2n f.arm.isSome * 256)
  else if a = FPL_THROTTLE then
    some (f.level % 4 + (f.variant % 4) * 4 + (v.kind % 2) * 16 + (v.halve % 2) * 32 + (s.budgetNow % 64) * 2 ^ 8 +
      (if s.nextLevel = f.level then 0 else (s.nextLevel % 4) * 2 ^ 16 + 2 ^ 18))
  else if a = FPL_OWN_RESULT then
    let cls := s.rdF FPL_OWN_QUERY 11 8
    let i := s.rdF FPL_OWN_QUERY 7 0
    some (s.planOwner cls i + s.holder cls i * 2 ^ 16)
  else none

/-- R62: the frame number's low word read; the high word is latched. -/
def State.frameLoRead (s : State) : State × Nat := (s.wr FPL_FRAME_HI (s.fpl.frame / 2 ^ 32 % 2 ^ 16), s.fpl.frame % 2 ^ 32)

/-! ### The commands -/

/-- FPL_STAGE_VALIDATE (R53). -/
def execFplStageValidate (value : Word) (s : State) : Host.Outcome State Fault Refusal :=
  if s.shut .service FPL_STAGE_CTRL then .next (s.turnedAway .service FPL_STAGE_CTRL) else
  .next (s.oneCycle fun s => s.stageValidate value.toNat)

/-- FPL_STAGE_ABORT (R53). -/
def execFplStageAbort (value : Word) (s : State) : Host.Outcome State Fault Refusal :=
  if s.shut .service FPL_STAGE_CTRL then .next (s.turnedAway .service FPL_STAGE_CTRL) else
  .next (s.stageAbort value.toNat)

/-- PLAN_VALIDATION_DONE (R49, R53, R54). -/
def execPlanValidationDone (s : State) : Host.Outcome State Fault Refusal := .next (s.oneCycle fun s => s.validationDone)

/-- FPL_SWITCH_ARM (R53, R54, R56). -/
def execFplSwitchArm (value : Word) (s : State) : Host.Outcome State Fault Refusal :=
  if s.shut .service FPL_SWITCH_CTRL then .next (s.turnedAway .service FPL_SWITCH_CTRL) else
  .next (s.oneCycle fun s => s.switchArm value.toNat)

/-- FPL_SWITCH_NEXT (R53, R54). -/
def execFplSwitchNext (value : Word) (s : State) : Host.Outcome State Fault Refusal :=
  if s.shut .service FPL_SWITCH_CTRL then .next (s.turnedAway .service FPL_SWITCH_CTRL) else
  .next (s.switchNext value.toNat)

/-- FPL_SWITCH_DISARM (R53). -/
def execFplSwitchDisarm (value : Word) (s : State) : Host.Outcome State Fault Refusal :=
  if s.shut .service FPL_SWITCH_CTRL then .next (s.turnedAway .service FPL_SWITCH_CTRL) else
  .next (s.switchDisarm value.toNat)

/-- FPL_FRAME_LO_READ (R62). -/
def execFplFrameLoRead (s : State) : Host.Outcome State Fault Refusal :=
  if s.shut .service FPL_FRAME_LO then .next (s.turnedAway .service FPL_FRAME_LO) else
  .next (s.frameLoRead.1.result 0 s.frameLoRead.2)

end Sys2Proof.Machine
end

