-- ==== Sys2Proof/Machine/Host.lean ====
section
/-! DEFINITION. The GLOBAL block (R443 to R447, R464), the readers of the event ring (R452 to R454), EVENT messages (R453), the
flash log (R458), and a host's accesses to memory (R26, R84, R85, R440). -/
namespace Sys2Proof.Machine

/-! ### GPIO (R446, R464, Table 18.3) -/

/-- The SOFTWARE function. -/
def fnSoftware : Nat := 0x100

/-- GPIO n is held by SOFTWARE. -/
def State.softPin (s : State) (n : Nat) : Bool := s.holder 1 n == fnSoftware

/-- The mask of the SOFTWARE pins. -/
def State.softMask (s : State) : Nat := ((List.range 16).map (fun n => b2n (s.softPin n) * 2 ^ n)).sum

/-- The level that a function of Table 18.3 other than SOFTWARE drives. -/
def State.fnLevel (s : State) (fn : Nat) : Bool :=
  if fn = 0x101 then s.fpl.ticked && decide (s.now - s.tickStart < 1600)
  else if fn = 0x102 then s.stageNow == 5 && !s.isHeld
  else if fn = 0x103 then decide (0 < s.fpl.level)
  else if fn = 0x104 then s.rdF GBL_IRQ_STATUS 17 17 == 1
  else s.supState == supOn

/-- A pin is held by a function of Table 18.3 that drives it (R464). -/
def State.fnPin (s : State) (n : Nat) : Bool := decide (0x101 ≤ s.holder 1 n) && decide (s.holder 1 n ≤ 0x105)

/-- The level at a GPIO pad. -/
def State.padLevel (s : State) (n : Nat) : Bool :=
  if s.softPin n && bit (s.rd GBL_GPIO_OE) n == 1 then bit (s.rd GBL_GPIO_OUT) n == 1
  else if s.fnPin n then s.fnLevel (s.holder 1 n)
  else bit s.hst.pins n == 1

/-- Sixteen bits from a function of the pin. -/
def pinBits (f : Nat → Bool) : Nat := ((List.range 16).map (fun n => b2n (f n) * 2 ^ n)).sum

/-- GBL_GPIO_OWNn written (R446): SOFTWARE claims, 0 releases a SOFTWARE hold, anything else is refused. -/
def State.gpioOwn (s : State) (n v : Nat) : State :=
  let h := v % 2 ^ 16
  if h = fnSoftware then
    let (s, ok) := s.claim 1 n fnSoftware
    s.result (if ok then 0 else 3) 0
  else if h = 0 then (s.unclaim 1 n fnSoftware).result 0 0
  else s.result 3 0

/-- GBL_GPIO_OUT or GBL_GPIO_OE written: only the bits of SOFTWARE pins take effect. -/
def State.gpioWrite (s : State) (a v : Nat) : State :=
  let m := s.softMask
  s.wr a ((s.rd a &&& (0xFFFF ^^^ m)) ||| (v &&& m))

/-! ### The event ring's readers (R452, R454) -/

/-- A ring index names a record still present, or the writer's index. -/
def State.evPresent (s : State) (i : Nat) : Bool :=
  let w := s.rd GBL_EVQ_WR
  decide (i < ringSize) && (i == w || decide ((w + ringSize - i) % ringSize ≤ s.ev.present))

/-- The host has `n` records, taken modulo the ring, before it. -/
def State.hostLeft (s : State) (n : Nat) : State := { s with ev := { s.ev with hostUnread := n % ringSize } }

/-- GBL_EVQ_RD written: the host consumes up to the index. -/
def State.evConsume (s : State) (v : Nat) : State :=
  let i := v % ringSize
  if s.evPresent i then
    (s.wr GBL_EVQ_RD i).hostLeft (s.rd GBL_EVQ_WR + ringSize - i)
  else s

/-- GBL_EVQ_LOST read: the count, which is then cleared (R8). -/
def State.evLostRead (s : State) : State × Nat := (s.wr GBL_EVQ_LOST 0, s.rd GBL_EVQ_LOST)

/-- The record at an index. -/
def State.evRec (s : State) (i : Nat) : EvRec := sget EvRec.zero s.ev.ring i

/-- A record from its 32 bytes. -/
def evRecOf (b : Bytes) : EvRec :=
  ⟨leAt b 0 2, byteAt b 2, byteAt b 3, leAt b 4 4, leAt b 8 6, leAt b 14 2, leAt b 16 4, leAt b 20 4, leAt b 24 4, leAt b 28 4⟩

/-- A memory address lies in the event ring. -/
def State.inRing (s : State) (a : Nat) : Bool := s.ev.ringOn && decide (s.ev.base ≤ a) && decide (a < s.ev.base + 32 * ringSize)

/-! ### Registers of the GLOBAL block -/

/-- GBL_IRQ_STATUS (Table 17.4). -/
def State.irqStatus (s : State) : Nat :=
  let blocks := ((List.range 16).map (fun i =>
    b2n (s.rd (eventStatusReg (i + 1)) != 0 || (i == 15 && s.rd UPD_MBX_EVENT_STATUS != 0)) * 2 ^ i)).sum
  blocks + b2n (s.rd GBL_EVQ_RD != s.rd GBL_EVQ_WR) * 2 ^ 16 + s.rdF GBL_IRQ_STATUS 18 17 * 2 ^ 17

/-- IRQ_N is asserted (R445); a SHUTDOWN leaves it released (Table 17.8). -/
def State.irqAsserted (s : State) : Bool := !s.boot.shutdown && s.irqStatus &&& s.rd GBL_IRQ_MASK != 0

/-- The registers of the block whose value is computed when read. -/
def State.gblView (s : State) (a : Nat) : Option Nat :=
  if a = GBL_FUSED_ID_LO then some (fusedId % 2 ^ 32)
  else if a = GBL_FUSED_ID_HI then some (fusedId / 2 ^ 32)
  else if a = GBL_IRQ_STATUS then some s.irqStatus
  else if a = GBL_EVQ_BASE_LO then some (if s.ev.ringOn then s.ev.base % 2 ^ 32 else 0)
  else if a = GBL_EVQ_BASE_HI then some (if s.ev.ringOn then s.ev.base / 2 ^ 32 % 256 + 2 ^ 8 else 0)
  else if a = GBL_GPIO_IN then some (pinBits s.padLevel)
  else if a = GBL_GPIO_OUT then
    some (s.rd a &&& s.softMask ||| pinBits (fun n => s.fnPin n && s.fnLevel (s.holder 1 n)))
  else if a = GBL_GPIO_OE then some (s.rd a &&& s.softMask ||| pinBits s.fnPin)
  else if GBL_EVQ_REC 0 ≤ a ∧ a ≤ GBL_EVQ_REC 7 + 3 then
    some (leAt (s.evRec (s.rd GBL_EVQ_RD)).toBytes (a - GBL_EVQ_REC 0) 4)
  else if GBL_GPIO_OWN 0 ≤ a ∧ a ≤ GBL_GPIO_OWN 15 + 3 then
    let n := (a - GBL_GPIO_OWN 0) / 4
    some (s.holder 1 n + s.planOwner 1 n * 2 ^ 16)
  else none

/-! ### EVENT messages (R453) -/

/-- GBL_EVT_CTRL.BATCH; values outside 1 to 64 act as 64. -/
def State.evBatch (s : State) : Nat :=
  let b := s.rdF GBL_EVT_CTRL 14 8
  if 1 ≤ b ∧ b ≤ 64 then b else 64

/-- The records that wait for the sender, oldest first, with their place. -/
def State.evWaiting (s : State) : List (Nat × EvRec) :=
  let w := s.rd GBL_EVQ_WR
  (List.range s.ev.sndUnread).map (fun i => (i, s.evRec ((w + ringSize - s.ev.sndUnread + i) % ringSize)))

/-- The message types of EVENT and BULK (Table 10.2). -/
def mtEvent : Nat := 0x13
def mtBulk : Nat := 0x31

/-- The destinations of GBL_EVT_DEST (Table 17.5). -/
def State.evDests (s : State) : List Nat :=
  ((List.range 15).filter (fun i => bit (s.rd GBL_EVT_DEST) i == 1)).map (· + 0xFFF0) ++
    (if s.rdF GBL_EVT_DEST 15 15 = 1 then [s.rdF GBL_EVT_DEST 31 16] else [])

/-- The sender passes `n` records. -/
def State.sndPass (s : State) (n : Nat) : State := { s with ev := { s.ev with sndUnread := s.ev.sndUnread - n } }

/-- One EVENT message to every destination: at most BATCH records; with CRIT_ONLY the others are passed over. -/
def State.evSend (s : State) : State :=
  if s.rdF GBL_EVT_CTRL 0 0 = 0 ∨ s.stageNow < 2 then s
  else
    let critOnly := s.rdF GBL_EVT_CTRL 1 1 == 1
    let l := (s.evWaiting.filter (fun e => !critOnly || e.2.flags % 2 == 1)).take s.evBatch
    match l.getLast? with
    | none => s.sndPass s.ev.sndUnread
    | some last =>
      let mark (i : Nat) (r : EvRec) : EvRec :=
        if i = 0 && s.ev.sndOverflow then { r with flags := r.flags ||| 8 } else r
      let body := toLe 2 l.length ++ toLe 2 0 ++ toLe 4 ((l.map (·.2.seq)).headD 0) ++ toLe 4 s.ev.sndLost ++ toLe 4 0 ++
        (l.mapIdx (fun i e => (mark i e.2).toBytes)).flatten
      let s := s.sndPass (last.1 + 1)
      let s : State := { s with ev := { s.ev with sndLost := 0, sndOverflow := false } }
      s.evDests.foldl (fun s d => s.sendTo d mtEvent 0 body) s

/-! ### The flash log (R458) -/

/-- Bytes of one entry and entries of the region. -/
def logEntry : Nat := 64
def logEntries : Nat := logsSize / logEntry

/-- The bytes of entry i. -/
def State.logAt (s : State) (i : Nat) : Bytes := s.flashGet 0 (logsAt + logEntry * i) logEntry

/-- The entries that hold a byte other than 0xFF, in ascending order without repeats. -/
def State.logUsed (s : State) : List Nat :=
  ((s.flash0.filter (fun c => decide (logsAt ≤ c.1) && decide (c.1 < logsAt + logsSize))).map
    (fun c => (c.1 - logsAt) / logEntry)).eraseDups

/-- MAGIC, VERSION and CRC hold. -/
def logGood (b : Bytes) : Bool := leAt b 0 2 == 0x474C && byteAt b 2 == 1 && crc32c (sub b 0 60) == leAt b 60 4

/-- The valid entries with their places. -/
def State.logValid (s : State) : List (Nat × Bytes) := (s.logUsed.map (fun i => (i, s.logAt i))).filter (fun e => logGood e.2)

/-- The valid entry with the latest LOG_SEQ. -/
def logLatest (l : List (Nat × Bytes)) : Option (Nat × Nat) :=
  l.foldl (fun b e => match b with
    | none => some (e.1, leAt e.2 4 4)
    | some (i, q) => if later 32 (leAt e.2 4 4) q then some (e.1, leAt e.2 4 4) else some (i, q)) none

/-- The write point, and the LOG_SEQ of the next entry. -/
def State.logPoint (s : State) : Option Nat × Nat :=
  let used := s.logUsed
  match logLatest s.logValid with
  | none => ((List.range logEntries).find? (fun i => !used.contains i), 0)
  | some (i, q) =>
    (((List.range logEntries).map (fun k => (i + 1 + k) % logEntries)).find? (fun k => !used.contains k), succW 32 q)

/-- TYPE and PAYLOAD of an item. -/
def LogItem.payload : LogItem → Nat × Bytes
  | .event r => (1, r.toBytes)
  | .dramRetire row spare => (2, toLe 4 row ++ toLe 4 spare ++ List.replicate 24 0#8)
  | .boot status time gen => (3, toLe 4 status ++ toLe 4 time ++ toLe 4 gen ++ List.replicate 20 0#8)

/-- The 64 bytes of an entry. -/
def logBytes (ty seq boot : Nat) (payload : Bytes) : Bytes :=
  let b := toLe 2 0x474C ++ toLe 1 1 ++ toLe 1 ty ++ toLe 4 seq ++ toLe 4 boot ++ toLe 4 0 ++ payload ++ List.replicate 12 0#8
  b ++ toLe 4 (crc32c b)

/-- One entry at the write point; the flag says whether a program failed twice (R418). -/
def State.logPut (s : State) (ty : Nat) (payload : Bytes) (fail : Bool) : State :=
  match s.logPoint with
  | (none, _) => s
  | (some i, q) =>
    let a := logsAt + logEntry * i
    if fail then (s.tornFlash 0 a logEntry).flashFail 0 a
    else s.flashPut 0 a (logBytes ty q (s.lifetime 1 % 2 ^ 32) payload)

/-- The wrap: when the write point enters a sector and the sector after it is in use, the retire entries that one holds are
copied on, and it is erased. -/
def State.logWrap (s : State) : State :=
  match s.logPoint.1 with
  | none => s
  | some i =>
    let next := (i / 1024 + 1) % 256
    if i % 1024 = 0 ∧ s.logUsed.any (fun k => k / 1024 == next) then
      let keep := s.logValid.filter (fun e => e.1 / 1024 == next && byteAt e.2 3 == 2)
      let s := keep.foldl (fun s e => s.logPut 2 (sub e.2 16 32) false) s
      s.eraseSector 0 (logsAt + sectorSize * next)
    else s

/-- The oldest item that waits is appended. -/
def State.logAppend (s : State) (fail : Bool) : State :=
  match s.ev.flashPend with
  | [] => s
  | x :: rest =>
    let s : State := { s with ev := { s.ev with flashPend := rest } }
    let (ty, p) := x.payload
    s.logWrap.logPut ty p fail

/-- The DRAM_RETIRE entries of the log in LOG_SEQ order, as (row, spare). -/
def State.logRetired (s : State) : List (Nat × Nat) :=
  let l := s.logValid.filter (fun e => byteAt e.2 3 == 2)
  let ins (e : Nat × Bytes) (l : List (Nat × Bytes)) : List (Nat × Bytes) :=
    l.filter (fun x => later 32 (leAt e.2 4 4) (leAt x.2 4 4)) ++ e :: l.filter (fun x => !later 32 (leAt e.2 4 4) (leAt x.2 4 4))
  (l.foldl (fun a e => ins e a) []).map (fun e => (leAt e.2 16 4, leAt e.2 20 4))

/-! ### A host's memory accesses (R26, R80, R84, R85, R440) -/

/-- The MGMT client (Table 3.2). -/
def clMgmt : Nat := clSteward

/-- Whether a host access to the word at an address is performed: the status of Table 17.2, with its reports. -/
def State.hostReach (s : State) (a : Nat) : State × Nat :=
  if inGranary a then s.grnCheck .mgmt (plotOf a)
  else if s.stageNow < 3 || s.panelLost then (s, 5)
  else if s.mapped a then (s, 0)
  else (s.unmapped clMgmt a false, 1)

/-- A poisoned line met by a host read (Table 3.4, R325). -/
def State.hostPoison (s : State) (a : Nat) : State :=
  if inGranary a then s.poisonConsumed clMgmt (plotOf a) (a / 64 % 64) else if s.marked a then s.bump DMC_POISON_READ_TOTAL else s

/-- One word read by a host: state, status, value. Words of the event ring are those of its records. `line` says that the access
begins with this word, or that it is the first of a line, which takes a grant of the arbiter (R66, R74). -/
def State.hostRead (s : State) (a : Nat) (line : Bool) : State × Nat × Nat :=
  match s.hostReach a with
  | (s, 0) =>
    let s := if line then s.useRange .mgmt false a 4 else s
    if s.inRing a then
      (s, 0, leAt (s.evRec ((a - s.ev.base) / 32)).toBytes ((a - s.ev.base) % 32) 4)
    else if s.poisoned a then (s.hostPoison a, 4, 0)
    else (s, 0, s.memLe a 4)
  | (s, st) => (s, st, 0)

/-- One word written by a host; `line` as for a read. -/
def State.hostWrite (s : State) (a v : Nat) (line : Bool) : State × Nat :=
  match s.hostReach a with
  | (s, 0) =>
    let s := if line then s.useRange .mgmt true a 4 else s
    if s.inRing a then
      let i := (a - s.ev.base) / 32
      let r := evRecOf (putBytes (s.evRec i).toBytes ((a - s.ev.base) % 32) (toLe 4 v))
      ({ s with ev := { s.ev with ring := sset EvRec.zero s.ev.ring i r } }, 0)
    else (s.memPut a (toLe 4 v), 0)
  | (s, st) => (s, st)

/-- Words read from consecutive addresses up to the first that fails or leaves the 4 KiB block: state, status, words. -/
def State.hostReads (s : State) (a : Nat) : Nat → State × Nat × List Word
  | 0 => (s, 0, [])
  | n + 1 =>
    match s.hostReads a n with
    | (s, 0, ws) =>
      if (a + 4 * n) / 4096 ≠ a / 4096 then (s, 1, ws)
      else match s.hostRead (a + 4 * n) (n == 0 || (a + 4 * n) % 64 == 0) with
        | (s, 0, v) => (s, 0, ws ++ [BitVec.ofNat 32 v])
        | (s, st, _) => (s, st, ws)
    | r => r

/-- Words written to consecutive addresses: state, status, words completed; `k` counts them. A line that the words cover
whole loses its poison. -/
def State.hostWrites (s : State) (a : Nat) : Nat → List Word → State × Nat × Nat
  | k, [] => (s, 0, k)
  | k, w :: ws =>
    let b := a + 4 * k
    if b / 4096 ≠ a / 4096 then (s, 1, k)
    else match s.hostWrite b w.toNat (k == 0 || b % 64 == 0) with
      | (s, 0) =>
        let s := if b % 64 = 60 ∧ 15 ≤ k then (s.setPoison b false).lineRenewed (b / 64 * 64) else s
        State.hostWrites s a (k + 1) ws
      | (s, st) => (s, st, k)

/-! ### The commands -/

/-- GBL_GPIO_OWN_WRITE (R446). -/
def execGblGpioOwnWrite (pin : Fin 16) (value : Word) (s : State) : Host.Outcome State Fault Refusal :=
  if s.shut .service (GBL_GPIO_OWN pin.val) then .next (s.turnedAway .service (GBL_GPIO_OWN pin.val)) else
  .next (s.oneCycle fun s => s.gpioOwn pin.val value.toNat)

/-- GBL_EVQ_RD_WRITE (R452). -/
def execGblEvqRdWrite (value : Word) (s : State) : Host.Outcome State Fault Refusal :=
  if s.shut .service GBL_EVQ_RD then .next (s.turnedAway .service GBL_EVQ_RD) else
  .next (s.evConsume value.toNat)

/-- GBL_EVQ_LOST_READ (R8). -/
def execGblEvqLostRead (s : State) : Host.Outcome State Fault Refusal :=
  if s.shut .service GBL_EVQ_LOST then .next (s.turnedAway .service GBL_EVQ_LOST) else
  .next (s.evLostRead.1.result 0 s.evLostRead.2)

/-- EVENT_MESSAGE_SEND (R453). -/
def execEventMessageSend (s : State) : Host.Outcome State Fault Refusal := .next s.evSend

/-- FLASH_LOG_APPEND (R458): from S2 on, when the Steward runs. -/
def execFlashLogAppend (fail : Bool) (s : State) : Host.Outcome State Fault Refusal :=
  .next (if s.stageNow < 2 then s else s.logAppend fail)

end Sys2Proof.Machine
end

