-- ==== Sys2Proof/Machine/Mailbox.lean ====
section
/-! DEFINITION. The mailbox (R448 to R450): ownership, the commands of Table 17.8, and the end of Seedbank stores, which ends
some of them. A command ends with its GO, but for those that wait for a store. -/
namespace Sys2Proof.Machine

/-! ### Ownership (R448) -/

/-- Another requester holds the mailbox. -/
def State.mbxDenied (s : State) (who : Requester) : Bool := s.hst.owner.isSome && s.hst.owner != some who

/-- UPD_MBX_OWNER as read (Table 17.7). -/
def State.mbxOwnerReg (s : State) : Nat :=
  match s.hst.owner with
  | none => 0
  | some .service => 2 ^ 16 + 2 ^ 31
  | some (.fabric a) => a.toNat + 2 ^ 31

/-- CLAIM. -/
def State.mbxClaim (s : State) (who : Requester) : State :=
  if s.hst.owner.isNone then { s with hst := { s.hst with owner := some who } } else s

/-- RELEASE by the holder. -/
def State.mbxRelease (s : State) (who : Requester) : State :=
  if s.hst.owner = some who then { s with hst := { s.hst with owner := none } } else s

/-! ### The course of a command (R449) -/

/-- Argument n. -/
def State.mbxArg (s : State) (n : Nat) : Nat := s.rd (UPD_MBX_ARG n)

/-- Bytes of the buffer. -/
def State.mbxBytes (s : State) (off n : Nat) : Bytes := cellsGet s.hst.buf off n

/-- Bytes put into the buffer from its start. -/
def State.mbxPut (s : State) (b : Bytes) : State := { s with hst := { s.hst with buf := cellsSet s.hst.buf 0 b } }

/-- A command ends with a status and `len` bytes in the buffer. -/
def State.mbxEnd (s : State) (op : Nat) (irq : Bool) (st len : Nat) : State :=
  let s : State := { s with hst := { s.hst with running := none, stores := 0 } }
  let s := s.wr UPD_MBX_STATUS (st + 2 ^ 8 + len * 2 ^ 16)
  let s := if irq then s.orR GBL_IRQ_STATUS (2 ^ 18) else s
  if st = 0 then s.report Ev.UPD_MBX_DONE [] else s.report Ev.UPD_MBX_FAILED [op, st]

/-- FAILED with an event code in RES0. -/
def State.mbxFail (s : State) (op : Nat) (irq : Bool) (ev : Nat) : State := (s.wr (UPD_MBX_RES 0) ev).mbxEnd op irq 8 0

/-- The command goes on past its GO, until `n` stores have ended. -/
def State.mbxWait (s : State) (op : Nat) (irq : Bool) (n : Nat) : State :=
  { s.wr UPD_MBX_STATUS (2 ^ 9) with hst := { s.hst with running := some (op, irq), stores := n } }

/-- The stage a command needs (Table 17.8); none for a reserved opcode. -/
def mbxFrom (op : Nat) : Option Nat :=
  if op = 0x05 ∨ op = 0x09 ∨ op = 0x0A ∨ op = 0x0C ∨ op = 0x0E then some 3
  else if op = 0x0D then some 5
  else if 1 ≤ op ∧ op ≤ 0x0F then some 2
  else none

/-- SRAM words a command writes beside its store. -/
def mbxWords (op : Nat) : Nat := if op = 0x06 then 1 else if op = 0x0F then 128 else 0

/-- R449, R382: a running store holds too many writes for the command's. -/
def State.mbxBlocked (s : State) (op : Nat) : Bool :=
  s.sbk.store.isSome && mbxWords op != 0 && decide (64 < s.sbk.held + mbxWords op)

/-- A store asked for by a command: it waits for its end, or ends with BUSY (R389). -/
def State.mbxStore (s : State) (op : Nat) (irq : Bool) (kind : Nat) : State :=
  let n := if s.sbk.store.isSome then 2 else 1
  match s.requestStore kind with
  | (s, true) => s.mbxWait op irq n
  | (s, false) => s.mbxEnd op irq 5 0

/-! ### The commands of Table 17.8 -/

/-- 0x01 IDENTIFY. -/
def State.mbxIdentify (s : State) (irq : Bool) : State :=
  let gen (o : Nat) : Nat := if s.actOk then s.act o 4 else 0
  let r := [fusedId % 2 ^ 32, fusedId / 2 ^ 32, s.rd GBL_ID, gen 8, gen 12, s.stageNow + s.addr * 2 ^ 16]
  (r.mapIdx (fun i v => (i, v))).foldl (fun s e => s.wr (UPD_MBX_RES e.1) e.2) s |>.mbxEnd 0x01 irq 0 0

/-- 0x02 SHUTDOWN: the down sequence, when the supplies are not down already, then the CLEAN store. -/
def State.mbxShutdown (s : State) (irq : Bool) : State :=
  if s.mbxArg 0 ≠ 0x7440 then s.mbxEnd 0x02 irq 6 0
  else if s.sbk.final then s.sbkBusy.mbxEnd 0x02 irq 5 0
  else if s.supState = supOff ∨ s.supState = supLockout ∨ s.supState = supRetry then
    (if s.supState = supRetry then s.setSup supOff else s).mbxStore 0x02 irq 3
  else
    let s := if s.supState = supDown then { s with etc := { s.etc with after := .shutdown } }
      else s.supplyDownFor dischDown .shutdown
    s.mbxWait 0x02 irq 1

/-- 0x04 FLASH_READ. -/
def State.mbxFlashRead (s : State) (irq : Bool) : State :=
  let (dev, off, n) := (s.mbxArg 0, s.mbxArg 1, s.mbxArg 2)
  if 1 < dev ∨ n < 4 ∨ 3840 < n ∨ n % 4 ≠ 0 ∨ flashSize < off + n ∨ (dev = 0 ∧ flashReservedAt < off + n) then
    s.mbxEnd 0x04 irq 6 0
  else (s.mbxPut (s.flashGet dev off n)).mbxEnd 0x04 irq 0 n

/-- 0x05 PLAN_WRITE: `fail` says that a program or erase failed twice (R418). -/
def State.mbxPlanWrite (s : State) (irq fail : Bool) : State :=
  let slot := s.mbxArg 0
  let a := s.mbxArg 1 + s.mbxArg 2 % 256 * 2 ^ 32
  let n := s.mbxArg 3
  if 7 < slot ∨ n % 64 ≠ 0 ∨ 4194304 < n ∨ inGranary a then s.mbxEnd 0x05 irq 6 0
  else match s.stewardRead a n with
    | (s, none) => s.mbxFail 0x05 irq Ev.GBL_ADDR_UNMAPPED
    | (s, some b) =>
      let at' := planSlotAt slot
      let s := s.flashErase 0 at' planSlotSize
      if fail then ((s.tornFlash 0 at' n).flashFail 0 at').mbxFail 0x05 irq Ev.UPD_FLASH_FAIL
      else (s.flashPut 0 at' b).mbxEnd 0x05 irq 0 0

/-- 0x06 PLAN_SELECT. -/
def State.mbxPlanSelect (s : State) (irq : Bool) : State :=
  let v := s.mbxArg 0
  if 7 < v ∧ v ≠ 0xFF then s.mbxEnd 0x06 irq 6 0
  else if s.sramRefused then s.sramRefuse.mbxEnd 0x06 irq 5 0
  else (s.actPut 28 (toLe 1 v)).mbxStore 0x06 irq 5

/-- CLASS and INDEX of FEATURE_ENABLE name a resource (Table 2.10). -/
def claimArgOk (cls idx : Nat) : Bool :=
  (cls == 1 && decide (idx < 16)) || (cls == 2 && decide (idx < 10)) || (cls == 3 && decide (idx < 64)) ||
    (cls == 4 && decide (idx < 18)) || (cls == 5 && decide (idx < 4))

/-- R61: what a feature whose claim was outbid had turned on goes off: the TEST mode of a port, or a checkpoint. -/
def State.featureOff (s : State) (lost cls idx : Nat) : State :=
  if cls = 5 ∧ lost = 0x0100 then s.modeWrite idx false
  else if cls = 2 ∧ lost = featCkpt ∧ (s.hgl.ckpt.map (·.pipe)) = some idx then s.ckptFail ckptRefused
  else s

/-- A claim made for a mailbox command (R60, R61). -/
def State.claimFor (s : State) (cls idx feature : Nat) : State × Bool :=
  let lost := if s.outbids cls idx feature then s.holder cls idx else 0
  match s.claim cls idx feature with
  | (s, ok) => (s.featureOff lost cls idx, ok)

/-- 0x07 FEATURE_ENABLE: a claim under R60 and R61; reserved GPIO functions are refused (Table 18.3). -/
def State.mbxEnable (s : State) (irq : Bool) : State :=
  let f := s.mbxArg 0
  let cls := fld (s.mbxArg 1) 7 0
  let idx := fld (s.mbxArg 1) 15 8
  if !claimArgOk cls idx || decide (f = 0) || decide (2 ^ 16 ≤ f) then s.mbxEnd 0x07 irq 6 0
  else if cls = 1 ∧ 0x106 ≤ f ∧ f ≤ 0x1FF then (s.report Ev.GBL_PIN_BUSY [cls, idx, f]).mbxFail 0x07 irq Ev.GBL_PIN_BUSY
  else match s.claimFor cls idx f with
    | (s, true) => s.mbxEnd 0x07 irq 0 0
    | (s, false) => s.mbxFail 0x07 irq (busyEvent cls)

/-- 0x08 FEATURE_DISABLE. -/
def State.mbxDisable (s : State) (irq : Bool) : State :=
  let cls := fld (s.mbxArg 1) 7 0
  let idx := fld (s.mbxArg 1) 15 8
  if !claimArgOk cls idx then s.mbxEnd 0x08 irq 6 0 else (s.unclaim cls idx (s.mbxArg 0)).mbxEnd 0x08 irq 0 0

/-- 0x09 THR_JOB: the descriptor is placed for the feature of ARG0; a ring that has no room takes nothing. -/
def State.mbxThrJob (s : State) (irq : Bool) : State :=
  let f := s.mbxArg 0
  if f = 0 ∨ 2 ^ 16 ≤ f then s.mbxEnd 0x09 irq 6 0
  else match s.jobSubmit (s.mbxBytes 0 64) f with
  | (s, some i) => (s.wr (UPD_MBX_RES 0) i).mbxEnd 0x09 irq 0 0
  | (s, none) => s.mbxEnd 0x09 irq 5 0

/-- 0x0A SELFTEST (Table 17.11). -/
def State.mbxSelftest (s : State) (irq : Bool) : State :=
  let kind := s.mbxArg 0
  let i := s.mbxArg 1
  let bad := s.mbxEnd 0x0A irq 6 0
  if kind = 1 then (if i < 16384 then (s.queuePlot i false).mbxEnd 0x0A irq 0 0 else bad)
  else if kind = 2 then
    (if fld i 24 8 < s.dramRows ∧ i < 2 ^ 25 then
      (s.queueTestLim 2 i false 16 DMC_SELFTEST_DROPPED_TOTAL).mbxEnd 0x0A irq 0 0 else bad)
  else if kind = 3 then (if i < 50 then (s.laneTestReq i).mbxEnd 0x0A irq 0 0 else bad)
  else if kind = 4 then (if i < 216 then (s.queueTest 4 i false).mbxEnd 0x0A irq 0 0 else bad)
  else if kind = 5 then (if i < 24 then (s.queueSensorTest i false).mbxEnd 0x0A irq 0 0 else bad)
  else bad

/-- The valid flash log entries at or after a LOG_SEQ, in LOG_SEQ order. -/
def State.logFrom (s : State) (q : Nat) : List Bytes :=
  let l := (s.logValid.map (·.2)).filter (fun b => leAt b 4 4 == q || later 32 (leAt b 4 4) q)
  let ins (e : Bytes) (l : List Bytes) : List Bytes :=
    l.filter (fun x => later 32 (leAt e 4 4) (leAt x 4 4)) ++ e :: l.filter (fun x => !later 32 (leAt e 4 4) (leAt x 4 4))
  l.foldl (fun a e => ins e a) []

/-- 0x0B LOG_READ. -/
def State.mbxLogRead (s : State) (irq : Bool) : State :=
  let (which, first, n) := (s.mbxArg 0, s.mbxArg 1, s.mbxArg 2)
  if which = 0 ∧ n ≤ 32 ∧ first + n ≤ 32 then
    let s := s.sramMeet (0x800 + 32 * first) (32 * n)
    if !s.sbk.ready then s.mbxEnd 0x0B irq 5 0
    else (s.mbxPut (s.sramBytes (0x800 + 32 * first) (32 * n))).mbxEnd 0x0B irq 0 (32 * n)
  else if which = 1 ∧ n ≤ 60 then
    let b := ((s.logFrom first).take n).flatten
    (s.mbxPut b).mbxEnd 0x0B irq 0 b.length
  else s.mbxEnd 0x0B irq 6 0

/-- The encode pipe a feature claims: the plan's for it, else the first that may be claimed. -/
def State.featurePipe (s : State) (f : Nat) : Nat :=
  match [8, 9].find? (fun p => s.planOwner 2 p == f) with
  | some p => p
  | none => ([8, 9].find? (fun p => s.mayClaim 2 p f)).getD 8

/-- The descriptor fields of Table 5.5 that a Sheaf header takes from its job. -/
def sheafDesc (flags fmt plate tag seq len x y : Nat) : Bytes :=
  toLe 1 1 ++ toLe 1 flags ++ toLe 1 fmt ++ toLe 1 plate ++ toLe 2 tag ++ toLe 2 seq ++ toLe 16 0 ++ toLe 4 len ++
    toLe 8 0 ++ toLe 2 x ++ toLe 2 y ++ toLe 24 0

/-- A BULK body (R450). -/
def bulkBody (stream off total : Nat) (data : Bytes) : Bytes :=
  toLe 4 stream ++ toLe 4 off ++ toLe 4 total ++ toLe 2 data.length ++ toLe 1 (b2n (decide (total ≤ off + data.length))) ++
    toLe 1 0 ++ toLe 4 (crc32c data) ++ toLe 12 0 ++ data

/-- 0x0C LOG_EXPORT: the log region as RAW Sheaf blocks of 2,048 source bytes, in BULK messages of 4,096 bytes. -/
def State.mbxLogExport (s : State) (irq : Bool) : State :=
  let p := s.featurePipe 3
  match s.claimFor 2 p 3 with
  | (s, false) => s.mbxFail 0x0C irq Ev.THR_PIPE_BUSY
  | (s, true) =>
    let d := sheafDesc 4 0x0F 0 0 0 logsSize 0 0
    let out := (List.range (logsSize / 2048)).flatMap (fun n => encodeSheaf d n (s.flashGet 0 (logsAt + 2048 * n) 2048))
    let total := out.length
    let s := (List.range (ceilDiv total 4096)).foldl (fun s i =>
      s.sendTo (s.mbxArg 0 % 2 ^ 16) mtBulk 0 (bulkBody (s.mbxArg 1) (4096 * i) total (sub out (4096 * i) 4096))) s
    ((s.unclaim 2 p 3).wr (UPD_MBX_RES 0) total).mbxEnd 0x0C irq 0 0

/-- A block of a slot decoded for a capture: none when it reads poison, or fails (R129). -/
def State.captureRead (s : State) (a n : Nat) : Option Bytes :=
  if s.rangePoisoned a n then none
  else
    let d := decodeSheaf (s.memGet a n) none none none
    if d.fail.isNone then some d.out else none

/-- The blocks of a plate's shown version as a capture writes them: decoded and encoded again; ABSENT entries have none. A block
that cannot be decoded leaves none of them. -/
def State.captureBlocks (s : State) (k : Nat) (r : PlateRec) : Option Bytes :=
  let g := geomOf r (s.plateSt k).shownEntry
  let blocks := (List.range 70).flatMap (fun t => (rowEntries r g s.window t).map (fun e =>
    let m := s.shownMap k r e.1
    let fmt := if e.2.1 then 2 else r.fmt
    let pos := sheafDesc
    match entrySlot m with
    | some i =>
      let b := s.memGet (r.slotAddr i) r.slotSize
      (s.captureRead (r.slotAddr i) r.slotSize).map
        (encodeSheaf (pos (byteAt b 13 % 2) fmt r.id (leAt b 4 2) (leAt b 6 2) (1 + 2 ^ 16) (ofS 16 e.2.2.1) (ofS 16 e.2.2.2)) 0)
    | none =>
      if bit m 31 = 1 then
        some <| encodeSheaf (pos 0 fmt r.id (s.rd PLT_SHOWN_TAG) (s.plateSt k).applied (1 + 2 ^ 16) (ofS 16 e.2.2.1) (ofS 16 e.2.2.2)) 0
          (List.replicate (decompLen fmt) 0#8)
      else some []))
  if blocks.all Option.isSome then some (blocks.filterMap id).flatten else none

/-- 0x0D DIAG_CAPTURE. -/
def State.mbxCapture (s : State) (irq : Bool) : State :=
  let dst := s.mbxArg 1 + s.mbxArg 2 % 256 * 2 ^ 32
  match s.plateRec (s.mbxArg 0) with
  | none => s.mbxEnd 0x0D irq 6 0
  | some r =>
    let p := s.featurePipe 2
    match s.claimFor 2 p 2 with
    | (s, false) => s.mbxFail 0x0D irq Ev.THR_PIPE_BUSY
    | (s, true) =>
      let made := s.captureBlocks (s.mbxArg 0) r
      let s := s.unclaim 2 p 2
      let b := made.getD []
      match (linesOf dst b.length).find? (fun l => !s.mapped l) with
      | some l => (s.unmapped clSteward (max dst l) false).mbxFail 0x0D irq Ev.THR_JOB_FAULT
      | none =>
        if made.isNone then s.mbxFail 0x0D irq Ev.THR_JOB_FAULT
        else if s.mbxArg 3 < b.length ∨ inGranary dst then s.mbxFail 0x0D irq Ev.THR_JOB_FAULT
        else (((s.queueWrite clSteward dst b.length).memSet dst b).wr (UPD_MBX_RES 0) b.length).mbxEnd 0x0D irq 0 0

/-- Length of a Hogel Table image (R178). -/
def hglImageLen : Nat := 12726272

/-- The header and the rows of an image pass their CRCs (R178, R179). -/
def hglImageOk (b : Bytes) (kind : Nat) : Bool :=
  headerGood b kind && (List.range 540).all (fun hy =>
    let r := sub b (8192 + 23552 * hy) 23044
    crc32c (sub r 0 23040) == leAt r 23040 4)

/-- The image of CAL_WRITE checked and programmed. -/
def State.calImage (s : State) (irq fail : Bool) (kind : Nat) (b : Bytes) : State :=
  if !hglImageOk b kind then s.mbxFail 0x0E irq (Config.openCode Ev.UPD_MBX_FAILED 0x0E).toNat
  else
    let at' := imageAt kind
    let s := s.flashErase 0 at' 0x1000000
    if fail then ((s.tornFlash 0 at' hglImageLen).flashFail 0 at').mbxFail 0x0E irq Ev.UPD_FLASH_FAIL
    else (s.flashPut 0 at' b).mbxEnd 0x0E irq 0 0

/-- 0x0E CAL_WRITE: ARG0 0 current, 1 factory; the factory image only in TEST mode (R418). -/
def State.mbxCalWrite (s : State) (irq fail : Bool) : State :=
  let a := s.mbxArg 1 + s.mbxArg 2 % 256 * 2 ^ 32
  let kind := if s.mbxArg 0 = 1 then kindFactory else kindCurrent
  if 1 < s.mbxArg 0 ∨ inGranary a then s.mbxEnd 0x0E irq 6 0
  else if kind = kindFactory ∧ s.mode ≠ modeTest then s.mbxEnd 0x0E irq 3 0
  else match s.stewardRead a hglImageLen with
    | (s, none) => s.mbxFail 0x0E irq Ev.GBL_ADDR_UNMAPPED
    | (s, some b) => s.calImage irq fail kind b

/-- 0x0F CLEAR_LOG. -/
def State.mbxClearLog (s : State) (irq : Bool) : State :=
  if !s.writeOpen then s.mbxEnd 0x0F irq 3 0
  else if s.sramRefused then s.sramRefuse.mbxEnd 0x0F irq 5 0
  else (s.sramWrite 0x800 (List.replicate 1024 0#8)).mbxEnd 0x0F irq 0 0

/-- The command of an opcode. -/
def State.mbxRun (s : State) (op : Nat) (irq fail : Bool) : State :=
  if op = 0x01 then s.mbxIdentify irq
  else if op = 0x02 then s.mbxShutdown irq
  else if op = 0x03 then s.mbxStore 0x03 irq 1
  else if op = 0x04 then s.mbxFlashRead irq
  else if op = 0x05 then s.mbxPlanWrite irq fail
  else if op = 0x06 then s.mbxPlanSelect irq
  else if op = 0x07 then s.mbxEnable irq
  else if op = 0x08 then s.mbxDisable irq
  else if op = 0x09 then s.mbxThrJob irq
  else if op = 0x0A then s.mbxSelftest irq
  else if op = 0x0B then s.mbxLogRead irq
  else if op = 0x0C then s.mbxLogExport irq
  else if op = 0x0D then s.mbxCapture irq
  else if op = 0x0E then s.mbxCalWrite irq fail
  else s.mbxClearLog irq

/-- GO with an opcode (R448, R449): refused with ACCESS_DENIED or BUSY, ended with INVALID or NOT_READY, or run. The result of
the register access stands in `acc`. -/
def State.mbxGo (s : State) (who : Requester) (op : Nat) (irq fail : Bool) : State :=
  if s.mbxDenied who then s.result 3 0
  else if s.hst.running.isSome || s.mbxBlocked op then s.result 5 0
  else if s.stageNow < 2 then (s.wrF UPD_MBX_STATUS 7 0 7).result 5 0
  else
    let s := s.wr UPD_MBX_CMD (op % 256 + b2n irq * 2 ^ 9)
    let s := match mbxFrom op with
      | none => s.mbxEnd op irq 6 0
      | some st => if s.stageNow < st then s.mbxEnd op irq 7 0 else s.mbxRun op irq fail
    s.result 0 0

/-! ### The end of a store (R383, R429, R430, R449) -/

/-- What a SHUTDOWN leaves (Table 17.8): ports and panel lanes idle and the pads at their S0 defaults (Table 18.2: GPIO inputs,
IRQ_N released, GENLOCK_OUT low), until a reset. -/
def State.shutDown (s : State) : State :=
  let s := (List.range 4).foldl (fun s p => ((s.leaveActive p downDisable).portClear p).setLne p lneDisabled) s
  let s := (List.range 18).foldl (fun s m => s.setPl m plDown) s
  let s := s.unclaimClass 1
  State.genlockDrive { s with boot := { s.boot with shutdown := true } }

/-- The mailbox command that a store's end concerns. -/
def State.mbxStoreEnd (s : State) (kind : Nat) (ok : Bool) : State :=
  match s.hst.running with
  | none => s
  | some (op, irq) =>
    if op = 0x02 then
      if kind ≠ 3 ∧ kind < 8 then s
      else if ok then (s.mbxEnd op irq 0 0).shutDown
      else s.mbxFail op irq Ev.SBK_STORE_FAIL
    else if 1 < s.hst.stores then { s with hst := { s.hst with stores := s.hst.stores - 1 } }
    else if ok then s.mbxEnd op irq 0 0
    else s.mbxFail op irq Ev.SBK_STORE_FAIL

/-- A store ends while the device is held in reset: only the Seedbank goes on. -/
def State.storeEndHeld (s : State) (result : StoreEnd) : State := { s with sbk := (s.storeEnd result).sbk }

/-- A store ends: the ARMED record that it holds is told, an activation whose store has ended takes its reset, also when the store
failed (R430; DEDUCED, log entry 260), and a command that waited ends. While the device is held in reset only the Seedbank
goes on. -/
def State.storeComplete (s : State) (result : StoreEnd) : State :=
  match s.sbk.store with
  | none => s
  | some r =>
    if s.boot.inReset then s.storeEndHeld result
    else
      let ok := result == .ok
      let st := (cellGet r.image 0x103).toNat
      let s := s.storeEnd result
      let s := if ok && st == actArmed then s.armDone else s
      let s := s.mbxStoreEnd r.kind ok
      if st == actTrial && s.boot.activating then
        { s.requestReset rstActivation with boot := { (s.requestReset rstActivation).boot with activating := false } }
      else s

/-! ### The commands -/

/-- SBK_STORE_COMPLETE (R383, R390, R429, R430, R449). -/
def execSbkStoreComplete (result : StoreEnd) (s : State) : Host.Outcome State Fault Refusal :=
  .next (s.oneCycle fun s => s.storeComplete result)

/-- MBX_CLAIM (R448). -/
def execMbxClaim (who : Requester) (s : State) : Host.Outcome State Fault Refusal :=
  if s.shut who UPD_MBX_OWNER then .next (s.turnedAway who UPD_MBX_OWNER) else
  .next ((s.mbxClaim who).result 0 0)

/-- MBX_RELEASE (R448). -/
def execMbxRelease (who : Requester) (s : State) : Host.Outcome State Fault Refusal :=
  if s.shut who UPD_MBX_OWNER then .next (s.turnedAway who UPD_MBX_OWNER) else
  .next ((s.mbxRelease who).result 0 0)

/-- MBX_IDLE_RELEASE (R448): the holder has been idle for 10 s. -/
def execMbxIdleRelease (s : State) : Host.Outcome State Fault Refusal := .next { s with hst := { s.hst with owner := none } }

/-- MBX_IDENTIFY (R449). -/
def execMbxIdentify (who : Requester) (irq : Bool) (s : State) : Host.Outcome State Fault Refusal :=
  if s.shut who UPD_MBX_CMD then .next (s.turnedAway who UPD_MBX_CMD) else
  .next (s.oneCycle fun s => s.mbxGo who 0x01 irq false)

/-- MBX_SHUTDOWN (R389, R449). -/
def execMbxShutdown (who : Requester) (irq : Bool) (s : State) : Host.Outcome State Fault Refusal :=
  if s.shut who UPD_MBX_CMD then .next (s.turnedAway who UPD_MBX_CMD) else
  .next (s.oneCycle fun s => s.mbxGo who 0x02 irq false)

/-- MBX_STORE (R385, R449). -/
def execMbxStore (who : Requester) (irq : Bool) (s : State) : Host.Outcome State Fault Refusal :=
  if s.shut who UPD_MBX_CMD then .next (s.turnedAway who UPD_MBX_CMD) else
  .next (s.oneCycle fun s => s.mbxGo who 0x03 irq false)

/-- MBX_FLASH_READ (R449). -/
def execMbxFlashRead (who : Requester) (irq : Bool) (s : State) : Host.Outcome State Fault Refusal :=
  if s.shut who UPD_MBX_CMD then .next (s.turnedAway who UPD_MBX_CMD) else
  .next (s.oneCycle fun s => s.mbxGo who 0x04 irq false)

/-- MBX_PLAN_WRITE (R418, R449). -/
def execMbxPlanWrite (who : Requester) (irq fail : Bool) (s : State) : Host.Outcome State Fault Refusal :=
  if s.shut who UPD_MBX_CMD then .next (s.turnedAway who UPD_MBX_CMD) else
  .next (s.oneCycle fun s => s.mbxGo who 0x05 irq fail)

/-- MBX_PLAN_SELECT (R449). -/
def execMbxPlanSelect (who : Requester) (irq : Bool) (s : State) : Host.Outcome State Fault Refusal :=
  if s.shut who UPD_MBX_CMD then .next (s.turnedAway who UPD_MBX_CMD) else
  .next (s.oneCycle fun s => s.mbxGo who 0x06 irq false)

/-- MBX_FEATURE_ENABLE (R60, R449). -/
def execMbxFeatureEnable (who : Requester) (irq : Bool) (s : State) : Host.Outcome State Fault Refusal :=
  if s.shut who UPD_MBX_CMD then .next (s.turnedAway who UPD_MBX_CMD) else
  .next (s.oneCycle fun s => s.mbxGo who 0x07 irq false)

/-- MBX_FEATURE_DISABLE (R449). -/
def execMbxFeatureDisable (who : Requester) (irq : Bool) (s : State) : Host.Outcome State Fault Refusal :=
  if s.shut who UPD_MBX_CMD then .next (s.turnedAway who UPD_MBX_CMD) else
  .next (s.oneCycle fun s => s.mbxGo who 0x08 irq false)

/-- MBX_THR_JOB (R449). -/
def execMbxThrJob (who : Requester) (irq : Bool) (s : State) : Host.Outcome State Fault Refusal :=
  if s.shut who UPD_MBX_CMD then .next (s.turnedAway who UPD_MBX_CMD) else
  .next (s.oneCycle fun s => s.mbxGo who 0x09 irq false)

/-- MBX_SELFTEST (R456). -/
def execMbxSelftest (who : Requester) (irq : Bool) (s : State) : Host.Outcome State Fault Refusal :=
  if s.shut who UPD_MBX_CMD then .next (s.turnedAway who UPD_MBX_CMD) else
  .next (s.oneCycle fun s => s.mbxGo who 0x0A irq false)

/-- MBX_LOG_READ (R449). -/
def execMbxLogRead (who : Requester) (irq : Bool) (s : State) : Host.Outcome State Fault Refusal :=
  if s.shut who UPD_MBX_CMD then .next (s.turnedAway who UPD_MBX_CMD) else
  .next (s.oneCycle fun s => s.mbxGo who 0x0B irq false)

/-- MBX_LOG_EXPORT (R450). -/
def execMbxLogExport (who : Requester) (irq : Bool) (s : State) : Host.Outcome State Fault Refusal :=
  if s.shut who UPD_MBX_CMD then .next (s.turnedAway who UPD_MBX_CMD) else
  .next (s.oneCycle fun s => s.mbxGo who 0x0C irq false)

/-- MBX_DIAG_CAPTURE (R449). -/
def execMbxDiagCapture (who : Requester) (irq : Bool) (s : State) : Host.Outcome State Fault Refusal :=
  if s.shut who UPD_MBX_CMD then .next (s.turnedAway who UPD_MBX_CMD) else
  .next (s.oneCycle fun s => s.mbxGo who 0x0D irq false)

/-- MBX_CAL_WRITE (R418, R449). -/
def execMbxCalWrite (who : Requester) (irq fail : Bool) (s : State) : Host.Outcome State Fault Refusal :=
  if s.shut who UPD_MBX_CMD then .next (s.turnedAway who UPD_MBX_CMD) else
  .next (s.oneCycle fun s => s.mbxGo who 0x0E irq fail)

/-- MBX_CLEAR_LOG (R449). -/
def execMbxClearLog (who : Requester) (irq : Bool) (s : State) : Host.Outcome State Fault Refusal :=
  if s.shut who UPD_MBX_CMD then .next (s.turnedAway who UPD_MBX_CMD) else
  .next (s.oneCycle fun s => s.mbxGo who 0x0F irq false)

end Sys2Proof.Machine
end

