-- ==== Sys2Proof/Machine/Access.lean ====
section
/-! DEFINITION. Host accesses to the register space (R5 to R8, R27, R411, R437 to R442): reads with their side effects,
writes with the action each field takes, and the transactions of the service port. -/
namespace Sys2Proof.Machine

/-- The state a command's effect leads to, for an access that has that effect. -/
def after (o : Host.Outcome State Fault Refusal) (s : State) : State :=
  match o with
  | .next t => t
  | _ => s

/-! ### Computed registers of the thermal block and the Seedbank -/

/-- THM_SENSOR (Table 14.8); a selector beyond the last sensor reads an open value. -/
def State.sensorReg (s : State) : Nat :=
  let n := s.rdF THM_SENSOR_SEL 4 0
  if 23 < n then (Config.openRead THM_SENSOR n).toNat % 2 ^ 22
  else
    let x := s.sensor n
    let t := if x.failed then (s.estimate n).getD 0 else if x.has then x.temp else 0
    let st := if x.testing then 2 else if x.failed then 1 else if x.stale then 3 else 0
    ofS 16 (clampS 16 t) + st * 2 ^ 16 + x.reason % 4 * 2 ^ 18 + x.cls % 4 * 2 ^ 20

/-- The thermal block's registers that are computed. -/
def State.thmView (s : State) (a : Nat) : Option Nat :=
  if a = THM_FAILED then some (((List.range 24).map (fun n => b2n (s.sensor n).failed * 2 ^ n)).sum)
  else if a = THM_SENSOR then some s.sensorReg
  else none

/-- The 128 bytes of a copy's header row (Table 15.2), or the erased row. -/
def NvCopy.headerRow (c : NvCopy) (x : Nat) : Bytes :=
  match c.hdr with
  | none => List.replicate 128 0xFF#8
  | some (g, k) =>
    let h := toLe 2 0x4253 ++ toLe 1 1 ++ toLe 1 x ++ toLe 4 g ++ toLe 4 (crc32c (cellsGet c.image 0 sramSize)) ++
      toLe 1 k ++ List.replicate 15 0#8
    padTo 128 (h ++ toLe 4 (crc32c h))

/-- SBK_RAW_DATA (R387). A row of the Steward's private area in a copy whose fault history is not empty reads an open value,
since the area's layout is the Steward's own (log entry 310). -/
def State.rawData (s : State) : Nat :=
  let w := s.rdF SBK_RAW_SEL 4 0
  let row := s.rdF SBK_RAW_SEL 13 5
  let x := s.rdF SBK_RAW_SEL 14 14
  let c := s.sbk.copy x
  if s.sbk.store.isSome || s.sbk.recalling then 0
  else if 64 ≤ row ∧ row < 256 ∧ c.hist ≠ [] then
    (Config.openRead SBK_RAW_DATA ((((c.hdr.map (·.1)).getD 0 * 2 + x) * 512 + row) * 32 + w)).toNat
  else if row < 512 then le (cellsGet c.image (128 * row + 4 * w) 4)
  else leAt (c.headerRow x) (4 * w) 4

/-- GEN in a copy's header, 0 without one. -/
def NvCopy.gen (c : NvCopy) : Nat := (c.hdr.map (·.1)).getD 0

/-- The Seedbank's registers that are computed (Tables 15.7 to 15.10). -/
def State.sbkView (s : State) (a : Nat) : Option Nat :=
  let b := s.sbk
  if a = SBK_STATUS then
    some (b2n b.ready + b2n b.recalling * 2 + b2n b.store.isSome * 4 + b2n b.queued.isSome * 8 + b.newest.getD 0 * 16 +
      b2n b.final * 32 + b2n b.empty * 64 + b2n b.fallback * 128 + b2n b.tripped * 256)
  else if a = SBK_GEN then some (match b.newest with
    | some x => (b.copy x).gen
    | none => 0)
  else if a = SBK_GEN_OTHER then some (match b.newest with
    | some x => (b.copy (1 - x)).gen
    | none => 0)
  else if a = SBK_PW_CTRL then
    some (b2n (b.ready && s.readOpen) * 2 ^ 8 + b2n (b.ready && s.writeOpen) * 2 ^ 9 + b.fails % 16 * 2 ^ 16 + b2n b.locked * 2 ^ 20)
  else if a = SBK_RAW_DATA then some s.rawData
  else if a = SBK_GLEAN_STATUS then
    some (b.gleanRows % 2 ^ 11 + satN 10 b.gleanWeak * 2 ^ 11 + b2n b.gleanRun * 2 ^ 21)
  else if a = SBK_HELD then some (satN 7 b.held)
  else none

/-! ### Register reads -/

/-- The lane of a lane register's address (R255). -/
def laneAt (a : Nat) : Nat :=
  let off := a % 0x10000
  if off < 0x8000 then 8 * (off / 0x2000) + (off % 0x2000 - 0x100) / 0x80 else 32 + (off - 0x8000) / 0x100

/-- A computed register's value, by the window of its block (Table 17.13). -/
def State.regView (s : State) (a : Nat) : Option Nat :=
  match a / 0x10000 with
  | 0 => s.gblView a
  | 1 => s.fplView a
  | 2 => s.grnView a
  | 3 => s.pltView a
  | 4 => s.thrView a
  | 5 => s.drlView a
  | 6 => s.hglView a
  | 7 => s.etcView a
  | 8 => s.lneView a
  | 9 => s.lnkView a
  | 10 => s.walView a
  | 11 => s.dmcView a
  | 12 => s.burView a
  | 13 => s.thmView a
  | 14 => s.sbkView a
  | _ => if a = UPD_MBX_OWNER then some s.mbxOwnerReg else s.updView a

/-- What a plain read returns: the computed value, or the stored one. -/
def State.regValue (s : State) (a : Nat) : Nat := (s.regView a).getD (s.rd a)

/-- A register read that is performed (R6 to R8): write-only registers and unassigned offsets read 0; a register that latches,
counts on or clears when read does so. -/
def State.readReg (s : State) (a : Nat) : State :=
  if UPD_MBX_BUF ≤ a ∧ a < UPD_MBX_BUF + 3840 then s.result 0 (le (s.mbxBytes (a - UPD_MBX_BUF) 4))
  else match regInfo a with
  | none => s.result 0 0
  | some r =>
    if r.acc = .wo then s.result 0 0
    else if a = GRN_CLIENT_GRANTS then after (execGrnClientGrantsRead s) s
    else if a = DRL_TM_DATA then after (execDrlTmDataAccess none s) s
    else if a = HGL_STRESS_FRAMES_LO then after (execHglStressFramesLoRead s) s
    else if a = HGL_CURVE_DATA then after (execHglCurveDataRead s) s
    else if a = FPL_FRAME_LO then after (execFplFrameLoRead s) s
    else if a = SBK_DATA then s.sbkData none false
    else if a = SBK_CNT_LO then after (execSbkCntLoRead s) s
    else if a = UPD_ACT_FRAME_LO then after (execUpdActFrameLoRead s) s
    else if a = GBL_EVQ_LOST then after (execGblEvqLostRead s) s
    else if a / 0x10000 = 8 ∧ a = LNE_LANE_PRBS_ERR (laneAt a) then s.prbsErrRead (laneAt a)
    else if a / 0x10000 = 8 ∧ a = LNE_LANE_PRBS_BITS_LO (laneAt a) then s.prbsBitsRead (laneAt a)
    else s.result 0 (s.regValue a)

/-- R27, Table 17.3: an access beyond the register space is reported as unmapped, with GBL_ADDR_LAST_HI[13] (DEDUCED, log entry
307). -/
def State.regOutside (s : State) (a : Nat) : State := if 0xFFFFF < a then s.unmapped clSteward a true else s

/-- One register read by a host; status and value stand in `acc`. -/
def State.regRead (s : State) (a : Nat) : State :=
  match s.regGate a with
  | some st => (s.regOutside a).result st 0
  | none => s.readReg a

/-! ### Register writes -/

/-- A step taken when a bit of the value written is set. -/
def onBit (v i : Nat) (f : State → State) (s : State) : State := if bit v i = 1 then f s else s

/-- THM_LEVEL_MAP: a hotter band may not have a lower level. -/
def levelMapOk (v : Nat) : Bool := (List.range 4).all (fun i => decide (fld v (2 * i + 1) (2 * i) ≤ fld v (2 * i + 3) (2 * i + 2)))

/-- Writes of the windows 0x0001 to 0x0003: tick and Field Plan, Granary, plates. -/
def State.writeFront (s : State) (a v : Nat) : State :=
  let w : Word := BitVec.ofNat 32 v
  if a = FPL_STAGE_CTRL then
    (s.regWrite a v) |> onBit v 0 (fun s => after (execFplStageValidate w s) s) |>
      onBit v 1 (fun s => after (execFplStageAbort w s) s)
  else if a = FPL_SWITCH_CTRL then
    (s.regWrite a v) |> onBit v 0 (fun s => after (execFplSwitchArm w s) s) |>
      onBit v 1 (fun s => after (execFplSwitchNext w s) s) |> onBit v 2 (fun s => after (execFplSwitchDisarm w s) s)
  else if a = GRN_CLIENT_CAP then
    { s with grn := { s.grn with caps := sset 0x400 s.grn.caps (s.rdF GRN_CLIENT_SEL 4 0) (fld v 14 0) } }
  else if a = GRN_SELFTEST_REQ then after (execGrnSelftestReq w s) s
  else if a = PLT_CTRL then
    s |> onBit v 0 (fun s => after (execPltCtrlResync s) s) |> onBit v 1 (fun s => after (execPltCtrlDropPending s) s)
  else s.regWrite a v

/-- Writes of the windows 0x0004 to 0x0007: Thresher, drills, Hogel Table, Etcher. -/
def State.writeMiddle (s : State) (a v : Nat) : State :=
  let w : Word := BitVec.ofNat 32 v
  if a = THR_CTRL then
    (State.jobFetch 1024 (s.regWrite a v)) |> onBit v 1 (fun s => after (execThrCtrlJobAbort s) s)
  else if a = THR_JOB_RING_SIZE then after (execThrJobRingSizeWrite w s) s
  else if a = THR_JOB_TAIL then after (execThrJobTailWrite w s) s
  else if a = DRL_LANE_TEST then after (execDrlLaneTest w s) s
  else if a = DRL_TM_ARM then
    if s.rdF DRL_TM_STATUS 2 2 = 1 ∧ bit v 16 = 1 then s.report Ev.DRL_TM_BUSY []
    else (s.regWrite a v) |> onBit v 16 (fun s => after (execDrlTmArm w s) s) |>
      onBit v 18 (fun s => after (execDrlTmDisarm w s) s)
  else if a = DRL_TM_LOAD_HI then if bit v 8 = 1 then after (execDrlTmLoad w s) s else s.regWrite a v
  else if a = DRL_TM_DATA then after (execDrlTmDataAccess (some w) s) s
  else if tmBankRegs.contains a then after (execDrlTmBankWrite (Fin.ofNat 7 (tmBankRegs.idxOf a)) w s) s
  else if a = HGL_CTRL then
    (s.regWrite a v) |> onBit v 0 (fun s => after (execHglCtrlReload s) s) |>
      onBit v 1 (fun s => after (execHglCtrlReloadFactory s) s) |> onBit v 2 (fun s => after (execHglCtrlCkptNow s) s)
  else if a = ETC_CTRL then after (execEtcCtrlBlank w s) s
  else if a = ETC_SUPPLY_CTRL then
    (s.regWrite a v) |> onBit v 0 (fun s => after (execEtcSupplyUp s) s) |>
      onBit v 1 (fun s => after (execEtcSupplyDown s) s) |> onBit v 2 (fun s => after (execEtcSupplyClearLockout s) s)
  else s.regWrite a v

/-- Writes of the windows 0x0008 to 0x000A: lanes, links, wall. -/
def State.writeFabric (s : State) (a v : Nat) : State :=
  let off := a % 0x10000
  let port := (off - 0x100) / 0x100 % 4
  if a / 0x10000 = 8 then
    let l := laneAt a
    if off < 0x8000 ∧ off % 0x2000 = 4 then s.portCtrl (off / 0x2000) v
    else if a = LNE_LANE_LOOP l then s.loopWrite l v
    else if a = LNE_LANE_PRBS_CTRL l then s.prbsCtrl l v
    else if 32 ≤ l ∧ l < 50 ∧ a = LNE_PL_CTRL (l - 32) then s.plCtrl (l - 32) v
    else if a = LNE_SELFTEST_REQ then after (execLneSelftestReq (BitVec.ofNat 32 v) s) s
    else s.regWrite a v
  else if a / 0x10000 = 9 then
    if a = LNK_CTRL then (s.regWrite a v) |> onBit v 0 (fun s => after (execLnkCtrlRediscover s) s)
    else if a = LNK_VC_WEIGHT then
      [0, 8, 16].foldl (fun s i => if fld v (i + 7) i = 0 then s else s.wrF a (i + 7) i (fld v (i + 7) i)) s
    else if a = LNK_PORT_CTRL port then s |> onBit v 0 (fun s => s.syncNow port)
    else if a = LNK_PORT_ALLOC01 port ∨ a = LNK_PORT_ALLOC23 port then s.allocReg port a v
    else s.regWrite a v
  else if a = WAL_CTRL then s.walCtrl v
  else if a = WAL_GENLOCK_CTRL then s.walGenlock v
  else s.regWrite a v

/-- Writes of the windows 0x000B to 0x000D: DRAM controller, Burin, thermal block. -/
def State.writeBack (s : State) (a v : Nat) : State :=
  let w : Word := BitVec.ofNat 32 v
  if a / 0x10000 = 11 then s.dmcWrite a v
  else if a = BUR_CTRL then
    s |> onBit v 2 (fun s => s.burControl .abort) |> onBit v 1 (fun s => s.burControl .resume) |>
      (fun s => s.burControl (.enable (bit v 0 == 1)))
  else if a = BUR_RING_SIZE then s.burControl (.size v)
  else if a = BUR_TAIL then s.burTail v
  else if a = BUR_RING_LO then s.burControl (.ringLo v)
  else if a = BUR_RING_HI then s.burControl (.ringHi v)
  else if a = BUR_STAT_LO then s.burControl (.statLo v)
  else if a = BUR_STAT_HI then s.burControl (.statHi v)
  else if a = THM_CONV_REQ then after (execThmConvReq w s) s
  else if a = THM_SELFTEST_REQ then after (execThmSelftestReq w s) s
  else if a = THM_LEVEL_MAP then if levelMapOk v then s.regWrite a v else s
  else s.regWrite a v

/-- Writes of the windows 0x000E, 0x000F and 0x0000: Seedbank, mailbox and update, GLOBAL. -/
def State.writeSystem (s : State) (who : Requester) (a v : Nat) : State :=
  let w : Word := BitVec.ofNat 32 v
  if a = SBK_CTRL then
    (s.regWrite a v) |> onBit v 1 (fun s => after (execSbkCtrlStore s) s) |> onBit v 2 (fun s => after (execSbkCtrlGlean s) s)
  else if a = SBK_DATA then s.sbkData (some w) false
  else if a = SBK_PW_LO then { s with sbk := { s.sbk with pwCand := s.sbk.pwCand / 2 ^ 32 * 2 ^ 32 + v } }
  else if a = SBK_PW_HI then { s with sbk := { s.sbk with pwCand := s.sbk.pwCand % 2 ^ 32 + v * 2 ^ 32 } }
  else if a = SBK_PW_CTRL then
    s |> onBit v 0 (fun s => after (execSbkPwUnlockR s) s) |> onBit v 1 (fun s => after (execSbkPwUnlockW s) s) |>
      onBit v 2 (fun s => after (execSbkPwSetR s) s) |> onBit v 3 (fun s => after (execSbkPwSetW s) s) |>
      onBit v 4 (fun s => after (execSbkPwLock s) s)
  else if a = UPD_CTRL then
    (s.regWrite a v) |> onBit v 0 (fun s => s.resumeStage) |> onBit v 3 (fun s => s.loadGo) |>
      onBit v 4 (fun s => s.sowAbort) |> onBit v 1 (fun s => s.recoveryReq)
  else if a = UPD_LOAD_DATA then s.loadWord v
  else if a = UPD_MBX_OWNER then
    s |> onBit v 0 (fun s => s.mbxClaim who) |> onBit v 1 (fun s => s.mbxRelease who)
  else if a = UPD_MBX_CMD then
    if bit v 8 = 1 then s.mbxGo who (v % 256) (bit v 9 == 1) false
    else if s.mbxDenied who then s.result 3 0 else s.regWrite a v
  else if UPD_MBX_ARG 0 ≤ a ∧ a ≤ UPD_MBX_ARG 7 then if s.mbxDenied who then s.result 3 0 else s.regWrite a v
  else if a = GBL_RESET then s.gblReset v
  else if a = GBL_IRQ_STATUS then s.wr a (s.rd a &&& (0xFFFFFFFF ^^^ (v &&& 0x60000)))
  else if a = GBL_EVQ_RD then s.evConsume v
  else if a = GBL_EVT_CTRL then (if bit v 0 = 0 then s.sndPass s.ev.sndUnread else s).regWrite a v
  else if a = GBL_GPIO_OUT ∨ a = GBL_GPIO_OE then s.gpioWrite a v
  else if GBL_GPIO_OWN 0 ≤ a ∧ a ≤ GBL_GPIO_OWN 15 then s.gpioOwn ((a - GBL_GPIO_OWN 0) / 4) v
  else s.regWrite a v

/-- A register write that is performed (R6, R7): status OK unless the register refuses it. -/
def State.writeReg (s : State) (who : Requester) (a v : Nat) : State :=
  let s := s.result 0 0
  if UPD_MBX_BUF ≤ a ∧ a < UPD_MBX_BUF + 3840 then
    if s.mbxDenied who then s.result 3 0
    else { s with hst := { s.hst with buf := cellsSet s.hst.buf (a - UPD_MBX_BUF) (toLe 4 v) } }
  else
    let n := a / 0x10000
    if n = 0 ∨ 14 ≤ n then s.writeSystem who a v
    else if n < 4 then s.writeFront a v
    else if n < 8 then s.writeMiddle a v
    else if n < 11 then s.writeFabric a v
    else s.writeBack a v

/-- One register write by a host; the status stands in `acc`. -/
def State.regPut (s : State) (who : Requester) (a v : Nat) : State :=
  match s.regGate a with
  | some st => (s.regOutside a).result st 0
  | none => s.writeReg who a v

/-! ### Service port transactions (R440) -/

/-- Register words written one by one up to the first that fails: `step` is 4, or 0 for the fixed forms. The answer is the
status and the number of words completed. -/
def State.spiRegPut (a step : Nat) : Nat → List Word → State → State × Nat × Nat
  | k, [], s => (s, 0, k)
  | k, w :: ws, s =>
    let s := s.regPut .service (a + step * k) w.toNat
    if s.acc.1 = 0 then State.spiRegPut a step (k + 1) ws s else (s, s.acc.1, k)

/-- Register words read one by one up to the first that fails. -/
def State.spiRegGet (a step : Nat) : Nat → State → State × Nat × List Word
  | 0, s => (s, 0, [])
  | n + 1, s =>
    match State.spiRegGet a step n s with
    | (s, 0, ws) =>
      let s := s.regRead (a + step * n)
      if s.acc.1 = 0 then (s, 0, ws ++ [s.acc.2]) else (s, s.acc.1, ws)
    | r => r

/-- A transaction ends: its status and count are kept for STATUS; a cut last word is ALIGN_ERROR unless a word failed. -/
def State.spiEnd (s : State) (st count : Nat) (cut : Bool) (words : List Word) : State :=
  let st := if st = 0 ∧ cut then 2 else st
  ({ s with hst := { s.hst with spiStatus := st, spiCount := count % 2 ^ 16 } }.put (.spi st words)).result st 0

/-- Words sent out: those read, then zeros. -/
def spiOut (n : Nat) (ws : List Word) : List Word := ws ++ List.replicate (n - ws.length) 0#32

/-- A register write transaction. -/
def State.spiWrite (s : State) (a step : Nat) (words : List Word) (cut : Bool) : State :=
  if s.deaf then s
  else
    let (s, st, k) := State.spiRegPut a step 0 words s
    s.spiEnd st k cut []

/-- A register read transaction. -/
def State.spiRead (s : State) (a step n : Nat) (cut : Bool) : State :=
  if s.deaf then s
  else
    let (s, st, ws) := State.spiRegGet a step n s
    s.spiEnd st ws.length cut (spiOut n ws)

/-- A memory write transaction. -/
def State.spiMemWrite (s : State) (a : Nat) (words : List Word) (cut : Bool) : State :=
  if s.deaf then s
  else if a % 4 ≠ 0 then s.spiEnd 2 0 cut []
  else
    let (s, st, k) := s.hostWrites a 0 words
    s.spiEnd st k cut []

/-- A memory read transaction; from word `late` on the data has not come in time, and the transaction ends with BUSY. -/
def State.spiMemRead (s : State) (a n : Nat) (cut : Bool) (late : Option Nat) : State :=
  if s.deaf then s
  else if a % 4 ≠ 0 then s.spiEnd 2 0 cut (spiOut n [])
  else
    let (s, st, ws) := s.hostReads a n
    match late with
    | some k => if k < ws.length then s.spiEnd 5 k cut (spiOut n (ws.take k)) else s.spiEnd st ws.length cut (spiOut n ws)
    | none => s.spiEnd st ws.length cut (spiOut n ws)

/-! ### The commands -/

/-- REGISTER_WRITE (R5 to R7): a write by either path, while that path answers. -/
def execRegisterWrite (who : Requester) (addr : BitVec 32) (value : Word) (s : State) : Host.Outcome State Fault Refusal :=
  .next (s.oneCycle fun s => if s.deaf || (who != .service && decide (s.stageNow < 2)) then s else s.regPut who addr.toNat value.toNat)

/-- SPI_REG_WRITE (Table 17.1). -/
def execSpiRegWrite (addr : BitVec 32) (words : List Word) (cut : Bool) (s : State) : Host.Outcome State Fault Refusal :=
  .next (s.oneCycle fun s => s.spiWrite addr.toNat 4 words cut)

/-- SPI_REG_READ. -/
def execSpiRegRead (addr : BitVec 32) (n : Nat) (cut : Bool) (s : State) : Host.Outcome State Fault Refusal :=
  .next (s.oneCycle fun s => s.spiRead addr.toNat 4 n cut)

/-- SPI_REG_WRITE_FIXED. -/
def execSpiRegWriteFixed (addr : BitVec 32) (words : List Word) (cut : Bool) (s : State) : Host.Outcome State Fault Refusal :=
  .next (s.oneCycle fun s => s.spiWrite addr.toNat 0 words cut)

/-- SPI_REG_READ_FIXED. -/
def execSpiRegReadFixed (addr : BitVec 32) (n : Nat) (cut : Bool) (s : State) : Host.Outcome State Fault Refusal :=
  .next (s.oneCycle fun s => s.spiRead addr.toNat 0 n cut)

/-- SPI_MEM_WRITE. -/
def execSpiMemWrite (addr : BitVec 40) (words : List Word) (cut : Bool) (s : State) : Host.Outcome State Fault Refusal :=
  .next (s.oneCycle fun s => s.spiMemWrite addr.toNat words cut)

/-- SPI_MEM_READ. -/
def execSpiMemRead (addr : BitVec 40) (n : Nat) (cut : Bool) (late : Option Nat) (s : State) : Host.Outcome State Fault Refusal :=
  .next (s.oneCycle fun s => s.spiMemRead addr.toNat n cut late)

/-- SPI_STATUS: status and count of the last other transaction go out; neither changes. -/
def execSpiStatus (s : State) : Host.Outcome State Fault Refusal :=
  .next (if s.deaf then s else s.put (.spi s.hst.spiStatus [BitVec.ofNat 32 s.hst.spiCount]))

/-- SPI_UNKNOWN_OPCODE: FRAMING and GBL_SPI_ERROR. -/
def execSpiUnknownOpcode (s : State) : Host.Outcome State Fault Refusal :=
  .next (if s.deaf then s else (s.spiEnd 9 0 false []).report Ev.GBL_SPI_ERROR [])

end Sys2Proof.Machine
end

