-- ==== Sys2Proof/Machine/Deliver.lean ====
section
/-! DEFINITION. Flits and messages that come in (R262 to R265, R274 to R277, R284 to R288): acceptance of a flit, the header
checks, the route of a message, its delivery here and its cut-through forwarding, and management transactions. -/
namespace Sys2Proof.Machine

/-! ### The routing footprint of content (R286) -/

/-- Two rectangles of texels meet. -/
def Rect.meets (a b : Rect) : Bool := !(a.inter b).empty

/-- The texels of block columns or rows `lo` to `hi` (exclusive) of a plate along one axis (R96): first and one past the
last. -/
def footAxis (scaled : Bool) (scale : Nat) (origin lo hi : Int) : Int × Int :=
  if scaled then (origin + 16 * lo * (scale : Int) / 256 - 1, origin + ceilDivI (16 * hi * (scale : Int)) 256 + 1)
  else (16 * lo, 16 * hi)

/-- The texels of a rectangle of texel blocks. -/
def footTexels (scaled : Bool) (g : Geom) (r : Rect) : Rect :=
  let h := footAxis scaled g.sx g.ox r.x0 r.x1
  let v := footAxis scaled g.sy g.oy r.y0 r.y1
  ⟨h.1, v.1, h.2, v.2⟩

/-- The texels of a rectangle of relief blocks. -/
def footRelief (r : Rect) : Rect := ⟨128 * r.x0 - 8, 128 * r.y0 - 8, 128 * r.x1 + 8, 128 * r.y1 + 8⟩

/-- The frame-record entry that gives a plate's geometry for a frame tag: candidate or pending of that tag, else the latest
accepted. -/
def State.footEntry (s : State) (id k tag : Nat) : Option FrEntry :=
  let inRec (f : Option FrameRec) : Option FrEntry := f.bind (fun f => (f.entries.find? (fun e => e.1 == id)).map (·.2))
  let tagged (f : Option FrameRec) : Option FrEntry := inRec (f.filter (fun f => f.tag == tag))
  match tagged s.plt.cand, tagged s.plt.pend, inRec s.plt.pend with
  | some e, _, _ => some e
  | none, some e, _ => some e
  | none, none, some e => some e
  | none, none, none => (s.plateSt k).entry

/-- The texels of a rectangle of texel blocks of plate `id` under a frame tag; none for a scaled plate without an entry. -/
def State.footPlate (s : State) (id tag : Nat) (r : Rect) : Option Rect :=
  match s.plateOfId id with
  | none => some (footTexels false ⟨256, 256, 0, 0⟩ r)
  | some k => match s.plateRec k with
    | none => some (footTexels false ⟨256, 256, 0, 0⟩ r)
    | some q =>
      if !q.scaled then some (footTexels false ⟨256, 256, 0, 0⟩ r)
      else match s.footEntry id k tag with
        | some e => some (footTexels true (geomOf q (some e)) r)
        | none => none

/-- The footprint of a body, from its first 32 bytes: rectangles, or none for every port with rectangles. -/
def State.footprint (s : State) (b : Bytes) : Option (List Rect) :=
  let one (x y : Int) : Rect := ⟨x, y, x + 1, y + 1⟩
  if leAt b 0 2 = 0x4853 then
    let x := toS 16 (leAt b 8 2)
    let y := toS 16 (leAt b 10 2)
    if byteAt b 12 = 2 then some [footRelief (one x y)]
    else (s.footPlate (byteAt b 3) (leAt b 4 2) (one x y)).map (fun r => [r])
  else if leAt b 0 2 = 0x5055 then
    let q := rectAt b 16
    let rel := if q.empty then [] else [footRelief q]
    if (rectAt b 8).empty then some rel
    else (s.footPlate (byteAt b 3) (leAt b 4 2) (rectAt b 8)).map (fun r => r :: rel)
  else none

/-- A port's rectangles meet a footprint. -/
def PortRole.takes (r : PortRole) (f : Option (List Rect)) : Bool :=
  match f with
  | none => !r.rects.isEmpty
  | some l => r.rects.any (fun x => l.any (fun y => x.meets y))

/-- The ports a content body goes to; a matching port that is not ACTIVE is counted and reported. A Sheaf block, by what brings
it or by its MAGIC, that fails R100 goes nowhere. -/
def State.contentPorts (s : State) (arrival : Nat) (sheaf : Bool) (body : Bytes) : State × List Nat :=
  if (sheaf || leAt body 0 2 == 0x4853) && !sheafHeaderOk body then (s, [])
  else
    let f := s.footprint body
    let hit := (List.range 4).filter (fun p => p != arrival && (s.portRole p).role == 1 && (s.portRole p).takes f)
    let s := (hit.filter (fun p => !s.portActive p)).foldl
      (fun s p => (s.bump LNK_REGION_DROP_TOTAL).sayOnce Ev.LNK_REGION_DROP p [p]) s
    (s, hit.filter s.portActive)

/-! ### Header checks (R276) -/

/-- A message type belongs to its virtual channel (Table 10.2). -/
def mtypeOn (vc m : Nat) : Bool :=
  match vc with
  | 0 => decide (1 ≤ m ∧ m ≤ 4)
  | 1 => decide (0x10 ≤ m ∧ m ≤ 0x13)
  | 2 => m == 0x20
  | _ => m == 0x30 || m == 0x31

/-- LOCAL. -/
def msgLocal (m : Bytes) : Bool := bit (byteAt m 7) 0 == 1

/-- R288: the only broadcast request that is accepted. -/
def mgmtBroadcastOk (m : Bytes) : Bool := byteAt m 16 == 2 && bit (byteAt m 17) 0 == 1

/-- The checks of R276 beside the length, and R288's for a broadcast request. -/
def msgHeaderOk (vc : Nat) (m : Bytes) : Bool :=
  let dst := leAt m 0 2
  mtypeOn vc (byteAt m 6) && decide (byteAt m 7 < 2) && byteAt m 9 == 0 && leAt m 14 2 == 0 &&
    !(dst == 0 && !msgLocal m) && !(dst == 0xFFFF && (vc == 0 || vc == 2)) &&
    !(dst == 0xFFFF && byteAt m 6 == 0x11 && !mgmtBroadcastOk m)

/-- A message discarded under R276. -/
def State.msgInvalid (s : State) (p : Nat) : State := (s.bump LNK_MSG_DROP_TOTAL).sayOnce Ev.LNK_MSG_INVALID p [p]

/-! ### Routes (R284 to R286) -/

/-- Where a message that came on a port goes: delivered here, and the ports it is sent on. -/
def State.routeIn (s : State) (p vc : Nat) (m : Bytes) : State × Bool × List Nat :=
  let dst := leAt m 0 2
  if msgLocal m then (s, true, [])
  else if vc = 2 then
    if s.addr = 0 then (s, decide (s.parentPort = some p), [])
    else
      let (s, l) := s.contentPorts p false (m.drop 16)
      (s, true, l)
  else if s.addr = 0 ∧ s.parentPort = some p then (s, true, [])
  else if dst = 0xFFFF then if s.addr = 0 then (s, false, []) else (s, true, s.treePorts p)
  else match s.routeOf dst with
    | .here => (s, true, [])
    | .port q => (s, false, [q])
    | .nowhere => (if s.rdF LNK_STATUS 16 16 = 1 then s.report Ev.LNK_UNREACHABLE [dst] else s, false, [])

/-- R276, R410: forwarding needs S3 and a TTL that does not reach 0. -/
def State.ttlGate (s : State) (m : Bytes) (ports : List Nat) : State × List Nat :=
  if ports.isEmpty ∨ s.stageNow < 3 then (s, [])
  else if byteAt m 8 < 2 then ((s.bump LNK_TTL_DROP_TOTAL).report Ev.LNK_TTL_EXPIRED [], [])
  else (s, ports)

/-- The message as it is forwarded. -/
def hop (m : Bytes) : Bytes := putBytes m 8 (toLe 1 (byteAt m 8 - 1))

/-- Bytes of a message given to the outputs of its route. -/
def State.forward (s : State) (p vc mid : Nat) (m : Bytes) (whole : Bool) (ports : List Nat) : State :=
  let l := ports.filter s.portActive
  let s := l.foldl (fun s q => s.modLnk q (fun x => { x with txq := x.txq ++ [⟨vc, p, mid, hop m, whole, false, s.now⟩] })) s
  l.foldl (fun s q => (s.wakeTx q).pump q) s

/-! ### Delivery -/

/-- R288: a management request that comes in. -/
def State.mgmtReply (s : State) (src tag op status count : Nat) (data : Bytes) : State :=
  if src = 0 then s
  else s.sendTo src 0x12 tag (toLe 1 op ++ toLe 1 status ++ toLe 2 count ++ List.replicate 12 0#8 ++ data)

/-- NO_RSP of a write. -/
def mgmtNoRsp (body : Bytes) : Bool := (byteAt body 0 == 2 || byteAt body 0 == 4) && bit (byteAt body 1) 0 == 1

/-- R288: a request is queued, answered BUSY by a full queue, or, as a broadcast that is not accepted, discarded and reported
once per tick, as the command names no port (R276). -/
def State.mgmtIn (s : State) (msg : Bytes) : State :=
  let body := msg.drop 16
  if leAt msg 0 2 = 0xFFFF ∧ !mgmtBroadcastOk msg then (s.bump LNK_MSG_DROP_TOTAL).sayOnce Ev.LNK_MSG_INVALID 4 []
  else if 16 ≤ s.lnk.mgmt.length then
    if mgmtNoRsp body then s else s.mgmtReply (leAt msg 2 2) (leAt msg 10 4) (byteAt body 0) 5 0 []
  else { s with lnk := { s.lnk with mgmt := s.lnk.mgmt ++ [⟨leAt msg 2 2, leAt msg 10 4, body⟩] } }

/-- Register reads of a request up to the first that fails. -/
def State.mgmtRegGet (a : Nat) : Nat → State → State × Nat × List Word
  | 0, s => (s, 0, [])
  | n + 1, s =>
    match State.mgmtRegGet a n s with
    | (s, 0, ws) =>
      let s := s.regRead (a + 4 * n)
      if s.acc.1 = 0 then (s, 0, ws ++ [s.acc.2]) else (s, s.acc.1, ws)
    | r => r

/-- Register writes of a request up to the first that fails. -/
def State.mgmtRegPut (src a : Nat) : Nat → List Word → State → State × Nat × Nat
  | k, [], s => (s, 0, k)
  | k, w :: ws, s =>
    let s := s.regPut (.fabric (BitVec.ofNat 16 src)) (a + 4 * k) w.toNat
    if s.acc.1 = 0 then State.mgmtRegPut src a (k + 1) ws s else (s, s.acc.1, k)

/-- Little-endian words of a byte string. -/
def wordsIn (b : Bytes) (n : Nat) : List Word := (List.range n).map (fun i => BitVec.ofNat 32 (leAt b (4 * i) 4))

/-- The bytes of words. -/
def wordBytes (ws : List Word) : Bytes := ws.flatMap (fun w => toLe 4 w.toNat)

/-- R287: the request at the head of the queue is performed and answered. A write with less data than its COUNT names is
narrower than its words: ALIGN_ERROR (R5, Table 17.2). A request whose OP or COUNT breaks Table 10.8 is not performed; its
STATUS is open (log entry 131). -/
def State.mgmtPerform (s : State) : State :=
  match s.lnk.mgmt with
  | [] => s
  | q :: rest =>
    if s.deaf || decide (s.stageNow < 2) then s
    else
      let s : State := { s with lnk := { s.lnk with mgmt := rest } }
      let op := byteAt q.body 0
      let n := leAt q.body 2 2
      let a := leAt q.body 4 5
      let data := q.body.drop 16
      let reply (s : State) (st count : Nat) (d : Bytes) : State :=
        if mgmtNoRsp q.body then s else s.mgmtReply q.src q.tag op st count d
      let countOk := if op = 1 ∨ op = 2 then decide (1 ≤ n ∧ n ≤ 64) else decide (4 ≤ n ∧ n ≤ 4096 ∧ n % 4 = 0)
      let bytes := if op = 2 then 4 * n else if op = 4 then n else 0
      if op = 0 ∨ 4 < op ∨ !countOk then reply s ((Config.openRead LNK_MGMT_STATUS op).toNat % 6) 0 []
      else if a % 4 ≠ 0 ∨ data.length < bytes then reply s 2 0 []
      else if (op = 2 ∨ op = 4) ∧ !(decide (0xFFF0 ≤ q.src) && decide (q.src ≤ 0xFFFE)) ∧ s.rdF LNK_CTRL 1 1 = 0 then
        reply (s.report Ev.LNK_MGMT_DENIED [q.src]) 3 0 []
      else if op = 1 then
        let (s, st, ws) := State.mgmtRegGet a n s
        reply s st ws.length (wordBytes ws)
      else if op = 2 then
        let (s, st, k) := State.mgmtRegPut q.src a 0 (wordsIn data n) s
        reply s st k []
      else if op = 3 then
        let (s, st, ws) := s.hostReads a (n / 4)
        reply s st (4 * ws.length) (if st = 4 then padTo n (wordBytes ws) else wordBytes ws)
      else
        let (s, st, k) := s.hostWrites a 0 (wordsIn data (n / 4))
        reply s st (4 * k) []

/-- A content body of message `mid` that is delivered here, by its MAGIC. -/
def State.contentIn (s : State) (mid : Nat) (body : Bytes) : State :=
  if leAt body 0 2 = 0x4853 then (s.sheafBlockIn mid body).1
  else if leAt body 0 2 = 0x5055 then s.updateRecordIn body
  else s.frameRecordIn body

/-- A whole message delivered here, by its type. A device takes nothing from MGMT_RSP, EVENT and BULK. -/
def State.deliver (s : State) (p mid : Nat) (msg : Bytes) : State :=
  let t := byteAt msg 6
  if t = 0x01 then s.tickIn p msg
  else if t = 0x02 then s.voteIn p msg
  else if t = 0x03 then s.decisionIn p msg
  else if t = 0x04 then s.memberIn msg
  else if t = 0x10 then s.discIn p msg
  else if t = 0x11 then s.mgmtIn msg
  else if t = 0x20 then s.contentIn mid (msg.drop 16)
  else if t = 0x30 then s.sowMessage p msg
  else s

/-! ### The stream of a virtual channel (R274, R277) -/

/-- The message in progress takes the bytes that are there; a whole one is delivered, and forwarding outputs get the bytes. One
whose staging is poisoned is discarded here and ended with ABORT on its outputs (R78, R277). -/
def State.feed (s : State) (p vc : Nat) : State :=
  let x := s.lnkPort p
  match sget none x.rx vc with
  | none => s
  | some m =>
    let b := (x.unread vc).take (m.len - m.data.length)
    let reader := stageReader p vc (!m.route.isEmpty)
    let held := (s.heldAt m.mid).filter (fun r => s.rangePoisoned r.1 r.2)
    let (s, bad) := s.readStaging reader (stagedAt vc b.length x.slots)
    let s := held.foldl (fun s r => s.consumePoison (reqClient reader) r.1 r.2) s
    let bad := bad || !held.isEmpty
    let s := if bad then s.abortMsg m.mid else s
    let m := if bad then { m with route := [], here := false } else m
    let whole := decide (m.len ≤ m.data.length + b.length)
    let m' := { m with data := m.data ++ b }
    let keep := if whole && (m.started || m.route.isEmpty) then none else some m'
    let s := s.modLnk p (fun x => { x with slots := takeBytes vc m.mid b.length x.slots, rx := sset none x.rx vc keep })
    let s := if m.started then
        let s := m.route.foldl (fun s q => s.modLnk q (fun x => { x with
          txq := x.txq.map (fun e => if e.mid == m.mid then { e with data := e.data ++ b, whole := whole } else e) })) s
        m.route.foldl (fun s q => s.pump q) s
      else s
    let s := if whole && m.here && !(decide (m.len ≤ m.data.length)) then s.deliver p m.mid m'.data else s
    let s := if bad then (List.range 4).foldl (fun s q => s.pump q) s else s
    (List.range 4).foldl (fun s q => s.freeSlots q) s

/-- The slots of a VC up to the next one in which a message starts are passed over (R276). -/
def skipToSom (v : Nat) : List RxSlot → List RxSlot × Bool
  | [] => ([], false)
  | t :: l =>
    if t.vc ≠ v ∨ t.data.length ≤ t.off then
      let (r, ok) := skipToSom v l
      (t :: r, ok)
    else if t.som ≠ 0xFF ∧ t.off ≤ t.som then ({ t with off := t.som } :: l, true)
    else
      let (r, ok) := skipToSom v l
      ({ t with off := t.data.length } :: r, ok)

/-- The rest of every flit that holds one of the next `n` bytes of a VC is dropped. -/
def dropFlits (v : Nat) : Nat → List RxSlot → List RxSlot
  | _, [] => []
  | n, t :: l =>
    let k := t.data.length - t.off
    if t.vc ≠ v ∨ k = 0 then t :: dropFlits v n l
    else if n = 0 then t :: l
    else { t with off := t.data.length } :: dropFlits v (n - min n k) l

/-- A message that a virtual channel of a port begins (R276): its header is checked and its route decided. -/
def State.beginMsg (s : State) (p vc : Nat) : State :=
  let s := if (s.lnkPort p).resync.contains vc then
      let (l, ok) := skipToSom vc (s.lnkPort p).slots
      s.modLnk p (fun x => { x with slots := l, resync := if ok then x.resync.filter (· != vc) else x.resync })
    else s
  let u := (s.lnkPort p).unread vc
  let len := leAt u 4 2
  if (sget none (s.lnkPort p).rx vc).isSome ∨ (s.lnkPort p).resync.contains vc ∨ u.length < 16 then s
  else if len < 16 ∨ 4608 < len then
    let s := (s.msgInvalid p).modLnk p (fun x => { x with
      slots := dropFlits vc 16 x.slots, resync := x.resync ++ [vc] })
    s.freeSlots p
  else if u.length < min 48 len then s
  else
    let mid := s.lnk.nextMid
    let s : State := { s with lnk := { s.lnk with nextMid := mid + 1 } }
    let ok := msgHeaderOk vc u
    let s := if ok then s.noteSource p vc u else s.msgInvalid p
    let (s, here, ports) := if ok then s.routeIn p vc u else (s, false, [])
    let (s, ports) := s.ttlGate u ports
    let m : RxMsg := ⟨mid, len, ports, here, false, []⟩
    (s.modLnk p (fun x => { x with rx := sset none x.rx vc (some m) })).feed p vc

/-- R277: forwarding of the message in progress starts on the outputs of its route. -/
def State.beginForward (s : State) (p vc : Nat) : State :=
  match sget none (s.lnkPort p).rx vc with
  | none => s
  | some m =>
    if m.started ∨ m.route.isEmpty ∨ m.data.length < min 48 m.len then s
    else
      let whole := decide (m.len ≤ m.data.length)
      let s := s.modLnk p (fun x => { x with
        rx := sset none x.rx vc (if whole then none else some { m with started := true }) })
      let s := s.forward p vc m.mid m.data whole m.route
      (List.range 4).foldl (fun s q => s.freeSlots q) s

/-! ### Flits (R262, R264) -/

/-- A MSG flit that passes R262, after what it tells has been taken. -/
def State.msgFlit (s : State) (p : Nat) (flit : Bytes) : State :=
  let w := leAt flit 0 2
  let seq := w % 4096
  let vc := fld w 13 12
  let x := s.lnkPort p
  if seq = x.rxNext then
    let s := s.modLnk p (fun x => { x with rxNext := (seq + 1) % 4096, nakOut := false })
    let s := if bit (leAt flit 2 2) 13 = 1 then s.abortIn p vc else s
    let len := min 240 (byteAt flit 4)
    let home := s.freeHome p
    let slot : RxSlot := ⟨vc, (flit.drop 12).take len, 0, byteAt flit 5, [], home⟩
    let s := (s.fillSlot p slot.data home).modLnk p (fun x => { x with slots := x.slots ++ [slot], ackOwed := x.ackOwed + 1 })
    let s := if 32 ≤ (s.lnkPort p).ackOwed then s.nopNow p else s
    (s.feed p vc).freeSlots p
  else if later 12 seq x.rxNext then s.requestReplay p
  else s.bump (LNK_PORT_DUP_TOTAL p)

/-- A flit on a port (R262, R264). Out of step it is discarded; one that fails leaves step. Every flit that passes tells ACK,
NAK and FREED; those of a CREDIT_SYNC that first tells RESET belong to a lost link state, which R271 replaces (DEDUCED, log
entry 275). -/
def State.flitIn (s : State) (p : Nat) (flit : Bytes) (bad : Bool) : State :=
  if !s.portActive p || !(s.lnkPort p).inStep then s
  else if bad || flit.length != 256 || crc32c (flit.take 252) != leAt flit 252 4 then
    (s.modLnk p (fun x => { x with inStep := false })).requestReplay p
  else
    let s := if s.rxPower p = 1 then s.setRxPower p 0 else s
    let kind := fld (leAt flit 0 2) 15 14
    let payload := (flit.drop 12).take 240
    let op := byteAt payload 0
    if kind = 1 ∧ op = 2 then
      let s := if bit (byteAt payload 2) 0 = 1 ∧ !s.syncRepeats p payload then s else s.flitTells p flit
      s.creditSync p payload
    else
      let s := s.flitTells p flit
      let s := if kind = 0 then s.msgFlit p flit else if kind = 1 ∧ op = 3 then s.creditSyncAck p (byteAt payload 1) else s
      s.abortPoisoned.pump p

/-! ### The commands -/

/-- FLIT_RECEIVE (R262, R264). -/
def execFlitReceive (port : Fin 4) (flit : Bytes) (bad : Bool) (s : State) : Host.Outcome State Fault Refusal :=
  .next (s.oneCycle fun s => s.flitIn port.val flit bad)

/-- MESSAGE_RECEIVE (R276). -/
def execMessageReceive (port vc : Fin 4) (s : State) : Host.Outcome State Fault Refusal :=
  .next (s.oneCycle fun s => s.beginMsg port.val vc.val)

/-- MESSAGE_FORWARD_START (R277). -/
def execMessageForwardStart (port vc : Fin 4) (s : State) : Host.Outcome State Fault Refusal :=
  .next (s.beginForward port.val vc.val)

/-- A content message that has come whole (R279, R286): its SRC counts, copies go on by its footprint, and the body is taken
here. -/
def State.contentMsg (s : State) (p : Nat) (sheaf : Bool) (msg : Bytes) (take : State → Nat → Bytes → State) : State :=
  let body := msg.drop 16
  let (s, ports) := (s.noteSource p 2 msg).contentPorts p sheaf body
  let (s, ports) := s.ttlGate msg ports
  let mid := s.lnk.nextMid
  let s : State := { s with lnk := { s.lnk with nextMid := mid + 1 } }
  take (s.forward p 2 mid msg true ports) mid body

/-- SHEAF_BLOCK_RECEIVE (R100, R109, R286). -/
def execSheafBlockReceive (port : Fin 4) (msg : Bytes) (s : State) : Host.Outcome State Fault Refusal :=
  .next (s.oneCycle fun s => s.contentMsg port.val true msg (fun s m b => (s.sheafBlockIn m b).1))

/-- FRAME_RECORD_RECEIVE (R106, R286). -/
def execFrameRecordReceive (port : Fin 4) (msg : Bytes) (s : State) : Host.Outcome State Fault Refusal :=
  .next (s.oneCycle fun s => s.contentMsg port.val false msg (fun s _ b => s.frameRecordIn b))

/-- UPDATE_RECORD_RECEIVE (R108, R286). -/
def execUpdateRecordReceive (port : Fin 4) (msg : Bytes) (s : State) : Host.Outcome State Fault Refusal :=
  .next (s.oneCycle fun s => s.contentMsg port.val false msg (fun s _ b => s.updateRecordIn b))

/-- MGMT_REQ_RECEIVE (R288). -/
def execMgmtReqReceive (msg : Bytes) (s : State) : Host.Outcome State Fault Refusal :=
  .next (s.oneCycle fun s => s.mgmtIn msg)

/-- MGMT_REQ_PERFORM (R287). -/
def execMgmtReqPerform (s : State) : Host.Outcome State Fault Refusal := .next (s.oneCycle fun s => s.mgmtPerform)

end Sys2Proof.Machine
end

