-- ==== Sys2Proof/Machine/Start.lean ====
section
/-! DEFINITION. The staged start S0 to S5 (R408 to R412), boot selection (R419), the settings (R401, R433), and the proof
image (R413, R414). -/
namespace Sys2Proof.Machine

/-! ### Boot selection (R419) -/

/-- The reports of a slot that does not boot: the manifest's failed condition (R422), and the failed step. -/
def State.bootInvalid (s : State) (x step : Nat) : State :=
  let s := match manifestFault (s.manifestOf x) with
    | some c => s.report Ev.UPD_MANIFEST_BAD [c]
    | none => s
  s.report Ev.UPD_BOOT_INVALID [x, step]

/-- R419: a boot of the other slot: it becomes the active one, the fallback is counted and reported. -/
def State.bootOther (s : State) (y : Nat) : State :=
  let m := s.manifestOf y
  let s := s.actPut 4 (toLe 1 y)
  let s := s.actPut 8 (toLe 4 (manifestGen m))
  let s := s.actPut 32 (sha256 m)
  (s.bumpLifetime 3).report Ev.UPD_FALLBACK [3]

/-- The boot ROM's selection (R419): slot X, else the other slot once, else recovery mode (R434). There a slot whose boot stage is
valid runs its recovery firmware, and only when none is does the ROM wait for the load of R436 (R435; DEDUCED, log entry
262). -/
def State.bootSelect (s : State) : State :=
  let x := s.activeSlot
  let s : State := { s with boot := { s.boot with badSlots := [0, 1].filter (fun n => (s.bootFault n).isSome) } }
  match s.bootFault x with
  | none => s.wrF UPD_BOOT_STATUS 6 6 x
  | some step =>
    let s := s.bootInvalid x step
    match s.bootFault (1 - x) with
    | none => (s.bootOther (1 - x)).wrF UPD_BOOT_STATUS 6 6 (1 - x)
    | some step' =>
      let s := s.bootInvalid (1 - x) step'
      let s := if s.mode = modeRecovery then s else s.enterRecovery 1
      if step = 3 then s.wrF UPD_BOOT_STATUS 6 6 x
      else if step' = 3 then s.wrF UPD_BOOT_STATUS 6 6 (1 - x)
      else { s with boot := { s.boot with waitLoad := true } }

/-! ### Stages S1 to S3 -/

/-- R376: the trip that the always-on domain latched is reported and the latch cleared. -/
def State.tripReport (s : State) : State :=
  if s.thm.tripLatch = 0 then s
  else
    let s := (s.report Ev.THM_TRIP_RECORDED [s.thm.tripLatch]).wrF THM_STATUS 11 11 1
    { s with thm := { s.thm with tripLatch := 0 } }

/-- S1 (Table 16.3): the recall has ended; the activation record is looked at, every sensor is asked for a conversion (R362),
and the boot ROM selects a slot, or waits for a load (R436): as a hold when no slot boots (R409; DEDUCED, log entry 301), unheld
in SERVICE_LOAD mode. -/
def State.toS1 (s : State) : State :=
  if !s.sbk.ready then s
  else
    let s := (if s.boot.checked then s else s.releaseChecks).tripReport
    let s : State := { s with thm := { s.thm with convReq := s.thm.convReq ||| (2 ^ 24 - 1) } }
    let s : State := if s.mode = modeLoad then { s with boot := { s.boot with waitLoad := true } } else s.bootSelect
    let s := s.stageReached 1
    if s.boot.waitLoad && s.mode != modeLoad then s.holdStage Ev.UPD_BOOT_INVALID else s

/-- S2, once the boot stage runs and the first round of conversions is complete (R362): ports train as their roles and enables
allow (R242), and a fallback is reported (R432). -/
def State.toS2 (s : State) : State :=
  if s.boot.waitLoad then (if s.mode = modeLoad then s else s.holdStage Ev.UPD_BOOT_INVALID)
  else if !s.firstRound then s
  else
    let s := s.stageReached 2
    let s := (List.range 4).foldl (fun s p => s.portSettle p) s
    match s.boot.fellBack with
    | some (reason, missing) =>
      let s := s.report Ev.UPD_FALLBACK [reason, missing]
      { s with boot := { s.boot with fellBack := none } }
    | none => s

/-- R340: one retired row of the log region enters the remap table; a row that already had another spare had left it as
PERMANENT. -/
def Dmc.retired (d : Dmc) (row spare : Nat) : Dmc :=
  let c := fld row 3 0
  let b := fld row 7 4
  let r := fld row 24 8
  let same (e : Nat × Nat × Nat × Nat) : Bool := e.1 == c && e.2.1 == b && e.2.2.1 == r
  let dead := ((d.remap.filter same).map (fun e => (c, e.2.2.2))).filter (fun x => x.2 != fld spare 7 4)
  let remap := d.remap.filter (fun e => !same e)
  if 64 ≤ remap.length then d
  else { d with remap := remap ++ [(c, b, r, fld spare 7 4)], deadSpares := d.deadSpares ++ dead }

/-- The first of `n` adjoining FREE plots that the built-in allocator finds. -/
def State.freeRun (s : State) (n : Nat) : Option Nat :=
  (List.range (16384 + 1 - n)).find? (fun i => (List.range' i n).all (fun k => (s.plot k).state == 0))

/-- Adjoining plots allocated to a client; the address of the first. -/
def State.takeRun (s : State) (c n : Nat) : Option (State × Nat) :=
  (s.freeRun n).map (fun i => ((List.range' i n).foldl (fun s k => s.allocPlot c k) s, grnBase + 4096 * i))

/-- R452, R454: the event ring in its plots takes the early records; lost ones are counted in GBL_EARLY_LOST. -/
def State.ringStart (s : State) (base : Nat) : State :=
  let lost := s.ev.earlyLost
  let s : State := { s with ev := { s.ev with
    base := base, ringOn := true, grants := satN 32 (s.ev.grants + s.ev.present), earlyLost := 0, pendOverflow := s.ev.pendOverflow || decide (0 < lost) } }
  if lost = 0 then s else s.report Ev.GBL_EARLY_LOST [lost]

/-- S3: the Granary has passed its self-test (R80), DRAM has trained (R338), the retire list is rebuilt (R340), the event ring
takes its plots (R452), the ports synchronise into Granary staging (R410), and the panel lanes start to train (R257). -/
def State.toS3 (s : State) (t : Training) : State :=
  if s.grn.bistFailed then s.holdStage Ev.GRN_BIST_FAIL
  else if !s.grnReady then s
  else
    match s.trainDone t with
    | (s, some ev) => s.holdStage ev
    | (s, none) =>
      match s.takeRun clEvents 32 with
      | none => s
      | some (s, base) =>
        let s := State.storeRetired { s with dmc := s.logRetired.foldl (fun d e => d.retired e.1 e.2) s.dmc }
        let s := (s.stageReached 3).ringStart base
        let s := (List.range 4).foldl (fun s p => s.syncNow p) s
        (List.range 18).foldl (fun s m => s.plStart m) s

/-! ### The proof image (R413, R414) -/

/-- A number in upper-case hexadecimal with at least `n` digits. -/
def hexDigits (n v : Nat) : String :=
  let d := (Nat.toDigits 16 v).map Char.toUpper
  String.ofList (List.replicate (n - d.length) '0' ++ d)

/-- A port's state as line 3 shows it. -/
def State.portText (s : State) (p : Nat) : String :=
  let st := s.lneState p
  if st = 6 then "ACT" ++ toString (s.rdF (LNE_PORT_STATUS p) 11 8)
  else if s.rdF (LNE_PORT_STATUS p) 4 4 = 1 then "ABS"
  else if s.rdF (LNE_PORT_STATUS p) 5 5 = 1 then "SIL"
  else if st = 1 then "DET"
  else if 2 ≤ st ∧ st ≤ 5 then "TRN"
  else "OFF"

/-- The text lines (Table 16.5). -/
def State.proofLines (s : State) : List String :=
  let addr := if s.addr = 0 then "ADDR ----" else "ADDR 0x" ++ hexDigits 4 s.addr
  let held := if s.isHeld then " HELD 0x" ++ hexDigits 4 (s.rdF UPD_STAGE_HOLD 15 0) else ""
  let stage := if s.mode = modeRecovery then "RECOVERY" else "STAGE S" ++ toString s.stageNow ++ held
  let slot := s.rdF UPD_BOOT_STATUS 6 6
  [ "EXM7440 B1 ID " ++ hexDigits 8 (fusedId % 2 ^ 32), addr, stage,
    String.intercalate " " ((List.range 4).map (fun p => "P" ++ toString p ++ " " ++ s.portText p)),
    "FW " ++ (if slot = 0 then "A" else "B") ++ " 0x" ++ hexDigits 8 (manifestGen (s.manifestOf slot)) ]

/-- The PROOF_FONT part, when it is present and passes its checks. -/
def State.proofFont (s : State) : Option Bytes := if s.boot.fromLoad then none else s.activePart 5

/-- Row `r` of a character's glyph: A1, bit 0 leftmost. -/
def glyphRow (font : Option Bytes) (ch r : Nat) : Nat :=
  match font with
  | some f => byteAt f (16 * ch + r)
  | none => (Config.romGlyph ch r).toNat

/-- R414: whether the text covers a pixel. -/
def textAt (font : Option Bytes) (lines : List String) (x y : Nat) : Bool :=
  if x < 16 ∨ y < 16 then false
  else
    let r := (y - 16) % 20
    let ch := (lines.getD ((y - 16) / 20) "").toList[(x - 16) / 8]?
    match ch with
    | some c => decide (r < 16) && bit (glyphRow font c.toNat r) ((x - 16) % 8) == 1
    | none => false

/-- A pixel of the proof image: text over grid over black. -/
def State.proofPixel (s : State) (font : Option Bytes) (lines : List String) (x y : Nat) : Bytes :=
  let grey (v : Nat) : Bytes := toLe 1 v ++ toLe 1 v ++ toLe 1 v ++ [Config.proofAlpha]
  if textAt font lines x y then
    toLe 4 (if s.mode = modeRecovery then stippleColour 4 255 0 0 else stippleColour 4 255 255 255)
  else if x % 60 = 0 ∨ y % 60 = 0 then grey 96
  else grey 0

/-- R414: the proof surface drawn, with the font that is found; the ROM's font is reported when it comes into use. -/
def State.drawProof (s : State) : State :=
  let font := s.proofFont
  let lines := s.proofLines
  let s := match font with
    | some _ => s.wrF UPD_BOOT_STATUS 13 13 0
    | none =>
      if s.rdF UPD_BOOT_STATUS 13 13 = 1 then s
      else (s.wrF UPD_BOOT_STATUS 13 13 1).report Ev.UPD_PROOF_FONT []
  let s := (List.range 540).foldl (fun s y =>
    s.memSet (s.etc.proofBase + 3840 * y) ((List.range 960).flatMap (fun x => s.proofPixel font lines x y))) s
  { s with boot := { s.boot with lines := lines } }

/-- The proof image is shown: from S4 until a plan is in force (R413). -/
def State.proofShown (s : State) : Bool := decide (4 ≤ s.stageNow) && s.fpl.plan.isNone

/-! ### Stage S4 -/

/-- Panel lanes that take part: those not disabled. -/
def State.panelLanesOn (s : State) : List Nat :=
  (List.range 18).filter (fun m => s.rdF (LNE_PL_CTRL m) 0 0 == 1)

/-- S4: every panel lane that has a driver trained (R257, R227), a lane ABSENT having none, and the stage failing when no lane
is left; supplies up (R227), furrow buffers and proof surface allocated, proof image drawn under the S4 drive limit (R230). -/
def State.toS4 (s : State) : State :=
  if s.panelLanesOn.all s.plAbsent then s.holdStage Ev.LNE_PANEL_LANE_DOWN
  else if !s.panelLanesOn.all (fun m => s.plTrained m || s.plAbsent m) then s
  else if s.supState = supLockout then s.holdStage Ev.ETC_SUPPLY_LOCKOUT
  else if s.supState = supRetry then s.holdStage s.etc.failCode
  else if s.supState = supOff then (if s.etc.seq = .idle then s.supplyUp else s)
  else if s.etc.seq = .waitTick ∨ s.supState = supOn then
    match s.takeRun clFurrow 456 with
    | none => s
    | some (s, furrows) =>
      match s.takeRun clBurin 507 with
      | none => s
      | some (s, proof) =>
        let s : State := { s with etc := { s.etc with bufBase := furrows, proofBase := proof } }
        ((s.wrF ETC_STATUS 6 6 1).stageReached 4).drawProof
  else s

/-! ### Stage S5 -/

/-- R412: the plan of the activation record's slot, or the DEFAULT_PLAN part of the active slot with UPD_PLAN_DEFAULT; the
event of the last refusal when neither serves. -/
def State.choosePlan (s : State) : State × Option Plan × Nat :=
  let n := s.planSlot
  let first : State × Option Plan × Nat :=
    if n < 8 then s.loadPlan (s.flashGet 0 (planSlotAt n) (planLen (s.flashGet 0 (planSlotAt n) 64)))
    else (s, none, (Config.openCode Ev.UPD_PLAN_DEFAULT 0).toNat)
  match first with
  | (s, some p, _) => ({ s with boot := { s.boot with deflt := false } }, some p, 0)
  | (s, none, ev) =>
    let s := s.report Ev.UPD_PLAN_DEFAULT [ev]
    match s.activePart 6 with
    | none => (s, none, ev)
    | some b =>
      match s.loadPlan b with
      | (s, some p, _) => ({ s with boot := { s.boot with deflt := true } }, some p, 0)
      | (s, none, ev) => (s, none, ev)

/-- S5: the plan is chosen and the Hogel image staged; the next tick boundary puts them in force (R412). TEST and recovery
mode stay at S4 (Table 16.2, R435). -/
def State.toS5 (s : State) : State :=
  if s.mode ≠ modeNormal ∨ s.boot.entering.isSome then s
  else
    match s.choosePlan with
    | (s, none, ev) => s.holdStage (ev % 2 ^ 16)
    | (s, some p, _) =>
      match s.stageTable kindCurrent with
      | (s, none) => s.holdStage Ev.HGL_TABLE_MISMATCH
      | (s, some r) => { s with boot := { s.boot with entering := some (p, r) } }

/-! ### Settings (R401, R433) -/

/-- Where the settings block lies, and its length. -/
def settingsAt : Nat := 0x1400
def settingsLen : Nat := 3072

/-- R401: the records applied in order; those of SBK_PW_ registers and outside the register space are skipped. -/
def State.settingsApply (s : State) : State :=
  let b := s.sramBytes settingsAt settingsLen
  let n := leAt b 2 2
  if 382 < n ∨ crc32c (sub b 16 (8 * n)) ≠ leAt b 4 4 then s.report Ev.SBK_SETTINGS_INVALID []
  else
    let s' := (List.range n).foldl (fun s i =>
      let a := leAt b (16 + 8 * i) 4
      if (s.regGate a).isSome ∨ a = SBK_PW_LO ∨ a = SBK_PW_HI ∨ a = SBK_PW_CTRL then s
      else s.writeReg .service a (leAt b (20 + 8 * i) 4)) s
    { s' with acc := s.acc, accBytes := s.accBytes }

/-- R433: the settings' FORMAT against the firmware's, then R401. -/
def State.settings (s : State) : State :=
  let held := s.sramLe settingsAt 2
  let own := manifestFormat (s.manifestOf (s.rdF UPD_BOOT_STATUS 6 6))
  if own < held then s.report Ev.UPD_SETTINGS_NEWER []
  else if held < own then
    let b := (s.activePart 7).getD (toLe 2 own)
    let s := s.sramWrite settingsAt (padTo settingsLen b)
    (s.report Ev.UPD_SETTINGS_RESET [held, own]).settingsApply
  else s.settingsApply

/-! ### The commands -/

/-- STAGE_ADVANCE (R408, R409): the work of the next stage has ended. A held device waits for RESUME_STAGE or a reset. -/
def execStageAdvance (training : Training) (s : State) : Host.Outcome State Fault Refusal :=
  .next <| s.oneCycle fun s =>
    if s.boot.inReset || s.boot.shutdown || s.isHeld || s.boot.request.isSome then s
    else
      match s.stageNow with
      | 0 => s.toS1
      | 1 => s.toS2
      | 2 => s.toS3 training
      | 3 => s.toS4
      | 4 => s.toS5
      | _ => s

/-- PROOF_REDRAW (R414). -/
def execProofRedraw (s : State) : Host.Outcome State Fault Refusal := .next (if s.proofShown then s.drawProof else s)

/-- THM_PERIODIC_CONVERSION (R362): before a plan runs, every sensor is converted, and from S4 the panel when it is due. -/
def execThmPeriodicConversion (panel : Bool) (s : State) : Host.Outcome State Fault Refusal :=
  .next <|
    if s.fpl.plan.isSome || s.stageNow = 0 || s.boot.inReset then s
    else
      let s : State := { s with thm := { s.thm with convReq := s.thm.convReq ||| (2 ^ 24 - 1) } }
      if panel && decide (4 ≤ s.stageNow) then s.pollDrivers true else s

end Sys2Proof.Machine
end

