-- ==== Sys2Proof/Machine/Tick.lean ====
section
/-! DEFINITION. The tick: slots, drain and headland (R17, R34, R51, R58, R59), headland tasks (R37, R38), the commit point
(R19), and the boundary (R309, R39, R53 to R57, R164, R430). -/
namespace Sys2Proof.Machine

/-- FPL_SLOT_NOW in the headland after the drain. -/
def slotHeadland : Nat := 0x3FF

/-- The device keeps time: it is neither held in reset nor shut down. -/
def State.ticking (s : State) : Bool := !s.boot.inReset && !s.boot.shutdown

/-! ### Slots -/

/-- Engines that a slot starts: those with a record, but for the ones that a REPEAT leaves fallow (R19). -/
def State.slotEngines (s : State) (slot : Nat) : List Nat :=
  (List.range 8).filter (fun e =>
    (s.slotRecord slot e).op != opIdle && !(s.fpl.rep && decide (slot < 541) && e != 4 && e != 5))

/-- R138: a slot whose THR_DEC record is RUN or FILL takes every decode pipe from its jobs. -/
def State.takePipes (s : State) (k : Nat) : State :=
  if (s.slotRecord k 0).op = opRun ∨ (s.slotRecord k 0).op = opFill then s.preemptJobs true else s

/-- R34: a slot of the tick begins: 0 to 539, the drain 540, or a record of the headland. -/
def State.slotStart (s : State) (k : Nat) : State :=
  let go (s : State) : State :=
    let s := s.takePipes k
    { s with fpl := { s.fpl with
        running := (s.fpl.running ++ s.slotEngines k).eraseDups, slotEnded := false
        stalled := s.fpl.stalled.filter (fun e => !(s.slotEngines k).contains e) } }
  if k ≤ 540 then
    if s.fpl.slot = slotHeadland ∨ k < s.fpl.slot then s
    else go { s with fpl := { s.fpl with
      slot := k, slotStart := s.now, drainStart := if k = 540 then s.now else s.fpl.drainStart } }
  else if s.fpl.slot = slotHeadland then
    let s := go s
    { s with fpl := { s.fpl with
        heads := s.fpl.heads.filter (fun h => !(s.slotEngines k).contains h.1) ++ (s.slotEngines k).map (fun e => (e, k)) } }
  else s

/-- What a cut of an engine discards (R51, R58, R126, R216). -/
def State.cutEngine (s : State) (e : Nat) : State :=
  match e with
  | 0 => s.thrCut false
  | 1 => { s with bnd := { s.bnd with reqs := s.bnd.reqs.filter (fun r => r.2.1) } }
  | 2 =>
    let s := s.wrF DRL_STATUS 1 1 0
    { s with
      drl := { s.drl with furrow := none }
      fpl := { s.fpl with cut := (s.fpl.cut ++ [s.fpl.slot]).eraseDups } }
  | 3 => { s with fpl := { s.fpl with cut := (s.fpl.cut ++ [s.fpl.slot]).eraseDups } }
  | 4 => s.txEnd
  | 6 => { s with thr := { s.thr with rows := s.thr.rows.filter (·.ready) } }
  | _ => s

/-- R51: an engine cut at the end of its slot `k`. -/
def State.overrunIn (s : State) (k e need : Nat) : State :=
  let s := ((s.report Ev.FPL_SLOT_OVERRUN [k, e, min 65535 need]).bump FPL_OVERRUN_TOTAL).cutEngine e
  { s with fpl := { s.fpl with overSlots := (s.fpl.overSlots ++ [k]).eraseDups } }

/-- R51: an engine cut at the end of the current slot. -/
def State.overrun (s : State) (e need : Nat) : State := s.overrunIn s.fpl.slot e need

/-- R59: the third overrun slot degrades the frame. -/
def State.degradeCheck (s : State) : State :=
  if 3 ≤ s.fpl.overSlots.length ∧ !s.fpl.degraded then
    let s := (s.report Ev.FPL_FRAME_DEGRADED []).wrF FPL_STATUS 6 6 1
    { s with fpl := { s.fpl with degraded := true } }
  else s

/-- The engines that a slot's end cuts: those that have not finished. ETC_ROW's record is never cut (R224). -/
def State.lateEngines (s : State) : List Nat := [0, 1, 2, 3, 4, 6, 7].filter (fun e => s.fpl.running.contains e)

/-- An engine cut at the slot's end, with the cycles it still needed: a free value where the command names none. -/
def State.overrunOf (s : State) (needs : List (Nat × Nat)) (e : Nat) : State :=
  match needs.find? (fun n => n.1 == e) with
  | some n => s.overrun e n.2
  | none =>
    let (d, s) := s.draw
    s.overrun e (Config.openNeed d).toNat

/-- A furrow slot or the drain ends (R18, R51): every engine that has not finished its record is cut. -/
def State.slotEnd (s : State) (needs : List (Nat × Nat)) : State :=
  if s.fpl.slot = slotHeadland then s
  else
    let s := s.lateEngines.foldl (fun s e => s.overrunOf needs e) s
    State.degradeCheck { s with fpl := { s.fpl with running := [], slotEnded := true }, etc := { s.etc with carry := none } }

/-! ### Headland tasks (R37, R38) -/

/-- A task's record. -/
def State.taskOf (s : State) (i : Nat) : TaskRec := s.taskRecs.getD i ⟨0, 0, 0, 0, 0, 0, 0⟩

/-- Task kinds (Table 2.9) that act when they start. -/
def taskThermal : Nat := 2
def taskGlean : Nat := 6

/-- Due in the running tick. A PERIOD of 0, which R47 excludes and no rule refuses, makes a task that is never due (DESIGN
CHOICE, log entry 236). -/
def State.taskDue (s : State) (i : Nat) : Bool :=
  let t := s.taskOf i
  t.period != 0 && s.fpl.frame % t.period == t.phase

/-- Tasks in priority order, highest first, in table order among equals. -/
def State.byPriority (s : State) (l : List Nat) : List Nat :=
  ((List.range 256).reverse).flatMap (fun p => (List.range s.taskRecs.length).filter (fun i =>
    l.contains i && (s.taskOf i).priority == p))

/-- What a THERMAL task asks for: its sensors, panel conversions, MR4 reads (R362, R333), and the correction of the trained delays
from the interval oscillators (R338), whose outcome is a free value. -/
def State.thermalTask (s : State) (arg : Nat) (mr4 : List (Nat × Mr4)) : State :=
  let s : State := { s with thm := { s.thm with convReq := s.thm.convReq ||| (arg % 2 ^ 25) } }
  let s := if bit arg 25 = 1 then mr4.foldl (fun s m => s.mr4Read m.1 m.2) s else s
  if bit arg 26 = 1 then
    let (d, s) := s.draw
    { s with dmc := { s.dmc with trim := some d } }
  else s

/-- Rows of the copies read by the Gleaner from row `i` of the pass on, copy A before copy B, staged one after another in the GLEAN
partition, beyond whose end they start again (R397; DESIGN CHOICE, log entry 295). -/
def State.gleanStage (s : State) (i n : Nat) : State :=
  match s.clientPart 0x10 with
  | none => s
  | some q => (List.range n).foldl (fun s j =>
      let row := i + j
      let c := s.sbk.copy (row / 513)
      let b := if row % 513 < 512 then cellsGet c.image (128 * (row % 513)) 128 else c.headerRow (row / 513)
      let a := grnBase + q.first * 4096 + 128 * row % (4096 * max 1 q.count)
      if s.rangeMay 0x10 a 128 then (s.useRange .gleaner true a 128).memSet a b else s.refuseRange 0x10 a 128) s

/-- The Gleaner's pass reads on by a number of rows, at most to its end. -/
def State.gleanOn (s : State) (n : Nat) : State :=
  let at' := s.sbk.gleanRows
  let s := s.gleanStage at' (min n (1026 - at'))
  { s with sbk := { s.sbk with gleanRows := min 1026 (at' + n) } }

/-- A GLEAN task (R397): a pass begins, or its rows go on. -/
def State.gleanTask (s : State) (arg : Nat) : State :=
  if s.sbk.tripped || s.sbk.pfRefuse then s
  else
    let rows := if fld arg 9 0 = 0 then 64 else fld arg 9 0
    (if s.sbk.gleanRun then s else { s with sbk := { s.sbk with gleanRun := true, gleanRows := 0, gleanWeak := 0 } }).gleanOn rows

/-- The rows that a pass asked for with SBK_CTRL.GLEAN reads in a headland (R397): an open number. -/
def State.gleanHeadland (s : State) : State :=
  if s.sbk.gleanRun && s.sbk.gleanReq && !s.sbk.tripped && !s.sbk.pfRefuse then
    let (d, s) := s.draw
    s.gleanOn (Config.openNeed d).toNat
  else s

/-- A task started, or deferred and counted (R37). A task that still runs from an earlier tick and is due again is considered
like any other (DEDUCED, log entry 229). -/
def State.considerTask (s : State) (mr4 : List (Nat × Mr4)) (i : Nat) : State :=
  let t := s.taskOf i
  if s.now + 3200 + t.wcet ≤ s.wal.next then
    let s : State := { s with fpl := { s.fpl with tasks := s.fpl.tasks.filter (fun x => x.idx != i) ++ [⟨i, true⟩] } }
    if t.kind = taskThermal then s.thermalTask t.arg mr4
    else if t.kind = taskGlean then s.gleanTask t.arg
    else s
  else
    let s := s.bump FPL_HEADLAND_DEFER_TOTAL
    { s with fpl := { s.fpl with tasks := s.fpl.tasks.filter (fun x => x != ⟨i, false⟩) ++ [⟨i, false⟩] } }

/-- The drain ends, and with it the records that still run (R51): tasks, Gleaner rows (R397), reload rows (R180), poisoned
entries (R78), STATUS polls (R214), panel lane tests (R258). -/
def State.headlandStart (s : State) (mr4 : List (Nat × Mr4)) : State :=
  if s.fpl.slot ≠ 540 then s
  else
    let s := s.slotEnd []
    let s : State := { s with fpl := { s.fpl with slot := slotHeadland, slotStart := s.now, running := [] } }
    let wait := (s.fpl.tasks.filter (fun t => !t.started)).map (·.idx)
    let due := (List.range s.taskRecs.length).filter s.taskDue
    let s := (s.byPriority (wait ++ due)).foldl (fun s i => s.considerTask mr4 i) s
    let convert := bit s.thm.convReq 24 == 1
    let s : State := { s with thm := { s.thm with convReq := s.thm.convReq % 2 ^ 24 } }
    ((s.gleanHeadland.reloadRows).refetchEntries.pollDrivers convert).panelTests

/-- R38: CLAIMS of a scheduled resource: a Thresher pipe, a panel lane, a panel return lane or a drill. -/
def TaskRec.claimsScheduled (t : TaskRec) : Bool := t.claims % 32 != 0

/-- R38: a running task stopped 512 cycles before the boundary is due again; it releases its decode pipes, and the jobs on them
end. -/
def State.abortTask (s : State) (i : Nat) : State :=
  if s.fpl.tasks.any (fun t => t.idx == i && t.started) && (s.taskOf i).claimsScheduled then
    let s := s.report Ev.FPL_HEADLAND_OVERRUN [i, 1]
    let s := if bit (s.taskOf i).claims 0 = 1 then s.preemptJobs true else s
    { s with fpl := { s.fpl with tasks := s.fpl.tasks.filter (fun x => x.idx != i) ++ [⟨i, false⟩] } }
  else s

/-- HEADLAND_TASK_ABORT: the tasks that still run, and with them the jobs on encode pipes (R138). -/
def State.headlandAbort (s : State) (running : List Nat) : State :=
  if s.fpl.slot ≠ slotHeadland then s
  else (running.foldl (fun s i => s.abortTask i) (s.preemptJobs false)).ckptPoll

/-- R38 at the boundary: tasks still running go on in the background, or are stopped when they claim a scheduled resource;
those that have ended leave the list. -/
def State.tasksAtBoundary (s : State) (running : List Nat) : State :=
  let s := (s.fpl.tasks.filter (fun t => t.started && running.contains t.idx)).foldl (fun s t =>
    if (s.taskOf t.idx).claimsScheduled then s.abortTask t.idx else s.report Ev.FPL_HEADLAND_OVERRUN [t.idx, 0]) s
  { s with fpl := { s.fpl with tasks := s.fpl.tasks.filter (fun t => !t.started || running.contains t.idx) } }

/-! ### The commit point (R19) -/

/-- The plate budget of the variant in force for the next tick (R113, R164, R166), and the plates that its drill records name. -/
def State.nextBudget (s : State) : Nat :=
  match s.fillPlan with
  | none => 32
  | some p => p.budget (p.variantOf s.nextLevel)
def State.nextMask (s : State) : Nat :=
  match s.fillPlan with
  | none => 0
  | some p => p.drillMask (p.variantOf s.nextLevel)

/-- S5 is reached with the first vote (R412): the S4 drive limit ends (R230), and DRAM runs at its fastest point (R338). -/
def State.enterS5 (s : State) : State :=
  if s.stageNow = 4 ∧ s.fpl.plan.isSome then
    ((((s.wrF ETC_STATUS 6 6 0).stageReached 5).wallJoin).wrF DMC_OP 1 0 s.opMax)
  else s

/-- The commit point: the candidate frozen and judged, the vote cast, the participation set fixed (R164), the tone-map bank
selected (R171), and the way cleared for the first-band fill (R138, R155). A prime RUN record of this headland that started
before it goes on waiting for its rows. -/
def State.commitPoint (s : State) : State :=
  if s.fpl.committed then s
  else
    let s := s.enterS5
    let s : State := { s with fpl := { s.fpl with committed := true } }
    let (s, ready) := s.plateCommitPoint s.nextMask s.nextBudget
    let s := s.wallCommitPoint ready
    let s := ((s.preemptJobs true).ckptPoll).bandRestart
    let s : State := { s with
      thr := { s.thr with rows := [], route := [] }
      drl := { s.drl with
        priming := s.drl.priming && s.fpl.heads.any (fun h => h.1 == 2)
        nextSet := (s.plt.next.mapIdx (fun k u => if u == .skip then 0 else 2 ^ k)).sum &&& s.nextMask } }
    (s.tmSelect).etcCommitPoint

/-! ### The boundary (R309) -/

/-- R39: a boundary before the drain has ended ends the old tick at once. The event names the last slot that completed: the
current one when its end has come, else the one before it. -/
def State.tickEarly (s : State) : State :=
  let last := if s.fpl.slotEnded then s.fpl.slot
    else if s.fpl.slot = 0 then (Config.openCode Ev.FPL_TICK_EARLY 0).toNat else s.fpl.slot - 1
  let s := ((s.report Ev.FPL_TICK_EARLY [last]).thrCut false).carryScan
  { s with
    fpl := { s.fpl with degraded := true, running := [] }
    bnd := { s.bnd with reqs := s.bnd.reqs.filter (fun r => r.2.1) }
    drl := { s.drl with furrow := none } }

/-- The boundary ends the records of slots 541 to 559, which no rule gives another end: an engine that still runs one is cut (R51,
R126), the fill among them. The prime goes on (R155), and a sense window has an end of its own (R225) (DEDUCED, log entry
297). -/
def State.headlandEnd (s : State) : State :=
  State.degradeCheck (([0, 1, 3, 6, 7].filter (fun e => s.fpl.running.contains e)).foldl (fun s e =>
    let (d, s) := s.draw
    let k := ((s.fpl.heads.find? (fun h => h.1 == e)).map (·.2)).getD slotHeadland
    let s := s.overrunIn k e (Config.openNeed d).toNat
    if e = 0 then s.thrCut true else if e = 1 then { s with bnd := { s.bnd with reqs := [] } } else s) s)

/-- R33, R39, R59: the account of the tick that ends. `start` is when it began; `whole` says that a boundary began it. -/
def State.tickAccount (s : State) (start : Nat) (whole : Bool) : State :=
  let len := s.now - start
  let s := if whole then s.wr FPL_TICK_LEN_LAST (satN 32 len) else s
  let s :=
    if s.fpl.slot ≠ slotHeadland then s.tickEarly
    else
      let head := s.now - s.fpl.drainStart
      let s := s.headlandEnd.wr FPL_HEADLAND_LAST (satN 32 head)
      match s.fpl.plan with
      | some p => if head < p.headland then s.report Ev.FPL_HEADLAND_SHORT [] else s
      | none => s
  let bad := s.fpl.degraded
  let run := if bad then s.fpl.degradedRun + 1 else 0
  let s := (s.wr FPL_OVERRUN_LAST s.fpl.overSlots.length).wrF FPL_STATUS 6 6 (b2n bad)
  let s := if bad then s.bump FPL_DEGRADED_TOTAL else s
  let s := if run = 8 then
      (List.range 216).foldl (fun s i => s.queueTest 4 i false) (s.report Ev.FPL_PLAN_UNSOUND [])
    else s
  { s with fpl := { s.fpl with degraded := false, degradedRun := run, overSlots := [], cut := [] } }

/-- A tone-map image of the TONEMAP_DEFAULT part in both banks (Table 16.9). -/
def State.tonemapDefault (s : State) : State :=
  match s.activePart 9 with
  | some b => if tmImageReason b = 0 then { s with drl := { s.drl with bankA := tmImage b, bankB := tmImage b } } else s
  | none => s

/-- Steps 4 to 6 of S5 (Table 16.4), as a cold switch repeats them: stress masters and gains (R197, R190), settings
(R433), and the pins that the plan claims (R464). -/
def State.reloadRest (s : State) : State := (s.reconcile).settings.pinClaims

/-- R412: the plan chosen at S5 comes into force at a boundary, with its Hogel Table. -/
def State.enterPlan (s : State) : State :=
  match s.boot.entering with
  | none => s
  | some (p, r) =>
    let s : State := { s with boot := { s.boot with entering := none } }
    let s := (s.planFresh p).wrF UPD_BOOT_STATUS 12 12 (b2n s.boot.deflt)
    let s := (r.rows.mapIdx (fun i b => (i, b))).foldl (fun s x => s.putHglRow x.1 x.2) s
    let s := ((s.headerInUse r).countDead).wrF HGL_STATUS 0 0 1
    (s.reloadRest).tonemapDefault

/-- R53, R55: an armed switch. A cold one ends the device's membership (R311). -/
def State.switchAtBoundary (s : State) : State :=
  let busy := s.fpl.coldBusy
  let s := s.switchBoundary
  if s.fpl.coldBusy && !busy then s.wrF WAL_STATUS 0 0 0 else s

/-- R57, R158: level and variant for the new tick; a smaller budget reduces the frozen set (R164). -/
def State.levelAtBoundary (s : State) : State :=
  let level := s.nextLevel
  let v := (s.fpl.plan.map (fun p => p.variantOf level)).getD 0
  let old := s.fpl.variant
  let s : State := { s with fpl := { s.fpl with level := level, variant := v, levelReq := none } }
  let s := if v = old then s else s.report Ev.FPL_VARIANT_CHANGE [old, v]
  let keep := (setPlates s.drl.nextSet).filter (fun k => inBudget s.plates s.drl.nextSet s.budgetNow k)
  { s with drl := { s.drl with nextSet := (keep.map (fun k => 2 ^ k)).sum } }

/-- R152: the plates whose source lines the scaler splits in the tick. -/
def State.scalerSplit (s : State) : State :=
  s.wr DRL_SCALER_SPLIT ((s.plates.mapIdx (fun k r =>
    match (s.plateSt k).shownEntry with
    | some e =>
      let w := sourceWidth r e s.window
      if r.scaled && bit s.drl.set k == 1 && decide (4096 < w) && decide (w ≤ 8192) then 2 ^ k else 0
    | none => 0)).sum)

/-- R19: whether the new tick shows new furrows: after a COMMIT with a plan, outside a cold switch, and not in the odd
frames of a HALVE variant (Table 11.5). A REPEAT discards the fill. -/
def State.startTick (s : State) (commit : Bool) : State :=
  let rep := s.fpl.plan.isSome && (!commit || s.fpl.coldBusy || (s.variantNow.halve == 1 && s.fpl.frame % 2 == 1))
  let s := s.thrCut true
  let s : State := if commit then s else
    { s.bandRestart with
      thr := { s.thr with rows := [], route := [] }, drl := { s.drl with reach := [], priming := false } }
  let s := (s.wrF DRL_STATUS 0 0 0).wrF DRL_STATUS 1 1 0
  let s : State := { s with
    fpl := { s.fpl with rep := rep, committed := false, slot := 0, slotStart := s.now, running := [], slotEnded := false, heads := [], stalled := [] }
    drl := { s.drl with set := if rep then 0 else s.drl.nextSet, furrow := none } }
  s.scalerSplit

/-- What blocks report once a tick may be reported again. -/
def State.onceAgain (s : State) : State :=
  { s with
    grn := { s.grn with ceTick := [], poisonTick := [] }
    dmc := { s.dmc with ceTick := [], unprotTick := [] }
    plt := { s.plt with clampTick := [] }
    ev := { s.ev with ovrHost := false, ovrSnd := false }
    sbk := { s.sbk with deniedTick := false, busyTick := false }
    hgl := { s.hgl with limitTick := false }
    lne := { s.lne with fecTick := [] }
    lnk := { s.lnk with said := [] } }

/-- R430: an armed activation whose frame has come; one armed before the reset waits for S5. -/
def State.activationDue (s : State) : Bool :=
  s.actState == actArmed && decide (s.actFrame ≤ s.fpl.frame) && (s.boot.armedHere || s.stageNow == 5 || s.mode == modeRecovery)

/-- The tick boundary. -/
def State.boundary (s : State) (running : List Nat) : State :=
  let start := s.tickStart
  let s : State := s.onceAgain
  let whole := s.fpl.ticked
  let s := s.setFrame (s.fpl.frame + 1)
  let s : State := { s with tickStart := s.now, fpl := { s.fpl with ticked := true } }
  let s := (s.tasksAtBoundary running).tickAccount start whole
  let s := ((s.burTick.etcTick.polarityCheck).thrTick.drlTick.stressTick).lateWindow
  let s := if s.fpl.committed then s.waveBoundary else s
  let (s, kind) := s.wallDecide
  let commit := kind != 2 && s.fpl.committed
  let s := (s.dropPoisonedWaiting).plateBoundary commit
  let s := (List.range 4).foldl (fun s p => s.freeSlots p) s
  let s := if commit then s.tmCommit else s
  let s := (s.enterPlan.switchAtBoundary).laneBoundary
  let s := s.levelAtBoundary.startTick commit
  let s := (s.wallTick).blankAtTick.emitAtTick.blankEnd
  let s := if s.activationDue then s.activate else s
  (s.slotStart 0).restamp

/-! ### Time -/

/-- With no command waiting, one core cycle passes: no requester of the Granary is active in it, so every group's credit is cleared
(R74), the GENLOCK pulse may end (R302), and the DRAM controller runs one cycle (R327). The clock stands while the device is held
in reset. -/
def State.idle (s : State) : State :=
  if s.boot.inReset then s
  else
    let t := State.genlockDrive { s with now := s.now + 1, grn := { s.grn with acc := [] } }
    if t.dramOn then t.dmcCycle else t

/-! ### The commands -/

/-- TICK_BOUNDARY (R309). -/
def execTickBoundary (running : List (Fin 64)) (s : State) : Host.Outcome State Fault Refusal :=
  .next (s.oneCycle fun s => if s.ticking then s.boundary (running.map (·.val)) else s)

/-- FURROW_SLOT_START (R17, R34). -/
def execFurrowSlotStart (slot : Fin 560) (s : State) : Host.Outcome State Fault Refusal :=
  .next (if s.ticking then s.slotStart slot.val else s)

/-- FURROW_SLOT_END (R51, R58, R59). -/
def execFurrowSlotEnd (needs : List (Fin 8 × Nat)) (s : State) : Host.Outcome State Fault Refusal :=
  .next (s.oneCycle fun s => if s.ticking then s.slotEnd (needs.map (fun n => (n.1.val, n.2))) else s)

/-- HEADLAND_START (R37). -/
def execHeadlandStart (mr4 : List (Fin 16 × Mr4)) (s : State) : Host.Outcome State Fault Refusal :=
  .next (s.oneCycle fun s => if s.ticking then s.headlandStart (mr4.map (fun m => (m.1.val, m.2))) else s)

/-- HEADLAND_TASK_ABORT (R38). -/
def execHeadlandTaskAbort (running : List (Fin 64)) (s : State) : Host.Outcome State Fault Refusal :=
  .next (s.oneCycle fun s => if s.ticking then s.headlandAbort (running.map (·.val)) else s)

/-- COMMIT_POINT (R19). -/
def execCommitPoint (s : State) : Host.Outcome State Fault Refusal :=
  .next (s.oneCycle fun s => if s.ticking then s.commitPoint else s)

/-- R55: the cold switch has ended: the device may vote again. -/
def State.coldEnd (s : State) : State := { s with fpl := { s.fpl with coldBusy := false } }

/-- COLD_SWITCH_DONE (R55): the table, masters, gains and settings are reloaded as at S5, and the device may vote again. -/
def execColdSwitchDone (s : State) : Host.Outcome State Fault Refusal :=
  .next <| s.oneCycle fun s =>
    if !s.fpl.coldBusy then s
    else
      let r := s.loadTable
      if r.2 then r.1.reloadRest.coldEnd else r.1

end Sys2Proof.Machine
end

