-- ==== Sys2Proof/Machine/Dispatch.lean ====
section
/-! DEFINITION. The dispatch: one arm per command, each one direct call of its meaning. -/
namespace Sys2Proof.Machine

def exec (i : Instr) (s : State) : Host.Outcome State Fault Refusal :=
  match i with
  | .registerWrite a0 a1 a2 => Sys2Proof.Machine.execRegisterWrite a0 a1 a2 s
  | .tickBoundary a0 => Sys2Proof.Machine.execTickBoundary a0 s
  | .furrowSlotStart a0 => Sys2Proof.Machine.execFurrowSlotStart a0 s
  | .furrowSlotEnd a0 => Sys2Proof.Machine.execFurrowSlotEnd a0 s
  | .headlandStart a0 => Sys2Proof.Machine.execHeadlandStart a0 s
  | .headlandTaskAbort a0 => Sys2Proof.Machine.execHeadlandTaskAbort a0 s
  | .commitPoint => Sys2Proof.Machine.execCommitPoint s
  | .fplStageValidate a0 => Sys2Proof.Machine.execFplStageValidate a0 s
  | .fplStageAbort a0 => Sys2Proof.Machine.execFplStageAbort a0 s
  | .planValidationDone => Sys2Proof.Machine.execPlanValidationDone s
  | .fplSwitchArm a0 => Sys2Proof.Machine.execFplSwitchArm a0 s
  | .fplSwitchNext a0 => Sys2Proof.Machine.execFplSwitchNext a0 s
  | .fplSwitchDisarm a0 => Sys2Proof.Machine.execFplSwitchDisarm a0 s
  | .coldSwitchDone => Sys2Proof.Machine.execColdSwitchDone s
  | .plotRequest a0 => Sys2Proof.Machine.execPlotRequest a0 s
  | .plotRelease a0 a1 a2 a3 => Sys2Proof.Machine.execPlotRelease a0 a1 a2 a3 s
  | .plotAccessComplete a0 => Sys2Proof.Machine.execPlotAccessComplete a0 s
  | .plotHandoverAccept a0 a1 => Sys2Proof.Machine.execPlotHandoverAccept a0 a1 s
  | .plotHandoverTimeout a0 => Sys2Proof.Machine.execPlotHandoverTimeout a0 s
  | .grnAllocStall a0 => Sys2Proof.Machine.execGrnAllocStall a0 s
  | .granaryAccess a0 a1 a2 a3 a4 a5 a6 a7 a8 => Sys2Proof.Machine.execGranaryAccess a0 a1 a2 a3 a4 a5 a6 a7 a8 s
  | .eccWriteback => Sys2Proof.Machine.execEccWriteback s
  | .granaryBist a0 => Sys2Proof.Machine.execGranaryBist a0 s
  | .plotAudit => Sys2Proof.Machine.execPlotAudit s
  | .grnSelftestReq a0 => Sys2Proof.Machine.execGrnSelftestReq a0 s
  | .plotSelftest a0 => Sys2Proof.Machine.execPlotSelftest a0 s
  | .plotSelftestDone a0 a1 => Sys2Proof.Machine.execPlotSelftestDone a0 a1 s
  | .grnClientGrantsRead => Sys2Proof.Machine.execGrnClientGrantsRead s
  | .sheafBlockReceive a0 a1 => Sys2Proof.Machine.execSheafBlockReceive a0 a1 s
  | .frameRecordReceive a0 a1 => Sys2Proof.Machine.execFrameRecordReceive a0 a1 s
  | .updateRecordReceive a0 a1 => Sys2Proof.Machine.execUpdateRecordReceive a0 a1 s
  | .updateComplete a0 => Sys2Proof.Machine.execUpdateComplete a0 s
  | .mapCopyDone a0 => Sys2Proof.Machine.execMapCopyDone a0 s
  | .pltCtrlResync => Sys2Proof.Machine.execPltCtrlResync s
  | .pltCtrlDropPending => Sys2Proof.Machine.execPltCtrlDropPending s
  | .dmcStreamRecord a0 a1 a2 => Sys2Proof.Machine.execDmcStreamRecord a0 a1 a2 s
  | .streamRowStaged a0 a1 => Sys2Proof.Machine.execStreamRowStaged a0 a1 s
  | .thrDecRecord a0 => Sys2Proof.Machine.execThrDecRecord a0 s
  | .thrBlockDecode a0 a1 => Sys2Proof.Machine.execThrBlockDecode a0 a1 s
  | .thrJobTailWrite a0 => Sys2Proof.Machine.execThrJobTailWrite a0 s
  | .thrJobStart a0 => Sys2Proof.Machine.execThrJobStart a0 s
  | .thrJobBlock a0 => Sys2Proof.Machine.execThrJobBlock a0 s
  | .thrCtrlJobAbort => Sys2Proof.Machine.execThrCtrlJobAbort s
  | .thrJobRingSizeWrite a0 => Sys2Proof.Machine.execThrJobRingSizeWrite a0 s
  | .pltBwRecord a0 => Sys2Proof.Machine.execPltBwRecord a0 s
  | .bandWriteBlock => Sys2Proof.Machine.execBandWriteBlock s
  | .drillRecord a0 => Sys2Proof.Machine.execDrillRecord a0 s
  | .drillReachLoad a0 a1 => Sys2Proof.Machine.execDrillReachLoad a0 a1 s
  | .drillRayComplete a0 a1 a2 a3 a4 a5 => Sys2Proof.Machine.execDrillRayComplete a0 a1 a2 a3 a4 a5 s
  | .drlLaneTest a0 => Sys2Proof.Machine.execDrlLaneTest a0 s
  | .drillLaneTestDone a0 a1 a2 => Sys2Proof.Machine.execDrillLaneTestDone a0 a1 a2 s
  | .drlTmArm a0 => Sys2Proof.Machine.execDrlTmArm a0 s
  | .drlTmDisarm a0 => Sys2Proof.Machine.execDrlTmDisarm a0 s
  | .drlTmLoad a0 => Sys2Proof.Machine.execDrlTmLoad a0 s
  | .drlTmLoadDone => Sys2Proof.Machine.execDrlTmLoadDone s
  | .drlTmDataAccess a0 => Sys2Proof.Machine.execDrlTmDataAccess a0 s
  | .drlTmBankWrite a0 a1 => Sys2Proof.Machine.execDrlTmBankWrite a0 a1 s
  | .hglCtrlReload => Sys2Proof.Machine.execHglCtrlReload s
  | .hglCtrlReloadFactory => Sys2Proof.Machine.execHglCtrlReloadFactory s
  | .hglCtrlCkptNow => Sys2Proof.Machine.execHglCtrlCkptNow s
  | .hglPrefetchRecord a0 => Sys2Proof.Machine.execHglPrefetchRecord a0 s
  | .flashSectorRewrite a0 => Sys2Proof.Machine.execFlashSectorRewrite a0 s
  | .foldWindowEnd => Sys2Proof.Machine.execFoldWindowEnd s
  | .foldPortion => Sys2Proof.Machine.execFoldPortion s
  | .checkpointProgramDone a0 => Sys2Proof.Machine.execCheckpointProgramDone a0 s
  | .etcColRecord a0 => Sys2Proof.Machine.execEtcColRecord a0 s
  | .etcTxRecord a0 a1 => Sys2Proof.Machine.execEtcTxRecord a0 a1 s
  | .etcTxRecordEnd => Sys2Proof.Machine.execEtcTxRecordEnd s
  | .etcRowScan a0 => Sys2Proof.Machine.execEtcRowScan a0 s
  | .statusPacketReceive a0 a1 => Sys2Proof.Machine.execStatusPacketReceive a0 a1 s
  | .panelDriverLost a0 => Sys2Proof.Machine.execPanelDriverLost a0 s
  | .panelDriverRestored a0 => Sys2Proof.Machine.execPanelDriverRestored a0 s
  | .senseWindow a0 => Sys2Proof.Machine.execSenseWindow a0 s
  | .senseWindowEnd => Sys2Proof.Machine.execSenseWindowEnd s
  | .senseResReceive a0 a1 => Sys2Proof.Machine.execSenseResReceive a0 a1 s
  | .etcSupplyUp => Sys2Proof.Machine.execEtcSupplyUp s
  | .etcSupplyDown => Sys2Proof.Machine.execEtcSupplyDown s
  | .etcSupplyClearLockout => Sys2Proof.Machine.execEtcSupplyClearLockout s
  | .supplyPgoodRise a0 => Sys2Proof.Machine.execSupplyPgoodRise a0 s
  | .supplySeqDelayEnd => Sys2Proof.Machine.execSupplySeqDelayEnd s
  | .supplyPgoodTimeout => Sys2Proof.Machine.execSupplyPgoodTimeout s
  | .supplyPgoodFault a0 => Sys2Proof.Machine.execSupplyPgoodFault a0 s
  | .supplyRetryTimer => Sys2Proof.Machine.execSupplyRetryTimer s
  | .dischargeAllOpenEnd => Sys2Proof.Machine.execDischargeAllOpenEnd s
  | .etcCtrlBlank a0 => Sys2Proof.Machine.execEtcCtrlBlank a0 s
  | .powerLossTrigger => Sys2Proof.Machine.execPowerLossTrigger s
  | .powerLossSequenceEnd => Sys2Proof.Machine.execPowerLossSequenceEnd s
  | .laneSignalDetect a0 a1 => Sys2Proof.Machine.execLaneSignalDetect a0 a1 s
  | .trainAttemptEnd a0 => Sys2Proof.Machine.execTrainAttemptEnd a0 s
  | .trainBackoffEnd a0 => Sys2Proof.Machine.execTrainBackoffEnd a0 s
  | .wakeLock a0 a1 => Sys2Proof.Machine.execWakeLock a0 a1 s
  | .wakeTimeout a0 => Sys2Proof.Machine.execWakeTimeout a0 s
  | .eqRequestReceive a0 a1 => Sys2Proof.Machine.execEqRequestReceive a0 a1 s
  | .fomHistogramDone a0 a1 a2 a3 a4 => Sys2Proof.Machine.execFomHistogramDone a0 a1 a2 a3 a4 s
  | .eqDone a0 => Sys2Proof.Machine.execEqDone a0 s
  | .eqTimeout a0 => Sys2Proof.Machine.execEqTimeout a0 s
  | .alignDone a0 a1 => Sys2Proof.Machine.execAlignDone a0 a1 s
  | .alignTimeout a0 a1 => Sys2Proof.Machine.execAlignTimeout a0 a1 s
  | .handshakeReceive a0 a1 => Sys2Proof.Machine.execHandshakeReceive a0 a1 s
  | .handshakeSilence a0 => Sys2Proof.Machine.execHandshakeSilence a0 s
  | .peerSilentRetry a0 => Sys2Proof.Machine.execPeerSilentRetry a0 s
  | .lossOfSignal a0 => Sys2Proof.Machine.execLossOfSignal a0 s
  | .fecUncorrectable a0 => Sys2Proof.Machine.execFecUncorrectable a0 s
  | .laneCorrectedLimit a0 a1 => Sys2Proof.Machine.execLaneCorrectedLimit a0 a1 s
  | .laneSelftestDone a0 a1 => Sys2Proof.Machine.execLaneSelftestDone a0 a1 s
  | .lnePortRetrain a0 => Sys2Proof.Machine.execLnePortRetrain a0 s
  | .lnePortClearExclude a0 => Sys2Proof.Machine.execLnePortClearExclude a0 s
  | .lnePortEnableWrite a0 a1 => Sys2Proof.Machine.execLnePortEnableWrite a0 a1 s
  | .lnePortModeWrite a0 a1 => Sys2Proof.Machine.execLnePortModeWrite a0 a1 s
  | .lneLaneLoopWrite a0 a1 => Sys2Proof.Machine.execLneLaneLoopWrite a0 a1 s
  | .lnePrbsClear a0 => Sys2Proof.Machine.execLnePrbsClear a0 s
  | .lnePrbsInject a0 => Sys2Proof.Machine.execLnePrbsInject a0 s
  | .lnePrbsErrRead a0 => Sys2Proof.Machine.execLnePrbsErrRead a0 s
  | .lnePrbsBitsLoRead a0 => Sys2Proof.Machine.execLnePrbsBitsLoRead a0 s
  | .lneSelftestReq a0 => Sys2Proof.Machine.execLneSelftestReq a0 s
  | .directionQuietRequest a0 => Sys2Proof.Machine.execDirectionQuietRequest a0 s
  | .directionSleepRequest a0 => Sys2Proof.Machine.execDirectionSleepRequest a0 s
  | .directionWakeRequest a0 => Sys2Proof.Machine.execDirectionWakeRequest a0 s
  | .sleepLivenessWake a0 => Sys2Proof.Machine.execSleepLivenessWake a0 s
  | .powerEntryComplete a0 a1 => Sys2Proof.Machine.execPowerEntryComplete a0 a1 s
  | .sleepResidencyEnd a0 => Sys2Proof.Machine.execSleepResidencyEnd a0 s
  | .wakeRetrainEnd a0 a1 => Sys2Proof.Machine.execWakeRetrainEnd a0 a1 s
  | .feLoopRequest a0 a1 => Sys2Proof.Machine.execFeLoopRequest a0 a1 s
  | .feLoopEnd a0 => Sys2Proof.Machine.execFeLoopEnd a0 s
  | .panelLaneTrainDone a0 => Sys2Proof.Machine.execPanelLaneTrainDone a0 s
  | .panelLaneNoStatus a0 a1 => Sys2Proof.Machine.execPanelLaneNoStatus a0 a1 s
  | .panelLaneRetry a0 => Sys2Proof.Machine.execPanelLaneRetry a0 s
  | .lnePlRetrain a0 => Sys2Proof.Machine.execLnePlRetrain a0 s
  | .flitReceive a0 a1 a2 => Sys2Proof.Machine.execFlitReceive a0 a1 a2 s
  | .nakRepeatTimer a0 => Sys2Proof.Machine.execNakRepeatTimer a0 s
  | .ackNopTimer a0 => Sys2Proof.Machine.execAckNopTimer a0 s
  | .replayTimeout a0 => Sys2Proof.Machine.execReplayTimeout a0 s
  | .creditSyncReceive a0 a1 => Sys2Proof.Machine.execCreditSyncReceive a0 a1 s
  | .creditSyncAckReceive a0 a1 => Sys2Proof.Machine.execCreditSyncAckReceive a0 a1 s
  | .creditSyncResend a0 => Sys2Proof.Machine.execCreditSyncResend a0 s
  | .creditSyncTimeout a0 => Sys2Proof.Machine.execCreditSyncTimeout a0 s
  | .lnkPortSyncNow a0 => Sys2Proof.Machine.execLnkPortSyncNow a0 s
  | .lnkPortAllocWrite a0 a1 a2 => Sys2Proof.Machine.execLnkPortAllocWrite a0 a1 a2 s
  | .messageReceive a0 a1 => Sys2Proof.Machine.execMessageReceive a0 a1 s
  | .messageForwardStart a0 a1 => Sys2Proof.Machine.execMessageForwardStart a0 a1 s
  | .sourceWeightPeriod => Sys2Proof.Machine.execSourceWeightPeriod s
  | .beaconOriginate => Sys2Proof.Machine.execBeaconOriginate s
  | .beaconReceive a0 a1 => Sys2Proof.Machine.execBeaconReceive a0 a1 s
  | .assignStart => Sys2Proof.Machine.execAssignStart s
  | .assignReceive a0 a1 => Sys2Proof.Machine.execAssignReceive a0 a1 s
  | .acceptReceive a0 a1 => Sys2Proof.Machine.execAcceptReceive a0 a1 s
  | .refuseReceive a0 => Sys2Proof.Machine.execRefuseReceive a0 s
  | .doneReceive a0 a1 => Sys2Proof.Machine.execDoneReceive a0 a1 s
  | .lostReceive => Sys2Proof.Machine.execLostReceive s
  | .assignTimeout => Sys2Proof.Machine.execAssignTimeout s
  | .doneTimeout => Sys2Proof.Machine.execDoneTimeout s
  | .lnkCtrlRediscover => Sys2Proof.Machine.execLnkCtrlRediscover s
  | .mgmtReqReceive a0 => Sys2Proof.Machine.execMgmtReqReceive a0 s
  | .mgmtReqPerform => Sys2Proof.Machine.execMgmtReqPerform s
  | .tickMessageReceive a0 a1 => Sys2Proof.Machine.execTickMessageReceive a0 a1 s
  | .decisionReceive a0 a1 => Sys2Proof.Machine.execDecisionReceive a0 a1 s
  | .voteReceive a0 a1 => Sys2Proof.Machine.execVoteReceive a0 a1 s
  | .memberReceive a0 => Sys2Proof.Machine.execMemberReceive a0 s
  | .voteDeadline => Sys2Proof.Machine.execVoteDeadline s
  | .rootDecide => Sys2Proof.Machine.execRootDecide s
  | .masterClaim => Sys2Proof.Machine.execMasterClaim s
  | .rootTakeover => Sys2Proof.Machine.execRootTakeover s
  | .genlockEdge => Sys2Proof.Machine.execGenlockEdge s
  | .genlockEdgeMissed => Sys2Proof.Machine.execGenlockEdgeMissed s
  | .dramRequest a0 a1 a2 a3 a4 a5 a6 => Sys2Proof.Machine.execDramRequest a0 a1 a2 a3 a4 a5 a6 s
  | .dramReadResponse a0 a1 => Sys2Proof.Machine.execDramReadResponse a0 a1 s
  | .refreshInterval a0 => Sys2Proof.Machine.execRefreshInterval a0 s
  | .mr4Stale a0 => Sys2Proof.Machine.execMr4Stale a0 s
  | .pageIdleTimer a0 a1 => Sys2Proof.Machine.execPageIdleTimer a0 a1 s
  | .selfRefreshIdle => Sys2Proof.Machine.execSelfRefreshIdle s
  | .selfRefreshExit => Sys2Proof.Machine.execSelfRefreshExit s
  | .dmcFreqReq a0 => Sys2Proof.Machine.execDmcFreqReq a0 s
  | .freqChangeEntry => Sys2Proof.Machine.execFreqChangeEntry s
  | .freqChangeDone => Sys2Proof.Machine.execFreqChangeDone s
  | .freqWindowClose => Sys2Proof.Machine.execFreqWindowClose s
  | .dmcSelftestReq a0 => Sys2Proof.Machine.execDmcSelftestReq a0 s
  | .dramRowTestDone a0 a1 a2 a3 => Sys2Proof.Machine.execDramRowTestDone a0 a1 a2 a3 s
  | .burTailWrite a0 => Sys2Proof.Machine.execBurTailWrite a0 s
  | .burNop => Sys2Proof.Machine.execBurNop s
  | .burFill a0 => Sys2Proof.Machine.execBurFill a0 s
  | .burCopy a0 => Sys2Proof.Machine.execBurCopy a0 s
  | .burStipple a0 => Sys2Proof.Machine.execBurStipple a0 s
  | .burCtrlResume => Sys2Proof.Machine.execBurCtrlResume s
  | .burCtrlAbort => Sys2Proof.Machine.execBurCtrlAbort s
  | .burCtrlEnWrite a0 => Sys2Proof.Machine.execBurCtrlEnWrite a0 s
  | .burRingSizeWrite a0 => Sys2Proof.Machine.execBurRingSizeWrite a0 s
  | .burRingLoWrite a0 => Sys2Proof.Machine.execBurRingLoWrite a0 s
  | .thmConversionResult a0 a1 => Sys2Proof.Machine.execThmConversionResult a0 a1 s
  | .thmConversionTimeout a0 => Sys2Proof.Machine.execThmConversionTimeout a0 s
  | .thmPeriodicConversion a0 => Sys2Proof.Machine.execThmPeriodicConversion a0 s
  | .thmConvReq a0 => Sys2Proof.Machine.execThmConvReq a0 s
  | .thmSelftestReq a0 => Sys2Proof.Machine.execThmSelftestReq a0 s
  | .thmSelftestDone a0 a1 a2 => Sys2Proof.Machine.execThmSelftestDone a0 a1 a2 s
  | .thmSensorStale a0 => Sys2Proof.Machine.execThmSensorStale a0 s
  | .thmLevelRelease => Sys2Proof.Machine.execThmLevelRelease s
  | .thmRateStepEnd => Sys2Proof.Machine.execThmRateStepEnd s
  | .thmHoldRelease => Sys2Proof.Machine.execThmHoldRelease s
  | .thmOvertempClear => Sys2Proof.Machine.execThmOvertempClear s
  | .thmOpRestore => Sys2Proof.Machine.execThmOpRestore s
  | .thmPanelUnknown => Sys2Proof.Machine.execThmPanelUnknown s
  | .thermalTrip a0 => Sys2Proof.Machine.execThermalTrip a0 s
  | .sbkCtrlStore => Sys2Proof.Machine.execSbkCtrlStore s
  | .sbkCtrlGlean => Sys2Proof.Machine.execSbkCtrlGlean s
  | .sbkStoreComplete a0 => Sys2Proof.Machine.execSbkStoreComplete a0 s
  | .sbkRecall a0 a1 => Sys2Proof.Machine.execSbkRecall a0 a1 s
  | .sbkDataAccess a0 a1 a2 => Sys2Proof.Machine.execSbkDataAccess a0 a1 a2 s
  | .sbkPwUnlockR => Sys2Proof.Machine.execSbkPwUnlockR s
  | .sbkPwUnlockW => Sys2Proof.Machine.execSbkPwUnlockW s
  | .sbkPwSetR => Sys2Proof.Machine.execSbkPwSetR s
  | .sbkPwSetW => Sys2Proof.Machine.execSbkPwSetW s
  | .sbkPwLock => Sys2Proof.Machine.execSbkPwLock s
  | .sbkCntLoRead => Sys2Proof.Machine.execSbkCntLoRead s
  | .operatingSecond => Sys2Proof.Machine.execOperatingSecond s
  | .gleanPassDone a0 a1 => Sys2Proof.Machine.execGleanPassDone a0 a1 s
  | .powerOnReset => Sys2Proof.Machine.execPowerOnReset s
  | .pinReset a0 => Sys2Proof.Machine.execPinReset a0 s
  | .gblReset a0 => Sys2Proof.Machine.execGblReset a0 s
  | .watchdogExpiry => Sys2Proof.Machine.execWatchdogExpiry s
  | .pfailRestart => Sys2Proof.Machine.execPfailRestart s
  | .resetEffect => Sys2Proof.Machine.execResetEffect s
  | .resetRelease a0 a1 a2 => Sys2Proof.Machine.execResetRelease a0 a1 a2 s
  | .stageAdvance a0 => Sys2Proof.Machine.execStageAdvance a0 s
  | .updCtrlResumeStage => Sys2Proof.Machine.execUpdCtrlResumeStage s
  | .updCtrlRecoveryReq => Sys2Proof.Machine.execUpdCtrlRecoveryReq s
  | .updCtrlLoadGo => Sys2Proof.Machine.execUpdCtrlLoadGo s
  | .updCtrlSowAbort => Sys2Proof.Machine.execUpdCtrlSowAbort s
  | .updLoadDataWrite a0 => Sys2Proof.Machine.execUpdLoadDataWrite a0 s
  | .updActFrameLoRead => Sys2Proof.Machine.execUpdActFrameLoRead s
  | .sowBlockReceive a0 a1 => Sys2Proof.Machine.execSowBlockReceive a0 a1 s
  | .sowBlockProgrammed a0 a1 => Sys2Proof.Machine.execSowBlockProgrammed a0 a1 s
  | .sowAckReceive a0 a1 => Sys2Proof.Machine.execSowAckReceive a0 a1 s
  | .sowResendTimer a0 a1 => Sys2Proof.Machine.execSowResendTimer a0 a1 s
  | .sowQueryReceive a0 => Sys2Proof.Machine.execSowQueryReceive a0 s
  | .sowArmReceive a0 => Sys2Proof.Machine.execSowArmReceive a0 s
  | .sowCancelReceive a0 => Sys2Proof.Machine.execSowCancelReceive a0 s
  | .healthConfirm => Sys2Proof.Machine.execHealthConfirm s
  | .healthTimeout => Sys2Proof.Machine.execHealthTimeout s
  | .proofRedraw => Sys2Proof.Machine.execProofRedraw s
  | .spiRegWrite a0 a1 a2 => Sys2Proof.Machine.execSpiRegWrite a0 a1 a2 s
  | .spiRegRead a0 a1 a2 => Sys2Proof.Machine.execSpiRegRead a0 a1 a2 s
  | .spiRegWriteFixed a0 a1 a2 => Sys2Proof.Machine.execSpiRegWriteFixed a0 a1 a2 s
  | .spiRegReadFixed a0 a1 a2 => Sys2Proof.Machine.execSpiRegReadFixed a0 a1 a2 s
  | .spiMemWrite a0 a1 a2 => Sys2Proof.Machine.execSpiMemWrite a0 a1 a2 s
  | .spiMemRead a0 a1 a2 a3 => Sys2Proof.Machine.execSpiMemRead a0 a1 a2 a3 s
  | .spiStatus => Sys2Proof.Machine.execSpiStatus s
  | .spiUnknownOpcode => Sys2Proof.Machine.execSpiUnknownOpcode s
  | .mbxClaim a0 => Sys2Proof.Machine.execMbxClaim a0 s
  | .mbxRelease a0 => Sys2Proof.Machine.execMbxRelease a0 s
  | .mbxIdleRelease => Sys2Proof.Machine.execMbxIdleRelease s
  | .mbxIdentify a0 a1 => Sys2Proof.Machine.execMbxIdentify a0 a1 s
  | .mbxShutdown a0 a1 => Sys2Proof.Machine.execMbxShutdown a0 a1 s
  | .mbxStore a0 a1 => Sys2Proof.Machine.execMbxStore a0 a1 s
  | .mbxFlashRead a0 a1 => Sys2Proof.Machine.execMbxFlashRead a0 a1 s
  | .mbxPlanWrite a0 a1 a2 => Sys2Proof.Machine.execMbxPlanWrite a0 a1 a2 s
  | .mbxPlanSelect a0 a1 => Sys2Proof.Machine.execMbxPlanSelect a0 a1 s
  | .mbxFeatureEnable a0 a1 => Sys2Proof.Machine.execMbxFeatureEnable a0 a1 s
  | .mbxFeatureDisable a0 a1 => Sys2Proof.Machine.execMbxFeatureDisable a0 a1 s
  | .mbxThrJob a0 a1 => Sys2Proof.Machine.execMbxThrJob a0 a1 s
  | .mbxSelftest a0 a1 => Sys2Proof.Machine.execMbxSelftest a0 a1 s
  | .mbxLogRead a0 a1 => Sys2Proof.Machine.execMbxLogRead a0 a1 s
  | .mbxLogExport a0 a1 => Sys2Proof.Machine.execMbxLogExport a0 a1 s
  | .mbxDiagCapture a0 a1 => Sys2Proof.Machine.execMbxDiagCapture a0 a1 s
  | .mbxCalWrite a0 a1 a2 => Sys2Proof.Machine.execMbxCalWrite a0 a1 a2 s
  | .mbxClearLog a0 a1 => Sys2Proof.Machine.execMbxClearLog a0 a1 s
  | .gblGpioOwnWrite a0 a1 => Sys2Proof.Machine.execGblGpioOwnWrite a0 a1 s
  | .gblEvqRdWrite a0 => Sys2Proof.Machine.execGblEvqRdWrite a0 s
  | .gblEvqLostRead => Sys2Proof.Machine.execGblEvqLostRead s
  | .eventMessageSend => Sys2Proof.Machine.execEventMessageSend s
  | .flashLogAppend a0 => Sys2Proof.Machine.execFlashLogAppend a0 s
  | .fplFrameLoRead => Sys2Proof.Machine.execFplFrameLoRead s
  | .hglStressFramesLoRead => Sys2Proof.Machine.execHglStressFramesLoRead s
  | .hglCurveDataRead => Sys2Proof.Machine.execHglCurveDataRead s
  | .idleBlockReceive a0 => Sys2Proof.Machine.execIdleBlockReceive a0 s
  | .vddNvmLoss a0 => Sys2Proof.Machine.execVddNvmLoss a0 s
  | .wakeDetectTimeout a0 => Sys2Proof.Machine.execWakeDetectTimeout a0 s
  | .panelLaneTrainTimeout a0 => Sys2Proof.Machine.execPanelLaneTrainTimeout a0 s

end Sys2Proof.Machine
end

