-- ==== Sys2Proof/Machine/Step.lean ====
section
/-! DEFINITION. One step: the front command's effect, or the idle step. -/
namespace Sys2Proof.Machine

/-- The command at the front of the queue acts on the state with the rest of the queue; with no command, a core cycle
passes. -/
def step (s : State) : Host.Outcome State Fault Refusal :=
  match s.pending with
  | [] => .next s.idle
  | c :: rest => exec c { s with pending := rest }

/-- The command that a word spells, put at the front of the queue. -/
def State.withFetchWord (s : State) (nbits w : Nat) : State :=
  match decodeTableWord nbits w with
  | some c => { s with pending := c :: s.pending }
  | none => s

end Sys2Proof.Machine
end

