-- ==== Sys2Proof/Safety.lean ====
section
/-! DEFINITION. What claims speak of: the canonical form of every memory and of the register file, the resource claims, the
event ring's bounds, a dark panel, and the parts of the state that a frame names. -/
namespace Sys2Proof.Machine

/-- A memory in canonical form, `d` being what an unlisted byte reads as: addresses strictly rise, and no entry holds `d`. -/
def Memory.wf (d : Byte) (m : List Host.Cell) : Bool := swf (fun _ => d) m

/-- The Seedbank's cells in canonical form: the SRAM, the two copies, and the snapshot of a running store. -/
def Sbk.wf (b : Sbk) : Bool :=
  Memory.wf 0#8 b.sram && Memory.wf 0#8 b.copyA.image && Memory.wf 0#8 b.copyB.image &&
    match b.store with
    | none => true
    | some r => Memory.wf 0#8 r.image

/-- Every memory of the device is in canonical form: Granary and DRAM, the two flash devices, and the Seedbank's cells. -/
def State.memWf (s : State) : Bool :=
  Memory.wf 0#8 s.mem && Memory.wf 0xFF#8 s.flash0 && Memory.wf 0xFF#8 s.flash1 && s.sbk.wf

/-- The register file is in canonical form: addresses strictly rise, and no register at its reset value is listed. -/
def State.regsWf (s : State) : Bool := swf (fun a => BitVec.ofNat 32 (regReset a)) s.regs

/-- R60: every claim names a feature, and no resource is claimed twice. -/
def State.claimsOk (s : State) : Bool :=
  s.fpl.claims.all (fun c => c.feature != 0) && decide ((s.fpl.claims.map (fun c => (c.cls, c.idx))).Nodup)

/-- R452: no count of ring records exceeds the ring. -/
def State.ringOk (s : State) : Bool :=
  decide (s.ev.present ≤ ringSize) && decide (s.ev.hostUnread ≤ ringSize) && decide (s.ev.sndUnread ≤ ringSize)

/-- R11: the frame number has 48 bits. -/
def State.frameOk (s : State) : Bool := decide (s.fpl.frame < 2 ^ 48)

/-- The panel emits nothing: EMIT_EN is low. -/
def State.dark (s : State) : Bool := s.rdF ETC_STATUS 0 0 == 0

/-- The sticky bit of an event is set in its block's EVENT_STATUS register (R451). -/
def State.saw (s : State) (code : Nat) : Bool :=
  match stickyBit code with
  | some b => (s.rd (eventStatusReg (code / 256))).testBit b
  | none => false

/-- No core cycle is under way: events are recorded at once. -/
def State.quiet (s : State) : Bool := s.ev.cycle.isNone

/-- The state in which a command's effect starts when it takes a core cycle of its own (R452): its events wait for their
order. -/
def State.opened (s : State) : State :=
  match s.ev.cycle with
  | some _ => s
  | none => { s with ev := { s.ev with cycle := some [] } }

/-- The bank serves a requester: every one but an engine that the bank's wheel never names (R73). -/
def State.bankServes (s : State) (req : GrnReq) (b : Nat) : Bool :=
  match req with
  | .engine e => s.engineReaches e.val b
  | _ => true

/-- R136: where the next block of a decode job lies, and how many bytes of the source are its own. -/
def State.jobSpan (s : State) (j : ThrJob) : Nat × Nat :=
  let a := leAt j.desc 8 5 + j.src
  (a, min (leAt j.desc 24 4 - j.src) (32 + s.memLe (a + 14) 2))

/-- The next block of a decode job, decoded. -/
def State.jobDecoded (s : State) (j : ThrJob) : Decoded :=
  decodeSheaf (s.memGet (s.jobSpan j).1 (s.jobSpan j).2) (some (byteAt j.desc 2)) none none

/-- The source bytes consumed once the next block of a decode job is. -/
def State.jobAfter (s : State) (j : ThrJob) : Nat :=
  j.src + ceilDiv (32 + leAt (s.memGet (s.jobSpan j).1 (s.jobSpan j).2) 14 2) 32 * 32

/-- The chunk of an encode job's next block. -/
def State.jobChunk (s : State) (j : ThrJob) : Bytes := (jobSource j.desc j.blocks).flatMap (fun q => s.memGet q.1 q.2)

/-- Where the next output of a job goes. -/
def ThrJob.dst (j : ThrJob) : Nat := leAt j.desc 16 5 + j.out

/-- The Steward's writes reach the Seedbank's SRAM at once: it takes writes, and no store runs (R382, R386, R389). -/
def State.sramFree (s : State) : Bool := !s.sramRefused && s.sbk.store.isNone

/-- A reset that waits for the down sequence can be asked for: none is, and no power loss runs or has ended (R405). -/
def State.resetFree (s : State) : Bool :=
  !s.boot.inReset && s.boot.request.isNone && s.etc.seq != .pfail && s.rdF ETC_STATUS 5 5 == 0

/-- No block of a sown image is being programmed, so a reset cuts no program of the image flash (R417). -/
def State.flashIdle (s : State) : Bool := s.boot.owed.all (fun o => o.programmed)

/-- The next stage may be entered: out of reset, not shut down, not held, and no reset asked for (R408). -/
def State.advances (s : State) : Bool :=
  !s.boot.inReset && !s.boot.shutdown && !s.isHeld && s.boot.request.isNone

/-- The mailbox takes a command of a requester at once (R448, R449): no other holds it, none runs, the stage is late enough,
and a running store leaves room for the command's writes. -/
def State.mbxReady (s : State) (who : Requester) (op stage : Nat) : Bool :=
  !s.mbxDenied who && s.hst.running.isNone && !s.mbxBlocked op && decide (stage ≤ s.stageNow)

/-- The mailbox's last command has ended with a status and a length (Table 17.7). -/
def State.mbxEnded (s : State) (st len : Nat) : Bool := s.rd UPD_MBX_STATUS == st + 2 ^ 8 + len * 2 ^ 16

/-- The bytes of the Burin's command at BUR_HEAD (R346). -/
def State.burNext (s : State) : Bytes := s.memGet (s.burRing + 32 * s.rdF BUR_HEAD 11 0) 32

/-- The Burin may fetch the command at BUR_HEAD, and its line carries no poison. -/
def State.burFetchOk (s : State) : Bool :=
  s.burReady && s.rangeMay clBurin (s.burRing + 32 * s.rdF BUR_HEAD 11 0) 32 &&
    !s.rangePoisoned (s.burRing + 32 * s.rdF BUR_HEAD 11 0) 32

/-- Every command is answered with a next state. -/
def Answers (c : Instr) (s : State) : Prop := ∃ t : State, exec c s = .next t

/-! ### The parts of the state that a frame names -/

/-- The register groups: the register map of each block of Table 0.4, and the registers that every event writes. -/
inductive RegGroup where
  | gbl | fpl | grn | plt | thr | drl | hgl | etc | lne | lnk | wal | dmc | bur | thm | sbk | upd
  /-- The EVENT_STATUS registers, GBL_IRQ_STATUS and the ring's GBL_EVQ_WR, _SEQ, _RD and _LOST (R451, R452). -/
  | events
  /-- Addresses outside the register space. -/
  | none
deriving DecidableEq, Repr

/-- The registers of the group `events`. -/
def eventRegs : List Nat :=
  [GBL_EVENT_STATUS, FPL_EVENT_STATUS, GRN_EVENT_STATUS, PLT_EVENT_STATUS, THR_EVENT_STATUS, DRL_EVENT_STATUS,
   HGL_EVENT_STATUS, ETC_EVENT_STATUS, LNE_EVENT_STATUS, LNK_EVENT_STATUS, WAL_EVENT_STATUS, DMC_EVENT_STATUS,
   BUR_EVENT_STATUS, THM_EVENT_STATUS, SBK_EVENT_STATUS, UPD_EVENT_STATUS, UPD_MBX_EVENT_STATUS] ++
  [GBL_IRQ_STATUS, GBL_EVQ_WR, GBL_EVQ_SEQ, GBL_EVQ_RD, GBL_EVQ_LOST]

/-- The block of Table 0.4 whose register map a 64 KiB window of the space holds (Table 17.13). -/
def windowGroup : Nat → RegGroup
  | 0 => .gbl | 1 => .fpl | 2 => .grn | 3 => .plt | 4 => .thr | 5 => .drl | 6 => .hgl | 7 => .etc
  | 8 => .lne | 9 => .lnk | 10 => .wal | 11 => .dmc | 12 => .bur | 13 => .thm | 14 => .sbk | 15 => .upd
  | _ => .none

/-- The group of a register address. -/
def regGroup (a : Nat) : RegGroup := if eventRegs.contains a then .events else windowGroup (a / 0x10000)

/-- The parts of the state: the fields of State, with the Seedbank's SRAM apart from the rest of the Seedbank, and the
register file by groups. The queue of commands is no part: it is `step`'s. -/
inductive Block where
  | now | tickStart | freeCtr | ev | fpl | sbk | sram | etc | thm | grn | dmc | plt | thr | bnd | drl | hgl | lne | lnk
  | wal | bur | boot | hst | mem | flash0 | flash1 | poison | history | tests | out | acc | accBytes
  | reg (g : RegGroup)
deriving DecidableEq, Repr

/-- The Seedbank without its SRAM, the SRAM's poison, the count of held writes (R382) and the report of refused ones (R386). -/
abbrev Sbk.rest (b : Sbk) : Sbk := { b with sram := [], poison := [], held := 0, busyTick := false }

/-- A part of the state is the same in both. -/
def Block.same : Block → State → State → Prop
  | .now, s, t => t.now = s.now
  | .tickStart, s, t => t.tickStart = s.tickStart
  | .freeCtr, s, t => t.freeCtr = s.freeCtr
  | .ev, s, t => t.ev = s.ev
  | .fpl, s, t => t.fpl = s.fpl
  | .sbk, s, t => t.sbk.rest = s.sbk.rest
  | .sram, s, t => t.sbk.sram = s.sbk.sram ∧ t.sbk.poison = s.sbk.poison ∧ t.sbk.held = s.sbk.held ∧
      t.sbk.busyTick = s.sbk.busyTick
  | .etc, s, t => t.etc = s.etc
  | .thm, s, t => t.thm = s.thm
  | .grn, s, t => t.grn = s.grn
  | .dmc, s, t => t.dmc = s.dmc
  | .plt, s, t => t.plt = s.plt
  | .thr, s, t => t.thr = s.thr
  | .bnd, s, t => t.bnd = s.bnd
  | .drl, s, t => t.drl = s.drl
  | .hgl, s, t => t.hgl = s.hgl
  | .lne, s, t => t.lne = s.lne
  | .lnk, s, t => t.lnk = s.lnk
  | .wal, s, t => t.wal = s.wal
  | .bur, s, t => t.bur = s.bur
  | .boot, s, t => t.boot = s.boot
  | .hst, s, t => t.hst = s.hst
  | .mem, s, t => t.mem = s.mem
  | .flash0, s, t => t.flash0 = s.flash0
  | .flash1, s, t => t.flash1 = s.flash1
  | .poison, s, t => t.poison = s.poison
  | .history, s, t => t.history = s.history
  | .tests, s, t => t.tests = s.tests
  | .out, s, t => t.out = s.out
  | .acc, s, t => t.acc = s.acc
  | .accBytes, s, t => t.accBytes = s.accBytes
  | .reg g, s, t => ∀ a, regGroup a = g → t.rd a = s.rd a

/-! ### What a command may change -/

/-- The parts that an event recorded may change (R451 to R455): the ring, the critical log of the SRAM, the console, the event
registers. -/
def recorded : List Block := [.ev, .sram, .out, .reg .events]

/-- Every register but those of `events`. -/
def registers : List Block :=
  [.reg .gbl, .reg .fpl, .reg .grn, .reg .plt, .reg .thr, .reg .drl, .reg .hgl, .reg .etc, .reg .lne, .reg .lnk, .reg .wal, .reg .dmc,
   .reg .bur, .reg .thm, .reg .sbk, .reg .upd, .reg .none]

/-- The parts of the state that a command may change; it leaves every other part as it is. -/
def writes : Instr → List Block
  | .registerWrite .. | .mgmtReqPerform .. | .spiRegWrite .. | .spiRegWriteFixed .. =>
    recorded ++ registers ++ [.freeCtr, .fpl, .sbk, .etc, .thm, .grn, .dmc, .plt, .thr, .drl, .hgl, .lne, .lnk, .wal,
      .bur, .boot, .hst, .mem, .flash0, .flash1, .poison, .history, .tests, .acc]
  | .tickBoundary .. =>
    recorded ++ registers ++ [.tickStart, .freeCtr, .fpl, .sbk, .etc, .thm, .grn, .dmc, .plt, .thr, .bnd, .drl, .hgl,
      .lne, .lnk, .wal, .bur, .boot, .hst, .mem, .flash0, .flash1, .poison, .history, .tests, .acc, .accBytes]
  | .furrowSlotStart .. =>
    recorded ++ [.freeCtr, .fpl, .grn, .dmc, .plt, .thr, .mem, .poison, .history, .tests, .reg .gbl, .reg .thr,
      .reg .dmc]
  | .furrowSlotEnd .. =>
    recorded ++ [.freeCtr, .fpl, .etc, .dmc, .plt, .thr, .bnd, .drl, .hgl, .mem, .poison, .history, .tests,
      .reg .gbl, .reg .fpl, .reg .drl, .reg .hgl, .reg .dmc]
  | .headlandStart .. =>
    recorded ++ [.freeCtr, .fpl, .sbk, .etc, .thm, .grn, .dmc, .plt, .thr, .bnd, .drl, .hgl, .lne, .mem, .poison,
      .history, .tests, .reg .gbl, .reg .fpl, .reg .drl, .reg .hgl, .reg .lne, .reg .dmc]
  | .headlandTaskAbort .. | .thrJobBlock .. =>
    recorded ++ [.freeCtr, .fpl, .grn, .dmc, .plt, .thr, .hgl, .mem, .poison, .history, .tests, .reg .gbl, .reg .grn,
      .reg .thr, .reg .dmc]
  | .commitPoint .. =>
    recorded ++ [.freeCtr, .fpl, .etc, .grn, .dmc, .plt, .thr, .bnd, .drl, .hgl, .lne, .lnk, .wal, .mem, .poison,
      .history, .tests, .reg .gbl, .reg .grn, .reg .plt, .reg .thr, .reg .drl, .reg .etc, .reg .lne, .reg .lnk,
      .reg .wal, .reg .dmc, .reg .upd]
  | .fplStageValidate .. =>
    recorded ++ [.freeCtr, .fpl, .grn, .dmc, .plt, .mem, .poison, .history, .tests, .acc, .reg .gbl, .reg .fpl,
      .reg .grn, .reg .dmc]
  | .fplStageAbort .. | .fplSwitchDisarm .. =>
    [.fpl, .acc, .reg .fpl]
  | .planValidationDone .. =>
    recorded ++ [.fpl]
  | .fplSwitchArm .. | .fplSwitchNext .. =>
    recorded ++ [.fpl, .acc, .reg .fpl]
  | .coldSwitchDone .. =>
    recorded ++ registers ++ [.freeCtr, .fpl, .sbk, .etc, .thm, .grn, .dmc, .plt, .thr, .drl, .hgl, .lne, .lnk, .wal,
      .bur, .boot, .hst, .mem, .flash0, .flash1, .poison, .history, .tests, .acc, .accBytes]
  | .plotRequest .. =>
    recorded ++ [.grn, .acc, .reg .grn]
  | .plotRelease .. | .plotAccessComplete .. | .plotHandoverAccept .. =>
    [.grn, .reg .grn]
  | .plotHandoverTimeout .. | .plotAudit .. =>
    recorded ++ [.grn, .reg .grn]
  | .grnAllocStall .. | .operatingSecond .. =>
    recorded
  | .gleanPassDone .. | .healthConfirm .. =>
    recorded ++ [.sbk]
  | .granaryAccess .. =>
    recorded ++ [.grn, .mem, .poison, .history, .tests, .acc, .accBytes, .reg .grn]
  | .eccWriteback .. =>
    [.grn]
  | .granaryBist .. =>
    recorded ++ [.grn, .mem, .poison, .reg .gbl, .reg .grn, .reg .upd]
  | .grnSelftestReq .. =>
    [.ev, .sram, .history, .tests, .acc, .reg .grn, .reg .events]
  | .plotSelftest .. =>
    recorded ++ [.grn, .mem, .poison, .history, .tests, .reg .grn]
  | .plotSelftestDone .. =>
    recorded ++ [.grn, .tests, .reg .gbl, .reg .grn]
  | .grnClientGrantsRead .. =>
    [.ev, .grn, .acc]
  | .sheafBlockReceive .. | .updateRecordReceive .. =>
    recorded ++ [.freeCtr, .dmc, .plt, .lne, .lnk, .mem, .poison, .reg .gbl, .reg .plt, .reg .lne, .reg .lnk,
      .reg .dmc]
  | .frameRecordReceive .. =>
    recorded ++ [.plt, .lne, .lnk, .reg .plt, .reg .lne, .reg .lnk]
  | .updateComplete .. | .mapCopyDone .. =>
    recorded ++ [.freeCtr, .dmc, .plt, .mem, .poison, .reg .gbl, .reg .dmc]
  | .pltCtrlResync .. =>
    [.acc, .reg .plt]
  | .pltCtrlDropPending .. =>
    [.plt, .acc]
  | .dmcStreamRecord .. =>
    recorded ++ [.freeCtr, .fpl, .dmc, .plt, .thr, .mem, .poison, .history, .tests, .reg .gbl, .reg .dmc]
  | .streamRowStaged .. | .thrDecRecord .. =>
    [.fpl, .thr]
  | .thrBlockDecode .. =>
    recorded ++ [.freeCtr, .fpl, .grn, .dmc, .thr, .mem, .poison, .reg .gbl, .reg .grn, .reg .thr, .reg .dmc]
  | .thrJobTailWrite .. | .thrJobRingSizeWrite .. =>
    recorded ++ [.freeCtr, .grn, .dmc, .plt, .thr, .mem, .poison, .history, .tests, .acc, .reg .gbl, .reg .grn,
      .reg .thr, .reg .dmc]
  | .thrJobStart .. =>
    recorded ++ [.freeCtr, .grn, .dmc, .plt, .thr, .mem, .poison, .history, .tests, .reg .gbl, .reg .grn, .reg .thr,
      .reg .dmc]
  | .thrCtrlJobAbort .. =>
    [.thr, .acc]
  | .pltBwRecord .. =>
    recorded ++ [.fpl, .bnd, .mem, .poison]
  | .bandWriteBlock .. =>
    recorded ++ [.fpl, .plt, .thr, .bnd, .mem, .poison, .reg .plt]
  | .drillRecord .. =>
    [.etc, .drl, .reg .drl]
  | .drillReachLoad .. =>
    recorded ++ [.fpl, .grn, .bnd, .drl, .mem, .poison, .reg .grn, .reg .drl]
  | .drillRayComplete .. =>
    recorded ++ [.freeCtr, .fpl, .etc, .grn, .drl, .history, .tests, .reg .grn, .reg .drl]
  | .drlLaneTest .. | .lneSelftestReq .. =>
    [.ev, .sram, .history, .tests, .acc, .reg .events]
  | .thmSelftestReq .. =>
    [.ev, .sram, .thm, .history, .tests, .acc, .reg .events]
  | .drillLaneTestDone .. =>
    recorded ++ [.drl, .tests, .reg .gbl]
  | .drlTmArm .. | .drlTmDisarm .. =>
    [.acc, .reg .drl]
  | .drlTmLoad .. | .drlTmDataAccess .. =>
    recorded ++ [.drl, .acc, .reg .drl]
  | .drlTmLoadDone .. =>
    recorded ++ [.freeCtr, .grn, .dmc, .plt, .drl, .mem, .history, .tests, .reg .gbl, .reg .grn, .reg .drl,
      .reg .dmc]
  | .drlTmBankWrite .. =>
    recorded ++ [.drl, .acc]
  | .hglCtrlReload .. | .hglCtrlReloadFactory .. =>
    recorded ++ [.hgl, .acc, .reg .hgl]
  | .hglCtrlCkptNow .. =>
    [.hgl, .acc]
  | .hglPrefetchRecord .. =>
    recorded ++ [.fpl, .grn, .hgl, .reg .grn, .reg .hgl]
  | .flashSectorRewrite .. =>
    recorded ++ [.freeCtr, .hgl, .flash0, .flash1, .reg .hgl]
  | .foldWindowEnd .. =>
    recorded ++ [.fpl, .hgl, .reg .hgl]
  | .foldPortion .. =>
    recorded ++ [.freeCtr, .fpl, .grn, .dmc, .plt, .thr, .hgl, .mem, .poison, .history, .tests, .reg .gbl, .reg .grn,
      .reg .thr, .reg .hgl, .reg .dmc]
  | .checkpointProgramDone .. =>
    recorded ++ [.fpl, .sbk, .hgl, .flash0, .flash1, .reg .hgl]
  | .etcColRecord .. =>
    recorded ++ [.freeCtr, .fpl, .etc, .dmc, .plt, .mem, .poison, .history, .tests, .reg .gbl, .reg .dmc]
  | .etcTxRecord .. =>
    recorded ++ [.fpl, .etc, .grn, .reg .grn]
  | .etcTxRecordEnd .. =>
    recorded ++ [.freeCtr, .fpl, .etc, .dmc, .plt, .hgl, .mem, .poison, .history, .tests, .reg .gbl, .reg .hgl,
      .reg .dmc]
  | .etcRowScan .. =>
    [.fpl, .etc, .out]
  | .statusPacketReceive .. =>
    recorded ++ [.etc, .thm, .hgl, .lne, .reg .etc, .reg .lne, .reg .thm]
  | .panelDriverLost .. | .panelDriverRestored .. | .supplyPgoodTimeout .. | .supplyPgoodFault ..
    | .dischargeAllOpenEnd .. =>
    recorded ++ [.etc, .reg .etc]
  | .supplySeqDelayEnd .. =>
    recorded ++ [.sbk, .etc, .reg .etc]
  | .powerLossSequenceEnd .. | .thermalTrip .. | .powerOnReset .. | .pinReset .. | .pfailRestart ..
    | .resetEffect .. =>
    recorded ++ registers ++ [.now, .tickStart, .freeCtr, .fpl, .sbk, .etc, .thm, .grn, .dmc, .plt, .thr, .bnd, .drl,
      .hgl, .lne, .lnk, .wal, .bur, .boot, .hst, .mem, .flash0, .flash1, .poison, .history, .tests, .acc, .accBytes]
  | .senseWindow .. =>
    recorded ++ [.etc, .hgl, .reg .etc]
  | .senseWindowEnd .. =>
    recorded ++ [.etc, .reg .hgl, .reg .etc]
  | .senseResReceive .. =>
    recorded ++ [.freeCtr, .etc, .dmc, .plt, .hgl, .mem, .poison, .history, .tests, .reg .gbl, .reg .hgl, .reg .etc,
      .reg .dmc]
  | .etcSupplyUp .. =>
    [.etc, .acc, .reg .etc]
  | .supplyPgoodRise .. | .supplyRetryTimer .. =>
    [.etc, .reg .etc]
  | .etcSupplyDown .. =>
    [.etc, .out, .acc, .reg .etc]
  | .etcSupplyClearLockout .. | .etcCtrlBlank .. =>
    [.acc, .reg .etc]
  | .powerLossTrigger .. | .healthTimeout .. =>
    recorded ++ [.sbk, .etc, .boot, .reg .etc]
  | .laneSignalDetect .. | .eqDone .. | .sleepLivenessWake .. | .panelLaneRetry .. =>
    [.lne, .reg .lne]
  | .wakeLock .. | .fomHistogramDone .. | .eqRequestReceive .. | .alignDone .. =>
    [.lne, .out, .reg .lne]
  | .lnePrbsClear .. =>
    [.lne, .acc, .reg .lne]
  | .trainAttemptEnd .. | .wakeTimeout .. | .eqTimeout .. | .alignTimeout .. | .handshakeSilence ..
    | .panelLaneNoStatus .. | .panelLaneTrainTimeout .. =>
    recorded ++ [.lne, .reg .lne]
  | .lnePlRetrain .. =>
    recorded ++ [.lne, .acc, .reg .lne]
  | .feLoopEnd .. | .lossOfSignal .. | .wakeRetrainEnd .. | .replayTimeout .. | .creditSyncTimeout ..
    | .sowResendTimer .. | .wakeDetectTimeout .. =>
    recorded ++ [.lne, .lnk, .boot, .reg .lne, .reg .lnk, .reg .upd]
  | .lnePortRetrain .. | .lnePortEnableWrite .. =>
    recorded ++ [.lne, .lnk, .boot, .acc, .reg .lne, .reg .lnk, .reg .upd]
  | .trainBackoffEnd .. | .sleepResidencyEnd .. =>
    [.lne]
  | .lneLaneLoopWrite .. =>
    [.lne, .out, .acc, .reg .lne]
  | .handshakeReceive .. =>
    recorded ++ [.grn, .lne, .lnk, .boot, .reg .grn, .reg .lne, .reg .lnk]
  | .peerSilentRetry .. =>
    [.reg .lne]
  | .lnePortClearExclude .. | .lnePrbsBitsLoRead .. =>
    [.acc, .reg .lne]
  | .fecUncorrectable .. =>
    recorded ++ [.lne, .lnk, .boot, .history, .tests, .reg .lne, .reg .lnk, .reg .upd]
  | .laneCorrectedLimit .. =>
    recorded ++ [.history, .tests, .reg .lne]
  | .laneSelftestDone .. =>
    recorded ++ [.lne, .tests, .reg .gbl, .reg .lne]
  | .lnePortModeWrite .. =>
    recorded ++ [.fpl, .lne, .lnk, .boot, .acc, .reg .lne, .reg .lnk, .reg .upd]
  | .lnePrbsInject .. =>
    [.out, .acc, .reg .lne]
  | .lnePrbsErrRead .. =>
    [.freeCtr, .acc, .reg .lne]
  | .directionQuietRequest .. | .directionSleepRequest .. =>
    [.lne, .out]
  | .directionWakeRequest .. | .powerEntryComplete .. | .messageForwardStart .. | .beaconOriginate ..
    | .beaconReceive .. | .lostReceive .. =>
    [.lne, .lnk, .out, .reg .lne, .reg .lnk]
  | .lnkCtrlRediscover .. =>
    [.lne, .lnk, .out, .acc, .reg .lne, .reg .lnk]
  | .feLoopRequest .. =>
    recorded ++ [.lne]
  | .panelLaneTrainDone .. =>
    recorded ++ [.etc, .lne, .reg .lne]
  | .flitReceive .. | .messageReceive .. =>
    recorded ++ [.freeCtr, .fpl, .sbk, .grn, .dmc, .plt, .lne, .lnk, .wal, .boot, .mem, .flash0, .flash1, .poison,
      .reg .gbl, .reg .grn, .reg .plt, .reg .lne, .reg .lnk, .reg .wal, .reg .dmc, .reg .upd]
  | .nakRepeatTimer .. | .ackNopTimer .. | .creditSyncResend .. =>
    [.lne, .lnk, .out, .reg .lne]
  | .creditSyncReceive .. =>
    recorded ++ [.grn, .lne, .lnk, .boot, .reg .grn, .reg .lne, .reg .lnk, .reg .dmc, .reg .upd]
  | .creditSyncAckReceive .. =>
    recorded ++ [.grn, .lne, .lnk, .reg .grn, .reg .lne, .reg .lnk, .reg .dmc]
  | .assignStart .. | .assignReceive .. | .refuseReceive .. | .doneReceive .. | .assignTimeout ..
    | .doneTimeout .. | .mgmtReqReceive .. | .sowQueryReceive .. | .eventMessageSend .. =>
    recorded ++ [.lne, .lnk, .reg .lne, .reg .lnk]
  | .lnkPortSyncNow .. =>
    recorded ++ [.grn, .lne, .lnk, .acc, .reg .grn, .reg .lne, .reg .lnk]
  | .lnkPortAllocWrite .. =>
    [.lnk, .acc, .reg .lnk]
  | .sourceWeightPeriod .. =>
    [.lnk, .reg .lnk]
  | .acceptReceive .. | .idleBlockReceive .. =>
    [.lnk]
  | .tickMessageReceive .. =>
    recorded ++ [.fpl, .lne, .lnk, .wal, .reg .lne, .reg .lnk, .reg .wal]
  | .decisionReceive .. | .voteReceive .. | .voteDeadline .. | .rootDecide .. =>
    recorded ++ [.lne, .lnk, .wal, .reg .lne, .reg .lnk, .reg .wal]
  | .memberReceive .. =>
    [.boot, .reg .wal]
  | .masterClaim .. =>
    recorded ++ [.fpl, .lne, .lnk, .wal, .reg .fpl, .reg .lne, .reg .lnk, .reg .wal]
  | .rootTakeover .. =>
    recorded ++ [.reg .wal]
  | .genlockEdge .. | .genlockEdgeMissed .. =>
    recorded ++ [.wal, .reg .wal]
  | .dramRequest .. =>
    recorded ++ [.freeCtr, .dmc, .plt, .mem, .poison, .history, .tests, .acc, .reg .gbl, .reg .dmc]
  | .dramReadResponse .. =>
    recorded ++ [.dmc, .plt, .mem, .history, .tests, .acc, .accBytes, .reg .dmc]
  | .refreshInterval .. | .selfRefreshIdle .. =>
    [.dmc]
  | .mr4Stale .. | .freqWindowClose .. =>
    recorded ++ [.dmc]
  | .dmcFreqReq .. =>
    recorded ++ [.dmc, .acc, .reg .dmc]
  | .freqChangeDone .. =>
    recorded ++ registers ++ [.dmc, .history, .tests, .acc]
  | .thmOpRestore .. =>
    recorded ++ [.dmc, .reg .dmc]
  | .pageIdleTimer .. =>
    [.dmc, .out]
  | .selfRefreshExit .. | .freqChangeEntry .. =>
    [.dmc, .out, .reg .dmc]
  | .dmcSelftestReq .. =>
    recorded ++ [.dmc, .history, .tests, .acc, .reg .gbl, .reg .dmc]
  | .dramRowTestDone .. =>
    recorded ++ [.dmc, .mem, .tests, .reg .gbl, .reg .dmc]
  | .burTailWrite .. | .burRingSizeWrite .. | .burCtrlResume .. | .burRingLoWrite .. | .burCtrlAbort ..
    | .burCtrlEnWrite .. =>
    recorded ++ [.freeCtr, .grn, .dmc, .plt, .bur, .mem, .poison, .history, .tests, .acc, .reg .gbl, .reg .dmc,
      .reg .bur]
  | .burNop .. | .burFill .. | .burCopy .. | .burStipple .. =>
    recorded ++ [.freeCtr, .grn, .dmc, .plt, .bur, .mem, .poison, .history, .tests, .reg .gbl, .reg .grn, .reg .dmc,
      .reg .bur]
  | .thmConversionResult .. =>
    recorded ++ [.fpl, .etc, .thm, .dmc, .history, .tests, .reg .etc, .reg .dmc, .reg .thm]
  | .thmConversionTimeout .. =>
    recorded ++ [.fpl, .thm, .dmc, .history, .tests, .reg .dmc, .reg .thm]
  | .thmPeriodicConversion .. =>
    [.etc, .thm, .lne, .out]
  | .thmConvReq .. =>
    [.thm, .acc]
  | .thmSelftestDone .. =>
    recorded ++ [.fpl, .thm, .dmc, .tests, .reg .gbl, .reg .dmc, .reg .thm]
  | .thmSensorStale .. =>
    recorded ++ [.thm]
  | .thmLevelRelease .. =>
    recorded ++ [.fpl, .reg .thm]
  | .thmRateStepEnd .. =>
    [.reg .thm]
  | .thmHoldRelease .. =>
    [.thm, .reg .thm]
  | .thmOvertempClear .. =>
    [.etc, .reg .etc, .reg .thm]
  | .thmPanelUnknown .. =>
    recorded ++ [.thm, .reg .thm]
  | .sbkCtrlStore .. | .sbkPwUnlockR .. | .sbkPwUnlockW .. | .sbkPwSetR .. | .sbkPwSetW .. =>
    recorded ++ [.sbk, .acc]
  | .sbkCtrlGlean .. | .sbkPwLock .. =>
    [.sbk, .acc]
  | .sbkStoreComplete .. =>
    recorded ++ [.freeCtr, .fpl, .sbk, .etc, .lne, .lnk, .wal, .boot, .hst, .reg .etc, .reg .lne, .reg .lnk,
      .reg .sbk, .reg .upd]
  | .sbkRecall .. =>
    recorded ++ [.sbk, .history]
  | .sbkDataAccess .. =>
    recorded ++ [.sbk, .acc, .reg .sbk]
  | .sbkCntLoRead .. =>
    recorded ++ [.acc, .reg .sbk]
  | .gblReset .. =>
    [.etc, .boot, .out, .acc, .reg .etc]
  | .watchdogExpiry .. =>
    [.etc, .boot, .out, .reg .etc]
  | .resetRelease .. =>
    recorded ++ [.now, .sbk, .boot, .history, .reg .gbl, .reg .upd]
  | .stageAdvance .. =>
    recorded ++ [.freeCtr, .sbk, .etc, .thm, .grn, .dmc, .lne, .lnk, .boot, .mem, .poison, .reg .gbl, .reg .grn,
      .reg .hgl, .reg .etc, .reg .lne, .reg .lnk, .reg .dmc, .reg .thm, .reg .upd]
  | .updCtrlResumeStage .. =>
    [.grn, .acc, .reg .gbl, .reg .upd]
  | .updCtrlRecoveryReq .. =>
    recorded ++ [.etc, .boot, .acc, .reg .etc]
  | .updCtrlLoadGo .. =>
    recorded ++ [.boot, .acc, .reg .gbl, .reg .upd]
  | .updCtrlSowAbort .. =>
    [.ev, .sram, .boot, .acc, .reg .upd, .reg .events]
  | .updLoadDataWrite .. =>
    [.boot, .acc]
  | .updActFrameLoRead .. =>
    [.acc, .reg .upd]
  | .sowBlockReceive .. =>
    recorded ++ [.lne, .lnk, .boot, .flash0, .flash1, .reg .lne, .reg .lnk, .reg .upd]
  | .sowBlockProgrammed .. =>
    recorded ++ [.freeCtr, .lne, .lnk, .boot, .flash0, .flash1, .reg .lne, .reg .lnk, .reg .upd]
  | .sowAckReceive .. =>
    recorded ++ [.lne, .lnk, .boot, .reg .lne, .reg .lnk]
  | .sowArmReceive .. =>
    recorded ++ [.sbk, .lne, .lnk, .boot, .reg .lne, .reg .lnk]
  | .sowCancelReceive .. =>
    recorded ++ [.boot]
  | .proofRedraw .. =>
    recorded ++ [.boot, .mem, .poison, .reg .upd]
  | .spiRegRead .. | .spiRegReadFixed .. =>
    recorded ++ [.freeCtr, .sbk, .grn, .drl, .hst, .acc, .reg .gbl, .reg .fpl, .reg .drl, .reg .hgl, .reg .lne,
      .reg .sbk, .reg .upd]
  | .spiMemWrite .. =>
    recorded ++ [.freeCtr, .grn, .dmc, .plt, .hst, .mem, .poison, .history, .tests, .acc, .reg .gbl, .reg .dmc]
  | .spiMemRead .. =>
    recorded ++ [.freeCtr, .grn, .dmc, .plt, .hst, .mem, .history, .tests, .acc, .reg .gbl, .reg .grn, .reg .dmc]
  | .spiStatus .. =>
    [.out]
  | .spiUnknownOpcode .. =>
    recorded ++ [.hst, .acc]
  | .mbxClaim .. | .mbxRelease .. =>
    [.hst, .acc]
  | .mbxIdleRelease .. =>
    [.hst]
  | .mbxIdentify .. | .mbxShutdown .. | .mbxStore .. | .mbxFlashRead .. | .mbxPlanWrite .. | .mbxPlanSelect ..
    | .mbxFeatureEnable .. | .mbxFeatureDisable .. | .mbxThrJob .. | .mbxSelftest .. | .mbxLogRead ..
    | .mbxLogExport .. | .mbxDiagCapture .. | .mbxCalWrite .. | .mbxClearLog .. =>
    recorded ++ [.freeCtr, .fpl, .sbk, .etc, .thm, .grn, .dmc, .plt, .thr, .hgl, .lne, .lnk, .boot, .hst, .mem,
      .flash0, .flash1, .poison, .history, .tests, .acc, .reg .gbl, .reg .grn, .reg .thr, .reg .hgl, .reg .etc,
      .reg .lne, .reg .lnk, .reg .dmc, .reg .upd]
  | .gblGpioOwnWrite .. =>
    recorded ++ [.fpl, .acc]
  | .gblEvqRdWrite .. =>
    [.ev, .acc, .reg .events]
  | .gblEvqLostRead .. =>
    [.acc, .reg .events]
  | .flashLogAppend .. =>
    recorded ++ [.freeCtr, .flash0, .flash1]
  | .fplFrameLoRead .. =>
    [.acc, .reg .fpl]
  | .hglStressFramesLoRead .. | .hglCurveDataRead .. =>
    [.acc, .reg .hgl]
  | .vddNvmLoss .. =>
    [.freeCtr, .sbk, .sram]

/-- R411: the register a command goes through, with who asks: the commands that a device which does not answer, or a window that
does not answer yet, turns away. -/
def gateOf : Instr → Option (Requester × Nat)
  | .hglCtrlReload => some (Requester.service, HGL_CTRL)
  | .hglCtrlReloadFactory => some (Requester.service, HGL_CTRL)
  | .hglCtrlCkptNow => some (Requester.service, HGL_CTRL)
  | .hglStressFramesLoRead => some (Requester.service, HGL_STRESS_FRAMES_LO)
  | .hglCurveDataRead => some (Requester.service, HGL_CURVE_DATA)
  | .burTailWrite _ => some (Requester.service, BUR_TAIL)
  | .burCtrlResume => some (Requester.service, BUR_CTRL)
  | .burCtrlAbort => some (Requester.service, BUR_CTRL)
  | .burCtrlEnWrite _ => some (Requester.service, BUR_CTRL)
  | .burRingSizeWrite _ => some (Requester.service, BUR_RING_SIZE)
  | .burRingLoWrite _ => some (Requester.service, BUR_RING_LO)
  | .dmcFreqReq _ => some (Requester.service, DMC_FREQ_CTRL)
  | .dmcSelftestReq _ => some (Requester.service, DMC_SELFTEST_REQ)
  | .drlLaneTest _ => some (Requester.service, DRL_LANE_TEST)
  | .drlTmArm _ => some (Requester.service, DRL_TM_ARM)
  | .drlTmDisarm _ => some (Requester.service, DRL_TM_ARM)
  | .drlTmLoad _ => some (Requester.service, DRL_TM_LOAD_HI)
  | .drlTmDataAccess _ => some (Requester.service, DRL_TM_DATA)
  | .drlTmBankWrite reg _ => some (Requester.service, (tmBankRegs.getD reg.val 0))
  | .grnSelftestReq _ => some (Requester.service, GRN_SELFTEST_REQ)
  | .grnClientGrantsRead => some (Requester.service, GRN_CLIENT_GRANTS)
  | .gblGpioOwnWrite pin _ => some (Requester.service, (GBL_GPIO_OWN pin.val))
  | .gblEvqRdWrite _ => some (Requester.service, GBL_EVQ_RD)
  | .gblEvqLostRead => some (Requester.service, GBL_EVQ_LOST)
  | .lnePortRetrain port => some (Requester.service, (LNE_PORT_CTRL port.val))
  | .lnePortClearExclude port => some (Requester.service, (LNE_PORT_CTRL port.val))
  | .lnePortEnableWrite port _ => some (Requester.service, (LNE_PORT_CTRL port.val))
  | .lnePortModeWrite port _ => some (Requester.service, (LNE_PORT_CTRL port.val))
  | .lneLaneLoopWrite lane _ => some (Requester.service, (LNE_LANE_LOOP lane.val))
  | .lnePrbsClear lane => some (Requester.service, (LNE_LANE_PRBS_CTRL lane.val))
  | .lnePrbsInject lane => some (Requester.service, (LNE_LANE_PRBS_CTRL lane.val))
  | .lnePrbsErrRead lane => some (Requester.service, (LNE_LANE_PRBS_ERR lane.val))
  | .lnePrbsBitsLoRead lane => some (Requester.service, (LNE_LANE_PRBS_BITS_LO lane.val))
  | .lneSelftestReq _ => some (Requester.service, LNE_SELFTEST_REQ)
  | .lnePlRetrain lane => some (Requester.service, (LNE_PL_CTRL lane.val))
  | .lnkPortSyncNow port => some (Requester.service, (LNK_PORT_CTRL port.val))
  | .lnkPortAllocWrite port _ _ => some (Requester.service, (LNK_PORT_ALLOC01 port.val))
  | .lnkCtrlRediscover => some (Requester.service, LNK_CTRL)
  | .mbxClaim who => some (who, UPD_MBX_OWNER)
  | .mbxRelease who => some (who, UPD_MBX_OWNER)
  | .mbxIdentify who _ => some (who, UPD_MBX_CMD)
  | .mbxShutdown who _ => some (who, UPD_MBX_CMD)
  | .mbxStore who _ => some (who, UPD_MBX_CMD)
  | .mbxFlashRead who _ => some (who, UPD_MBX_CMD)
  | .mbxPlanWrite who _ _ => some (who, UPD_MBX_CMD)
  | .mbxPlanSelect who _ => some (who, UPD_MBX_CMD)
  | .mbxFeatureEnable who _ => some (who, UPD_MBX_CMD)
  | .mbxFeatureDisable who _ => some (who, UPD_MBX_CMD)
  | .mbxThrJob who _ => some (who, UPD_MBX_CMD)
  | .mbxSelftest who _ => some (who, UPD_MBX_CMD)
  | .mbxLogRead who _ => some (who, UPD_MBX_CMD)
  | .mbxLogExport who _ => some (who, UPD_MBX_CMD)
  | .mbxDiagCapture who _ => some (who, UPD_MBX_CMD)
  | .mbxCalWrite who _ _ => some (who, UPD_MBX_CMD)
  | .mbxClearLog who _ => some (who, UPD_MBX_CMD)
  | .pltCtrlResync => some (Requester.service, PLT_CTRL)
  | .pltCtrlDropPending => some (Requester.service, PLT_CTRL)
  | .gblReset _ => some (Requester.service, GBL_RESET)
  | .updCtrlResumeStage => some (Requester.service, UPD_CTRL)
  | .updCtrlRecoveryReq => some (Requester.service, UPD_CTRL)
  | .updCtrlLoadGo => some (Requester.service, UPD_CTRL)
  | .updCtrlSowAbort => some (Requester.service, UPD_CTRL)
  | .updLoadDataWrite _ => some (Requester.service, UPD_LOAD_DATA)
  | .updActFrameLoRead => some (Requester.service, UPD_ACT_FRAME_LO)
  | .sbkCtrlStore => some (Requester.service, SBK_CTRL)
  | .sbkCtrlGlean => some (Requester.service, SBK_CTRL)
  | .sbkDataAccess req _ _ => some (req, SBK_DATA)
  | .sbkPwUnlockR => some (Requester.service, SBK_PW_CTRL)
  | .sbkPwUnlockW => some (Requester.service, SBK_PW_CTRL)
  | .sbkPwSetR => some (Requester.service, SBK_PW_CTRL)
  | .sbkPwSetW => some (Requester.service, SBK_PW_CTRL)
  | .sbkPwLock => some (Requester.service, SBK_PW_CTRL)
  | .sbkCntLoRead => some (Requester.service, SBK_CNT_LO)
  | .etcSupplyUp => some (Requester.service, ETC_SUPPLY_CTRL)
  | .etcSupplyDown => some (Requester.service, ETC_SUPPLY_CTRL)
  | .etcSupplyClearLockout => some (Requester.service, ETC_SUPPLY_CTRL)
  | .etcCtrlBlank _ => some (Requester.service, ETC_CTRL)
  | .fplStageValidate _ => some (Requester.service, FPL_STAGE_CTRL)
  | .fplStageAbort _ => some (Requester.service, FPL_STAGE_CTRL)
  | .fplSwitchArm _ => some (Requester.service, FPL_SWITCH_CTRL)
  | .fplSwitchNext _ => some (Requester.service, FPL_SWITCH_CTRL)
  | .fplSwitchDisarm _ => some (Requester.service, FPL_SWITCH_CTRL)
  | .fplFrameLoRead => some (Requester.service, FPL_FRAME_LO)
  | .thmConvReq _ => some (Requester.service, THM_CONV_REQ)
  | .thmSelftestReq _ => some (Requester.service, THM_SELFTEST_REQ)
  | .thrJobTailWrite _ => some (Requester.service, THR_JOB_TAIL)
  | .thrCtrlJobAbort => some (Requester.service, THR_CTRL)
  | .thrJobRingSizeWrite _ => some (Requester.service, THR_JOB_RING_SIZE)
  | _ => none

end Sys2Proof.Machine
end

