-- ==== Sys2Proof/Certificates/Slice0/Obligations.lean ====
section
/-! DEFINITION. The statements for the provers. -/

open Sys2Proof Sys2Proof.Machine

/-- The command at the front of the queue is the one a step performs, on the state with the rest of the queue. -/
def Obligations.StepRunsFront : Prop :=
  ∀ (s : State) (c : Instr) (rest : List Instr), s.pending = c :: rest → step s = exec c { s with pending := rest }

/-- With no command waiting a core cycle passes (the model's choice, log entry 1): the clock of a device out of reset counts
one more cycle. -/
def Obligations.StepIdle : Prop :=
  ∀ s : State, s.pending = [] → ∃ t, step s = .next t ∧ t.pending = [] ∧
    (s.boot.inReset = false → t.now = s.now + 1) ∧ (s.boot.inReset = true → t.now = s.now)

/-- Every command takes the device to a next state: the model refuses none and faults on none. -/
def Obligations.EveryCommandAnswers : Prop :=
  ∀ (c : Instr) (s : State), Answers c s

/-- A step takes the front command off the queue and adds none. -/
def Obligations.StepTakesFront : Prop :=
  ∀ (s t : State) (c : Instr) (rest : List Instr), s.pending = c :: rest → step s = .next t → t.pending = rest

/-- The frame of every command: a part of the state that `Instr.writes` does not list for it is the same after it, every
register group, memory and field by name. -/
def Obligations.CommandFrame : Prop :=
  ∀ (c : Instr) (s t : State), exec c s = .next t → ∀ b : Block, b ∉ writes c → b.same s t

/-- Every memory stays in its canonical form: Granary and DRAM, both flash devices, the Seedbank's SRAM and copies. -/
def Obligations.StepKeepsMemory : Prop :=
  ∀ s t : State, s.memWf = true → step s = .next t → t.memWf = true

/-- The register file stays in its canonical form. -/
def Obligations.StepKeepsRegisters : Prop :=
  ∀ s t : State, s.regsWf = true → step s = .next t → t.regsWf = true

/-- R60: whatever is commanded, no resource comes to have two holders, and none is held by feature 0. -/
def Obligations.StepKeepsClaims : Prop :=
  ∀ s t : State, s.claimsOk = true → step s = .next t → t.claimsOk = true

/-- R452: the event ring never counts more records than it has, for itself or for a reader. -/
def Obligations.StepKeepsRing : Prop :=
  ∀ s t : State, s.ringOk = true → step s = .next t → t.ringOk = true

/-- R11: the frame number stays within 48 bits. -/
def Obligations.StepKeepsFrame : Prop :=
  ∀ s t : State, s.frameOk = true → step s = .next t → t.frameOk = true

/-- A command leaves no core cycle open: its events are all recorded when it ends. -/
def Obligations.StepKeepsQuiet : Prop :=
  ∀ s t : State, s.quiet = true → step s = .next t → t.quiet = true

/-- The invariants hold after reset. -/
def Obligations.ResetInvariants : Prop :=
  State.reset.memWf = true ∧ State.reset.regsWf = true ∧ State.reset.claimsOk = true ∧ State.reset.ringOk = true ∧
    State.reset.frameOk = true ∧ State.reset.quiet = true

/-- R70, R67, R80: what a plot request, a release, the end of an access, and a handover taken or timed out leave in the state
table. Credit that returns then serves the clients that wait. -/
def Obligations.PlotCommands : Prop :=
  (∀ (c : Fin 32) (n : Nat) (s : State), s.grnReady = true → s.plotFor c = some n →
    ∃ t, exec (.plotRequest c) s = .next t ∧ t.plot n = ⟨1, c, 0, 0⟩ ∧ t.grn.held = s.grn.held ++ [(c.val, n)] ∧
      t.acc = (0, BitVec.ofNat 32 n) ∧ ∀ m, m ≠ n → t.plot m = s.plot m) ∧
  (∀ (c : Fin 32) (s : State), s.grnReady = true → s.plotFor c = none →
    ∃ t, exec (.plotRequest c) s = .next t ∧ c.val ∈ t.grn.waiting ∧ t.acc.1 = 5 ∧ ∀ m, t.plot m = s.plot m) ∧
  (∀ (c : Fin 32) (s : State), s.grnReady = false →
    ∃ t, exec (.plotRequest c) s = .next t ∧ t.acc.1 = 5 ∧ t.grn = s.grn) ∧
  (∀ (c : Fin 32) (p : Fin 16384) (k : Nat) (r : Option (Fin 32)) (s : State), (s.plot p).state = 1 → (s.plot p).owner = c →
    s.inStatic p = false →
    ∃ u : State, exec (.plotRelease c p k r) s = .next u.serveWaiting ∧ (c.val, p.val) ∉ u.grn.held ∧
      u.grn.waiting = s.grn.waiting ∧
      u.plot p = (match r with
        | some q => ⟨2, c, k, q⟩
        | none => if k = 0 then Plot.free else ⟨2, c, k, 0⟩) ∧ ∀ m, m ≠ p.val → u.plot m = s.plot m) ∧
  (∀ (c : Fin 32) (p : Fin 16384) (k : Nat) (r : Option (Fin 32)) (s : State), s.inStatic p = true →
    exec (.plotRelease c p k r) s = .next s) ∧
  (∀ (p : Fin 16384) (s : State), (s.plot p).state = 2 → (s.plot p).outstanding = 1 → (s.plot p).handTo = 0 →
    ∃ u : State, exec (.plotAccessComplete p) s = .next u.serveWaiting ∧ u.grn.waiting = s.grn.waiting ∧ u.plot p = Plot.free ∧
      ∀ m, m ≠ p.val → u.plot m = s.plot m) ∧
  (∀ (p : Fin 16384) (s : State), (s.plot p).state = 2 → (s.plot p).outstanding ≠ 0 →
    ((s.plot p).outstanding ≠ 1 ∨ (s.plot p).handTo ≠ 0) →
    ∃ t, exec (.plotAccessComplete p) s = .next t ∧
      t.plot p = { s.plot p with outstanding := (s.plot p).outstanding - 1 } ∧ ∀ m, m ≠ p.val → t.plot m = s.plot m) ∧
  (∀ (c : Fin 32) (p : Fin 16384) (s : State), (s.plot p).state = 2 → (s.plot p).handTo = c → c ≠ 0 →
    ∃ t, exec (.plotHandoverAccept c p) s = .next t ∧ t.plot p = ⟨1, c, 0, 0⟩ ∧ (c.val, p.val) ∈ t.grn.held ∧
      ∀ m, m ≠ p.val → t.plot m = s.plot m) ∧
  (∀ (p : Fin 16384) (s : State), (s.plot p).state = 2 → (s.plot p).handTo ≠ 0 →
    ∃ u : State, exec (.plotHandoverTimeout p) s = .next u.serveWaiting ∧ u.grn.waiting = s.grn.waiting ∧
      u.plot p = (if (s.plot p).outstanding = 0 then Plot.free else { s.plot p with handTo := 0 }) ∧ ∀ m, m ≠ p.val →
      u.plot m = s.plot m) ∧
  (∀ s : State, s.grn.waiting = [] → s.serveWaiting = s) ∧
  (∀ (c n : Nat) (s : State), s.grn.waiting = [c] → s.plotFor c = some n →
    s.serveWaiting.plot n = ⟨1, c, 0, 0⟩ ∧ s.serveWaiting.grn.waiting = [])

/-- R71, R75, R82, R8: a client kept waiting is reported; a plot's self-test is queued once, or counted as dropped when 32 wait;
the bank that waits and comes first to an unscheduled cycle of its wheel, in one cycle the lowest such bank (log 287), writes back
the corrected word that waits longest in it; a read of the grant count clears it. R80 to R83, R86, R87: the
self-test of stage S2 leaves the Granary READY, every byte 0 and free of poison, and the listed plots RETIRED, or holds the device
when more than 64 plots would be listed; an audit that passes changes nothing but its record, one that fails rebuilds the state
table; a plot to be tested moves, with its poison, to the plot behind a spare, and the end of its test frees the spare or retires
the plot. -/
def Obligations.GranaryServiceCommands : Prop :=
  (∀ (c : Fin 32) (s : State), c.val ∈ s.grn.waiting →
    ∃ t, exec (.grnAllocStall c) s = .next t ∧ (s.quiet = true → t.saw Ev.GRN_ALLOC_STALL = true) ∧ t.grn = s.grn) ∧
  (∀ (c : Fin 32) (s : State), c.val ∉ s.grn.waiting → exec (.grnAllocStall c) s = .next s) ∧
  (∀ (v : Word) (s : State), s.shut .service GRN_SELFTEST_REQ = false → (∀ q ∈ s.tests, q.kind = 1 →
    q.idx ≠ s.physOf (v.toNat % 2 ^ 14)) →
    (s.tests.filter (fun q => q.kind == 1)).length < 32 →
    ∃ t, exec (.grnSelftestReq v) s = .next t ∧ t.tests = s.tests ++ [⟨1, s.physOf (v.toNat % 2 ^ 14), false⟩]) ∧
  (∀ (v : Word) (s : State), s.shut .service GRN_SELFTEST_REQ = false → (∀ q ∈ s.tests, q.kind = 1 →
    q.idx ≠ s.physOf (v.toNat % 2 ^ 14)) →
    32 ≤ (s.tests.filter (fun q => q.kind == 1)).length →
    ∃ t, exec (.grnSelftestReq v) s = .next t ∧ t.tests = s.tests ∧
      t.rd GRN_SELFTEST_DROPPED_TOTAL = min (s.rd GRN_SELFTEST_DROPPED_TOTAL + 1) (2 ^ 32 - 1)) ∧
  (∀ (v : Word) (q : TestReq) (s : State), s.shut .service GRN_SELFTEST_REQ = false → q ∈ s.tests → q.kind = 1 →
    q.idx = s.physOf (v.toNat % 2 ^ 14) →
    exec (.grnSelftestReq v) s = .next s) ∧
  (∀ (b : Fin 32) (i : Nat) (w : Nat × Nat × Nat) (s : State), s.grn.writeBacks.find? (fun w => w.1 % 32 == b.val) = some w →
    i < 64 → s.wheelAt b i = 15 →
    (∀ c, c < 32 → (s.writeBackOf c).isSome = true → ∀ j, j < i + 1 → s.wheelAt c j = 15 → j = i ∧ b.val ≤ c) →
    exec .eccWriteback s = .next { s with grn := { s.grn with writeBacks := s.grn.writeBacks.erase w } }) ∧
  (∀ s : State, s.grn.writeBacks = [] → exec .eccWriteback s = .next s) ∧
  (∀ s : State, s.shut .service GRN_CLIENT_GRANTS = false → ∃ t, exec .grnClientGrantsRead s = .next t ∧
    t.acc = (0, BitVec.ofNat 32 (s.grantsOf (s.rd GRN_CLIENT_SEL))) ∧ t.grantsOf (s.rd GRN_CLIENT_SEL) = 0 ∧
    ∀ k, k ≠ s.rd GRN_CLIENT_SEL → t.grantsOf k = s.grantsOf k) ∧
  (∀ (fails : List (Fin 16384)) (s : State), s.stageNow = 2 → s.grnReady = false → fails.Nodup →
    s.retireList.length + (fails.filter (fun f => !s.retireList.contains f.val)).length ≤ 64 →
    ∃ t, exec (.granaryBist fails) s = .next t ∧ t.grnReady = true ∧
      (∀ n, n < 16384 → t.plot n = if n ∈ t.retireList then ⟨3, 0, 0, 0⟩ else Plot.free) ∧
      (∀ a, grnBase ≤ a → a < grnBase + grnSize → cellGet t.mem a = 0#8 ∧ t.poisoned a = false) ∧
      ∀ a, a < grnBase ∨ grnBase + grnSize ≤ a → cellGet t.mem a = cellGet s.mem a) ∧
  (∀ (f : Fin 16384) (s : State), s.stageNow = 2 → s.grnReady = false → s.sramFree = true → s.retireList.length < 64 →
    ∃ t, exec (.granaryBist [f]) s = .next t ∧ f.val ∈ t.retireList) ∧
  (∀ (fails : List (Fin 16384)) (s : State), s.stageNow = 2 → s.grnReady = false → fails.Nodup →
    64 < s.retireList.length + (fails.filter (fun f => !s.retireList.contains f.val)).length →
    ∃ t, exec (.granaryBist fails) s = .next t ∧ t.grnReady = false ∧ t.isHeld = true ∧ t.mem = s.mem) ∧
  (∀ s : State, s.grnReady = true → s.auditPasses = true →
    ∃ t, exec .plotAudit s = .next t ∧ t.rd GRN_AUDIT_LAST = 1 + s.fpl.frame % 2 ^ 16 * 2 ^ 16 ∧ t.grn = s.grn) ∧
  (∀ s : State, s.grnReady = true → s.auditPasses = false →
    ∃ t, exec .plotAudit s = .next t ∧ t.rd GRN_AUDIT_FAIL_TOTAL = min (s.rd GRN_AUDIT_FAIL_TOTAL + 1) (2 ^ 32 - 1) ∧
      bit (t.rd GRN_AUDIT_LAST) 1 = 1 ∧ (s.grn.waiting = [] → ∀ n, n < 16384 → t.plot n = s.rebuilt n)) ∧
  (∀ (q : TestReq) (sp : Nat) (s : State), s.grnReady = true → s.grn.test = none →
    s.tests.find? (fun t => t.kind == 1) = some q → (s.plot (s.logicalOf q.idx)).state ≠ 3 →
    s.spareFor (s.logicalOf q.idx) = some sp → sp ≠ s.logicalOf q.idx →
    ∃ t, exec (.plotSelftest []) s = .next t ∧ t.grn.test = some ⟨s.logicalOf q.idx, q.idx, sp, q.faulted⟩ ∧
      t.physOf (s.logicalOf q.idx) = s.physOf sp ∧ t.physOf sp = q.idx ∧ t.plot sp = ⟨2, 0, 0, 0⟩ ∧
      ∀ i, i < 4096 →
        cellGet t.mem (grnBase + s.physOf sp * 4096 + i) = cellGet s.mem (grnBase + q.idx * 4096 + i) ∧
        sget false t.poison ((grnBase + s.physOf sp * 4096 + i) / 64) =
          sget false s.poison ((grnBase + q.idx * 4096 + i) / 64)) ∧
  (∀ (bad : List (Fin 64 × Fin 8)) (q : TestReq) (s : State), s.grnReady = true → s.grn.test = none →
    s.tests.find? (fun t => t.kind == 1) = some q → (s.plot (s.logicalOf q.idx)).state ≠ 3 →
    s.spareFor (s.logicalOf q.idx) = none →
    ∃ t, exec (.plotSelftest bad) s = .next t ∧ t.grn = s.grn ∧ t.mem = s.mem ∧
      (s.quiet = true → t.saw Ev.GRN_SPARES_EXHAUSTED = true)) ∧
  (∀ (v : Word) (q : PlotTest) (s : State), s.grn.test = some q →
    ∃ t, exec (.plotSelftestDone false v) s = .next t ∧ t.grn.test = none ∧
      t.rd GRN_SELFTEST_LAST = (q.phys + s.classify 1 q.phys q.faulted false * 2 ^ 16 + 2 ^ 18) % 2 ^ 32 ∧
      (s.grn.waiting = [] → t.plot q.spare = Plot.free ∧ ∀ m, m ≠ q.spare → t.plot m = s.plot m)) ∧
  (∀ (v : Word) (q : PlotTest) (s : State), s.grn.test = some q →
    ∃ t, exec (.plotSelftestDone true v) s = .next t ∧ t.grn.test = none ∧
      t.rd GRN_SELFTEST_LAST = (q.phys + 3 * 2 ^ 16 + 2 ^ 18) % 2 ^ 32 ∧ t.plot q.spare = ⟨3, 0, 0, 0⟩ ∧
      (s.quiet = true → t.saw Ev.GRN_PLOT_RETIRED = true) ∧ ∀ m, m ≠ q.spare → t.plot m = s.plot m)

/-- R66, R73, R77, R78, R80, R84, R85: from stage S3 on, with the Granary READY, an access to a plot that is not RETIRED, of a
requester that may access it, and for an engine at a bank whose wheel names it, is performed. A write stores exactly its bytes,
whatever error the line meets, and is answered OK; a read answers the bytes with OK, or POISON with the data where the line carries
poison, zeros for the host. A requester without the right is answered DENIED, and nothing is stored. An engine that the wheel of the
bank never names is answered BUSY (the model's choice, log entry 243). Before the Granary takes accesses every access is answered
BUSY and none is performed. -/
def Obligations.GranaryAccess : Prop :=
  (∀ (req : GrnReq) (p : Fin 16384) (l o : Fin 64) (n : Nat) (d : Bytes) (e : GrnErr) (rivals : List GrnReq) (s : State),
    s.grnOpen = true → (s.plot p).state ≠ 3 → s.mayAccess req p = true → s.bankServes req (s.physOf p % 32) = true →
    o + d.length ≤ 64 →
    ∃ t, exec (.granaryAccess req p l o n (some d) false e rivals) s = .next t ∧ t.acc.1 = 0 ∧
      (∀ i, (h : i < d.length) → cellGet t.mem (s.place (grnBase + p * 4096 + l * 64 + o + i)) = d[i]) ∧
      ∀ x, (∀ i, i < d.length → x ≠ s.place (grnBase + p * 4096 + l * 64 + o + i)) → cellGet t.mem x = cellGet s.mem x) ∧
  (∀ (req : GrnReq) (p : Fin 16384) (l o : Fin 64) (n : Nat) (w : Bool) (rivals : List GrnReq) (s : State),
    s.grnOpen = true → (s.plot p).state ≠ 3 → s.mayAccess req p = true → s.bankServes req (s.physOf p % 32) = true →
    s.poisoned (grnBase + p * 4096 + l * 64 + o) = false →
    ∃ t, exec (.granaryAccess req p l o n none w .clean rivals) s = .next t ∧ t.mem = s.mem ∧ t.acc.1 = 0 ∧
      t.accBytes = s.memGet (grnBase + p * 4096 + l * 64 + o) (min n (64 - o))) ∧
  (∀ (req : GrnReq) (p : Fin 16384) (l o : Fin 64) (n : Nat) (w : Bool) (rivals : List GrnReq) (s : State),
    s.grnOpen = true → (s.plot p).state ≠ 3 → s.mayAccess req p = true → s.bankServes req (s.physOf p % 32) = true →
    s.poisoned (grnBase + p * 4096 + l * 64 + o) = true →
    ∃ t, exec (.granaryAccess req p l o n none w .clean rivals) s = .next t ∧ t.mem = s.mem ∧ t.acc.1 = 4 ∧
      t.accBytes = if req = .mgmt then List.replicate (min n (64 - o)) 0#8
        else s.memGet (grnBase + p * 4096 + l * 64 + o) (min n (64 - o))) ∧
  (∀ (req : GrnReq) (p : Fin 16384) (l o : Fin 64) (n : Nat) (d : Option Bytes) (w : Bool) (e : GrnErr) (rivals : List GrnReq)
    (s : State), s.grnOpen = true → (s.plot p).state ≠ 3 → s.mayAccess req p = false → s.bankServes req (s.physOf p % 32) = true →
    ∃ t, exec (.granaryAccess req p l o n d w e rivals) s = .next t ∧ t.acc.1 = 3 ∧ t.accBytes = [] ∧ t.mem = s.mem) ∧
  (∀ (g : Fin 8) (p : Fin 16384) (l o : Fin 64) (n : Nat) (d : Option Bytes) (w : Bool) (e : GrnErr) (rivals : List GrnReq)
    (s : State), s.grnOpen = true → s.engineReaches g (s.physOf p % 32) = false →
    ∃ t, exec (.granaryAccess (.engine g) p l o n d w e rivals) s = .next t ∧ t.acc.1 = 5 ∧ t.accBytes = [] ∧ t.mem = s.mem) ∧
  (∀ (req : GrnReq) (p : Fin 16384) (l o : Fin 64) (n : Nat) (d : Option Bytes) (w : Bool) (e : GrnErr) (rivals : List GrnReq)
    (s : State), s.grnOpen = false →
    ∃ t, exec (.granaryAccess req p l o n d w e rivals) s = .next t ∧ t.acc.1 = 5 ∧ t.accBytes = [] ∧ t.mem = s.mem)

/-- R17, R18, R19, R34, R38, R51, R309: what the commands of the tick leave in the field plan unit. A boundary starts a tick at slot
0 with no commit point passed and the account of overruns empty; a slot starts and its engines with it; the drain's end opens the
headland; a task stopped before the boundary is due again; the commit point is passed once. Every engine that has not finished when
its slot ends is cut, and each cut is counted once in FPL_OVERRUN_TOTAL; ETC_ROW, engine 5, is never cut. -/
def Obligations.TickCommands : Prop :=
  (∀ (l : List (Fin 64)) (s : State), s.ticking = true →
    ∃ t, exec (.tickBoundary l) s = .next t ∧ t.tickStart = s.now ∧ t.now = s.now ∧ t.fpl.slot = 0 ∧
      t.fpl.slotStart = s.now ∧ t.fpl.committed = false ∧ t.fpl.overSlots = []) ∧
  (∀ (k : Fin 560) (s : State), s.ticking = true → k.val ≤ 540 → s.fpl.slot ≠ slotHeadland → s.fpl.slot ≤ k →
    ∃ t, exec (.furrowSlotStart k) s = .next t ∧ t.fpl.slot = k ∧ t.fpl.slotStart = s.now ∧
      ∀ e, e ∈ t.fpl.running ↔ e ∈ s.fpl.running ∨ e ∈ s.slotEngines k) ∧
  (∀ (k : Fin 560) (s : State), s.ticking = true → 540 < k.val → s.fpl.slot = slotHeadland →
    ∃ t, exec (.furrowSlotStart k) s = .next t ∧ t.fpl.slot = slotHeadland ∧
      ∀ e, e ∈ t.fpl.running ↔ e ∈ s.fpl.running ∨ e ∈ s.slotEngines k) ∧
  (∀ (l : List (Fin 8 × Nat)) (s : State), s.ticking = true → s.fpl.slot ≠ slotHeadland →
    ∃ t, exec (.furrowSlotEnd l) s = .next t ∧ t.fpl.running = [] ∧ t.fpl.slot = s.fpl.slot ∧
      ((∀ e ∈ s.fpl.running, e = 5 ∨ 8 ≤ e) → t.fpl.overSlots = s.fpl.overSlots) ∧
      ((∃ e ∈ s.fpl.running, e ≠ 5 ∧ e < 8) → s.fpl.slot ∈ t.fpl.overSlots) ∧
      t.rd FPL_OVERRUN_TOTAL = min (s.rd FPL_OVERRUN_TOTAL +
        ((List.range 8).filter (fun e => e != 5 && s.fpl.running.contains e)).length) (2 ^ 32 - 1)) ∧
  (∀ (m : List (Fin 16 × Mr4)) (s : State), s.ticking = true → s.fpl.slot = 540 →
    ∃ t, exec (.headlandStart m) s = .next t ∧ t.fpl.slot = slotHeadland ∧ t.fpl.slotStart = s.now ∧ t.fpl.running = []) ∧
  (∀ (i : Fin 64) (s : State), s.ticking = true → s.fpl.slot = slotHeadland → ⟨i.val, true⟩ ∈ s.fpl.tasks →
    (s.taskOf i).claimsScheduled = true →
    ∃ t, exec (.headlandTaskAbort [i]) s = .next t ∧ ⟨i.val, true⟩ ∉ t.fpl.tasks ∧ ⟨i.val, false⟩ ∈ t.fpl.tasks) ∧
  (∀ s : State, s.ticking = true → s.fpl.committed = false →
    ∃ t, exec .commitPoint s = .next t ∧ t.fpl.committed = true ∧ t.bnd = Bnd.init ∧ t.thr.rows = [] ∧ t.thr.route = []) ∧
  (∀ s : State, s.fpl.committed = true → exec .commitPoint s = .next s)

/-- R53 to R56: staging, validation, arming and disarming a plan. Staging takes any staged plan away; validation ends VALID or
REFUSED by the checks; an armed switch waits for its frame or the next boundary. -/
def Obligations.StagingCommands : Prop :=
  (∀ (v : Word) (s : State), s.shut .service FPL_STAGE_CTRL = false → fld v.toNat 5 4 ≤ 1 →
    ∃ t, exec (.fplStageValidate v) s = .next t ∧ t.fpl.stage = .validating ∧ t.fpl.staged = none ∧ t.fpl.arm = none ∧
      t.fpl.plan = s.fpl.plan) ∧
  (∀ (v : Word) (s : State), s.shut .service FPL_STAGE_CTRL = false → 1 < fld v.toNat 5 4 →
    ∃ t, exec (.fplStageValidate v) s = .next t ∧ t.fpl.stage = .refused ∧ t.fpl.stageEvent = Ev.FPL_FORMAT ∧
      t.fpl.staged = none ∧ t.fpl.plan = s.fpl.plan) ∧
  (∀ (v : Word) (s : State), s.shut .service FPL_STAGE_CTRL = false → ∃ t, exec (.fplStageAbort v) s = .next t ∧
    t.fpl.stage = .idle ∧ t.fpl.staged = none ∧
    t.fpl.arm = none ∧ t.fpl.plan = s.fpl.plan) ∧
  (∀ s : State, s.fpl.stage = .validating →
    ∃ t, exec .planValidationDone s = .next t ∧ t.fpl.staged = (s.opened.loadPlan s.fpl.stageBytes).2.1 ∧
      t.fpl.stage = (if (s.opened.loadPlan s.fpl.stageBytes).2.1.isSome then .valid else .refused)) ∧
  (∀ (v : Word) (s : State), s.shut .service FPL_SWITCH_CTRL = false → s.fpl.frame < s.switchAt → s.fpl.stage = .validating →
    ∃ t, exec (.fplSwitchArm v) s = .next t ∧ t.fpl.arm = some (.at s.switchAt)) ∧
  (∀ (v : Word) (s : State), s.shut .service FPL_SWITCH_CTRL = false → s.switchAt ≤ s.fpl.frame →
    ∃ t, exec (.fplSwitchArm v) s = .next t ∧ t.fpl = s.fpl) ∧
  (∀ (v : Word) (s : State), s.shut .service FPL_SWITCH_CTRL = false → s.fpl.stage = .validating →
    ∃ t, exec (.fplSwitchNext v) s = .next t ∧ t.fpl.arm = some .next) ∧
  (∀ (v : Word) (s : State), s.shut .service FPL_SWITCH_CTRL = false → s.fpl.stage = .valid → (s.fpl.stageCold = true →
    bit v.toNat 3 = 1) →
    ∃ t, exec (.fplSwitchNext v) s = .next t ∧ t.fpl.arm = some .next) ∧
  (∀ (v : Word) (s : State), s.shut .service FPL_SWITCH_CTRL = false → ∃ t, exec (.fplSwitchDisarm v) s = .next t ∧
    t.fpl.arm = none) ∧
  (∀ s : State, s.fpl.coldBusy = true →
    ∃ t, exec .coldSwitchDone s = .next t ∧ t.fpl.coldBusy = !s.opened.loadTable.2) ∧
  (∀ s : State, s.shut .service FPL_FRAME_LO = false → ∃ t, exec .fplFrameLoRead s = .next t ∧
    t.acc = (0, BitVec.ofNat 32 (s.fpl.frame % 2 ^ 32)) ∧
    t.rd FPL_FRAME_HI = s.fpl.frame / 2 ^ 32 % 2 ^ 16)

/-- R98, R100, R106, R108, R109, R118: what arrives for the plates. A frame record that passes its checks and is not stale
becomes pending; an update record is entered with none of its blocks, and a stale one is dropped and reported; a block of an
update under way is stored in the lowest free slot of its plate's pool, where R26 lets a write reach it; a block with a bad header
is dropped. -/
def Obligations.SheafCommands : Prop :=
  (∀ (p : Fin 4) (m : Bytes) (s : State), s.fpl.plan.isSome = true → frameRecordOk (m.drop 16) = true →
    (∀ c, s.plt.cand = some c → (frameRecord (m.drop 16)).resync = true ∨ s.rdF PLT_STATUS 4 4 = 1 ∨
      newer 16 (frameRecord (m.drop 16)).tag c.tag = true) →
    ∃ t, exec (.frameRecordReceive p m) s = .next t ∧ t.plt.cand = s.plt.cand ∧ t.plt.plates = s.plt.plates ∧
      t.plt.pend = some { frameRecord (m.drop 16) with
        resync := (frameRecord (m.drop 16)).resync || s.rdF PLT_STATUS 4 4 == 1 } ∧
      t.rdF PLT_STATUS 4 4 = 0) ∧
  (∀ (p : Fin 4) (m : Bytes) (k : Nat) (r : PlateRec) (s : State), s.fpl.plan.isSome = true →
    updateRecordOk (m.drop 16) = true →
    byteAt (m.drop 16) 24 < 3 → s.plt.cand = none →
    s.plateOfId (byteAt (m.drop 16) 3) = some k → s.plateRec k = some r →
    newer 16 (leAt (m.drop 16) 6 2) (s.plateSt k).applied = true → (s.plateSt k).gone = [] →
    (∀ u ∈ (s.plateSt k).upds, u.seq ≠ leAt (m.drop 16) 6 2) →
    ∃ t, exec (.updateRecordReceive p m) s = .next t ∧ (∀ j, j ≠ k → t.plateSt j = s.plateSt j) ∧
      ∃ u, (t.plateSt k).upds = (s.plateSt k).upds ++ [u] ∧ u.seq = leAt (m.drop 16) 6 2 ∧ u.tag = leAt (m.drop 16) 4 2 ∧
        u.kind = byteAt (m.drop 16) 24 ∧ u.got = []) ∧
  (∀ (p : Fin 4) (m : Bytes) (k : Nat) (r : PlateRec) (s : State), s.fpl.plan.isSome = true →
    updateRecordOk (m.drop 16) = true →
    s.quiet = true →
    s.plateOfId (byteAt (m.drop 16) 3) = some k → s.plateRec k = some r →
    newer 16 (leAt (m.drop 16) 6 2) (s.plateSt k).applied = false →
    ∃ t, exec (.updateRecordReceive p m) s = .next t ∧ t.plt = s.plt ∧ t.saw Ev.PLT_STALE_UPDATE = true ∧
      t.rd PLT_DROP_TOTAL = min (s.rd PLT_DROP_TOTAL + 1) (2 ^ 32 - 1)) ∧
  (∀ (p : Fin 4) (m : Bytes) (k i : Nat) (r : PlateRec) (u : Upd) (s : State), s.fpl.plan.isSome = true →
    sheafHeaderOk (m.drop 16) = true →
    s.blockNeeded (m.drop 16) = true → s.plt.cand = none →
    s.plateOfId (byteAt (m.drop 16) 3) = some k → s.plateRec k = some r →
    newer 16 (leAt (m.drop 16) 6 2) (s.plateSt k).applied = true →
    (s.plateSt k).upds.find? (fun v => v.seq == leAt (m.drop 16) 6 2) = some u → u.tag = leAt (m.drop 16) 4 2 →
    formatMatches r (m.drop 16) = true → u.got = [] →
    (if byteAt (m.drop 16) 12 = 2 then u.expQ else u.expT).has (toS 16 (leAt (m.drop 16) 8 2))
      (toS 16 (leAt (m.drop 16) 10 2)) = true →
    s.freeSlot k r = some i →
    ∃ t, exec (.sheafBlockReceive p m) s = .next t ∧
      t.rd PLT_BLOCKS_TOTAL = min (s.rd PLT_BLOCKS_TOTAL + 1) (2 ^ 32 - 1) ∧
      t.mem = if s.dramAll (r.slotAddr i) ((m.drop 16).take (32 + leAt (m.drop 16) 14 2)).length = true then
        (s.memSet (r.slotAddr i) ((m.drop 16).take (32 + leAt (m.drop 16) 14 2))).mem else s.mem) ∧
  (∀ (p : Fin 4) (m : Bytes) (s : State), s.fpl.plan.isSome = true → sheafHeaderOk (m.drop 16) = false → s.quiet = true →
    ∃ t, exec (.sheafBlockReceive p m) s = .next t ∧ t.plt = s.plt ∧ t.mem = s.mem ∧ t.saw Ev.PLT_HEADER_DROP = true ∧
      t.rd PLT_DROP_TOTAL = min (s.rd PLT_DROP_TOTAL + 1) (2 ^ 32 - 1)) ∧
  (∀ s : State, s.shut .service PLT_CTRL = false → exec .pltCtrlDropPending s = .next { s with plt := { s.plt with pend := none } }) ∧
  (∀ s : State, s.shut .service PLT_CTRL = false → ∃ t, exec .pltCtrlResync s = .next t ∧ t.rdF PLT_STATUS 4 4 = 1)

/-- R110 to R112: publication. The lowest update in order that is complete, of a plate whose candidate entry lists it, is
published when its map is not being copied: its SEQ becomes APPLIED_SEQ, and the update leaves the plate. A map copy that ends
lets publication go on. -/
def Obligations.PublicationCommands : Prop :=
  (∀ (k : Fin 32) (r : PlateRec) (e : FrEntry) (u : Upd) (s : State), s.plateRec k = some r → s.plt.cand.isSome = true →
    (s.plateSt k).entry = some e → (s.plateSt k).copying = false → s.frozen = false → (s.plateSt k).gone = [] →
    (s.plateSt k).upds = [u] → u.seq = succW 16 (s.plateSt k).applied → u.complete = true →
    later 16 u.seq e.last = false →
    ∃ t, exec (.updateComplete k) s = .next t ∧ (t.plateSt k).applied = u.seq ∧ (t.plateSt k).upds = [] ∧
      (u.kind = 1 → (t.plateSt k).lastWhole = some u.seq) ∧ ∀ j, j ≠ k.val → t.plateSt j = s.plateSt j) ∧
  (∀ (k : Fin 32) (s : State), (∀ v ∈ (s.plateSt k).upds, v.complete = false) → (s.plateSt k).gone = [] →
    exec (.updateComplete k) s = .next s) ∧
  (∀ (k : Fin 32) (s : State), (s.plateSt k).copying = true → (s.plateSt k).gone = [] →
    (∀ v ∈ (s.plateSt k).upds, v.complete = false) →
    ∃ t, exec (.mapCopyDone k) s = .next t ∧ t.plateSt k = { s.plateSt k with copying := false } ∧ t.mem = s.mem)

/-- R123 to R125, R129, R130, R140, R146: what the records of a furrow's data path do. A block row is staged, and blocks that
another record staged for other plates or other rows stay; the row is marked input-complete; a record of THR_DEC dispatches the
blocks of its first plate, waits while no staged row offers them, and has nothing to do for plates without entries in its row; a
pipe that finishes its block sends one block of the plate's length over the route: the decoded bytes, or zeros for an entry
without content and for a block that fails; a record of the band writer begins, and leaves when its rows are written; the block
at the head of the route is placed, or waits. -/
def Obligations.FurrowDataCommands : Prop :=
  (∀ (k : Fin 560) (l : Nat) (ch : List (Nat × DramCheck)) (r : SlotRec) (s : State), s.liveRecord k 6 = some r →
    ∃ t, exec (.dmcStreamRecord k l ch) s = .next t ∧
      (∃ x ∈ t.thr.rows, x.row = r.target ∧ x.fill = (r.op == opFill) ∧ x.ready = false ∧
        ∀ b ∈ x.blocks, bit r.plates b.plate = 1) ∧
      (∀ x ∈ s.thr.rows, (x.row ≠ r.target ∨ x.fill ≠ (r.op == opFill)) → x ∈ t.thr.rows) ∧
      ∀ x ∈ s.thr.rows, ∀ b ∈ x.blocks, bit r.plates b.plate = 0 →
        ∃ y ∈ t.thr.rows, y.row = x.row ∧ y.fill = x.fill ∧ b ∈ y.blocks) ∧
  (∀ (n : Nat) (f : Bool) (s : State), s.thr.rows.any (fun x => x.row == n && x.fill == f) = true →
    ∃ t, exec (.streamRowStaged n f) s = .next t ∧ (6 ∉ s.fpl.stalled → 6 ∉ t.fpl.running) ∧
      (s.thr.reqs = [] → t.thr.rows = s.thr.rows.map (fun x => if x.row == n && x.fill == f then { x with ready := true } else x))) ∧
  (∀ (k : Fin 560) (r : SlotRec) (i : Nat) (x : StagedRow) (s : State), s.liveRecord k 0 = some r → s.thr.reqs = [] →
    (setBits 32 r.plates).find? (fun j => bit (s.livePlates (r.op == opFill) r.target) j == 1) = some i →
    s.thr.rows.find? (fun y => y.offers ⟨r.target, r.op == opFill, r.plates, r.wait⟩ i) = some x →
    ∃ t, exec (.thrDecRecord k) s = .next t ∧ ∀ b ∈ x.blocks, b.plate = i →
      (r.op == opFill, b) ∈ t.thr.disp ∨ ∃ p ∈ t.thr.pipes, p.2.1 = (r.op == opFill) ∧ p.2.2.1 = b) ∧
  (∀ (k : Fin 560) (r : SlotRec) (i : Nat) (s : State), s.liveRecord k 0 = some r → s.thr.reqs = [] →
    (setBits 32 r.plates).find? (fun j => bit (s.livePlates (r.op == opFill) r.target) j == 1) = some i →
    (∀ y ∈ s.thr.rows, y.offers ⟨r.target, r.op == opFill, r.plates, r.wait⟩ i = false) →
    ∃ t, exec (.thrDecRecord k) s = .next t ∧ t.thr.reqs = [⟨r.target, r.op == opFill, r.plates, r.wait⟩] ∧
      t.thr.rows = s.thr.rows) ∧
  (∀ (k : Fin 560) (r : SlotRec) (s : State), s.liveRecord k 0 = some r → s.thr.reqs = [] →
    (setBits 32 r.plates).find? (fun j => bit (s.livePlates (r.op == opFill) r.target) j == 1) = none →
    ∃ t, exec (.thrDecRecord k) s = .next t ∧ t.thr.reqs = [] ∧ t.thr.rows = s.thr.rows) ∧
  (∀ (p : Fin 8) (q n w : Nat) (f : Bool) (b : StagedBlk) (r : PlateRec) (s : State),
    s.thr.pipes.find? (fun x => x.1 == p.val) = some (q, f, b, w) → s.plateRecFor f b.plate = some r →
    ∃ t, exec (.thrBlockDecode p n) s = .next t ∧ t.thr.blocks = s.thr.blocks + 1 ∧
      t.thr.outBytes = s.thr.outBytes + decompLen (if b.isRelief then 2 else r.fmt) ∧
      ∃ d, t.thr.route = s.thr.route ++ [⟨b.plate, b.isRelief, b.x, b.y, f, d⟩] ∧
        (b.kind = 1 ∨ b.kind = 2 → d = List.replicate (decompLen (if b.isRelief then 2 else r.fmt)) 0#8) ∧
        (b.kind = 0 → (∀ i, i < b.lines → s.poisoned (s.stageAddr (b.line + i)) = false ∧
            s.engineMay 0 (plotOf (s.stageAddr (b.line + i))) = true) →
          let o := decodeSheaf ((List.range b.lines).flatMap (fun i => s.memGet (s.stageAddr (b.line + i)) 64))
            (some (if b.isRelief then 2 else r.fmt)) (some (r.id, b.x, b.y)) none
          d = if o.fail.isNone then o.out else List.replicate (decompLen (if b.isRelief then 2 else r.fmt)) 0#8)) ∧
  (∀ (k : Fin 560) (r : SlotRec) (s : State), s.liveRecord k 1 = some r → s.bnd.reqs = [] →
    (∀ e ∈ s.bwPlates (r.op == opFill) r.plates, e.2.1.scaled = false) →
    ∃ t, exec (.pltBwRecord k) s = .next t ∧
      if s.bwDone r.target (r.op == opFill) r.plates then t.bnd.reqs = [] ∧ (1 ∉ s.fpl.stalled → 1 ∉ t.fpl.running)
      else t.bnd.reqs = [(r.target, r.op == opFill, r.plates)] ∧ t.fpl.running = s.fpl.running) ∧
  (∀ (b : RouteBlk) (l : List RouteBlk) (s : State), s.thr.route = b :: l →
    ∃ t, exec .bandWriteBlock s = .next t ∧
      t.thr.route = if (s.opened.bandBlock b).isSome then l else b :: l)

/-- R134, R136, R137, R139, R140: the job ring. The doorbell moves THR_JOB_TAIL; the waiting descriptor, which the ring's client
can read, starts on a free pipe of its kind that is claimed for it; each block of a decode or encode job is read, decoded or
encoded, and stored behind the output so far, and the last one ends the job; an aborted job ends at its next block and its
descriptor is written; a bad ring size sets RING_BAD. -/
def Obligations.JobCommands : Prop :=
  (∀ (v : Word) (s : State), s.shut .service THR_JOB_TAIL = false → ∃ t, exec (.thrJobTailWrite v) s = .next t ∧
    t.rdF THR_JOB_TAIL 9 0 = v.toNat % 2 ^ 10) ∧
  (∀ (p : Fin 10) (i : Nat) (d : Bytes) (s : State), s.jobWaiting = some (i, d) → jobOk d = true →
    s.rangeMay s.jobClient (s.jobRing + 64 * i) 64 = true → s.rangePoisoned (s.jobRing + 64 * i) 64 = false →
    decide (8 ≤ p.val) = (byteAt d 0 == 1) → s.pipeFor i p = true → s.thr.pipeFree p = true →
    (i + 1) % s.jobRingSize = s.rdF THR_JOB_TAIL 9 0 →
    ∃ t, exec (.thrJobStart p) s = .next t ∧ t.thr.jobs = s.thr.jobs ++ [⟨i, d, p, 0, 0, 0, false⟩] ∧
      t.thr.fetched = s.rdF THR_JOB_TAIL 9 0 ∧ t.jobWait = false) ∧
  (∀ (p : Fin 10) (j : ThrJob) (s : State), s.thr.jobs = [j] → j.pipe = p → j.abort = true → s.quiet = true →
    s.thr.ended = [] → s.hgl.ckpt = none → s.rangeMay s.jobClient (s.jobRing + 64 * j.idx + 40) 12 = true →
    ∃ t, exec (.thrJobBlock p) s = .next t ∧ t.thr.jobs = [] ∧ t.saw Ev.THR_JOB_FAULT = true ∧
      t.rd THR_JOB_DONE_TOTAL = min (s.rd THR_JOB_DONE_TOTAL + 1) (2 ^ 32 - 1) ∧
      t.mem = (s.memSet (s.jobRing + 64 * j.idx + 40) (toLe 4 jobAborted ++ toLe 4 j.out ++ toLe 4 j.blocks)).mem) ∧
  (∀ (p : Fin 10) (j : ThrJob) (s : State), s.thr.jobs.find? (fun k => k.pipe == p.val) = some j → j.abort = false →
    byteAt j.desc 0 = 2 → s.hgl.ckpt = none → j.src < leAt j.desc 24 4 →
    s.rangeMay s.jobClient (s.jobSpan j).1 (s.jobSpan j).2 = true → s.rangePoisoned (s.jobSpan j).1 (s.jobSpan j).2 = false →
    (s.jobDecoded j).fail = none → j.out + (s.jobDecoded j).out.length ≤ leAt j.desc 32 4 →
    s.rangeMay s.jobClient j.dst (s.jobDecoded j).out.length = true →
    ∃ t, exec (.thrJobBlock p) s = .next t ∧
      (s.jobAfter j < leAt j.desc 24 4 → t.mem = (s.memSet j.dst (s.jobDecoded j).out).mem ∧
        t.thr.jobs = s.thr.jobs.map (fun k => if k.idx == j.idx
          then { j with blocks := j.blocks + 1, out := j.out + (s.jobDecoded j).out.length, src := s.jobAfter j } else k)) ∧
      (leAt j.desc 24 4 ≤ s.jobAfter j → t.thr.jobs = s.thr.jobs.filter (fun k => k.idx != j.idx) ∧
        t.rd THR_JOB_DONE_TOTAL = min (s.rd THR_JOB_DONE_TOTAL + 1) (2 ^ 32 - 1))) ∧
  (∀ (p : Fin 10) (j : ThrJob) (s : State), s.thr.jobs.find? (fun k => k.pipe == p.val) = some j → j.abort = false →
    byteAt j.desc 0 = 1 → s.hgl.ckpt = none → j.blocks < jobBlocks j.desc →
    (∀ q ∈ jobSource j.desc j.blocks, s.rangeMay s.jobClient q.1 q.2 = true ∧ s.rangePoisoned q.1 q.2 = false) →
    j.out + (encodeSheaf j.desc j.blocks (s.jobChunk j)).length ≤ leAt j.desc 32 4 →
    s.rangeMay s.jobClient j.dst (encodeSheaf j.desc j.blocks (s.jobChunk j)).length = true →
    ∃ t, exec (.thrJobBlock p) s = .next t ∧
      (j.blocks + 1 < jobBlocks j.desc → t.mem = (s.memSet j.dst (encodeSheaf j.desc j.blocks (s.jobChunk j))).mem ∧
        t.thr.jobs = s.thr.jobs.map (fun k => if k.idx == j.idx
          then { j with blocks := j.blocks + 1, out := j.out + (encodeSheaf j.desc j.blocks (s.jobChunk j)).length,
                        src := j.src + (s.jobChunk j).length } else k)) ∧
      (jobBlocks j.desc ≤ j.blocks + 1 → t.thr.jobs = s.thr.jobs.filter (fun k => k.idx != j.idx) ∧
        t.rd THR_JOB_DONE_TOTAL = min (s.rd THR_JOB_DONE_TOTAL + 1) (2 ^ 32 - 1))) ∧
  (∀ s : State, s.shut .service THR_CTRL = false → exec .thrCtrlJobAbort s =
    .next { s with thr := { s.thr with jobs := s.thr.jobs.map (fun j => { j with abort := true }) } }) ∧
  (∀ (v : Word) (s : State), s.shut .service THR_JOB_RING_SIZE = false → ∃ t, exec (.thrJobRingSizeWrite v) s = .next t ∧
    t.jobRingSize = v.toNat % 2 ^ 11 ∧
    t.rdF THR_STATUS 1 1 = b2n (!ringSizeOk (v.toNat % 2 ^ 11)))

/-- R145, R155 to R163, R167 to R170: a drill record starts its furrow, or the prime; a drill loads the rows of a slot that are
input-complete for every plate of the set; the next ray of a lane that passes its check is composed and handed to the Etcher, and
one that fails it is counted and has its lane tested. R157, R158, R174, R456: a lane's scan test is queued; it leaves the queue when
it ends, and a lane that fails it is classed PERMANENT and acts at the next boundary. -/
def Obligations.DrillCommands : Prop :=
  (∀ (k : Fin 560) (r : SlotRec) (s : State), s.liveRecord k 2 = some r → k.val < 541 →
    ∃ t, exec (.drillRecord k) s = .next t ∧ t.drl.furrow = some (r.target % 540) ∧ t.etc.rays = [] ∧
      t.rdF DRL_STATUS 1 1 = 1) ∧
  (∀ (k : Fin 560) (r : SlotRec) (s : State), s.liveRecord k 2 = some r → 541 ≤ k.val →
    ∃ t, exec (.drillRecord k) s = .next t ∧ t.rdF DRL_STATUS 0 0 = 0 ∧
      t.drl = { s.drl with priming := r.op == opRun }) ∧
  (∀ (d : Fin 24) (k : Fin 560) (s : State), k.val < 539 → s.fpl.rep = false →
    ∃ t, exec (.drillReachLoad d k) s = .next t ∧ ∀ w, w = 2 * k.val + 34 ∨ w = 2 * k.val + 35 →
      s.rowIn s.drl.set w = true → bit (sget 0 t.bnd.loaded w) d = 1) ∧
  (∀ (d : Fin 24) (k : Fin 560) (s : State), 541 ≤ k.val → s.drl.priming = true →
    ∃ t, exec (.drillReachLoad d k) s = .next t ∧ ∀ w, w < 34 → s.rowIn s.drl.nextSet w = true →
      bit (sget 0 t.bnd.loaded w) d = 1) ∧
  (∀ (hx : Fin 960) (dir : Fin 144) (l : Fin 9) (sp : Bool) (n f d : Nat) (hs : List HglEntry) (s : State),
    s.drl.furrow = some f → s.drillOf hx = some d → s.hglOf f = some hs → s.reachHas d s.furrowPlates f = true →
    s.reliefHas s.furrowPlates f = true → s.rayOf d l = some (144 * (hx - (s.drillCols d).1) + dir) →
    ∃ t, exec (.drillRayComplete hx dir l false sp n) s = .next t ∧ t.drl.rays = s.drl.rays + 1 ∧
      t.drl.issueMax = max s.drl.issueMax n ∧
      let r := s.compose d (s.drillCols d).1 hx f dir (hs.getD hx .neutral) (setPlates s.furrowPlates)
        ⟨[.zero, .zero, .zero], .zero, 0, [], false⟩
      t.drl.samples = s.drl.samples + r.n ∧ t.drl.early = s.drl.early + b2n r.early ∧
      ∀ c, (s.tmBank (s.rdF DRL_TM_STATUS 0 0)).head (s.withBg r) = some c →
        sget ⟨0x8001, 0, 0⟩ t.etc.rays (144 * hx + dir) = c.1) ∧
  (∀ (hx : Fin 960) (dir : Fin 144) (l : Fin 9) (sp : Bool) (n f d : Nat) (hs : List HglEntry) (s : State),
    s.drl.furrow = some f → s.drillOf hx = some d → s.hglOf f = some hs → s.reachHas d s.furrowPlates f = true →
    s.reliefHas s.furrowPlates f = true → s.rayOf d l = some (144 * (hx - (s.drillCols d).1) + dir) →
    ∃ t, exec (.drillRayComplete hx dir l true sp n) s = .next t ∧ t.drl.rays = s.drl.rays + 1 ∧
      t.rd DRL_LANE_CHECK_TOTAL = min (s.rd DRL_LANE_CHECK_TOTAL + 1) (2 ^ 32 - 1) ∧
      ∃ q ∈ t.tests, q.kind = 4 ∧ q.idx = 9 * d + l) ∧
  (∀ (v : Word) (s : State), s.shut .service DRL_LANE_TEST = false → fld v.toNat 3 0 < 9 → s.rdF DRL_LANE_SEL 4 0 < 24 →
    (∀ q ∈ s.tests, q.kind = 4 → q.idx ≠ 9 * s.rdF DRL_LANE_SEL 4 0 + fld v.toNat 3 0) →
    ∃ t, exec (.drlLaneTest v) s = .next t ∧
      t.tests = s.tests ++ [⟨4, 9 * s.rdF DRL_LANE_SEL 4 0 + fld v.toNat 3 0, false⟩]) ∧
  (∀ (i : Fin 216) (v : Word) (q : TestReq) (s : State),
    s.tests.find? (fun t => t.kind == 4 && t.idx == i.val) = some q → bit (s.lanesOf (i / 9)).failed (i % 9) = 0 →
    ∃ t, exec (.drillLaneTestDone i true v) s = .next t ∧
      t.tests = s.tests.filter (fun t => !(t.kind == 4 && t.idx == i.val)) ∧ i.val % 9 ∈ (t.lanesOf (i / 9)).due) ∧
  (∀ (i : Fin 216) (v : Word) (q : TestReq) (s : State),
    s.tests.find? (fun t => t.kind == 4 && t.idx == i.val) = some q →
    ∃ t, exec (.drillLaneTestDone i false v) s = .next t ∧ t.drl = s.drl ∧
      t.tests = s.tests.filter (fun t => !(t.kind == 4 && t.idx == i.val)))

/-- R171, R172, R174: the tone-map banks. An arm sets its status and tag, and a disarm clears the status and leaves what a
commit point has selected; a LOAD copies from the address that stood when it was set, and ends with the image in the inactive
bank, or with its reason and the banks unchanged; the inactive bank may be written unless it is armed or a LOAD runs. -/
def Obligations.ToneMapCommands : Prop :=
  (∀ (v : Word) (s : State), s.shut .service DRL_TM_ARM = false → ∃ t, exec (.drlTmArm v) s = .next t ∧
    t.rdF DRL_TM_STATUS 1 1 = 1 ∧
    t.rdF DRL_TM_STATUS 31 16 = v.toNat % 2 ^ 16 ∧ t.rdF DRL_TM_STATUS 0 0 = s.rdF DRL_TM_STATUS 0 0 ∧
    t.rdF DRL_TM_STATUS 2 2 = s.rdF DRL_TM_STATUS 2 2) ∧
  (∀ (v : Word) (s : State), s.shut .service DRL_TM_ARM = false → ∃ t, exec (.drlTmDisarm v) s = .next t ∧
    t.rdF DRL_TM_STATUS 1 1 = 0 ∧
    t.rdF DRL_TM_STATUS 3 3 = s.rdF DRL_TM_STATUS 3 3 ∧ t.rdF DRL_TM_STATUS 0 0 = s.rdF DRL_TM_STATUS 0 0) ∧
  (∀ (v : Word) (s : State), s.shut .service DRL_TM_LOAD_HI = false → s.tmLocked = false →
    ∃ t, exec (.drlTmLoad v) s = .next t ∧ t.rdF DRL_TM_STATUS 2 2 = 1 ∧
      t.drl = { s.drl with loadAddr := s.rd DRL_TM_LOAD_LO + v.toNat % 2 ^ 8 * 2 ^ 32 }) ∧
  (∀ (v : Word) (s : State), s.shut .service DRL_TM_LOAD_HI = false → s.tmLocked = true → s.quiet = true →
    ∃ t, exec (.drlTmLoad v) s = .next t ∧ t.saw Ev.DRL_TM_BUSY = true ∧ t.rd DRL_TM_STATUS = s.rd DRL_TM_STATUS) ∧
  (∀ s : State, s.rdF DRL_TM_STATUS 2 2 = 1 → s.quiet = true →
    let a := s.drl.loadAddr
    let b := s.memGet a 2080
    let bad := a % 64 ≠ 0 ∨ s.rangeMay clLoader a 2080 = false ∨ s.rangePoisoned a 2080 = true
    ∃ t, exec .drlTmLoadDone s = .next t ∧ t.rdF DRL_TM_STATUS 2 2 = 0 ∧
      t.rdF DRL_TM_STATUS 0 0 = s.rdF DRL_TM_STATUS 0 0 ∧
      (¬ bad → tmImageReason b = 0 → t.tmInactive = tmImage b ∧ t.rdF DRL_TM_STATUS 6 4 = s.rdF DRL_TM_STATUS 6 4) ∧
      (bad → t.drl = s.drl ∧ t.rdF DRL_TM_STATUS 6 4 = 4 ∧ t.saw Ev.DRL_TM_LOAD_FAIL = true) ∧
      (¬ bad → tmImageReason b ≠ 0 →
        t.drl = s.drl ∧ t.rdF DRL_TM_STATUS 6 4 = tmImageReason b ∧ t.saw Ev.DRL_TM_LOAD_FAIL = true)) ∧
  (∀ s : State, s.shut .service DRL_TM_DATA = false → ∃ t, exec (.drlTmDataAccess none) s = .next t ∧ t.drl = s.drl ∧
    t.rdF DRL_TM_ADDR 9 1 = (s.rdF DRL_TM_ADDR 9 1 + 1) % 2 ^ 9 ∧
    t.acc = (0, BitVec.ofNat 32 (s.tmInactive.tone (2 * s.rdF DRL_TM_ADDR 9 1) +
      s.tmInactive.tone (2 * s.rdF DRL_TM_ADDR 9 1 + 1) * 2 ^ 16))) ∧
  (∀ (v : Word) (s : State), s.shut .service DRL_TM_DATA = false → s.tmLocked = false →
    ∃ t, exec (.drlTmDataAccess (some v)) s = .next t ∧ t.rdF DRL_TM_ADDR 9 1 = (s.rdF DRL_TM_ADDR 9 1 + 1) % 2 ^ 9 ∧
      t.tmInactive.tone (2 * s.rdF DRL_TM_ADDR 9 1) = min 0x8000 (v.toNat % 2 ^ 16) ∧
      t.tmInactive.tone (2 * s.rdF DRL_TM_ADDR 9 1 + 1) = min 0x8000 (v.toNat / 2 ^ 16) ∧
      ∀ i, i / 2 ≠ s.rdF DRL_TM_ADDR 9 1 → t.tmInactive.tone i = s.tmInactive.tone i) ∧
  (∀ (g : Fin 7) (v : Word) (b : TmBank) (s : State), s.shut .service (tmBankRegs.getD g.val 0) = false → s.tmLocked = false →
    s.tmInactive.write (tmBankRegs.getD g 0) v.toNat = some b →
    ∃ t, exec (.drlTmBankWrite g v) s = .next t ∧ t.tmInactive = b ∧
      t.tmBank (s.rdF DRL_TM_STATUS 0 0) = s.tmBank (s.rdF DRL_TM_STATUS 0 0)) ∧
  (∀ (g : Fin 7) (v : Word) (s : State), s.shut .service (tmBankRegs.getD g.val 0) = false → s.tmLocked = true → s.quiet = true →
    ∃ t, exec (.drlTmBankWrite g v) s = .next t ∧ t.drl = s.drl ∧ t.saw Ev.DRL_TM_BUSY = true)

/-- R177, R180, R181, R199: the Hogel Table. A reload stages the table of its image; a record of engine HGL fetches its
furrow's entries; a sector rewritten leaves the list, one that fails is tried once more; the stress and curve registers. -/
def Obligations.HogelTableCommands : Prop :=
  (∀ (r : Reload) (s : State), s.shut .service HGL_CTRL = false → (s.opened.stageTable kindCurrent).2 = some r →
    ∃ t, exec .hglCtrlReload s = .next t ∧ t.hgl.reload = some r ∧ t.rdF HGL_STATUS 1 1 = 1) ∧
  (∀ (r : Reload) (s : State), s.shut .service HGL_CTRL = false → (s.opened.stageTable kindFactory).2 = some r →
    ∃ t, exec .hglCtrlReloadFactory s = .next t ∧ t.hgl.reload = some r ∧ t.rdF HGL_STATUS 1 1 = 1) ∧
  (∀ (k : Fin 560) (r : SlotRec) (s : State), s.liveRecord k 7 = some r →
    ∃ t, exec (.hglPrefetchRecord k) s = .next t ∧ (7 ∉ s.fpl.stalled →
        (∀ hx a, s.hglAddr hx (r.target % 540) = some a → s.engineAll 7 a 24 = true) → 7 ∉ t.fpl.running) ∧
      t.hglOf (r.target % 540) = some (s.opened.hglRow (r.target % 540)).2.reverse) ∧
  (∀ (k n : Nat) (l : List (Nat × Nat)) (s : State), s.hgl.rewrite = (k, n) :: l →
    ∃ t, exec (.flashSectorRewrite false) s = .next t ∧ t.hgl.rewrite = l ∧ t.flash1 = s.flash1 ∧
      t.flash0 = ((s.eraseSector 0 (hglCurrentAt + 65536 * k)).flashPut 0 (hglCurrentAt + 65536 * k) (s.sectorBytes k)).flash0) ∧
  (∀ (k n : Nat) (l : List (Nat × Nat)) (s : State), s.hgl.rewrite = (k, n) :: l → s.quiet = true →
    ∃ t, exec (.flashSectorRewrite true) s = .next t ∧ t.saw Ev.HGL_ROW_WRITE_FAIL = true ∧
      t.hgl.rewrite = if n = 0 then (k, 1) :: l else l) ∧
  (∀ s : State, s.shut .service HGL_STRESS_FRAMES_LO = false → ∃ t, exec .hglStressFramesLoRead s = .next t ∧
    t.acc = (0, BitVec.ofNat 32 (s.stressFrames % 2 ^ 32)) ∧ t.rd HGL_STRESS_FRAMES_HI = s.stressFrames / 2 ^ 32 % 2 ^ 32) ∧
  (∀ s : State, s.shut .service HGL_CURVE_DATA = false → s.rdF HGL_CURVE_ADDR 11 10 < 3 → ∃ t, exec .hglCurveDataRead s = .next t ∧
    t.acc = (0, BitVec.ofNat 32 (s.curveAt (s.rdF HGL_CURVE_ADDR 11 10) (s.rdF HGL_CURVE_ADDR 9 0))) ∧
    t.rdF HGL_CURVE_ADDR 11 0 = (s.rdF HGL_CURVE_ADDR 11 0 + 1) % 2 ^ 12)

/-- R185 to R187, R193 to R195, R226: ageing. A full window begins to fold unless the previous fold is under way, which is
reported once; a portion folded moves the fold on, and the last one ends it; a checkpoint programmed becomes the newest, and
one that fails is tried again; a sense result ends its request. -/
def Obligations.AgeingCommands : Prop :=
  (∀ s : State, 256 ≤ s.hgl.win.f → s.hgl.folding = false →
    ∃ t, exec .foldWindowEnd s = .next t ∧ t.hgl.folding = true ∧ t.hgl.foldNext = 0 ∧ t.hgl.fold = s.hgl.win ∧
      t.hgl.win.f = 0 ∧ t.rdF HGL_STATUS 5 5 = 1 - s.rdF HGL_STATUS 5 5) ∧
  (∀ s : State, 256 ≤ s.hgl.win.f → s.hgl.folding = true → s.hgl.lateSaid = false → s.quiet = true →
    ∃ t, exec .foldWindowEnd s = .next t ∧ t.saw Ev.HGL_FOLD_LATE = true ∧ t.hgl.lateSaid = true ∧ t.hgl.win = s.hgl.win) ∧
  (∀ s : State, s.hgl.folding = true → s.rdF HGL_CTRL 3 3 = 1 →
    ∃ t, exec .foldPortion s = .next t ∧ t.hgl.foldNext = s.hgl.foldNext + 1 ∧
      t.hgl.folding = decide (s.hgl.foldNext ≠ 255)) ∧
  (∀ s : State, s.shut .service HGL_CTRL = false → exec .hglCtrlCkptNow s = .next { s with hgl := { s.hgl with ckptNow := true } }) ∧
  (∀ (k : Ckpt) (s : State), s.hgl.ckpt = some k → 256 ≤ k.portions →
    ∃ t, exec (.checkpointProgramDone none) s = .next t ∧ t.hgl.ckpt = none ∧ t.rd HGL_CKPT_SEQ = k.seq % 2 ^ 32) ∧
  (∀ (k : Ckpt) (e : Bool) (s : State), s.hgl.ckpt = some k → 256 ≤ k.portions → s.quiet = true →
    ∃ t, exec (.checkpointProgramDone (some e)) s = .next t ∧ t.hgl.ckpt = none ∧ t.hgl.ckptNow = true ∧
      t.saw Ev.HGL_CKPT_FAIL = true ∧ t.saw Ev.UPD_FLASH_FAIL = true) ∧
  (∀ (l : Fin 2) (b : Bytes) (q : SenseReq) (s : State), returnOk b = true → byteAt b 0 % 16 = 8 → byteAt b 10 = 1 →
    leAt b 4 2 = 4 →
    s.etc.sense.find? (fun q => q.tag == byteAt b 16 && !q.done && q.hx / 60 == byteAt b 1 % 16) = some q →
    ∃ t, exec (.senseResReceive l b) s = .next t ∧
      t.etc.sense = s.etc.sense.map (fun p => if p = q then { p with done := true } else p) ∧
      t.rd HGL_SENSE_TOTAL = min (s.rd HGL_SENSE_TOTAL + 1) (2 ^ 32 - 1))

/-- R227, R228: the supplies of the panel. The up sequence starts from OFF or RETRY when every panel lane that has a driver is
active, with EMIT_EN and DISCH_N low and PSEQ[0] high; it is ignored in LOCKOUT, and without those lanes (the model's choice, log
entry 286). Each PGOOD is followed by T_SEQ and the next group; the down sequence starts with a discharge and takes the groups
down in reverse. -/
def Obligations.SupplySequence : Prop :=
  (∀ s : State, s.shut .service ETC_SUPPLY_CTRL = false → s.supState = supOff ∨ s.supState = supRetry → s.panelLost = false →
    s.driversReady = true →
    ∃ t, exec .etcSupplyUp s = .next t ∧ t.supState = supUp ∧ t.etc.seq = .waitPgood 0 ∧ t.rdF ETC_STATUS 0 0 = 0 ∧
      t.rdF ETC_STATUS 1 1 = 1 ∧ t.rdF ETC_SUPPLY_STATUS 4 4 = 1) ∧
  (∀ s : State, s.shut .service ETC_SUPPLY_CTRL = false → s.supState = supLockout ∨ s.driversReady = false →
    exec .etcSupplyUp s = .next s) ∧
  (∀ s : State, s.supState = supRetry → s.panelLost = false → s.driversReady = true →
    ∃ t, exec .supplyRetryTimer s = .next t ∧ t.supState = supUp ∧ t.etc.seq = .waitPgood 0 ∧
      t.rdF ETC_SUPPLY_STATUS 4 4 = 1) ∧
  (∀ s : State, s.shut .service ETC_SUPPLY_CTRL = false → s.supState ≠ supLockout → s.supState ≠ supDown → s.panelLost = false →
    ∃ t, exec .etcSupplyDown s = .next t ∧ t.supState = supDown ∧ t.etc.seq = .disch dischDown ∧ t.etc.after = .off ∧
      t.rdF ETC_STATUS 0 0 = 0 ∧ t.rdF ETC_STATUS 1 1 = 1 ∧ t.rdF ETC_STATUS 4 4 = 1) ∧
  (∀ s : State, s.shut .service ETC_SUPPLY_CTRL = false → s.supState = supLockout →
    ∃ t, exec .etcSupplyClearLockout s = .next t ∧ t.supState = supOff) ∧
  (∀ (g : Fin 4) (s : State), s.etc.seq = .waitPgood g →
    ∃ t, exec (.supplyPgoodRise g) s = .next t ∧ t.etc.seq = .waitSeq g ∧ t.rdF ETC_SUPPLY_STATUS (8 + g) (8 + g) = 1) ∧
  (∀ (g : Nat) (s : State), s.etc.seq = .waitSeq g → g < 3 →
    ∃ t, exec .supplySeqDelayEnd s = .next t ∧ t.etc.seq = .waitPgood (g + 1) ∧
      t.rdF ETC_SUPPLY_STATUS (5 + g) (5 + g) = 1 ∧ t.supState = s.supState) ∧
  (∀ s : State, s.etc.seq = .waitSeq 3 →
    ∃ t, exec .supplySeqDelayEnd s = .next t ∧ t.etc.seq = .upAllOpen ∧ t.rdF ETC_STATUS 4 4 = 1) ∧
  (∀ (g : Nat) (s : State), s.etc.seq = .downSeq g → 0 < g → g < 4 →
    ∃ t, exec .supplySeqDelayEnd s = .next t ∧ t.etc.seq = .downSeq (g - 1) ∧
      t.rdF ETC_SUPPLY_STATUS (4 + g) (4 + g) = 0 ∧ t.rdF ETC_SUPPLY_STATUS (8 + g) (8 + g) = 0) ∧
  (∀ s : State, s.etc.seq = .downSeq 0 → s.etc.after ≠ .up →
    ∃ t, exec .supplySeqDelayEnd s = .next t ∧ t.etc.seq = .idle ∧ t.rdF ETC_SUPPLY_STATUS 4 4 = 0 ∧
      t.supState = match s.etc.after with
        | .retry => supRetry
        | .lockout => supLockout
        | _ => supOff) ∧
  (∀ s : State, s.etc.seq = .downSeq 0 → s.etc.after = .up → s.panelLost = false → s.driversReady = true →
    ∃ t, exec .supplySeqDelayEnd s = .next t ∧ t.etc.seq = .waitPgood 0 ∧ t.rdF ETC_SUPPLY_STATUS 4 4 = 1 ∧ t.supState = supUp)

/-- R228: a supply that fails goes down with a discharge; the third failure within 60 s leads to LOCKOUT, an earlier one to a
retry where AUTO_RETRY is set; a PGOOD that falls during a down sequence is reported and leaves the sequence running (the
model's choice, log entry 263). R211, R222, R229, R231, R405: the discharge and the power-loss sequence. ALL_OPEN ends with the
row pins low: the up sequence goes on to the next tick, or holds the panel dark while BLANK is in force; a discharge is counted
and reported and leaves no polarity account; a power loss darkens the panel and drives ALL_OPEN, and ends with the supplies off;
a second one changes nothing, nor one after a thermal trip, which during the sequence holds the device at its end. -/
def Obligations.SupplyFailures : Prop :=
  (∀ (g : Nat) (s : State), s.etc.seq = .waitPgood g → g < 4 → s.supState ≠ supDown → s.panelLost = false → s.quiet = true →
    ∃ t, exec .supplyPgoodTimeout s = .next t ∧ t.saw Ev.ETC_SUPPLY_TIMEOUT = true ∧ t.supState = supDown ∧
      t.etc.seq = .disch dischSupply ∧ t.rdF ETC_SUPPLY_STATUS 13 12 = g ∧
      t.rdF ETC_SUPPLY_STATUS 15 14 = min 3 (s.failsNow.length + 1) ∧ t.etc.failRun = s.etc.failRun + 1 ∧
      t.etc.after = if 2 ≤ s.failsNow.length then .lockout
        else if s.rdF ETC_SUPPLY_CTRL 3 3 = 1 then .retry else .off) ∧
  (∀ (g : Fin 4) (s : State), s.rdF ETC_SUPPLY_STATUS (4 + g) (4 + g) = 1 → s.rdF ETC_SUPPLY_STATUS (8 + g) (8 + g) = 1 →
    s.supState ≠ supDown → s.panelLost = false → s.quiet = true →
    ∃ t, exec (.supplyPgoodFault g) s = .next t ∧ t.saw Ev.ETC_SUPPLY_FAULT = true ∧ t.supState = supDown ∧
      t.etc.seq = .disch dischSupply ∧ t.dark = true ∧ t.rdF ETC_SUPPLY_STATUS 13 12 = g ∧
      t.rdF ETC_SUPPLY_STATUS (8 + g) (8 + g) = 0) ∧
  (∀ (g : Fin 4) (s : State), s.rdF ETC_SUPPLY_STATUS (4 + g) (4 + g) = 1 → s.rdF ETC_SUPPLY_STATUS (8 + g) (8 + g) = 1 →
    s.supState = supDown → s.panelLost = false → s.quiet = true →
    ∃ t, exec (.supplyPgoodFault g) s = .next t ∧ t.saw Ev.ETC_SUPPLY_FAULT = true ∧ t.supState = supDown ∧
      t.etc.seq = s.etc.seq ∧ t.dark = true ∧ t.rdF ETC_SUPPLY_STATUS (8 + g) (8 + g) = 0) ∧
  (∀ s : State, s.etc.seq = .upAllOpen → s.blanked = false →
    ∃ t, exec .dischargeAllOpenEnd s = .next t ∧ t.etc.seq = .waitTick ∧ t.rdF ETC_STATUS 4 4 = 0 ∧
      t.rdF ETC_STATUS 1 1 = 0) ∧
  (∀ s : State, s.etc.seq = .upAllOpen → s.blanked = true →
    ∃ t, exec .dischargeAllOpenEnd s = .next t ∧ t.etc.seq = .idle ∧ t.supState = supOn ∧ t.rdF ETC_STATUS 4 4 = 0 ∧
      t.rdF ETC_STATUS 1 0 = s.rdF ETC_STATUS 1 0) ∧
  (∀ (c : Nat) (s : State), s.etc.seq = .disch c → s.quiet = true →
    ∃ t, exec .dischargeAllOpenEnd s = .next t ∧ t.saw Ev.ETC_DISCHARGE = true ∧ t.etc.furrows = [] ∧
      t.rdF ETC_STATUS 4 4 = 0 ∧ t.rd ETC_DISCH_TOTAL = min (s.rd ETC_DISCH_TOTAL + 1) (2 ^ 32 - 1) ∧
      (c = dischBlank ∨ c = dischMode → t.etc.seq = if s.blanked = true then .idle else .waitTick) ∧
      (c ≠ dischBlank → c ≠ dischMode → t.etc.seq = .downSeq 2 ∧ t.rdF ETC_SUPPLY_STATUS 7 7 = 0)) ∧
  (∀ (v : Word) (s : State), s.shut .service ETC_CTRL = false → ∃ t, exec (.etcCtrlBlank v) s = .next t ∧
    t.rdF ETC_CTRL 1 0 = v.toNat % 4 ∧
    t.rd ETC_STATUS = s.rd ETC_STATUS) ∧
  (∀ s : State, s.panelLost = false → s.thm.tripped = false →
    ∃ t, exec .powerLossTrigger s = .next t ∧ t.etc.seq = .pfail ∧ t.dark = true ∧ t.rdF ETC_STATUS 1 1 = 1 ∧
      t.rdF ETC_STATUS 4 4 = 1 ∧ t.boot.request = none) ∧
  (∀ s : State, (s.panelLost = true ∨ s.thm.tripped = true) → exec .powerLossTrigger s = .next s) ∧
  (∀ s : State, s.etc.seq = .pfail → s.thm.tripped = true →
    ∃ t, exec .powerLossSequenceEnd s = .next t ∧ t.boot.inReset = true ∧ t.thm.tripped = true) ∧
  (∀ s : State, s.etc.seq = .pfail → s.thm.tripped = false → s.quiet = true →
    ∃ t, exec .powerLossSequenceEnd s = .next t ∧ t.saw Ev.ETC_DISCHARGE = true ∧ t.etc.seq = .idle ∧
      t.supState = supOff ∧ t.rdF ETC_SUPPLY_STATUS 11 4 = 0 ∧ t.rdF ETC_STATUS 5 5 = 1 ∧ t.rdF ETC_STATUS 4 4 = 0)

/-- R201, R207, R208, R214, R216, R221, R224: the records of the Etcher. A composed furrow is coded into its buffer; the record
of slot 0 sends TICK to every active driver; a furrow sent has mask 0 only when its buffer is fresh, no line of it is poisoned
and the engine may read it; a record that ends frees its buffer and counts the rows not sent; a scan puts POLREF and 12 edges of
ROW_CK out, toggles the furrow's phase and clears its owed mark, but for a scan that an early boundary left over, which was
counted before; nothing is scanned while EMIT_EN is low. -/
def Obligations.EtcherRecords : Prop :=
  (∀ (k : Fin 560) (r : SlotRec) (hs : List HglEntry) (s : State), s.fpl.plan.isSome = true → s.liveRecord k 3 = some r →
    s.drl.furrow = some (r.target % 540) → s.etc.rays.length = 138240 → s.hglOf (r.target % 540) = some hs →
    ∃ t, exec (.etcColRecord k) s = .next t ∧
      sget FurrowBuf.init t.etc.bufs (r.target % 540 % 3) = ⟨r.target % 540, true⟩ ∧
      (3 ∉ s.fpl.stalled → s.engineAll 3 (s.bufAddr (r.target % 540 % 3)) 622080 = true → 3 ∉ t.fpl.running)) ∧
  (∀ (k : Fin 560) (s : State), s.fpl.plan = none → 4 ≤ s.stageNow → k.val < 540 →
    ∃ t, exec (.etcColRecord k) s = .next t ∧ sget FurrowBuf.init t.etc.bufs (k % 3) = ⟨k, true⟩ ∧
      (3 ∉ s.fpl.stalled → s.engineAll 3 (s.bufAddr (k % 3)) 622080 = true → 3 ∉ t.fpl.running)) ∧
  (∀ (cut : List (Fin 16 × Fin 12)) (s : State), s.panelLost = false →
    ∃ t, exec (.etcTxRecord 0 cut) s = .next t ∧
      t.out.length = s.out.length + ((List.range 16).filter s.driverActive).length ∧ t.etc.furrows = s.etc.furrows) ∧
  (∀ (k : Fin 541) (cut : List (Fin 16 × Fin 12)) (f : Nat) (s : State), 0 < k.val → s.txTarget k = some f →
    ∃ t, exec (.etcTxRecord k cut) s = .next t ∧ t.etc.txFurrow = f ∧
      t.etc.txMask = (if s.freshFor f = true ∧ (linesOf (s.bufAddr (f % 3)) 622080).all (fun l => !s.poisoned l) = true ∧
        s.engineAll 4 (s.bufAddr (f % 3)) 622080 = true then 0 else 0xFFF) ∧
      t.etc.repeatTick = s.etc.repeatTick + b2n (decide (t.etc.txMask ≠ 0))) ∧
  (∀ s : State, ∃ t, exec .etcTxRecordEnd s = .next t ∧ t.etc.txMask = 0xFFF ∧ t.etc.txCut = 0 ∧
    (4 ∉ s.fpl.stalled → 4 ∉ t.fpl.running) ∧
    (s.etc.txMask = 0 → sget FurrowBuf.init t.etc.bufs (s.etc.txFurrow % 3) = FurrowBuf.init) ∧
    t.etc.staleTick = s.etc.staleTick + (if s.etc.txMask = 0 then
      s.etc.txCut + 12 * ((List.range 16).filter (fun j => bit s.etc.txDrivers j == 0)).length else 0)) ∧
  (∀ (f : Fin 540) (s : State), s.dark = false → s.etc.carry ≠ some f.val →
    ∃ t, exec (.etcRowScan f) s = .next t ∧ (5 ∉ s.fpl.stalled → 5 ∉ t.fpl.running) ∧
      t.out = s.out ++ .scan f (((s.furrow f).phi + s.polrefInv) % 2) true ::
        (List.range 12).map (fun k => .rowClock (12 * f + k) (f.val == 0 && k == 0) (k == 0)) ∧
      (t.furrow f).phi = 1 - (s.furrow f).phi ∧ (t.furrow f).cur = (s.furrow f).cur + 1 ∧ (t.furrow f).owed = false ∧
      ∀ g, g ≠ f.val → t.furrow g = s.furrow g) ∧
  (∀ (f : Fin 540) (s : State), s.dark = false → s.etc.carry = some f.val →
    ∃ t, exec (.etcRowScan f) s = .next t ∧ t.etc.carry = none ∧ t.furrow f = { s.furrow f with phi := 1 - (s.furrow f).phi } ∧
      ∀ g, g ≠ f.val → t.furrow g = s.furrow g) ∧
  (∀ (f : Fin 540) (s : State), s.dark = true →
    ∃ t, exec (.etcRowScan f) s = .next t ∧ t.out = s.out ∧ t.etc = s.etc)

/-- R217 to R219, R225, R226: what comes from the panel, and the sense window. A STATUS packet updates its driver, one for
another driver marks a MAP fault and takes the driver out of service, a packet that fails its checks is counted; a window
keeps EMIT_EN low and reads the subpixels of its list. -/
def Obligations.PanelCommands : Prop :=
  (∀ (l : Fin 2) (b : Bytes) (s : State), returnOk b = true → byteAt b 0 % 16 = 9 → leAt b 4 2 = 16 →
    byteAt b 16 % 16 = byteAt b 1 % 16 → (s.driver (byteAt b 1 % 16)).counts = none →
    ∃ t, exec (.statusPacketReceive l b) s = .next t ∧ t.rd ETC_DRV_ERR_TOTAL = s.rd ETC_DRV_ERR_TOTAL ∧
      t.driver (byteAt b 1 % 16) = { s.driver (byteAt b 1 % 16) with
        mapFault := false, clamped := bit (byteAt b 17) 0 == 1, configOk := bit (byteAt b 17) 1 == 1,
        counts := some (leAt b 18 2, leAt b 20 2), rowInc := 0, hdrInc := 0,
        therm := leAt b 22 2, thermValid := bit (byteAt b 24) 0 == 1,
        lastTherm := if bit (byteAt b 24) 0 = 1 then some (toS 16 (leAt b 22 2)) else (s.driver (byteAt b 1 % 16)).lastTherm }) ∧
  (∀ (l : Fin 2) (b : Bytes) (s : State), returnOk b = true → byteAt b 0 % 16 = 9 → leAt b 4 2 = 16 →
    byteAt b 16 % 16 ≠ byteAt b 1 % 16 → s.quiet = true → (s.driver (byteAt b 1 % 16)).mapFault = false →
    ∃ t, exec (.statusPacketReceive l b) s = .next t ∧ t.saw Ev.ETC_DRIVER_LOST = true ∧
      (t.driver (byteAt b 1 % 16)).mapFault = true ∧ t.driverActive (byteAt b 1 % 16) = false) ∧
  (∀ (l : Fin 2) (b : Bytes) (s : State), returnOk b = false →
    ∃ t, exec (.statusPacketReceive l b) s = .next t ∧ t.etc.drivers = s.etc.drivers ∧ t.thm = s.thm ∧
      t.rd ETC_RETURN_ERR_TOTAL = min (s.rd ETC_RETURN_ERR_TOTAL + 1) (2 ^ 32 - 1)) ∧
  (∀ (j : Fin 16) (s : State), s.driverActive j = true → s.plTrained (s.laneMap j) = false → s.quiet = true →
    ∃ t, exec (.panelDriverLost j) s = .next t ∧ t.driverActive j = false ∧ t.saw Ev.ETC_DRIVER_LOST = true ∧
      ∀ i, i ≠ j.val → t.driver i = s.driver i ∧ t.driverActive i = s.driverActive i) ∧
  (∀ (j : Fin 16) (s : State), s.driverActive j = false → s.plTrained (s.laneMap j) = true →
    (s.driver j).mapFault = false → s.panelLost = false →
    ∃ t, exec (.panelDriverRestored j) s = .next t ∧ t.driverActive j = true ∧
      t.out.length = s.out.length + if (s.driver j).greeted then 0 else 3) ∧
  (∀ (k : Fin 560) (s : State), (s.slotRecord k 5).op = opSense → s.stageNow = 5 → s.rdF ETC_STATUS 3 3 = 0 →
    s.panelLost = false →
    ∃ t, exec (.senseWindow k) s = .next t ∧ t.rdF ETC_STATUS 3 3 = 1 ∧ t.dark = true ∧ t.etc.sense.length ≤ 64) ∧
  (∀ (k : Fin 560) (s : State), s.panelLost = true → exec (.senseWindow k) s = .next s) ∧
  (∀ s : State, s.rdF ETC_STATUS 3 3 = 1 →
    ∃ t, exec .senseWindowEnd s = .next t ∧ t.rdF ETC_STATUS 3 3 = 0 ∧ t.etc.sense = [] ∧
      (s.supState = supOn → s.etc.seq = .idle → s.rdF ETC_STATUS 2 2 = 0 → t.dark = false) ∧
      t.rd HGL_SENSE_FAIL_TOTAL =
        min (s.rd HGL_SENSE_FAIL_TOTAL + (s.etc.sense.filter (fun q => !q.done)).length) (2 ^ 32 - 1))

/-- R362 to R366, R371, R375: conversions, which run on request only. A result in range that does not jump is stored, and at 115
°C or above sets OVERTEMP, asks for L3 and takes the supplies down; a result out of range or none at all fails the sensor;
requests are gathered. -/
def Obligations.ThermalConversions : Prop :=
  (∀ (n : Fin 24) (v : Int) (s : State), s.convAsked n = false →
    exec (.thmConversionResult n v) s = .next s ∧ exec (.thmConversionTimeout n) s = .next s) ∧
  (∀ (n : Fin 24) (v : Int) (s : State), s.convAsked n = true → (s.sensor n).failed = false → -40 * 256 ≤ v → v ≤ 150 * 256 →
    ((s.sensor n).has = false ∨ (v - (s.sensor n).temp) * (cyclesPerMs : Int) ≤
      (20 * 256 : Int) * ((max cyclesPerMs (s.now - (s.sensor n).time) : Nat) : Int)) →
    ∃ t, exec (.thmConversionResult n v) s = .next t ∧ (t.sensor n).has = true ∧ (t.sensor n).temp = v ∧
      (t.sensor n).time = s.now ∧ (t.sensor n).failed = false ∧ (t.sensor n).stale = false ∧
      (∀ m, m ≠ n.val → t.sensor m = s.sensor m) ∧ t.rd THM_CONV_TOTAL = min (s.rd THM_CONV_TOTAL + 1) (2 ^ 32 - 1) ∧
      (115 * 256 ≤ v → t.rdF THM_STATUS 10 10 = 1 ∧ t.rdF THM_STATUS 7 6 = 3) ∧
      (115 * 256 ≤ v → s.supState = supOn → s.etc.seq = .idle → t.supState = supDown ∧ t.dark = true)) ∧
  (∀ (n : Fin 24) (v : Int) (s : State), s.convAsked n = true → (s.sensor n).failed = false → v < -40 * 256 ∨ 150 * 256 < v →
    s.quiet = true →
    ∃ t, exec (.thmConversionResult n v) s = .next t ∧ (t.sensor n).failed = true ∧ (t.sensor n).reason = 2 ∧
      (t.sensor n).temp = (s.sensor n).temp ∧ t.saw Ev.THM_SENSOR_FAIL = true ∧
      t.rd THM_FAIL_TOTAL = min (s.rd THM_FAIL_TOTAL + 1) (2 ^ 32 - 1)) ∧
  (∀ (n : Fin 24) (s : State), s.convAsked n = true → (s.sensor n).failed = false → s.quiet = true →
    ∃ t, exec (.thmConversionTimeout n) s = .next t ∧ (t.sensor n).failed = true ∧ (t.sensor n).reason = 1 ∧
      t.saw Ev.THM_SENSOR_FAIL = true ∧ t.rd THM_CONV_TOTAL = min (s.rd THM_CONV_TOTAL + 1) (2 ^ 32 - 1)) ∧
  (∀ (p : Bool) (s : State), s.fpl.plan = none → s.stageNow ≠ 0 → s.boot.inReset = false →
    ∃ t, exec (.thmPeriodicConversion p) s = .next t ∧ t.thm.convReq = s.thm.convReq ||| (2 ^ 24 - 1) ∧
      t.thm.sensors = s.thm.sensors) ∧
  (∀ (v : Word) (s : State), s.shut .service THM_CONV_REQ = false → exec (.thmConvReq v) s =
    .next { s with thm := { s.thm with convReq := s.thm.convReq ||| fld v.toNat 24 0 } })

/-- R365, R456: self-tests of the sensors. A test asked for is queued, and the sensor reads TESTING; a sensor that fails its
test is failed and PERMANENT, and stays out of service. R368, R370 to R375: what ends a thermal limit. The level asked for falls
by one step; the rate step, the hold and OVERTEMP clear, and OVERTEMP's end raises the supplies from OFF, or once a down
sequence still running has ended; OP_MAX is requested again; an unknown panel is reported once. -/
def Obligations.ThermalTests : Prop :=
  (∀ (v : Word) (s : State), s.shut .service THM_SELFTEST_REQ = false → fld v.toNat 4 0 < 24 → (∀ q ∈ s.tests, q.kind = 5 →
    q.idx ≠ fld v.toNat 4 0) →
    ∃ t, exec (.thmSelftestReq v) s = .next t ∧ t.tests = s.tests ++ [⟨5, fld v.toNat 4 0, false⟩] ∧
      (t.sensor (fld v.toNat 4 0)).testing = true) ∧
  (∀ (n : Fin 24) (p : Bool) (r : Option Int) (q : TestReq) (s : State),
    s.tests.find? (fun t => t.kind == 5 && t.idx == n.val) = some q → p = false ∨ r = none →
    ∃ t, exec (.thmSelftestDone n p r) s = .next t ∧ (t.sensor n).failed = true ∧ (t.sensor n).cls = 3 ∧
      (t.sensor n).perm = true ∧
      (t.sensor n).testing = false ∧ t.tests = s.tests.filter (fun t => !(t.kind == 5 && t.idx == n.val))) ∧
  (∀ (n : Fin 24) (v : Int) (q : TestReq) (s : State),
    s.tests.find? (fun t => t.kind == 5 && t.idx == n.val) = some q →
    ∃ t, exec (.thmSelftestDone n true (some v)) s = .next t ∧ (t.sensor n).failed = (s.sensor n).failed ∧
      (t.sensor n).cls = s.classify 5 n q.faulted false ∧ (t.sensor n).testing = false ∧
      (t.sensor n).perm = (s.sensor n).perm ∧ (t.sensor n).serv = ((s.sensor n).failed && !(s.sensor n).perm)) ∧
  (∀ s : State, s.levelTarget < s.rdF THM_STATUS 7 6 → s.quiet = true →
    ∃ t, exec .thmLevelRelease s = .next t ∧ t.rdF THM_STATUS 7 6 = s.rdF THM_STATUS 7 6 - 1 ∧
      t.saw Ev.THM_LEVEL_CHANGE = true ∧
      t.fpl.levelReq = some (max (s.rdF THM_STATUS 7 6 - 1) (s.fpl.levelReq.getD 0))) ∧
  (∀ s : State, ∃ t, exec .thmRateStepEnd s = .next t ∧ t.rdF THM_STATUS 8 8 = 0 ∧
    t.rdF THM_STATUS 7 0 = s.rdF THM_STATUS 7 0) ∧
  (∀ s : State, ∃ t, exec .thmHoldRelease s = .next t ∧ t.rdF THM_STATUS 9 9 = 0 ∧ t.thm.holdLevel = 0 ∧
    t.rdF THM_STATUS 7 0 = s.rdF THM_STATUS 7 0) ∧
  (∀ s : State, s.rdF THM_STATUS 10 10 = 1 → s.supState = supOff → s.panelLost = false → s.driversReady = true →
    ∃ t, exec .thmOvertempClear s = .next t ∧ t.rdF THM_STATUS 10 10 = 0 ∧ t.supState = supUp) ∧
  (∀ s : State, s.rdF THM_STATUS 10 10 = 1 → s.supState = supDown → s.etc.after = .off → s.boot.request = none →
    ∃ t, exec .thmOvertempClear s = .next t ∧ t.rdF THM_STATUS 10 10 = 0 ∧ t.supState = supDown ∧ t.etc.after = .up) ∧
  (∀ s : State, s.rdF THM_STATUS 2 0 ≤ 3 → s.opMax < 3 → s.opMax ≤ s.opFloor → s.opMax ≠ s.rdF DMC_OP 1 0 → s.dmcStopped = false →
    ∃ t, exec .thmOpRestore s = .next t ∧ t.dmc.freq = some s.opMax ∧ t.rdF DMC_FREQ_CTRL 9 9 = 1) ∧
  (∀ s : State, s.thm.panelUnknown = false → s.quiet = true →
    ∃ t, exec .thmPanelUnknown s = .next t ∧ t.thm.panelUnknown = true ∧ t.saw Ev.THM_PANEL_UNKNOWN = true ∧
      t.rdF THM_PANEL 24 24 = 0 ∧ t.rdF THM_STATUS 5 3 = s.rdF THM_STATUS 5 3)

/-- R383, R385, R387, R390 to R392, R397: stores, recall and the Gleaner. A store asked for starts into the copy that is not
the newest, whose header is erased, or is queued; a completed store has a header and is the newest, a failed one has none;
recall takes the newest valid copy. -/
def Obligations.SeedbankStores : Prop :=
  (∀ s : State, s.shut .service SBK_CTRL = false → s.sbk.ready = true → s.sbk.recalling = false → s.sbk.final = false →
    s.sbk.tripped = false → s.sbk.store = none →
    ∃ t, exec .sbkCtrlStore s = .next t ∧ (t.sbk.copy s.sbk.target.1).hdr = none ∧ t.sbk.held = 0 ∧
      ∃ r, t.sbk.store = some r ∧ r.copy = s.sbk.target.1 ∧ r.gen = s.sbk.target.2 ∧ r.kind = 1) ∧
  (∀ (r : StoreRun) (s : State), s.shut .service SBK_CTRL = false → s.sbk.ready = true → s.sbk.recalling = false →
    s.sbk.final = false →
    s.sbk.tripped = false → s.sbk.store = some r →
    ∃ t, exec .sbkCtrlStore s = .next t ∧ t.sbk.store = some r ∧ t.sbk.queued = some (mergeKind s.sbk.queued 1)) ∧
  (∀ s : State, s.shut .service SBK_CTRL = false → s.sbk.ready = false → s.quiet = true →
    ∃ t, exec .sbkCtrlStore s = .next t ∧ t.saw Ev.SBK_NOT_READY = true ∧ t.sbk.store = s.sbk.store) ∧
  (∀ (r : StoreRun) (s : State), s.sbk.store = some r → r.copy < 2 → s.boot.inReset = false → s.boot.activating = false →
    s.hst.running = none → (cellGet r.image 0x103).toNat ≠ actArmed → s.quiet = true →
    ∃ t, exec (.sbkStoreComplete .ok) s = .next t ∧
      t.sbk.copy r.copy = ⟨r.image, r.poison, r.hist, some (r.gen, r.kind % 8)⟩ ∧ t.sbk.newest = some r.copy ∧
      t.rd SBK_STORE_TOTAL = min (s.rd SBK_STORE_TOTAL + 1) (2 ^ 32 - 1) ∧ t.saw Ev.SBK_STORE_DONE = true) ∧
  (∀ (r : StoreRun) (n x : Nat) (s : State), s.sbk.store = some r → r.copy < 2 → s.boot.inReset = false →
    s.hst.running = none → s.quiet = true →
    ∃ t, exec (.sbkStoreComplete (.rowFail n x)) s = .next t ∧ (t.sbk.copy r.copy).hdr = none ∧
      t.sbk.newest = s.sbk.newest ∧ t.saw Ev.SBK_STORE_FAIL = true) ∧
  (∀ s : State, s.shut .service SBK_CTRL = false → s.sbk.gleanRun = false → s.sbk.tripped = false → s.sbk.pfRefuse = false →
    exec .sbkCtrlGlean s =
      .next { s with sbk := { s.sbk with gleanRun := true, gleanReq := true, gleanRows := 0, gleanWeak := 0 } }) ∧
  (∀ (a b : Nat) (s : State), s.sbk.gleanRun = true →
    ∃ t, exec (.gleanPassDone a b) s = .next t ∧ t.sbk.gleanRun = false ∧ t.sbk.gleanWeak = a + b ∧
      (a + b = 0 → t.sbk.store = s.sbk.store ∧ t.sbk.queued = s.sbk.queued) ∧
      (0 < a + b → s.sbk.ready = true → s.sbk.recalling = false → s.sbk.final = false →
        s.sbk.tripped = false → s.sbk.store = none → (∃ r, t.sbk.store = some r ∧ r.kind = 4) ∧
          t.sbk.queued = if 0 < (if s.sbk.newest = some 1 then b else a) then some (mergeKind s.sbk.queued 4) else s.sbk.queued)) ∧
  (∀ (a b : CopyRead) (s : State), ∃ t, exec (.sbkRecall a b) s = .next t ∧ t.sbk.ready = true ∧ t.sbk.recalling = false ∧
    t.sbk.newest = (recallPick s.sbk a b).map (·.1) ∧ t.sbk.empty = (recallPick s.sbk a b).isNone ∧
    t.sbk.copyA = s.sbk.copyA ∧ t.sbk.copyB = s.sbk.copyB) ∧
  (∀ (n : Nat) (s : State), ∃ t, exec (.vddNvmLoss n) s = .next t ∧ t.sbk.ready = false ∧ t.sbk.store = none ∧
    ∀ r, s.sbk.store = some r → (t.sbk.copy r.copy).hdr = none)

/-- R381, R393 to R396, R402: the host's access to the Seedbank. A word of the SRAM is read or written at SBK_ADDR, which
advances; a word that Table 15.1 or a guard closes is denied; a right password opens its guard, a wrong one counts, and the
eighth locks; a lifetime counter counts and is read with its high word held. -/
def Obligations.SeedbankAccess : Prop :=
  (∀ (q : Requester) (s : State), s.shut q SBK_DATA = false → s.sbk.ready = true → s.sbk.recalling = false →
    sramHostRead s.readOpen (s.rd SBK_ADDR / 4 * 4 % 2 ^ 16) = true →
    (s.rd SBK_ADDR / 4 * 4 % 2 ^ 16) / 8 ∉ s.sbk.poison →
    ∃ t, exec (.sbkDataAccess q none false) s = .next t ∧ t.sbk.sram = s.sbk.sram ∧
      t.acc = (0, BitVec.ofNat 32 (s.sramLe (s.rd SBK_ADDR / 4 * 4 % 2 ^ 16) 4)) ∧
      t.rd SBK_ADDR = (s.rd SBK_ADDR / 4 * 4 % 2 ^ 16 + 4) % 2 ^ 16) ∧
  (∀ (q : Requester) (v : Word) (s : State), s.shut q SBK_DATA = false → s.sbk.ready = true → s.sbk.recalling = false →
    sramHostWrite s.writeOpen (s.rd SBK_ADDR / 4 * 4 % 2 ^ 16) = true → s.sbk.final = false → s.sbk.pfRefuse = false →
    s.sbk.store = none →
    ∃ t, exec (.sbkDataAccess q (some v) false) s = .next t ∧ t.acc.1 = 0 ∧
      t.sramLe (s.rd SBK_ADDR / 4 * 4 % 2 ^ 16) 4 = v.toNat ∧
      (∀ a, a < s.rd SBK_ADDR / 4 * 4 % 2 ^ 16 ∨ s.rd SBK_ADDR / 4 * 4 % 2 ^ 16 + 4 ≤ a →
        cellGet t.sbk.sram a = cellGet s.sbk.sram a) ∧
      t.rd SBK_ADDR = (s.rd SBK_ADDR / 4 * 4 % 2 ^ 16 + 4) % 2 ^ 16) ∧
  (∀ (q : Requester) (v : Word) (u : Bool) (s : State), s.shut q SBK_DATA = false → s.sbk.ready = true → s.sbk.recalling = false →
    sramHostWrite s.writeOpen (s.rd SBK_ADDR / 4 * 4 % 2 ^ 16) = false → s.quiet = true → s.sbk.deniedTick = false →
    ∃ t, exec (.sbkDataAccess q (some v) u) s = .next t ∧ t.acc.1 = 3 ∧ t.saw Ev.SBK_ACCESS_DENIED = true ∧
      t.rd SBK_ADDR = s.rd SBK_ADDR ∧ t.sbk.sram = s.sbk.sram) ∧
  (∀ s : State, s.shut .service SBK_PW_CTRL = false → s.sbk.ready = true → s.sbk.recalling = false → s.sbk.locked = false →
    s.sbk.pwCand = s.sramLe 0x80 8 →
    ∃ t, exec .sbkPwUnlockR s = .next t ∧ t.sbk.rOpen = true ∧ t.sbk.wOpen = s.sbk.wOpen ∧ t.sbk.fails = 0 ∧
      t.sbk.pwCand = 0) ∧
  (∀ s : State, s.shut .service SBK_PW_CTRL = false → s.sbk.ready = true → s.sbk.recalling = false → s.sbk.locked = false →
    s.sbk.pwCand ≠ s.sramLe 0x80 8 →
    s.quiet = true →
    ∃ t, exec .sbkPwUnlockR s = .next t ∧ t.sbk.rOpen = s.sbk.rOpen ∧ t.sbk.fails = s.sbk.fails + 1 ∧
      t.sbk.locked = decide (7 ≤ s.sbk.fails) ∧ t.sbk.pwCand = 0 ∧ t.saw Ev.SBK_PW_WRONG = true) ∧
  (∀ s : State, s.shut .service SBK_PW_CTRL = false → s.sbk.ready = true → s.sbk.recalling = false → s.sbk.locked = false →
    s.sbk.pwCand = s.sramLe 0x88 8 →
    ∃ t, exec .sbkPwUnlockW s = .next t ∧ t.sbk.wOpen = true ∧ t.sbk.rOpen = s.sbk.rOpen ∧ t.sbk.fails = 0 ∧
      t.sbk.pwCand = 0) ∧
  (∀ s : State, s.shut .service SBK_PW_CTRL = false → s.sbk.ready = true → s.sbk.recalling = false → s.sbk.final = false →
    s.sbk.pfRefuse = false →
    s.sbk.store = none → s.writeOpen = true → s.sbk.pwCand < 2 ^ 64 →
    (∃ t, exec .sbkPwSetR s = .next t ∧ t.sramLe 0x80 8 = s.sbk.pwCand ∧ t.sramLe 0x88 8 = s.sramLe 0x88 8 ∧
      t.sbk.pwCand = 0) ∧
    ∃ t, exec .sbkPwSetW s = .next t ∧ t.sramLe 0x88 8 = s.sbk.pwCand ∧ t.sramLe 0x80 8 = s.sramLe 0x80 8 ∧
      t.sbk.pwCand = 0) ∧
  (∀ s : State, s.shut .service SBK_PW_CTRL = false → exec .sbkPwLock s = .next { s with sbk := { s.sbk with rOpen := false, wOpen := false } }) ∧
  (∀ s : State, s.shut .service SBK_CNT_LO = false → ∃ t, exec .sbkCntLoRead s = .next t ∧
    t.acc = (0, BitVec.ofNat 32 (s.lifetime (s.rd SBK_CNT_SEL) % 2 ^ 32)) ∧
    t.rd SBK_CNT_HI = s.lifetime (s.rd SBK_CNT_SEL) / 2 ^ 32 % 2 ^ 32) ∧
  (∀ s : State, s.rdF GBL_STATE 2 0 ≠ 0 → s.sbk.ready = true → s.sbk.recalling = false → s.sbk.final = false →
    s.sbk.pfRefuse = false → s.sbk.store = none → s.lifetime 0 < 2 ^ 64 - 1 →
    ∃ t, exec .operatingSecond s = .next t ∧ t.lifetime 0 = s.lifetime 0 + 1 ∧ t.lifetime 1 = s.lifetime 1)

/-- R322, R324, R325, R327, R335: requests and responses. A read of a usable line is accepted with its data and waits in its
channel; a full write stores its line; an address that DRAM does not have is answered UNMAPPED; a response carries its data,
and POISON for a poisoned line or an uncorrectable one of a protected window. -/
def Obligations.DramRequests : Prop :=
  (∀ (c : Fin 32) (st : Bool) (a : BitVec 40) (m : BitVec 64) (p : Bool) (k : DramCheck) (s : State),
    s.dramUsable (a.toNat / 64 * 64) = true → s.dmc.sr = .off →
    ∃ t, exec (.dramRequest c st a none m p k) s = .next t ∧ t.acc.1 = 0 ∧ t.mem = s.mem ∧ t.dmc.sr = .off ∧
      ∃ r, (r ∈ (t.chan (s.dramLoc (a.toNat / 64 * 64)).1).queue ∨ r ∈ (t.chan (s.dramLoc (a.toNat / 64 * 64)).1).wait) ∧
        r.addr = a.toNat / 64 * 64 ∧ r.write = false ∧ r.client = c ∧ r.stream = st ∧
        r.data = s.memGet (a.toNat / 64 * 64) 64 ∧ r.poison = s.marked (a.toNat / 64 * 64) ∧ r.own = false) ∧
  (∀ (c : Fin 32) (st : Bool) (a : BitVec 40) (d : Bytes) (k : DramCheck) (s : State),
    s.dramUsable (a.toNat / 64 * 64) = true →
    ∃ t, exec (.dramRequest c st a (some d) (BitVec.allOnes 64) false k) s = .next t ∧ t.acc.1 = 0 ∧
      t.mem = (s.memSet (a.toNat / 64 * 64) (padTo 64 (d.take 64))).mem) ∧
  (∀ (c : Fin 32) (st : Bool) (a : BitVec 40) (w : Option Bytes) (m : BitVec 64) (p : Bool) (k : DramCheck) (s : State),
    s.dramUsable (a.toNat / 64 * 64) = false →
    ∃ t, exec (.dramRequest c st a w m p k) s = .next t ∧ t.acc.1 = 1 ∧ t.dmc = s.dmc ∧ t.mem = s.mem) ∧
  (∀ (c : Fin 16) (k : DramCheck) (r : DramReq) (s : State), s.dmcServing = true → (s.chan c).issued = [r] →
    ∃ t, exec (.dramReadResponse c k) s = .next t ∧ t.accBytes = r.data ∧ r ∉ (t.chan c).issued ∧
      t.acc.1 = (if r.poison = true ∨ (s.protectedLine r.addr = true ∧
      ∃ b, s.lineOutcome r.addr k = .uncorrectable b) then 4 else 0)) ∧
  (∀ (c : Fin 16) (b : Bool) (r : DramReq) (s : State), s.dmcServing = true → (s.chan c).issued = [r] → r.poison = false →
    s.protectedLine r.addr = true → s.quiet = true →
    ∃ t, exec (.dramReadResponse c (.uncorrectable b)) s = .next t ∧ t.saw Ev.DMC_ECC_UNCORRECTABLE = true ∧
      t.rd DMC_ECC_UE_TOTAL = min (s.rd DMC_ECC_UE_TOTAL + 1) (2 ^ 32 - 1)) ∧
  (∀ (c : Fin 16) (k : DramCheck) (s : State), s.dmcServing = false →
    ∃ t, exec (.dramReadResponse c k) s = .next t ∧ t.dmc = s.dmc ∧ t.mem = s.mem)

/-- R331 to R333, R335: refresh, the page policy and self-refresh. The debt of a channel grows by 1 and a debt above 8 starts an
urgent burst, which issues one refresh at a time and is counted when the debt is paid; a stale MR4 makes the multiplier 2 at
least; an idle page is precharged, but not after a power-loss trigger; self-refresh is entered when idle, and the end of its
minimum residency leaves it when requests are held, but not after a power-loss trigger. R336, R337: a change of the DRAM
frequency: asked for within the limits, held while the domain is stopped (R24), entered with empty queues in a change window,
and done, the held writes then taking effect in order, or deferred when its window closes. -/
def Obligations.DramRefresh : Prop :=
  (∀ (c : Fin 16) (s : State), s.dramOn = true → s.dmcServing = true →
    ∃ t, exec (.refreshInterval c) s = .next t ∧
      (t.chan c).debt = (s.chan c).debt + 1 ∧
      if (s.chan c).debt < 8 then (t.chan c).urgent = (s.chan c).urgent else (t.chan c).urgent.isSome = true) ∧
  (∀ (c : Fin 16) (n : Nat) (s : State), (s.chan c).urgent = some n →
    ((s.chanIssue c).chan c).debt = (s.chan c).debt - 1 ∧
    if (s.chan c).debt ≤ 1 then ((s.chanIssue c).chan c).urgent = none ∧
      (s.chanIssue c).rd DMC_REFRESH_URGENT_TOTAL = min (s.rd DMC_REFRESH_URGENT_TOTAL + 1) (2 ^ 32 - 1)
    else ((s.chanIssue c).chan c).urgent = some (n + 1)) ∧
  (∀ (c : Fin 16) (s : State), s.stageNow = 5 →
    ∃ t, exec (.mr4Stale c) s = .next t ∧ (t.chan c).mr4Stale = true ∧ 2 ≤ (t.chan c).mult) ∧
  (∀ (c b : Fin 16) (r : Nat) (s : State), (s.chan c).openOf b = some r →
    (∀ st q, s.eligibleIn (s.chan c) b st = some q → q.row ≠ r) → s.panelLost = false →
    ∃ t, exec (.pageIdleTimer c b) s = .next t ∧ (t.chan c).openOf b = none ∧ t.out = s.out ++ [.dram c cmdPre b]) ∧
  (∀ s : State, s.dramOn = true → s.rdF DMC_SR_CTRL 0 0 = 1 → s.dmc.sr = .off → s.dmcEmpty = true →
    (∀ c, c < 16 → (s.chan c).debt < 8 ∧ (s.chan c).topRefresh = false ∧ (s.chan c).urgent = none) →
    exec .selfRefreshIdle s = .next { s with dmc := { s.dmc with sr := .entering, freqEntry := false } }) ∧
  (∀ s : State, s.dmc.sr = .inside → s.dmc.freqEntry = false → s.panelLost = false →
    ∃ t, exec .selfRefreshExit s = .next t ∧
      if s.dmcEmpty = true then t.dmc.sr = .residencyOver else t.dmc.sr = .off ∧ t.rdF DMC_STATUS 3 3 = 0) ∧
  (∀ s : State, s.dmc.sr = .inside → s.panelLost = true → s.dmcEmpty = false → exec .selfRefreshExit s = .next s) ∧
  (∀ (v : Word) (s : State), s.shut .service DMC_FREQ_CTRL = false → v.toNat % 4 < 3 → v.toNat % 4 ≤ s.opFloor →
    s.opMax ≤ v.toNat % 4 →
    v.toNat % 4 ≠ s.rdF DMC_OP 1 0 → s.dmcStopped = false →
    ∃ t, exec (.dmcFreqReq v) s = .next t ∧ t.dmc.freq = some (v.toNat % 4) ∧ t.rdF DMC_FREQ_CTRL 9 9 = 1 ∧
      t.rdF DMC_FREQ_CTRL 1 0 = v.toNat % 4) ∧
  (∀ (v : Word) (s : State), s.shut .service DMC_FREQ_CTRL = false →
    v.toNat % 4 = 3 ∨ s.opFloor < v.toNat % 4 ∨ v.toNat % 4 < s.opMax → s.quiet = true →
    s.dmcStopped = false →
    ∃ t, exec (.dmcFreqReq v) s = .next t ∧ t.dmc = s.dmc ∧ t.saw Ev.DMC_FREQ_REFUSED = true) ∧
  (∀ (v : Word) (s : State), s.shut .service DMC_FREQ_CTRL = false → s.dmcStopped = true →
    exec (.dmcFreqReq v) s = .next (s.dmcHold DMC_FREQ_CTRL (v.toNat % 4 + 2 ^ 8))) ∧
  (∀ s : State, s.changeWindow = true → s.dmc.freq.isSome = true → s.dmcEmpty = true → s.dmc.sr = .off →
    exec .freqChangeEntry s = .next { s with dmc := { s.dmc with sr := .entering, freqEntry := true } }) ∧
  (∀ (p : Nat) (s : State), s.dmc.freq = some p → p < 3 → s.dmc.freqEntry = true → s.dmc.sr = .inside →
    s.panelLost = false → s.dmc.held = [] →
    ∃ t, exec .freqChangeDone s = .next t ∧ t.rdF DMC_OP 1 0 = p ∧ t.rdF DMC_OP 12 12 = 1 - s.rdF DMC_OP 12 12 ∧
      t.dmc.sr = .off ∧ t.dmc.freq = none ∧ t.rdF DMC_FREQ_CTRL 9 9 = 0 ∧
      t.rd DMC_FREQ_TOTAL = min (s.rd DMC_FREQ_TOTAL + 1) (2 ^ 32 - 1)) ∧
  (∀ s : State, s.dmc.freq.isSome = true → s.dmc.freqEntry = true → s.dmc.sr = .inside → s.panelLost = false →
    ∃ t, exec .freqChangeDone s = .next t ∧ ∃ u, exec .freqChangeDone { s with dmc := { s.dmc with held := [] } } = .next u ∧
      t = s.dmc.held.foldl (fun t e => t.dmcWrite e.1 e.2) u) ∧
  (∀ (p : Nat) (s : State), s.dmc.freq = some p → s.dmc.freqEntry = true → s.dmc.sr = .entering → s.quiet = true →
    ∃ t, exec .freqWindowClose s = .next t ∧ t.dmc.freq = some p ∧ t.dmc.sr = .off ∧ t.dmc.freqEntry = false ∧
      t.saw Ev.DMC_FREQ_DEFERRED = true)

/-- R339, R340, R456: a row's self-test is queued once; a row that passes leaves the queue, and one that fails is remapped to the
spare row of its bank while that is free. -/
def Obligations.DramRowTests : Prop :=
  (∀ (v : Word) (c b r : Nat) (s : State), s.shut .service DMC_SELFTEST_REQ = false → (s.windowOf (v.toNat * 256)).isSome = true →
    (s.tests.filter (fun q => q.kind == 2)).length < 16 → s.dramLoc (v.toNat * 256) = (c, b, r) → s.dmcStopped = false →
    (∀ q ∈ s.tests, q.kind = 2 → q.idx ≠ rowIdx c b r) →
    ∃ t, exec (.dmcSelftestReq v) s = .next t ∧ t.tests = s.tests ++ [⟨2, rowIdx c b r, false⟩]) ∧
  (∀ (c b : Fin 16) (r : Fin 131072) (q : TestReq) (s : State),
    s.tests.find? (fun t => t.kind == 2 && t.idx == rowIdx c b r) = some q →
    ∃ t, exec (.dramRowTestDone c b r none) s = .next t ∧ t.dmc.remap = s.dmc.remap ∧
      t.tests = s.tests.filter (fun t => !(t.kind == 2 && t.idx == rowIdx c b r))) ∧
  (∀ (c b : Fin 16) (r : Fin 131072) (f : Fin 5) (q : TestReq) (s : State),
    s.tests.find? (fun t => t.kind == 2 && t.idx == rowIdx c b r) = some q → r.val ≠ s.dramRows - 1 →
    (∀ e ∈ s.dmc.remap, e.1 = c → e.2.1 = b → e.2.2.1 ≠ r) → s.spareFree c b = true → s.dmc.remap.length < 64 →
    ∃ t, exec (.dramRowTestDone c b r (some f)) s = .next t ∧
      t.dmc.remap = s.dmc.remap ++ [(c.val, b.val, r.val, b.val)] ∧
      t.rdF DMC_SELFTEST_LAST 26 25 = 3 ∧ t.rdF DMC_SELFTEST_LAST 27 27 = 1)

/-- R376, R388, R404, R405: what the resets leave. Each puts every block and register back, keeps the Seedbank's SRAM and,
unless it cuts a program of a sown block, the image flash, and holds the device; a pin reset waits for a tripped device to cool,
a requested reset for the end of the down sequence; a thermal trip resets the device and latches its sites; during the
power-loss sequence it latches and lets the sequence run on; a tripped device keeps its state for another trip, whose sites it
latches too, and restarts from no power failure (R376). -/
def Obligations.Resets : Prop :=
  (∀ s : State, ∃ t, exec .powerOnReset s = .next t ∧ t.boot.inReset = true ∧ t.boot.kind = rstPowerOn ∧ t.regs = [] ∧
    t.mem = [] ∧ t.fpl = State.reset.fpl ∧ t.grn = State.reset.grn ∧ t.etc = State.reset.etc ∧ t.thm = State.reset.thm ∧
    (s.flashIdle = true → t.flash0 = s.flash0) ∧ t.flash1 = s.flash1 ∧
    t.sbk.sram = s.sbk.sram ∧ t.sbk.newest = s.sbk.newest) ∧
  (∀ (c : Bool) (s : State), (s.thm.tripped = true → c = true) →
    ∃ t, exec (.pinReset c) s = .next t ∧ t.boot.inReset = true ∧ t.boot.kind = rstPin ∧ t.regs = [] ∧ t.mem = [] ∧
      t.fpl = State.reset.fpl ∧ t.grn = State.reset.grn ∧ t.etc = State.reset.etc ∧ t.thm.tripped = false ∧
      t.thm.tripLatch = s.thm.tripLatch ∧ (s.flashIdle = true → t.flash0 = s.flash0) ∧ t.flash1 = s.flash1 ∧
      t.sbk.sram = s.sbk.sram) ∧
  (∀ s : State, s.thm.tripped = true → exec (.pinReset false) s = .next s) ∧
  (∀ s : State, s.thm.tripped = true → exec .pfailRestart s = .next s) ∧
  (∀ s : State, s.rdF ETC_STATUS 5 5 = 1 → s.thm.tripped = false →
    ∃ t, exec .pfailRestart s = .next t ∧ t.boot.inReset = true ∧ t.boot.kind = rstPfail ∧ t.regs = [] ∧ t.mem = [] ∧
      t.etc = State.reset.etc ∧ (s.flashIdle = true → t.flash0 = s.flash0) ∧ t.sbk.sram = s.sbk.sram) ∧
  (∀ (k : Nat) (s : State), s.boot.request = some k → s.downEnded = true →
    ∃ t, exec .resetEffect s = .next t ∧ t.boot.inReset = true ∧ t.boot.kind = k ∧ t.boot.request = none ∧ t.regs = [] ∧
      t.mem = [] ∧ t.etc = State.reset.etc ∧ (s.flashIdle = true → t.flash0 = s.flash0) ∧
      t.sbk.sram = s.sbk.sram) ∧
  (∀ s : State, s.downEnded = false → exec .resetEffect s = .next s) ∧
  (∀ (n : BitVec 24) (s : State), s.etc.seq ≠ .pfail → s.thm.tripped = false →
    ∃ t, exec (.thermalTrip n) s = .next t ∧ t.boot.inReset = true ∧ t.thm.tripped = true ∧
      t.thm.tripLatch = s.thm.tripLatch ||| n.toNat ∧ t.regs = [] ∧ t.dark = true ∧ t.supState = supOff ∧ t.mem = []) ∧
  (∀ (n : BitVec 24) (s : State), s.etc.seq = .pfail → s.thm.tripped = false →
    ∃ t, exec (.thermalTrip n) s = .next t ∧ t.thm.tripped = true ∧ t.thm.tripLatch = s.thm.tripLatch ||| n.toNat ∧
      t.sbk.tripped = true ∧ t.etc = s.etc ∧ t.boot = s.boot ∧ t.mem = s.mem) ∧
  (∀ (n : BitVec 24) (s : State), s.thm.tripped = true →
    ∃ t, exec (.thermalTrip n) s = .next t ∧ t.thm = { s.thm with tripLatch := s.thm.tripLatch ||| n.toNat } ∧
      t.sbk = s.sbk ∧ t.boot = s.boot ∧ t.regs = s.regs)

/-- R404 to R407, R444: resets that are asked for wait for the panel to go down, and a release starts the device at stage S0
with the mode of its straps. -/
def Obligations.ResetRequests : Prop :=
  (∀ (v : Word) (s : State), s.shut .service GBL_RESET = false → v.toNat % 2 ^ 16 = 0x7440 → bit v.toNat 16 = 1 →
    s.stageNow ≠ 0 → s.resetFree = true →
    ∃ t, exec (.gblReset v) s = .next t ∧ t.boot.request = some rstSoft ∧ (s.supState = supOn → t.supState = supDown) ∧
      t.boot.inReset = false) ∧
  (∀ (v : Word) (s : State), s.shut .service GBL_RESET = false → v.toNat % 2 ^ 16 ≠ 0x7440 → exec (.gblReset v) s = .next s) ∧
  (∀ s : State, 2 ≤ s.stageNow → s.resetFree = true →
    ∃ t, exec .watchdogExpiry s = .next t ∧ t.boot.request = some rstWatchdog ∧ (s.supState = supOn → t.supState = supDown)) ∧
  (∀ (p : Fin 4) (a b : CopyRead) (s : State), s.boot.inReset = true → s.thm.tripped = false →
    ∃ t, exec (.resetRelease p a b) s = .next t ∧ t.boot.inReset = false ∧ t.now = 0 ∧ t.boot.strap = p ∧
      t.rdF UPD_BOOT_STATUS 9 7 = s.boot.kind % 8 ∧ t.rdF UPD_BOOT_STATUS 11 10 = p ∧
      (s.sbk.ready = false → s.sbk.final = false → t.mode = strapMode p)) ∧
  (∀ (p : Fin 4) (a b : CopyRead) (s : State), s.thm.tripped = true → exec (.resetRelease p a b) s = .next s) ∧
  (∀ s : State, s.shut .service UPD_CTRL = false → s.resetFree = true → s.sramFree = true → s.actOk = true →
    ∃ t, exec .updCtrlRecoveryReq s = .next t ∧ t.boot.request = some rstSoft ∧ bit (t.act 29 1) 0 = 1)

/-- R408 to R414: the start. Each stage is reached when its work has ended and the device is not held, S2 once the first round of
conversions is complete (R362); a self-test that failed, a panel of which no lane trains and a device without a plan hold it; RESUME_STAGE lets it try again. -/
def Obligations.StageCommands : Prop :=
  (∀ (tr : Training) (s : State), s.advances = true → s.stageNow = 0 → s.sbk.ready = true →
    ∃ t, exec (.stageAdvance tr) s = .next t ∧ t.stageNow = 1) ∧
  (∀ (tr : Training) (s : State), s.advances = true → s.stageNow = 1 → s.boot.waitLoad = false →
    ∃ t, exec (.stageAdvance tr) s = .next t ∧ t.stageNow = if s.firstRound = true then 2 else 1) ∧
  (∀ (tr : Training) (s : State), s.advances = true → s.stageNow = 2 → s.grn.bistFailed = true →
    ∃ t, exec (.stageAdvance tr) s = .next t ∧ t.stageNow = 2 ∧ t.isHeld = true ∧
      t.rdF UPD_STAGE_HOLD 15 0 = Ev.GRN_BIST_FAIL) ∧
  (∀ (tr : Training) (m : Fin 3) (c : Fin 16) (n : Fin 5) (i : Nat) (s : State), s.advances = true → s.stageNow = 2 →
    s.grn.bistFailed = false → s.grnReady = true → tr.out = .pass m c n → 1 ≤ tr.density.val →
    ¬ (tr.twoRanks = true ∧ tr.density.val = 1) → s.freeRun 32 = some i →
    ∃ t, exec (.stageAdvance tr) s = .next t ∧ t.stageNow = 3 ∧ t.ev.ringOn = true ∧ t.ev.base = grnBase + 4096 * i ∧
      t.opMax = m) ∧
  (∀ (tr : Training) (s : State), s.advances = true → s.stageNow = 3 →
    s.panelLanesOn.all s.plAbsent = true →
    ∃ t, exec (.stageAdvance tr) s = .next t ∧ t.stageNow = 3 ∧ t.isHeld = true ∧
      t.rdF UPD_STAGE_HOLD 15 0 = Ev.LNE_PANEL_LANE_DOWN) ∧
  (∀ (tr : Training) (a b : Nat) (s s1 s2 : State), s.advances = true → s.stageNow = 3 →
    s.panelLanesOn.all s.plAbsent = false → s.panelLanesOn.all (fun m => s.plTrained m || s.plAbsent m) = true →
    s.supState = supOn → s.takeRun clFurrow 456 = some (s1, a) → s1.takeRun clBurin 507 = some (s2, b) →
    ∃ t, exec (.stageAdvance tr) s = .next t ∧ t.stageNow = 4 ∧ t.etc.bufBase = a ∧ t.etc.proofBase = b ∧
      t.rdF ETC_STATUS 6 6 = 1 ∧ t.boot.lines.length = 5) ∧
  (∀ (tr : Training) (s : State), s.advances = true → s.stageNow = 4 → s.mode = modeNormal → s.boot.entering = none →
    ∃ t, exec (.stageAdvance tr) s = .next t ∧ t.stageNow = 4 ∧
      match s.opened.choosePlan.2.1, (s.opened.choosePlan.1.stageTable kindCurrent).2 with
      | some p, some r => t.boot.entering = some (p, r)
      | _, _ => t.isHeld = true) ∧
  (∀ s : State, s.shut .service UPD_CTRL = false → s.isHeld = true →
    ∃ t, exec .updCtrlResumeStage s = .next t ∧ t.isHeld = false ∧ t.grn.bistFailed = false ∧ t.stageNow = s.stageNow) ∧
  (∀ s : State, 4 ≤ s.stageNow → s.fpl.plan = none →
    ∃ t, exec .proofRedraw s = .next t ∧ t.boot.lines = s.proofLines ∧ t.stageNow = s.stageNow)

/-- R419, R436: the load over the service port. Words are appended while the ROM waits; LOAD_GO takes a load whose manifest and
BOOT part pass and boots it in recovery mode, and discards any other. R431, R432: the trial. It is confirmed when its three
conditions hold, and falls back to the confirmed slot after 60 s, with
the conditions that did not hold. -/
def Obligations.LoadCommands : Prop :=
  (∀ (v : Word) (s : State), s.shut .service UPD_LOAD_DATA = false → s.boot.waitLoad = true →
    exec (.updLoadDataWrite v) s = .next { s with boot := { s.boot with load := s.boot.load ++ toLe 4 v.toNat } }) ∧
  (∀ (v : Word) (s : State), s.shut .service UPD_LOAD_DATA = false → s.boot.waitLoad = false →
    exec (.updLoadDataWrite v) s = .next s) ∧
  (∀ s : State, s.shut .service UPD_CTRL = false → s.boot.waitLoad = true →
    ∃ t, exec .updCtrlLoadGo s = .next t ∧
      let m := s.boot.load.take 4096
      let good := match manifestFault m, partOfType m 1 with
        | none, some e =>
          (sub s.boot.load 4096 e.len).length = e.len ∧ sha256 (sub s.boot.load 4096 e.len) = e.digest
        | _, _ => False
      (good → t.boot.waitLoad = false ∧ t.boot.fromLoad = true ∧ t.mode = modeRecovery) ∧
      (¬ good → t.boot.waitLoad = true ∧ t.boot.load = [])) ∧
  (∀ s : State, s.shut .service UPD_ACT_FRAME_LO = false → ∃ t, exec .updActFrameLoRead s = .next t ∧
    t.acc = (0, BitVec.ofNat 32 (s.actFrame % 2 ^ 32)) ∧
    t.rd UPD_ACT_FRAME_HI = s.actFrame / 2 ^ 32 % 2 ^ 16) ∧
  (∀ s : State, s.actState = actTrial → s.healthMet = 7 → s.boot.inReset = false → s.boot.activating = false → s.sramFree = true →
    s.sbk.tripped = false → s.quiet = true →
    ∃ t, exec .healthConfirm s = .next t ∧ t.actState = actConfirmed ∧ t.confirmedSlot = s.activeSlot ∧
      t.act 12 4 = s.act 8 4 ∧ t.sbk.store.isSome = true) ∧
  (∀ s : State, s.boot.activating = true → ∃ t, exec .healthConfirm s = .next t ∧ t.sbk = s.sbk ∧ t.actState = s.actState) ∧
  (∀ s : State, s.actState = actTrial → s.sramFree = true → s.resetFree = true →
    ∃ t, exec .healthTimeout s = .next t ∧ t.actState = actFallenBack ∧ t.activeSlot = s.confirmedSlot ∧
      t.boot.fellBack = some (1, 7 - s.healthMet) ∧ t.boot.request = some rstFallback ∧
      t.lifetime 3 = s.lifetime 3 + b2n (decide (s.lifetime 3 < 2 ^ 64 - 1)))

/-- R423 to R427: sowing. A block that does not check is reported and changes nothing; a block of the open session is written
once, and one from the tree parent goes on to the child ports; a LOCAL block from another port is not taken; the end of a
block's program sets its bit; a child's acknowledgement takes the block off the port's list; one that is late is sent again, at
most three times; a query is answered with the session's status; an abort clears the bitmap. R429, R430: arming. An ARM that has
a reason against it, or whose manifest fails, is refused and leaves the record; any other makes it ARMED, or TRIAL at once for
frame 0, and asks for a store; a CANCEL of the armed session gives the record its earlier state. -/
def Obligations.SowingBlocks : Prop :=
  (∀ (p : Fin 4) (m : Bytes) (s : State), m.length ≠ 4144 ∨ crc32c (m.drop 48) ≠ leAt m 32 4 →
    bit (byteAt m 7) 0 = 0 ∨ s.parentPort = some p.val → s.quiet = true →
    ∃ t, exec (.sowBlockReceive p m) s = .next t ∧ t.saw Ev.UPD_SOW_BLOCK_BAD = true ∧ t.flash0 = s.flash0 ∧
      t.boot = s.boot) ∧
  (∀ (p : Fin 4) (m : Bytes) (s : State), m.length = 4144 → crc32c (m.drop 48) = leAt m 32 4 → 0 < leAt m 28 4 →
    leAt m 28 4 < imageBlocks → bit (byteAt m 7) 0 = 0 → s.sowRefuses = false → s.sowOk = true → s.boot.opened = true →
    leAt m 20 4 = s.sow 4 4 →
    ∃ t, exec (.sowBlockReceive p m) s = .next t ∧ t.boot.sent = s.boot.sent ∧ t.boot.queued = s.boot.queued ∧
      (s.sowBit (leAt m 28 4) = true → t.flash0 = s.flash0) ∧
      (s.sowBit (leAt m 28 4) = false → t.flash0 = (s.sowProgram (leAt m 28 4) (m.drop 48)).flash0 ∧
        ∃ o ∈ t.boot.owed, o.block = leAt m 28 4 ∧ o.src = some (leAt m 2 2, leAt m 10 4) ∧ o.programmed = false)) ∧
  (∀ (p : Fin 4) (m : Bytes) (s : State), m.length = 4144 → crc32c (m.drop 48) = leAt m 32 4 → 0 < leAt m 28 4 →
    leAt m 28 4 < imageBlocks → bit (byteAt m 7) 0 = 1 → s.parentPort = some p.val → s.sowRefuses = false →
    s.sowOk = true → s.boot.opened = true → leAt m 20 4 = s.sow 4 4 →
    ∃ t, exec (.sowBlockReceive p m) s = .next t ∧
      (s.sowBit (leAt m 28 4) = false → t.flash0 = (s.sowProgram (leAt m 28 4) (m.drop 48)).flash0) ∧
      ∀ q ∈ s.childPorts, q ≠ p.val → s.lagging q = false →
        (leAt m 28 4, q) ∈ t.boot.queued ∨ ∃ e ∈ t.boot.sent, e.block = leAt m 28 4 ∧ e.port = q) ∧
  (∀ (p : Fin 4) (m : Bytes) (s : State), bit (byteAt m 7) 0 = 1 → s.parentPort ≠ some p.val →
    exec (.sowBlockReceive p m) s = .next (s.noteSource p 3 m)) ∧
  (∀ (b : Fin 8704) (s : State), s.sowOk = true → s.boot.opened = true → s.sramFree = true →
    ∃ t, exec (.sowBlockProgrammed b true) s = .next t ∧ t.sowBit b = true ∧ (∀ c, c ≠ b.val → t.sowBit c = s.sowBit c) ∧
      t.flash0 = s.flash0) ∧
  (∀ (b : Fin 8704) (s : State), s.sowOk = true → s.boot.opened = true → s.quiet = true →
    ∃ t, exec (.sowBlockProgrammed b false) s = .next t ∧ t.saw Ev.UPD_FLASH_FAIL = true ∧ t.sowBit b = s.sowBit b) ∧
  (∀ (p : Fin 4) (m : Bytes) (s : State), (∀ q ∈ s.boot.queued, q.2 ≠ p.val) →
    ∃ t, exec (.sowAckReceive p m) s = .next t ∧
      t.boot.sent = s.boot.sent.filter (fun e => !(e.block == leAt m 28 4 && e.port == p.val))) ∧
  (∀ (p : Fin 4) (b : Fin 8704) (e : SowSent) (s : State),
    s.boot.sent.find? (fun e => e.port == p.val && e.block == b.val) = some e → e.tries < 3 →
    ∃ t, exec (.sowResendTimer p b) s = .next t ∧
      t.boot.sent = s.boot.sent.map (fun f => if f = e then { f with tries := f.tries + 1 } else f)) ∧
  (∀ (p : Fin 4) (b : Fin 8704) (e : SowSent) (s : State),
    s.boot.sent.find? (fun e => e.port == p.val && e.block == b.val) = some e → 3 ≤ e.tries →
    s.rdF UPD_SOW_STATUS 0 0 = 1 → s.treeOf p = 2 → s.lagging p = false → s.quiet = true →
    ∃ t, exec (.sowResendTimer p b) s = .next t ∧ t.lagging p = true ∧ t.saw Ev.UPD_SOW_LAGGING = true) ∧
  (∀ (m : Bytes) (s : State), exec (.sowQueryReceive m) s = .next (s.sendTo (leAt m 2 2) 0x30 (leAt m 10 4)
    (sowBody sopStatus (b2n s.sowComplete + b2n (s.actState == actArmed) * 2) 0 (s.sow 4 4) (s.sow 8 4) s.sowMissing
      s.sowHeld []))) ∧
  (∀ s : State, s.shut .service UPD_CTRL = false → s.actState ≠ actArmed → s.sramFree = true →
    ∃ t, exec .updCtrlSowAbort s = .next t ∧ t.sowOk = false ∧ t.boot.sent = [] ∧ t.boot.queued = [] ∧
      t.boot.owed = [] ∧ t.boot.opened = false ∧ ∀ b, b < imageBlocks → t.sowBit b = false) ∧
  (∀ (m : Bytes) (s : State), s.sramFree = true → s.sbk.tripped = false →
    ∃ t, exec (.sowArmReceive m) s = .next t ∧
      match (s.armChecked (leAt m 20 4) (leAt m 24 4) (leAt m 36 6)).2 with
      | some _ => t.actState = s.actState ∧ t.sbk.store = none
      | none => t.actState = (if leAt m 36 6 = 0 then actTrial else actArmed) ∧ t.sbk.store.isSome = true) ∧
  (∀ (m : Bytes) (r : Nat) (s : State), (s.armChecked (leAt m 20 4) (leAt m 24 4) (leAt m 36 6)).2 = some r → s.quiet = true →
    ∃ t, exec (.sowArmReceive m) s = .next t ∧ t.saw Ev.UPD_ARM_REFUSED = true ∧ t.boot = s.boot) ∧
  (∀ (m : Bytes) (s : State), s.actState = actArmed → s.act 24 4 = leAt m 20 4 → s.sramFree = true →
    ∃ t, exec (.sowCancelReceive m) s = .next t ∧ t.actState = s.boot.armPrev % 2 ^ 8 ∧ t.boot.armOwed = none)

/-- R237 to R247: the training of a port. Signal leads to WAKE, lock to EQ with the start preset on every transmitter, EQ to
ALIGN when every remaining lane qualifies, ALIGN to HANDSHAKE when every remaining lane is aligned, and HANDSHAKE to ACTIVE
after sixteen answered blocks; a state that times out drops its lanes or returns to DETECT with a failure. -/
def Obligations.PortTraining : Prop :=
  (∀ (p : Fin 4) (l : BitVec 8) (s : State), s.lneState p = lneDetect → (s.portSt p).testing = 0 →
    l.toNat &&& (0xFF ^^^ s.excluded p) ≠ 0 → s.portHeld p = false → ∃ t, exec (.laneSignalDetect p l) s = .next t ∧
    t.lneState p = lneWake ∧ t.rdF (LNE_PORT_STATUS p) 4 4 = 0 ∧
      (t.portSt p).waiting = false ∧
      ∀ i, i < 8 → bit (l.toNat &&& (0xFF ^^^ s.excluded p)) i = 1 → t.rdF (LNE_LANE_STATUS (laneOf p i)) 0 0 = 1) ∧
  (∀ (p : Fin 4) (l : BitVec 8) (s : State), s.lneState p = lneWake →
    ∃ t, exec (.laneSignalDetect p l) s = .next t ∧ t.lneState p = lneWake ∧
      ∀ i, i < 8 → bit (l.toNat &&& (0xFF ^^^ s.excluded p)) i = 1 → t.rdF (LNE_LANE_STATUS (laneOf p i)) 0 0 = 1) ∧
  (∀ (p : Fin 4) (l : BitVec 8) (s : State), s.lneState p = lneDetect → l.toNat &&& (0xFF ^^^ s.excluded p) = 0 →
    ∃ t, exec (.laneSignalDetect p l) s = .next t ∧ t.lneState p = lneDetect) ∧
  (∀ (p : Fin 4) (s : State), s.lneState p = lneDetect → (s.portSt p).testing = 0 → (s.portSt p).waiting = false →
    s.portHeld p = false → ∃ t, exec (.trainAttemptEnd p) s = .next t ∧ t.lneState p = lneDetect ∧
    (t.portSt p).fails = (s.portSt p).fails + 1 ∧
      (t.portSt p).waiting = true ∧ (2 ≤ (s.portSt p).fails → t.rdF (LNE_PORT_STATUS p) 4 4 = 1)) ∧
  (∀ (p : Fin 4) (s : State), exec (.trainBackoffEnd p) s = .next (s.modPort p (fun x => { x with waiting := false }))) ∧
  (∀ (p : Fin 4) (l : BitVec 8) (s : State), s.lneState p = lneWake → l.toNat &&& (0xFF ^^^ s.excluded p) ≠ 0 →
    s.portHeld p = false →
    ∃ t, exec (.wakeLock p l) s = .next t ∧ t.lneState p = lneEq ∧
      (∀ i, i < 8 → t.rdF (LNE_LANE_TXEQ (laneOf p i)) 26 24 = s.startPreset) ∧ t.out.length = s.out.length + 8 ∧
      ∀ i, i < 8 → bit (l.toNat &&& (0xFF ^^^ s.excluded p)) i = 1 → t.rdF (LNE_LANE_STATUS (laneOf p i)) 1 1 = 1) ∧
  (∀ (p : Fin 4) (s : State), s.lneState p = lneWake → s.portHeld p = false → s.quiet = true →
    ∃ t, exec (.wakeTimeout p) s = .next t ∧ t.lneState p = lneDetect ∧ (t.portSt p).fails = (s.portSt p).fails + 1 ∧
      t.saw Ev.LNE_TRAIN_TIMEOUT = true) ∧
  (∀ (l : Fin 32) (b : Bytes) (s : State), ctlGood b = true → byteAt b 0 = 0x78 → byteAt b 1 = 1 → byteAt b 5 = 0 →
    s.lneState (l / 8) = lneEq →
    ∃ t, exec (.eqRequestReceive l b) s = .next t ∧ t.out.length = s.out.length + 1 ∧
      t.rdF (LNE_LANE_TXEQ l) 4 0 = (tapStep (s.rdF (LNE_LANE_TXEQ l) 4 0) 16 (fld (byteAt b 4) 1 0)).1 % 32 ∧
      t.rdF (LNE_LANE_TXEQ l) 20 16 = (tapStep (s.rdF (LNE_LANE_TXEQ l) 20 16) 24 (fld (byteAt b 4) 5 4)).1 % 32 ∧
      (t.lane l).peerReady = (bit (byteAt b 6) 4 == 1) ∧ (t.lane l).peerPre = (bit (byteAt b 6) 5 == 1)) ∧
  (∀ (l : Fin 50) (h : List Nat) (c : BitVec 4) (d : BitVec 8) (w : List (BitVec 10)) (s : State),
    ∃ t, exec (.fomHistogramDone l h c d w) s = .next t ∧ t.rdF (LNE_LANE_STATUS l) 23 16 = fomOf h ∧
      (s.adapts l = true → t.rdF (LNE_LANE_RXEQ l) 3 0 = c.toNat ∧ t.rdF (LNE_LANE_RXEQ l) 15 8 = d.toNat) ∧
      (s.adapts l = false → t.rd (LNE_LANE_RXEQ l) = s.rd (LNE_LANE_RXEQ l))) ∧
  (∀ (p : Fin 4) (s : State), s.lneState p = lneEq → s.readyLanes p = (s.portSt p).remain → (s.portSt p).remain ≠ 0 →
    s.portHeld p = false → ∃ t, exec (.eqDone p) s = .next t ∧ t.lneState p = lneAlign ∧
    (t.portSt p).remain = (s.portSt p).remain) ∧
  (∀ (p : Fin 4) (s : State), s.lneState p = lneEq → s.portHeld p = false → s.quiet = true →
    ∃ t, exec (.eqTimeout p) s = .next t ∧ t.saw Ev.LNE_TRAIN_TIMEOUT = true ∧
      if s.readyLanes p = 0 then t.lneState p = lneDetect ∧ (t.portSt p).fails = (s.portSt p).fails + 1
      else t.lneState p = lneAlign ∧ (t.portSt p).remain = s.readyLanes p) ∧
  (∀ (p : Fin 4) (l : AlignLanes) (s : State), s.lneState p = lneAlign → (s.portSt p).remain ≠ 0 →
    (s.portSt p).remain &&& l.lock.toNat = (s.portSt p).remain → s.portHeld p = false →
    ∃ t, exec (.alignDone p l) s = .next t ∧ t.lneState p = lneHandshake ∧ t.out.length = s.out.length + 1 ∧
      ∀ i, i < 8 → t.rdF (LNE_LANE_STATUS (laneOf p i)) 6 6 = bit ((s.portSt p).remain &&& l.precode.toNat) i) ∧
  (∀ (p : Fin 4) (l : AlignLanes) (s : State), s.lneState p = lneAlign → s.portHeld p = false → s.quiet = true →
    ∃ t, exec (.alignTimeout p l) s = .next t ∧ t.saw Ev.LNE_TRAIN_TIMEOUT = true ∧
      if (s.portSt p).remain &&& l.lock.toNat = 0 then t.lneState p = lneDetect ∧ (t.portSt p).fails = (s.portSt p).fails + 1
      else t.lneState p = lneHandshake ∧ (t.portSt p).remain = (s.portSt p).remain &&& l.lock.toNat)

/-- R244 to R247: the handshake and the loss of signal. A block of the device itself, or of another version, refuses the
peer, and a port that refused answers and stays; any other block is answered, and the sixteenth answered one, when sixteen samples
are there and the peer has sent ACK, makes the port ACTIVE; the third silent wait sets PEER_SILENT; a lane in use that
loses its signal takes its port to DETECT, and a return lane of the panel out of service. -/
def Obligations.HandshakeCommands : Prop :=
  (∀ (p : Fin 4) (b : Bytes) (s : State), ctlGood b = true → byteAt b 0 = 0x78 → byteAt b 1 = 2 →
    s.shaking p = true → s.rdF (LNE_PORT_STATUS p) 6 6 = 0 → (leAt b 2 8 = fusedId ∨ byteAt b 14 ≠ 1) →
    ∃ t, exec (.handshakeReceive p b) s = .next t ∧ t.rdF (LNE_PORT_STATUS p) 6 6 = 1 ∧ t.lneState p = lneHandshake ∧
      (t.portSt p).lastTx = leAt b 16 4 ∧
      t.rd (LNE_PORT_PEER_LO p) = leAt b 2 4) ∧
  (∀ (p : Fin 4) (b : Bytes) (s : State), ctlGood b = true → byteAt b 0 = 0x78 → byteAt b 1 = 2 → s.shaking p = true →
    s.rdF (LNE_PORT_STATUS p) 6 6 = 1 →
    ∃ t, exec (.handshakeReceive p b) s = .next t ∧ t.lneState p = s.lneState p ∧ t.out.length = s.out.length + 1) ∧
  (∀ (p : Fin 4) (b : Bytes) (s : State), ctlGood b = true → byteAt b 0 = 0x78 → byteAt b 1 = 2 →
    s.shaking p = true → s.rdF (LNE_PORT_STATUS p) 6 6 = 0 → leAt b 2 8 ≠ fusedId → byteAt b 14 = 1 →
    (s.portSt p).ackSent < 15 →
    ∃ t, exec (.handshakeReceive p b) s = .next t ∧ t.lneState p = lneHandshake ∧ t.rdF (LNE_PORT_STATUS p) 5 5 = 0 ∧
      (t.portSt p).ackSent = (s.portSt p).ackSent + 1 ∧ (t.portSt p).peerWidth = byteAt b 11 % 16 ∧
      (t.portSt p).peerMask = byteAt b 12) ∧
  (∀ (p : Fin 4) (b : Bytes) (s : State), ctlGood b = true → byteAt b 0 = 0x78 → byteAt b 1 = 2 →
    s.shaking p = true → s.rdF (LNE_PORT_STATUS p) 6 6 = 0 → leAt b 2 8 ≠ fusedId → byteAt b 14 = 1 →
    15 ≤ (s.portSt p).ackSent →
    (s.portSt p).ackGot = true → (s.portSt p).samples.length = 16 →
    ∃ t, exec (.handshakeReceive p b) s = .next t ∧ t.lneState p = lneActive ∧ (t.portSt p).fails = 0 ∧
      t.rdF (LNE_PORT_STATUS p) 11 8 = byteAt b 11 % 16 ∧ t.rdF (LNE_PORT_LATENCY p) 31 31 = 1 ∧
      t.boot.portsUp = s.boot.portsUp ||| 2 ^ p.val) ∧
  (∀ (p : Fin 4) (s : State), s.lneState p = lneHandshake → s.rdF (LNE_PORT_STATUS p) 6 6 = 0 →
    ∃ t, exec (.handshakeSilence p) s = .next t ∧ (t.portSt p).silent = min 3 ((s.portSt p).silent + 1) ∧
      (2 ≤ (s.portSt p).silent → t.rdF (LNE_PORT_STATUS p) 5 5 = 1)) ∧
  (∀ (p : Fin 4) (s : State), s.lneState p = lneHandshake → s.rdF (LNE_PORT_STATUS p) 5 5 = 1 →
    s.rdF (LNE_PORT_STATUS p) 6 6 = 0 → ∃ t, exec (.peerSilentRetry p) s = .next t ∧ t.lneState p = lneAlign) ∧
  (∀ (p : Fin 4) (s : State), s.rdF (LNE_PORT_STATUS p) 6 6 = 1 → exec (.peerSilentRetry p) s = .next s) ∧
  (∀ (l : Fin 50) (s : State), l.val < 32 → s.lneState (l / 8) = lneActive →
    bit (s.rdF (LNE_PORT_LANES (l / 8)) 15 8) (l % 8) = 1 → s.rdF (LNE_PORT_STATUS (l / 8)) 19 18 ≠ 2 → s.quiet = true →
    ∃ t, exec (.lossOfSignal l) s = .next t ∧ t.lneState (l / 8) = lneDetect ∧ t.saw Ev.LNE_PORT_DOWN = true ∧
      t.rdF (LNE_PORT_LAST_DOWN (l / 8)) 3 0 = downLos ∧
      t.rd (LNE_PORT_RETRAIN_TOTAL (l / 8)) = min (s.rd (LNE_PORT_RETRAIN_TOTAL (l / 8)) + 1) (2 ^ 32 - 1)) ∧
  (∀ (l : Fin 50) (s : State), 48 ≤ l.val → s.plState (l - 32) = plActive → s.quiet = true →
    ∃ t, exec (.lossOfSignal l) s = .next t ∧ t.plState (l - 32) = plRetry ∧ t.saw Ev.LNE_PANEL_LANE_DOWN = true)

/-- R242, R248 to R250, R254 to R256: lane errors, lane tests and the port's controls. -/
def Obligations.LaneCommands : Prop :=
  (∀ (l : Fin 50) (s : State), 32 ≤ l.val → exec (.fecUncorrectable l) s = .next (s.oneCycle fun s => s.bump (LNE_LANE_UNCORR_TOTAL l))) ∧
  (∀ (l : Fin 50) (s : State), l.val < 32 → s.lneState (l / 8) ≠ lneDisabled → s.lneState (l / 8) ≠ lneTest →
    15 ≤ ((s.lane l).uncorr.filter (fun t => decide (s.now - t < 1600000))).length →
    ∃ t, exec (.fecUncorrectable l) s = .next t ∧ t.lneState (l / 8) = lneDetect ∧ t.rdF (LNE_LANE_STATUS l) 7 7 = 1 ∧
      t.rd (LNE_LANE_UNCORR_TOTAL l) = min (s.rd (LNE_LANE_UNCORR_TOTAL l) + 1) (2 ^ 32 - 1)) ∧
  (∀ (l : Fin 50) (n : Nat) (s : State), 2 ^ 20 < n → s.quiet = true →
    ∃ t, exec (.laneCorrectedLimit l n) s = .next t ∧ t.saw Ev.LNE_LANE_WEAK = true ∧
      t.rdF (LNE_LANE_STATUS l) 7 7 = 1 ∧ (∃ q ∈ t.tests, q.kind = 3 ∧ q.idx = l ∧ q.faulted = true) ∧
      t.rd (LNE_LANE_CORR_TOTAL l) = min (s.rd (LNE_LANE_CORR_TOTAL l) + n) (2 ^ 32 - 1)) ∧
  (∀ (l : Fin 50) (n : Nat) (s : State), l.val < 32 → bit (s.portSt (l / 8)).testing (l % 8) = 1 →
    ∃ t, exec (.laneSelftestDone l n) s = .next t ∧ bit (t.portSt (l / 8)).testing (l % 8) = 0 ∧
      (n = 0 → t.rdF (LNE_LANE_STATUS l) 7 7 = 0) ∧ (n ≠ 0 → t.rdF (LNE_LANE_STATUS l) 11 11 = 1) ∧
      ∀ q ∈ t.tests, ¬ (q.kind = 3 ∧ q.idx = l)) ∧
  (∀ (v : Word) (s : State), s.shut .service LNE_SELFTEST_REQ = false → v.toNat % 64 < 50 → (∀ q ∈ s.tests, q.kind = 3 →
    q.idx ≠ v.toNat % 64) →
    ∃ t, exec (.lneSelftestReq v) s = .next t ∧ t.tests = s.tests ++ [⟨3, v.toNat % 64, false⟩]) ∧
  (∀ (p : Fin 4) (s : State), s.shut .service (LNE_PORT_CTRL p.val) = false → s.lneState p ≠ lneDisabled → s.lneState p ≠ lneTest →
    ∃ t, exec (.lnePortRetrain p) s = .next t ∧ t.lneState p = lneDetect ∧
      (s.portActive p = true → t.rdF (LNE_PORT_LAST_DOWN p) 3 0 = downRetrain)) ∧
  (∀ (p : Fin 4) (s : State), s.shut .service (LNE_PORT_CTRL p.val) = false → ∃ t, exec (.lnePortClearExclude p) s = .next t ∧
    t.excluded p = 0 ∧
    t.rdF (LNE_PORT_LANES p) 31 24 = 0) ∧
  (∀ (p : Fin 4) (s : State), s.shut .service (LNE_PORT_CTRL p.val) = false → s.rdF (LNE_PORT_CTRL p) 0 0 = 1 →
    ∃ t, exec (.lnePortEnableWrite p false) s = .next t ∧ t.lneState p = lneDisabled ∧ t.rdF (LNE_PORT_CTRL p) 0 0 = 0) ∧
  (∀ (p : Fin 4) (s : State), s.shut .service (LNE_PORT_CTRL p.val) = false → s.rdF (LNE_PORT_CTRL p) 0 0 = 0 →
    s.lneState p = lneDisabled → 2 ≤ s.stageNow →
    (s.portRole p).role ≠ 0 → s.rdF (LNE_PORT_CTRL p) 1 1 = 0 →
    ∃ t, exec (.lnePortEnableWrite p true) s = .next t ∧ t.lneState p = lneDetect ∧ t.rdF (LNE_PORT_CTRL p) 0 0 = 1) ∧
  (∀ (p : Fin 4) (s : State), s.shut .service (LNE_PORT_CTRL p.val) = false → s.rdF (LNE_PORT_CTRL p) 1 1 = 0 →
    (s.claim 5 p 0x0100).2 = true →
    ∃ t, exec (.lnePortModeWrite p true) s = .next t ∧
      t.lneState p = (if s.portMayTrain p = true then lneTest else lneDisabled) ∧ t.rdF (LNE_PORT_CTRL p) 1 1 = 1 ∧
      ⟨5, p.val, 0x0100⟩ ∈ t.fpl.claims) ∧
  (∀ (p : Fin 4) (s : State), s.shut .service (LNE_PORT_CTRL p.val) = false → s.rdF (LNE_PORT_CTRL p) 1 1 = 1 →
    (s.lneState p = lneTest ∨ s.lneState p = lneDisabled) →
    ∃ t, exec (.lnePortModeWrite p false) s = .next t ∧ t.rdF (LNE_PORT_CTRL p) 1 1 = 0 ∧
      t.lneState p = if s.portMayTrain p = true then lneDetect else lneDisabled)

/-- R254 to R256: the loops and the pattern counters of a lane. A lane that takes no test settings ignores the loop; CLEAR zeroes
both counts; INJECT sends one inverted bit, which a synchronised checker in a loop counts; a read of the error count clears it; a
far-end loop that ends takes the port to DETECT. The errors that a checker hears beside those injected are a free value (log entry
305). -/
def Obligations.LaneTestCommands : Prop :=
  (∀ (l : Fin 50) (v : Word) (s : State), s.shut .service (LNE_LANE_LOOP l.val) = false → s.testable l = true →
    ∃ t, exec (.lneLaneLoopWrite l v) s = .next t ∧ t.rdF (LNE_LANE_LOOP l) 1 0 = v.toNat % 4 ∧
      t.out.length = s.out.length + b2n (decide (v.toNat % 4 = 3 ∧ l.val < 32))) ∧
  (∀ (l : Fin 50) (v : Word) (s : State), s.shut .service (LNE_LANE_LOOP l.val) = false → s.testable l = false →
    exec (.lneLaneLoopWrite l v) s = .next s) ∧
  (∀ (l : Fin 50) (s : State), s.shut .service (LNE_LANE_PRBS_CTRL l.val) = false → s.testable l = true →
    ∃ t, exec (.lnePrbsClear l) s = .next t ∧ t.rd (LNE_LANE_PRBS_ERR l) = 0 ∧ t.prbsBits l = 0) ∧
  (∀ (l : Fin 50) (s : State), s.shut .service (LNE_LANE_PRBS_CTRL l.val) = false → s.testable l = true →
    bit (s.rd (LNE_LANE_PRBS_CTRL l)) 0 = 1 →
    ∃ t, exec (.lnePrbsInject l) s = .next t ∧ t.out.length = s.out.length + 1 ∧
      t.rd (LNE_LANE_PRBS_ERR l) = if (s.rdF (LNE_LANE_PRBS_CTRL l) 5 5 == 1 && s.loopOf l != 0) = true then min (s.rd (LNE_LANE_PRBS_ERR l) + 1) (2 ^ 32 - 1)
        else s.rd (LNE_LANE_PRBS_ERR l)) ∧
  (∀ (l : Fin 50) (s : State), s.shut .service (LNE_LANE_PRBS_ERR l.val) = false → ∃ t, exec (.lnePrbsErrRead l) s = .next t ∧
    t.acc = (0, BitVec.ofNat 32 (min (2 ^ 32 - 1) (s.rd (LNE_LANE_PRBS_ERR l) + (s.prbsHeard l).1))) ∧
    (s.prbsBits l = 0 ∨ s.loopOf l = 2 → t.acc = (0, BitVec.ofNat 32 (s.rd (LNE_LANE_PRBS_ERR l)))) ∧
    t.rd (LNE_LANE_PRBS_ERR l) = 0) ∧
  (∀ (l : Fin 50) (s : State), s.shut .service (LNE_LANE_PRBS_BITS_LO l.val) = false →
    ∃ t, exec (.lnePrbsBitsLoRead l) s = .next t ∧
    t.acc = (0, BitVec.ofNat 32 (s.prbsBits l % 2 ^ 32)) ∧ t.rd (LNE_LANE_PRBS_BITS_HI l) = s.prbsBits l / 2 ^ 32) ∧
  (∀ (l : Fin 32) (b : Bytes) (s : State), ctlGood b = true → byteAt b 0 = 0x78 → byteAt b 1 = 3 → bit (byteAt b 2) 0 = 1 →
    s.rdF (LNE_PORT_CTRL (l / 8)) 3 3 = 1 → lneDetect ≤ s.lneState (l / 8) → s.lneState (l / 8) ≤ lneAlign →
    (s.lane l).feHeld = false →
    ∃ t, exec (.feLoopRequest l b) s = .next t ∧ (t.lane l).feHeld = true) ∧
  (∀ (l : Fin 32) (s : State), (s.lane l).feHeld = true → s.lneState (l / 8) ≠ lneDisabled → s.lneState (l / 8) ≠ lneTest →
    ∃ t, exec (.feLoopEnd l) s = .next t ∧ (t.lane l).feHeld = false ∧ t.lneState (l / 8) = lneDetect)

/-- R251 to R253, R280: the power states of a direction. An idle direction asks for QUIET and then SLEEP; the countdown's end
puts it there; a wake takes it back at once from QUIET, and after the residency from SLEEP; a receiver that fails to wake
takes its port down. -/
def Obligations.PortPowerCommands : Prop :=
  (∀ (p : Fin 4) (s : State), s.mayRest p 1 = true → s.txPower p = 0 → (s.portSt p).txEntry = 0 → s.txIdle p = true →
    ∃ t, exec (.directionQuietRequest p) s = .next t ∧ (t.portSt p).txEntry = 1 ∧
      t.out = s.out ++ [.ctl p 0x2D (ctlBlock [0x2D#8, 3#8])]) ∧
  (∀ (p : Fin 4) (s : State), s.mayRest p 2 = true → s.txPower p = 1 → (s.portSt p).txEntry = 0 →
    ∃ t, exec (.directionSleepRequest p) s = .next t ∧ (t.portSt p).txEntry = 2 ∧
      t.out = s.out ++ [.ctl p 0x33 (ctlBlock [0x33#8, 3#8])]) ∧
  (∀ (p : Fin 4) (s : State), s.portActive p = true → s.txPower p = 1 → (s.portSt p).txEntry = 0 →
    ∃ t, exec (.directionWakeRequest p) s = .next t ∧ t.txPower p = 0 ∧ (t.portSt p).waking = false) ∧
  (∀ (p : Fin 4) (s : State), s.portActive p = true → s.txPower p = 2 → (s.portSt p).txEntry = 0 →
    (s.portSt p).resident = true →
    ∃ t, exec (.directionWakeRequest p) s = .next t ∧ t.txPower p = 2 ∧ (t.portSt p).waking = true) ∧
  (∀ (p : Fin 4) (s : State), s.portActive p = true → (s.portSt p).txEntry = 2 →
    ∃ t, exec (.powerEntryComplete p .tx) s = .next t ∧ t.txPower p = 2 ∧ (t.portSt p).txEntry = 0 ∧
      (t.portSt p).resident = false) ∧
  (∀ (p : Fin 4) (s : State), s.portActive p = true →
    (∃ t, exec (.powerEntryComplete p .rxQuiet) s = .next t ∧ t.rxPower p = 1) ∧
      ∃ t, exec (.powerEntryComplete p .rxSleep) s = .next t ∧ t.rxPower p = 2) ∧
  (∀ (p : Fin 4) (s : State), s.portActive p = true → s.txPower p = 2 →
    ∃ t, exec (.sleepResidencyEnd p) s = .next t ∧ (t.portSt p).resident = true ∧
      (t.portSt p).waking = (s.portSt p).wakePend) ∧
  (∀ (p : Fin 4) (s : State), s.portActive p = true → s.txPower p = 2 →
    ∃ t, exec (.sleepLivenessWake p) s = .next t ∧ (t.portSt p).nopDue = true ∧
      ((t.portSt p).waking = true ∨ (t.portSt p).wakePend = true)) ∧
  (∀ (p : Fin 4) (s : State), s.portActive p = true → (s.portSt p).waking = true →
    ∃ t, exec (.wakeRetrainEnd p none) s = .next t ∧ t.txPower p = 0 ∧ (t.portSt p).waking = false) ∧
  (∀ (p : Fin 4) (s : State), s.portActive p = true → s.rxPower p = 2 →
    ∃ t, exec (.wakeRetrainEnd p (some true)) s = .next t ∧ t.rxPower p = 0 ∧ t.lneState p = lneActive) ∧
  (∀ (p : Fin 4) (s : State), s.portActive p = true → s.rxPower p = 2 → s.quiet = true →
    (∃ t, exec (.wakeRetrainEnd p (some false)) s = .next t ∧ t.lneState p = lneDetect ∧
      t.saw Ev.LNE_SLEEP_WAKE_FAIL = true) ∧
    ∃ t, exec (.wakeDetectTimeout p) s = .next t ∧ t.lneState p = lneDetect ∧ t.saw Ev.LNE_SLEEP_WAKE_FAIL = true)

/-- R250, R257, R258: the lanes of the panel. Training ends in ACTIVE, an out lane with its preset and waiting for its STATUS; a
lane without one fails and is retried, and its third failure in a row marks it; three polls without STATUS take it out; RETRAIN
takes an ACTIVE lane out to be retried, and starts a lane in training anew. -/
def Obligations.PanelLaneCommands : Prop :=
  (∀ (m : Fin 18) (s : State), s.plMayTrain m = true → (s.panelLane m).testing = false → plDetect ≤ s.plState m →
    s.plState m < plActive → ∃ t, exec (.panelLaneTrainDone m) s = .next t ∧ t.plState m = plActive ∧
      (t.panelLane m).await = decide (m.val < 16) ∧ (16 ≤ m.val → (t.panelLane m).fails = 0) ∧
      (m.val < 16 → t.rdF (LNE_LANE_TXEQ (32 + m)) 26 24 = s.plPreset m)) ∧
  (∀ (m : Fin 18) (s : State), m.val < 16 → s.plState m = plActive → (s.panelLane m).await = true → s.quiet = true →
    ∃ t, exec (.panelLaneTrainTimeout m) s = .next t ∧ t.plState m = plRetry ∧ t.saw Ev.LNE_PANEL_LANE_DOWN = true ∧
      (t.panelLane m).fails = (s.panelLane m).fails + 1 ∧
      (2 ≤ (s.panelLane m).fails → t.rdF (LNE_PL_STATUS m) 3 3 = 1)) ∧
  (∀ (m : Fin 18) (s : State), 16 ≤ m.val → plDetect ≤ s.plState m → s.plState m < plActive → s.quiet = true →
    ∃ t, exec (.panelLaneTrainTimeout m) s = .next t ∧ t.plState m = plRetry ∧ t.saw Ev.LNE_PANEL_LANE_DOWN = true) ∧
  (∀ (m j : Fin 16) (r : Fin 2) (s : State), 3 ≤ (s.panelLane m).polls → s.laneMap j = m.val → s.retMap j = r.val →
    s.plState (16 + r.val) = plActive → s.plState m = plActive → s.quiet = true →
    ∃ t, exec (.panelLaneNoStatus m r) s = .next t ∧ t.plState m = plRetry ∧ t.saw Ev.LNE_PANEL_LANE_DOWN = true ∧
      t.rd (LNE_PL_RETRAIN_TOTAL m) = min (s.rd (LNE_PL_RETRAIN_TOTAL m) + 1) (2 ^ 32 - 1)) ∧
  (∀ (m : Fin 18) (s : State), s.plState m = plRetry → (s.panelLane m).testing = false → s.plMayTrain m = true →
    ∃ t, exec (.panelLaneRetry m) s = .next t ∧ t.plState m = (if m.val < 16 then plWake else plDetect)) ∧
  (∀ (m : Fin 18) (s : State), s.shut .service (LNE_PL_CTRL m.val) = false → s.plState m = plActive →
    ∃ t, exec (.lnePlRetrain m) s = .next t ∧ t.plState m = plRetry ∧
      t.rd (LNE_PL_RETRAIN_TOTAL m) = min (s.rd (LNE_PL_RETRAIN_TOTAL m) + 1) (2 ^ 32 - 1)) ∧
  (∀ (m : Fin 18) (s : State), s.shut .service (LNE_PL_CTRL m.val) = false → plDetect ≤ s.plState m → s.plState m < plActive →
    s.plMayTrain m = true →
    ∃ t, exec (.lnePlRetrain m) s = .next t ∧ t.plState m = (if m.val < 16 then plWake else plDetect))

/-- R261 to R269, R274 to R279: flits, their acknowledgement and replay, messages that begin and go on, and the weights of the
sources. A NOP that is due goes out at once, or when the direction is awake; after sixteen replays without progress the port
retrains. -/
def Obligations.FlitCommands : Prop :=
  (∀ (p : Fin 4) (f : Bytes) (bad : Bool) (s : State), s.portActive p = true → (s.lnkPort p).inStep = true →
    (bad = true ∨ f.length ≠ 256 ∨ crc32c (f.take 252) ≠ leAt f 252 4) →
    ∃ t, exec (.flitReceive p f bad) s = .next t ∧ (t.lnkPort p).inStep = false ∧ (t.lnkPort p).nakOut = true ∧
      (t.lnkPort p).rxNext = (s.lnkPort p).rxNext) ∧
  (∀ (p : Fin 4) (f : Bytes) (s : State), s.portActive p = true → (s.lnkPort p).inStep = true → f.length = 256 →
    crc32c (f.take 252) = leAt f 252 4 → fld (leAt f 0 2) 15 14 = 0 → bit (leAt f 2 2) 12 = 0 → bit (leAt f 2 2) 13 = 0 →
    leAt f 0 2 % 4096 = (s.lnkPort p).rxNext → 0 < byteAt f 4 → sget none (s.lnkPort p).rx (fld (leAt f 0 2) 13 12) = none →
    ∃ t, exec (.flitReceive p f false) s = .next t ∧ (t.lnkPort p).rxNext = ((s.lnkPort p).rxNext + 1) % 4096 ∧
      (t.lnkPort p).nakOut = false ∧
      (⟨fld (leAt f 0 2) 13 12, (f.drop 12).take (min 240 (byteAt f 4)), 0, byteAt f 5, [], s.freeHome p⟩ : RxSlot) ∈
        (t.lnkPort p).slots) ∧
  (∀ (p : Fin 4) (f : Bytes) (s : State), s.portActive p = true → (s.lnkPort p).inStep = true → f.length = 256 →
    crc32c (f.take 252) = leAt f 252 4 → fld (leAt f 0 2) 15 14 = 0 → bit (leAt f 2 2) 12 = 0 →
    leAt f 0 2 % 4096 ≠ (s.lnkPort p).rxNext → later 12 (leAt f 0 2 % 4096) (s.lnkPort p).rxNext = false →
    ∃ t, exec (.flitReceive p f false) s = .next t ∧ (t.lnkPort p).rxNext = (s.lnkPort p).rxNext ∧
      t.rd (LNK_PORT_DUP_TOTAL p) = min (s.rd (LNK_PORT_DUP_TOTAL p) + 1) (2 ^ 32 - 1)) ∧
  (∀ (p : Fin 4) (s : State), s.portActive p = true →
    exec (.idleBlockReceive p) s = .next (s.modLnk p (fun x => { x with inStep := true }))) ∧
  (∀ (p : Fin 4) (s : State), s.portActive p = true → (s.lnkPort p).nakOut = true →
    ∃ t, exec (.nakRepeatTimer p) s = .next t ∧ (t.lnkPort p).nakOut = true ∧
      (t.txAwake p = true → t.out.length = s.out.length + 1 ∧ (t.lnkPort p).nakDue = false) ∧
      (t.txAwake p = false → (t.portSt p).nopDue = true)) ∧
  (∀ (p : Fin 4) (s : State), s.portActive p = true → (0 < (s.lnkPort p).ackOwed ∨ (s.lnkPort p).freeOwed = true) →
    ∃ t, exec (.ackNopTimer p) s = .next t ∧
      (t.txAwake p = true → t.out.length = s.out.length + 1 ∧ (t.lnkPort p).ackOwed = 0 ∧
        (t.lnkPort p).freeOwed = false) ∧
      (t.txAwake p = false → (t.portSt p).nopDue = true)) ∧
  (∀ (p : Fin 4) (s : State), s.txMsg p = true → (s.lnkPort p).retry ≠ [] →
    ∃ t, exec (.replayTimeout p) s = .next t ∧
      ((s.lnkPort p).noProgress < 16 → (t.lnkPort p).noProgress = (s.lnkPort p).noProgress + 1 ∧
        t.rd (LNK_PORT_REPLAY_TOTAL p) = min (s.rd (LNK_PORT_REPLAY_TOTAL p) + 1) (2 ^ 32 - 1) ∧
        (t.lnkPort p).retry = (s.lnkPort p).retry ∧ (t.lnkPort p).replay = none) ∧
      (16 ≤ (s.lnkPort p).noProgress → t.lneState p = lneDetect ∧ (s.quiet = true → t.saw Ev.LNK_RETRY_EXHAUSTED = true))) ∧
  (∀ (p v : Fin 4) (s : State), sget none (s.lnkPort p).rx v = none → v.val ∉ (s.lnkPort p).resync →
    16 ≤ ((s.lnkPort p).unread v).length →
    (leAt ((s.lnkPort p).unread v) 4 2 < 16 ∨ 4608 < leAt ((s.lnkPort p).unread v) 4 2) →
    ∃ t, exec (.messageReceive p v) s = .next t ∧ v.val ∈ (t.lnkPort p).resync ∧
      t.rd LNK_MSG_DROP_TOTAL = min (s.rd LNK_MSG_DROP_TOTAL + 1) (2 ^ 32 - 1)) ∧
  (∀ (p v : Fin 4) (s : State), sget none (s.lnkPort p).rx v = none → v.val ∉ (s.lnkPort p).resync →
    48 ≤ ((s.lnkPort p).unread v).length → ((s.lnkPort p).unread v).length < leAt ((s.lnkPort p).unread v) 4 2 →
    leAt ((s.lnkPort p).unread v) 4 2 ≤ 4608 → msgHeaderOk v ((s.lnkPort p).unread v) = true →
    msgLocal ((s.lnkPort p).unread v) = true →
    (stagedAt v ((s.lnkPort p).unread v).length (s.lnkPort p).slots).any (fun r => s.rangePoisoned r.1 r.2) = false →
    ∃ t, exec (.messageReceive p v) s = .next t ∧ t.lnk.nextMid = s.lnk.nextMid + 1 ∧
      (v.val, leAt ((s.lnkPort p).unread v) 2 2) ∈ (t.lnkPort p).srcs ∧ sget none (t.lnkPort p).rx v =
        some ⟨s.lnk.nextMid, leAt ((s.lnkPort p).unread v) 4 2, [], true, false, (s.lnkPort p).unread v⟩) ∧
  (∀ (p v : Fin 4) (m : RxMsg) (s : State), sget none (s.lnkPort p).rx v = some m → m.started = false → m.route ≠ [] →
    min 48 m.len ≤ m.data.length →
    ∃ t, exec (.messageForwardStart p v) s = .next t ∧ sget none (t.lnkPort p).rx v =
      if m.len ≤ m.data.length then none else some { m with started := true }) ∧
  (∀ s : State, ∃ t, exec .sourceWeightPeriod s = .next t ∧ ∀ p : Fin 4, (t.lnkPort p).srcs = [] ∧
    t.rdF (LNK_PORT_WEIGHT p) 6 0 = max 1 (min 64 (((s.lnkPort p).srcs.filter (fun e => e.1 == 2)).eraseDups).length) ∧
    t.rdF (LNK_PORT_WEIGHT p) 14 8 = max 1 (min 64 (((s.lnkPort p).srcs.filter (fun e => e.1 == 3)).eraseDups).length))

/-- R268, R270 to R273, R290: credit synchronisation and the allocation of slots. A repeated CREDIT_SYNC is answered and not
applied; a new one is applied, tells a partner that was reset, or retrains the port when it lies outside the retained flits; its
answer goes out at once, or when the direction is awake. The sync completes once applied and acknowledged, is resent, and
retrains on time. -/
def Obligations.CreditCommands : Prop :=
  (∀ (p : Fin 4) (b : Bytes) (s : State), s.portActive p = true → s.syncRepeats p b = true →
    ∃ t, exec (.creditSyncReceive p b) s = .next t ∧ (t.lnkPort p).credits = (s.lnkPort p).credits ∧
      (t.lnkPort p).syncing = (s.lnkPort p).syncing ∧ (t.txAwake p = true → t.out.length = s.out.length + 1) ∧
      (t.txAwake p = false → (t.lnkPort p).ackDue = some (byteAt b 1))) ∧
  (∀ (p : Fin 4) (b : Bytes) (s : State), s.portActive p = true → s.syncRepeats p b = false →
    bit (byteAt b 2) 0 = 1 →
    ∃ t, exec (.creditSyncReceive p b) s = .next t ∧ (t.lnkPort p).peerSync = some (byteAt b 1) ∧
      (t.lnkPort p).peerId = some (leAt b 28 8) ∧ (t.lnkPort p).applied = true ∧ t.rdF (LNK_PORT_STATUS p) 4 4 = 1 ∧
      t.rd (LNK_PORT_LOST_TOTAL p) = min (s.rd (LNK_PORT_LOST_TOTAL p) + (s.lnkPort p).retry.length) (2 ^ 32 - 1) ∧
      (s.quiet = true → t.saw Ev.LNK_PEER_RESET = true)) ∧
  (∀ (p : Fin 4) (b : Bytes) (s : State), s.portActive p = true → s.syncRepeats p b = false →
    bit (byteAt b 2) 0 = 0 → (s.lnkPort p).invalid (leAt b 4 2 % 4096) = false →
    ∃ t, exec (.creditSyncReceive p b) s = .next t ∧ (t.lnkPort p).peerSync = some (byteAt b 1) ∧
      (t.lnkPort p).applied = true ∧ t.rdF (LNK_PORT_STATUS p) 4 4 = 0 ∧
      (t.lnkPort p).peerTotal = [leAt b 6 2, leAt b 8 2, leAt b 10 2, leAt b 12 2]) ∧
  (∀ (p : Fin 4) (b : Bytes) (s : State), s.portActive p = true → s.syncRepeats p b = false →
    bit (byteAt b 2) 0 = 0 → (s.lnkPort p).invalid (leAt b 4 2 % 4096) = true →
    ∃ t, exec (.creditSyncReceive p b) s = .next t ∧ t.lneState p = lneDetect ∧
      (s.quiet = true → t.saw Ev.LNK_SYNC_INVALID = true)) ∧
  (∀ (p : Fin 4) (i : Byte) (s : State), s.portActive p = true → (s.lnkPort p).syncing = true → (s.lnkPort p).syncId = i.toNat →
    ∃ t, exec (.creditSyncAckReceive p i) s = .next t ∧ (t.lnkPort p).acked = true ∧
      ((s.lnkPort p).applied = true → (t.lnkPort p).syncing = false ∧ (t.lnkPort p).lost = false ∧
        t.rdF (LNK_PORT_STATUS p) 2 2 = 1) ∧
      ((s.lnkPort p).applied = false → (t.lnkPort p).syncing = true)) ∧
  (∀ (p : Fin 4) (s : State), s.portActive p = true → (s.lnkPort p).syncing = true →
    ∃ t, exec (.creditSyncResend p) s = .next t ∧ (t.lnkPort p).syncing = true ∧
      (t.lnkPort p).syncId = (s.lnkPort p).syncId ∧ (t.txAwake p = true → t.out.length = s.out.length + 1) ∧
      (t.txAwake p = false → (t.lnkPort p).syncDue = true)) ∧
  (∀ (p : Fin 4) (s : State), s.portActive p = true → (s.lnkPort p).syncing = true →
    ∃ t, exec (.creditSyncTimeout p) s = .next t ∧ t.lneState p = lneDetect ∧
      (s.quiet = true → t.saw Ev.LNK_SYNC_TIMEOUT = true)) ∧
  (∀ (p : Fin 4) (s : State), s.shut .service (LNK_PORT_CTRL p.val) = false → s.portActive p = true →
    ∃ t, exec (.lnkPortSyncNow p) s = .next t ∧ (t.lnkPort p).syncing = true ∧ (t.lnkPort p).applied = false ∧
      (t.lnkPort p).acked = false ∧ (t.lnkPort p).syncId = ((s.lnkPort p).syncId + 1) % 256 ∧
      t.rdF (LNK_PORT_STATUS p) 2 2 = 0) ∧
  (∀ (p : Fin 4) (a b : Word) (s : State), s.shut .service (LNK_PORT_ALLOC01 p.val) = false →
    ∃ t, exec (.lnkPortAllocWrite p a b) s = .next t ∧
      match allocOf a.toNat b.toNat with
      | some l => (t.lnkPort p).alloc = l
      | none => t = s)

/-- R282 to R284, R287, R288: discovery and management. A candidate without a better beacon starts an epoch; a better beacon is
taken, a worse one is not; addresses are offered, taken, refused and counted port by port; a lost port starts a new epoch at
the root; requests are queued up to sixteen and performed in order, a one-word write as a register write of its sender. -/
def Obligations.TreeCommands : Prop :=
  (∀ s : State, s.rootCand = false → exec .beaconOriginate s = .next s) ∧
  (∀ s : State, s.rootCand = true → (s.lnk.best = none ∨ ∃ b, s.lnk.best = some b ∧ b.port ≠ 4 ∧
      (b.prio < s.rootPrio ∨ (b.prio = s.rootPrio ∧ fusedId < b.root))) →
    ∃ t, exec .beaconOriginate s = .next t ∧ t.isRoot = true ∧ t.epoch = (s.epoch + 1) % 65536 ∧ t.lnk.newAddr = none ∧
      t.lnk.heard = [] ∧ t.rdF LNK_STATUS 16 16 = 1 ∧ t.rd LNK_TREE = s.rd LNK_TREE) ∧
  (∀ s : State, s.rootCand = true → s.isRoot = true →
    ∃ t, exec .beaconOriginate s = .next t ∧ t.lnk.best = s.lnk.best ∧
      s.out.length + s.activePorts.length ≤ t.out.length) ∧
  (∀ (p : Fin 4) (m : Bytes) (b : Beacon) (s : State),
    b = ⟨byteAt m 17, leAt m 20 8, leAt m 18 2, byteAt m 34, p⟩ →
    (s.lnk.best = none ∨ ∃ c, s.lnk.best = some c ∧ b.better s c = true ∧ (b.root ≠ c.root ∨ b.epoch ≠ c.epoch)) →
    ∃ t, exec (.beaconReceive p m) s = .next t ∧ t.lnk.best = some b ∧ t.lnk.newAddr = none ∧ t.lnk.offer = none ∧
      t.rdF LNK_STATUS 16 16 = 0 ∧ t.rdF LNK_STATUS 17 17 = 1 ∧ t.epoch = b.epoch ∧
      t.rd LNK_TREE = s.rd LNK_TREE ∧ t.rd LNK_ROOT_LO = s.rd LNK_ROOT_LO) ∧
  (∀ (p : Fin 4) (m : Bytes) (c : Beacon) (s : State), s.lnk.best = some c →
    Beacon.better s ⟨byteAt m 17, leAt m 20 8, leAt m 18 2, byteAt m 34, p⟩ c = false →
    ∃ t, exec (.beaconReceive p m) s = .next t ∧ t.lnk.best = s.lnk.best ∧ t.lnk.offer = s.lnk.offer ∧ t.out = s.out) ∧
  (∀ s : State, s.isRoot = true → s.lnk.newAddr = none →
    ∃ t, exec .assignStart s = .next t ∧ t.lnk.newAddr = some 1 ∧
      (s.activePorts = [] → t.addr = 1 ∧ t.rdF LNK_STATUS 17 17 = 0) ∧
      (s.activePorts ≠ [] → ∃ o, t.lnk.offer = some o ∧ o.base = 2 ∧ o.accepted = false ∧ o.tries = 1 ∧
        o.port ∈ s.activePorts)) ∧
  (∀ (p : Fin 4) (m : Bytes) (s : State), s.lnk.best.map (·.port) ≠ some p.val →
    ∃ t, exec (.assignReceive p m) s = .next t ∧ (t.newPort p).tree = 3 ∧ t.lnk.newAddr = s.lnk.newAddr) ∧
  (∀ (p : Fin 4) (m : Bytes) (s : State), 0xFFEF < leAt m 28 2 → s.quiet = true →
    ∃ t, exec (.assignReceive p m) s = .next t ∧ t.saw Ev.LNK_ADDR_EXHAUSTED = true ∧ (t.newPort p).tree = 3) ∧
  (∀ (p : Fin 4) (m : Bytes) (s : State), s.lnk.best.map (·.port) = some p.val → leAt m 28 2 ≤ 0xFFEF →
    s.lnk.newAddr ≠ some (leAt m 28 2) →
    ∃ t, exec (.assignReceive p m) s = .next t ∧ t.lnk.newAddr = some (leAt m 28 2) ∧ t.lnk.newDepth = byteAt m 34 ∧
      t.lnk.nextAddr = leAt m 28 2 + 1) ∧
  (∀ (p : Fin 4) (m : Bytes) (o : Offer) (s : State), s.lnk.offer = some o → o.port = p → leAt m 28 2 = o.base →
    ∃ t, exec (.acceptReceive p m) s = .next t ∧ t.lnk.offer = some { o with accepted := true } ∧ t.out = s.out) ∧
  (∀ (p : Fin 4) (o : Offer) (s : State), s.lnk.offer = some o → o.port = p →
    ∃ t, exec (.refuseReceive p) s = .next t ∧ (t.newPort p).tree = 3 ∧
      ∀ x, t.lnk.offer = some x → p < x.port ∧ x.base = s.lnk.nextAddr) ∧
  (∀ (p : Fin 4) (m : Bytes) (o : Offer) (s : State), s.lnk.offer = some o → o.port = p → o.accepted = true →
    ∃ t, exec (.doneReceive p m) s = .next t ∧ (t.newPort p).tree = 2 ∧ (t.newPort p).first = o.base ∧
      (t.newPort p).last = leAt m 30 2 ∧ (t.newPort p).bridges = leAt m 32 2 % 2 ^ 15 ∧ t.lnk.nextAddr = leAt m 30 2 + 1 ∧
      t.lnk.bridges = s.lnk.bridges ||| leAt m 32 2 % 2 ^ 15) ∧
  (∀ s : State, s.shut .service LNK_CTRL = false → s.isRoot = true →
    ∃ t, exec .lostReceive s = .next t ∧ exec .lnkCtrlRediscover s = .next t ∧ t.isRoot = true ∧
      t.epoch = (s.epoch + 1) % 65536 ∧ t.lnk.newAddr = none) ∧
  (∀ (b : Beacon) (s : State), s.shut .service LNK_CTRL = false → s.lnk.best = some b → b.port < 4 → s.portActive b.port = true →
    ∃ t, exec .lostReceive s = .next t ∧ exec .lnkCtrlRediscover s = .next t ∧ t.lnk.best = s.lnk.best ∧
      s.out.length < t.out.length) ∧
  (∀ s : State, s.shut .service LNK_CTRL = false → s.lnk.best = none →
    ∃ t, exec .lostReceive s = .next t ∧ exec .lnkCtrlRediscover s = .next t ∧
      (s.rootCand = true → t.isRoot = true ∧ t.epoch = 1) ∧ (s.rootCand = false → t = s)) ∧
  (∀ (o : Offer) (s : State), s.lnk.offer = some o → o.accepted = false → o.tries < 3 →
    ∃ t, exec .assignTimeout s = .next t ∧ t.lnk.offer = some { o with tries := o.tries + 1 }) ∧
  (∀ (o : Offer) (s : State), s.lnk.offer = some o → o.accepted = false → 3 ≤ o.tries → s.quiet = true →
    ∃ t, exec .assignTimeout s = .next t ∧ t.saw Ev.LNK_DISC_TIMEOUT = true ∧ (t.newPort o.port).tree = 3) ∧
  (∀ (o : Offer) (s : State), s.lnk.offer = some o → o.accepted = true → o.tries < 3 →
    ∃ t, exec .doneTimeout s = .next t ∧ t.lnk.offer = some { o with tries := o.tries + 1, accepted := false }) ∧
  (∀ (o : Offer) (s : State), s.lnk.offer = some o → o.accepted = true → 3 ≤ o.tries → s.quiet = true →
    ∃ t, exec .doneTimeout s = .next t ∧ t.saw Ev.LNK_DISC_TIMEOUT = true ∧ (t.newPort o.port).tree = 3) ∧
  (∀ (m : Bytes) (s : State), leAt m 0 2 ≠ 0xFFFF → s.lnk.mgmt.length < 16 →
    ∃ t, exec (.mgmtReqReceive m) s = .next t ∧
      t.lnk.mgmt = s.lnk.mgmt ++ [⟨leAt m 2 2, leAt m 10 4, m.drop 16⟩]) ∧
  (∀ (m : Bytes) (s : State), leAt m 0 2 ≠ 0xFFFF → 16 ≤ s.lnk.mgmt.length →
    ∃ t, exec (.mgmtReqReceive m) s = .next t ∧ t.lnk.mgmt = s.lnk.mgmt) ∧
  (∀ (m : Bytes) (s : State), leAt m 0 2 = 0xFFFF → mgmtBroadcastOk m = false → s.quiet = true →
    s.lnk.said.contains (Ev.LNK_MSG_INVALID, 4) = false →
    ∃ t, exec (.mgmtReqReceive m) s = .next t ∧ t.lnk.mgmt = s.lnk.mgmt ∧ t.saw Ev.LNK_MSG_INVALID = true ∧
      t.rd LNK_MSG_DROP_TOTAL = min (s.rd LNK_MSG_DROP_TOTAL + 1) (2 ^ 32 - 1)) ∧
  (∀ (m : Bytes) (s : State), leAt m 0 2 = 0xFFFF → mgmtBroadcastOk m = false →
    s.lnk.said.contains (Ev.LNK_MSG_INVALID, 4) = true →
    ∃ t, exec (.mgmtReqReceive m) s = .next t ∧ t.lnk = s.lnk ∧ t.ev = s.ev) ∧
  (∀ (q : MgmtReq) (l : List MgmtReq) (s : State), s.lnk.mgmt = q :: l → s.deaf = false → 2 ≤ s.stageNow →
    byteAt q.body 0 = 2 → bit (byteAt q.body 1) 0 = 1 → leAt q.body 2 2 = 1 → leAt q.body 4 5 < 2 ^ 32 →
    leAt q.body 4 5 % 4 = 0 → 20 ≤ q.body.length → (0xFFF0 ≤ q.src ∧ q.src ≤ 0xFFFE ∨ s.rdF LNK_CTRL 1 1 = 1) →
    ∃ t, exec .mgmtReqPerform s = .next t ∧ exec (.registerWrite (.fabric (BitVec.ofNat 16 q.src))
      (BitVec.ofNat 32 (leAt q.body 4 5)) (BitVec.ofNat 32 (leAt q.body 16 4)))
      { s with lnk := { s.lnk with mgmt := l } } = .next t) ∧
  (∀ (q : MgmtReq) (l : List MgmtReq) (s : State), s.lnk.mgmt = q :: l → s.deaf = false → 2 ≤ s.stageNow →
    byteAt q.body 0 = 2 → leAt q.body 2 2 = 1 → leAt q.body 4 5 % 4 = 0 → 20 ≤ q.body.length →
    q.src < 0xFFF0 → s.rdF LNK_CTRL 1 1 = 0 → s.quiet = true →
    ∃ t, exec .mgmtReqPerform s = .next t ∧ t.lnk.mgmt = l ∧ t.saw Ev.LNK_MGMT_DENIED = true)

/-- R297 to R300: the tick master and GENLOCK. A TICK of the master followed is used, for the running tick or for the
one that begins at the boundary it names; one already seen or the device's own is not, and a better one makes a master yield; a
candidate that used no TICK for long enough, the running tick included, claims; an edge that fits is a
good one, and the third bad or missing one in a row loses GENLOCK. -/
def Obligations.TickMasterCommands : Prop :=
  (∀ (p : Fin 4) (m : Bytes) (s : State), (s.alone = true ∨ leAt m 36 8 = fusedId) →
    ∃ t, exec (.tickMessageReceive p m) s = .next t ∧ t.wal = s.wal ∧ t.fpl = s.fpl ∧ t.out = s.out) ∧
  (∀ (p : Fin 4) (m : Bytes) (s : State), s.wal.seenTick.any (fun e => e.1 == leAt m 36 8 && e.2.1 == leAt m 16 6) = true →
    ∃ t, exec (.tickMessageReceive p m) s = .next t ∧ t.fpl = s.fpl ∧ t.out = s.out ∧ t.wal.master = s.wal.master ∧
      t.wal.used = s.wal.used ∧ t.wal.early = s.wal.early ∧ t.wal.len = s.wal.len ∧ t.wal.next = s.wal.next) ∧
  (∀ (p : Fin 4) (m : Bytes) (s : State), s.alone = false → leAt m 36 8 ≠ fusedId →
    s.wal.seenTick.any (fun e => e.1 == leAt m 36 8 && e.2.1 == leAt m 16 6) = false → s.isMaster = false →
    s.isCommitRoot = false → (s.wal.master = none ∨ s.wal.master = some (byteAt m 23, leAt m 36 8)) →
    leAt m 16 6 = s.fpl.frame →
    ∃ t, exec (.tickMessageReceive p m) s = .next t ∧ t.wal.used = true ∧ t.wal.master = some (byteAt m 23, leAt m 36 8) ∧
      t.wal.len = leAt m 28 4 ∧
      t.wal.next = ((s.now : Int) - (leAt m 32 4 : Nat) - (s.latency p : Nat) + (leAt m 28 4 : Nat)).toNat ∧
      t.rdF WAL_STATUS 31 24 = 0 ∧ t.fpl = s.fpl) ∧
  (∀ (p : Fin 4) (m : Bytes) (s : State), s.alone = false → leAt m 36 8 ≠ fusedId →
    s.wal.seenTick.any (fun e => e.1 == leAt m 36 8 && e.2.1 == leAt m 16 6) = false → s.isMaster = false →
    s.isCommitRoot = false → (s.wal.master = none ∨ s.wal.master = some (byteAt m 23, leAt m 36 8)) →
    leAt m 16 6 = s.fpl.frame + 1 →
    ∃ t, exec (.tickMessageReceive p m) s = .next t ∧ t.wal.used = s.wal.used ∧ t.wal.len = leAt m 28 4 ∧ t.wal.next = s.wal.next ∧
      t.wal.early = some ((s.now : Int) - (leAt m 32 4 : Nat) - (s.latency p : Nat) + (leAt m 28 4 : Nat)).toNat ∧
      t.fpl = s.fpl) ∧
  (∀ (p : Fin 4) (m : Bytes) (s : State), s.alone = false → leAt m 36 8 ≠ fusedId →
    s.wal.seenTick.any (fun e => e.1 == leAt m 36 8 && e.2.1 == leAt m 16 6) = false → s.isMaster = true →
    byteAt m 23 < s.rdF WAL_STATUS 9 8 → s.quiet = true →
    ∃ t, exec (.tickMessageReceive p m) s = .next t ∧ t.isMaster = false ∧ (t.wal.used = true ∨ t.wal.early.isSome = true) ∧
      t.wal.master = some (byteAt m 23, leAt m 36 8) ∧ t.saw Ev.WAL_YIELD = true) ∧
  (∀ (k r : Nat) (s : State), s.masterRank = some (k, r) → s.stageNow = 5 → s.isMaster = false → s.alone = false →
    s.wal.used = false → s.wal.early = none → 3 * max 1 k ≤ s.wal.heardAge → s.quiet = true →
    ∃ t, exec .masterClaim s = .next t ∧ t.isMaster = true ∧ t.rdF WAL_STATUS 9 8 = k ∧ t.wal.claimed = true ∧
      t.saw Ev.WAL_MASTER_CLAIMED = true ∧
      t.fpl.frame = if s.wal.claimed then s.fpl.frame else s.claimFrame % 2 ^ 48) ∧
  (∀ s : State, (s.masterRank = none ∨ s.wal.used = true) → exec .masterClaim s = .next s) ∧
  (∀ s : State, s.tracksGenlock = false → ∃ t, exec .genlockEdge s = .next t ∧ t.wal = s.wal ∧
    exec .genlockEdgeMissed s = .next s) ∧
  (∀ s : State, s.tracksGenlock = true → s.wal.edge = none →
    ∃ t, exec .genlockEdge s = .next t ∧ t.wal.edge = some s.now ∧ t.rdF WAL_GENLOCK_STATUS 1 0 = 1) ∧
  (∀ (v : Nat) (s : State), s.tracksGenlock = true → s.wal.edge = some v → s.edgeFits v = true →
    ∃ t, exec .genlockEdge s = .next t ∧ t.wal.edge = some s.now ∧ t.wal.period = s.now - v ∧ t.wal.badEdges = 0 ∧
      t.wal.goodEdges = s.wal.goodEdges + 1 ∧ (s.wal.goodEdges = 15 → t.rdF WAL_GENLOCK_STATUS 1 0 = 2)) ∧
  (∀ (v : Nat) (s : State), s.tracksGenlock = true → s.wal.edge = some v → s.edgeFits v = false → s.wal.lastEdge = some v →
    ∃ t, exec .genlockEdge s = .next t ∧ t.wal.edge = some v ∧ t.wal.badEdges = s.wal.badEdges + 1 ∧ t.wal.goodEdges = 0 ∧
      (s.wal.badEdges = 2 → t.rdF WAL_GENLOCK_STATUS 1 0 = 3)) ∧
  (∀ (v x : Nat) (s : State), s.tracksGenlock = true → s.wal.edge = some v → s.edgeFits v = false →
    s.wal.lastEdge = some x → x ≠ v → s.edgeFits x = true →
    ∃ t, exec .genlockEdge s = .next t ∧ t.wal.edge = some s.now ∧ t.wal.period = s.now - x ∧ t.wal.badEdges = 0) ∧
  (∀ s : State, s.tracksGenlock = true →
    ∃ t, exec .genlockEdgeMissed s = .next t ∧ t.wal.badEdges = s.wal.badEdges + 1 ∧ t.wal.goodEdges = 0 ∧
      (s.wal.badEdges = 2 → t.rdF WAL_GENLOCK_STATUS 1 0 = 3 ∧
        (s.isMaster = true → s.quiet = true → t.saw Ev.WAL_GENLOCK_LOST = true)))

/-- R304 to R309, R311: the vote and the decision. A vote in time is kept for its child, a late one is counted; the deadline
closes the votes and sends the device's own; the root that was one at the commit point decides once; a decision is kept for the
boundary, and one that comes late is counted; MEMBER messages set and clear the membership; a candidate without a decision for
the coming frame takes the root role. -/
def Obligations.CommitCommands : Prop :=
  (∀ (p : Fin 4) (m : Bytes) (s : State), s.alone = true →
    ∃ t, exec (.decisionReceive p m) s = .next t ∧ exec (.voteReceive p m) s = .next t ∧ t.wal = s.wal ∧ t.out = s.out) ∧
  (∀ (p : Fin 4) (m : Bytes) (s : State), s.alone = false → s.fpl.frame < leAt m 16 6 → s.wal.decision = none →
    s.wal.seenDec.any (fun e => e.1 == leAt m 36 8 && e.2.1 == leAt m 16 6) = false →
    ∃ t, exec (.decisionReceive p m) s = .next t ∧ t.wal.decision = some (decisionOf (m.drop 16)) ∧
      (leAt m 36 8, leAt m 16 6, leAt m 34 2, p.val) ∈ t.wal.seenDec) ∧
  (∀ (p : Fin 4) (m : Bytes) (s : State), s.alone = false → leAt m 16 6 = s.fpl.frame →
    s.wal.seenDec.any (fun e => e.1 == leAt m 36 8 && e.2.1 == leAt m 16 6) = false → s.quiet = true →
    ∃ t, exec (.decisionReceive p m) s = .next t ∧ t.wal.decision = s.wal.decision ∧ t.saw Ev.WAL_LATE_MESSAGE = true ∧
      t.rd WAL_LATE_TOTAL = min (s.rd WAL_LATE_TOTAL + 1) (2 ^ 32 - 1)) ∧
  (∀ (p : Fin 4) (m : Bytes) (s : State), s.alone = false →
    (if s.fpl.committed then s.wal.votePort else s.commitParent) ≠ some p.val → s.wal.closed = false →
    leAt m 16 6 = s.fpl.frame + 1 → (∀ e ∈ s.wal.children, e.1 = p.val → e.2.addr ≠ leAt m 2 2) →
    ∃ t, exec (.voteReceive p m) s = .next t ∧ (∀ e ∈ s.wal.children, e ∈ t.wal.children) ∧
      (p.val, (⟨leAt m 2 2, if (voteOf (m.drop 16)).member then 1 else 2, 0, 0, 0, false, some (voteOf (m.drop 16)), false⟩ : Child)) ∈
        t.wal.children) ∧
  (∀ (p : Fin 4) (m : Bytes) (s : State), s.alone = false →
    (if s.fpl.committed then s.wal.votePort else s.commitParent) ≠ some p.val →
    (s.wal.closed = true ∨ leAt m 16 6 ≤ s.fpl.frame) →
    (∀ e ∈ s.wal.children, e.1 = p.val → e.2.addr ≠ leAt m 2 2) →
    ∃ t, exec (.voteReceive p m) s = .next t ∧ t.wal = s.wal ∧
      t.rd WAL_LATE_TOTAL = min (s.rd WAL_LATE_TOTAL + 1) (2 ^ 32 - 1)) ∧
  (∀ (m : Bytes) (s : State), s.alone = false → byteAt m 16 = 2 → s.rdF WAL_CTRL 1 1 = 0 →
    ∃ t, exec (.memberReceive m) s = .next t ∧ t.rdF WAL_STATUS 0 0 = 1 ∧ t.rdF WAL_STATUS 31 1 = s.rdF WAL_STATUS 31 1) ∧
  (∀ (m : Bytes) (s : State), s.alone = false → byteAt m 16 = 1 →
    ∃ t, exec (.memberReceive m) s = .next t ∧ t.rdF WAL_STATUS 0 0 = 0 ∧ t.rdF WAL_STATUS 31 1 = s.rdF WAL_STATUS 31 1) ∧
  (∀ s : State, s.alone = false → s.fpl.committed = true → s.wal.closed = false →
    ∃ t, exec .voteDeadline s = .next t ∧ t.wal.closed = true ∧
      (s.isCommitRoot = false → s.wal.vote.isSome = true → s.wal.votePort.isSome = true → t.wal.voted = true)) ∧
  (∀ s : State, s.isCommitRoot = true → s.wal.decides = true → s.fpl.committed = true → s.wal.voted = false →
    s.alone = false →
    s.wal.decision = none →
    ∃ t, exec .rootDecide s = .next t ∧ t.wal.voted = true ∧ ∃ d, t.wal.decision = some d ∧ d.frame = s.fpl.frame + 1 ∧
      d.root = fusedId ∧ d.tag = s.aggregate.tagHi ∧ d.members = s.aggregate.members ∧
      d.kind = if s.aggregate.ready then 1 else if s.wal.run < s.repeatLimit then 2 else 3) ∧
  (∀ (k : Nat) (s : State), s.rootRank = some k → s.stageNow = 5 → s.isCommitRoot = false → s.alone = false →
    s.wal.decision = none → 2 * max 1 k ≤ s.wal.missed → s.quiet = true →
    ∃ t, exec .rootTakeover s = .next t ∧ t.isCommitRoot = true ∧ t.saw Ev.WAL_ROOT_TAKEOVER = true) ∧
  (∀ s : State, (s.rootRank = none ∨ s.wal.decision.isSome = true) → exec .rootTakeover s = .next s)

/-- R24, R350: writes of the Burin's doorbell and ring registers. A doorbell value at or above BUR_RING_SIZE and a size that is no
power of two from 16 to 4,096 are ignored, set RING_BAD and are reported; while RING_BAD is set no command is fetched, and a
valid size clears it; the ring and status registers are written only while EN is 0, and BUR_RING_LO empties the ring. A ring write
while the domain is stopped is held, and takes effect when the doorbell restarts it. -/
def Obligations.BurinRingWrites : Prop :=
  (∀ (v : Word) (s : State), s.shut .service BUR_TAIL = false → s.burRestart.burSize ≤ v.toNat →
    ∃ t, exec (.burTailWrite v) s = .next t ∧ t.rd BUR_TAIL = s.burRestart.rd BUR_TAIL ∧ t.rdF BUR_STATUS 2 2 = 1 ∧
      (s.quiet = true → t.saw Ev.BUR_RING_BAD = true)) ∧
  (∀ (v : Word) (s : State), s.shut .service BUR_TAIL = false → v.toNat < s.burRestart.burSize →
    ∃ t, exec (.burTailWrite v) s = .next t ∧ t.rd BUR_TAIL = v.toNat ∧ t.ev = s.burRestart.ev ∧
      t.rdF BUR_STATUS 2 1 = s.burRestart.rdF BUR_STATUS 2 1) ∧
  (∀ s : State, s.bur.held = [] → s.burRestart.burStopped = false ∧ s.burRestart.burSize = s.burSize ∧
    s.burRestart.rd BUR_TAIL = s.rd BUR_TAIL ∧ s.burRestart.rdF BUR_STATUS 2 1 = s.rdF BUR_STATUS 2 1) ∧
  (∀ (v w : Word) (s : State), s.shut .service BUR_TAIL = false → s.bur.held = [.size w.toNat] → s.rdF BUR_CTRL 0 0 = 0 →
    pow2In w.toNat 16 4096 = true → v.toNat < w.toNat →
    ∃ t, exec (.burTailWrite v) s = .next t ∧ t.bur.held = [] ∧ t.burSize = w.toNat ∧
      t.rd BUR_TAIL = v.toNat) ∧
  (∀ (v : Word) (s : State), s.shut .service BUR_RING_SIZE = false → s.burStopped = false → s.rdF BUR_CTRL 0 0 = 0 →
    pow2In v.toNat 16 4096 = false →
    ∃ t, exec (.burRingSizeWrite v) s = .next t ∧ t.rd BUR_RING_SIZE = s.rd BUR_RING_SIZE ∧ t.rdF BUR_STATUS 2 2 = 1 ∧
      (s.quiet = true → t.saw Ev.BUR_RING_BAD = true)) ∧
  (∀ (v : Word) (s : State), s.shut .service BUR_RING_SIZE = false → s.burStopped = false → s.rdF BUR_CTRL 0 0 = 0 →
    pow2In v.toNat 16 4096 = true →
    ∃ t, exec (.burRingSizeWrite v) s = .next t ∧ t.rd BUR_RING_SIZE = v.toNat ∧ t.rdF BUR_STATUS 2 2 = 0) ∧
  (∀ (n : Nat) (s : State), s.bur.run = none → s.rdF BUR_STATUS 2 2 = 1 →
    ∃ t, exec .burNop s = .next t ∧ exec (.burFill n) s = .next t ∧ exec (.burCopy n) s = .next t ∧
      exec (.burStipple n) s = .next t ∧ t.regs = s.regs ∧ t.mem = s.mem ∧ t.bur = s.bur) ∧
  (∀ (who : Requester) (a : BitVec 32) (v : Word) (s : State), s.burStopped = false → s.rdF BUR_CTRL 0 0 = 1 →
    a.toNat ∈ [BUR_RING_LO, BUR_RING_HI, BUR_RING_SIZE, BUR_STAT_LO, BUR_STAT_HI] →
    ∃ t, exec (.registerWrite who a v) s = .next t ∧ t.regs = s.regs ∧ t.bur = s.bur) ∧
  (∀ (v : Word) (s : State), s.shut .service BUR_RING_SIZE = false → s.shut .service BUR_RING_LO = false →
    s.burStopped = false → s.rdF BUR_CTRL 0 0 = 1 → exec (.burRingSizeWrite v) s = .next s ∧
    exec (.burRingLoWrite v) s = .next s) ∧
  (∀ (v : Word) (s : State), s.shut .service BUR_RING_SIZE = false → s.shut .service BUR_RING_LO = false → s.burStopped = true →
    exec (.burRingSizeWrite v) s = .next { s with bur := { s.bur with held := s.bur.held ++ [.size v.toNat] } } ∧
    exec (.burRingLoWrite v) s = .next { s with bur := { s.bur with held := s.bur.held ++ [.ringLo v.toNat] } }) ∧
  (∀ (v : Word) (s : State), s.shut .service BUR_RING_LO = false → s.burStopped = false → s.rdF BUR_CTRL 0 0 = 0 →
    ∃ t, exec (.burRingLoWrite v) s = .next t ∧ t.rd BUR_HEAD = 0 ∧ t.rd BUR_TAIL = 0 ∧
      t.burRing = v.toNat / 64 * 64 + s.rdF BUR_RING_HI 7 0 * 2 ^ 32)

/-- R346 to R356: the Burin's commands. A NOP ends DONE; a reserved OP or a command that fails a check ends in error, and the
engine halts until RESUME; one that cannot be fetched ends so too; a FILL, COPY or STIPPLE that passes is taken, writes its
pixels segment by segment, and ends after its last; an abort or EN = 0 ends the command in progress. R24: a control write while
the domain is stopped is held. -/
def Obligations.BurinCommands : Prop :=
  (∀ s : State, s.burFetchOk = true → (burCmd s.burNext).op = 0 → (burCmd s.burNext).invalid = false →
    ∃ t, exec .burNop s = .next t ∧ t.rd BUR_HEAD = (s.rdF BUR_HEAD 11 0 + 1) % max 1 s.burSize ∧
      t.rd BUR_DONE_TOTAL = min (s.rd BUR_DONE_TOTAL + 1) (2 ^ 32 - 1) ∧ t.bur.run = none ∧
      t.rdF BUR_STATUS 1 1 = s.rdF BUR_STATUS 1 1) ∧
  (∀ s : State, s.burFetchOk = true → 3 < (burCmd s.burNext).op →
    ∃ t, exec .burNop s = .next t ∧ t.rd BUR_HEAD = (s.rdF BUR_HEAD 11 0 + 1) % max 1 s.burSize ∧
      t.rdF BUR_STATUS 1 1 = 1 ∧ t.rdF BUR_ERR_LAST 19 16 = burInvalid ∧
      t.rdF BUR_ERR_LAST 11 0 = s.rdF BUR_HEAD 11 0 ∧
      t.rd BUR_ERR_TOTAL = min (s.rd BUR_ERR_TOTAL + 1) (2 ^ 32 - 1) ∧ (s.quiet = true → t.saw Ev.BUR_INVALID = true)) ∧
  (∀ (c : Instr) (s : State), s.burFetchOk = true →
    (c = .burFill 0 ∧ (burCmd s.burNext).op = 1 ∨ c = .burCopy 0 ∧ (burCmd s.burNext).op = 2 ∨
      c = .burStipple 0 ∧ (burCmd s.burNext).op = 3) →
    ∃ t, exec c s = .next t ∧ match s.burCheck (burCmd s.burNext) with
      | none => t.bur.run = some ⟨s.rdF BUR_HEAD 11 0, s.burNext, 0⟩ ∧ t.mem = s.mem ∧ t.rdF BUR_STATUS 3 3 = 0
      | some e => t.bur.run = none ∧ t.rdF BUR_STATUS 1 1 = 1 ∧ t.rdF BUR_ERR_LAST 19 16 = e ∧
        t.rd BUR_ERR_TOTAL = min (s.rd BUR_ERR_TOTAL + 1) (2 ^ 32 - 1) ∧
        t.rd BUR_HEAD = (s.rdF BUR_HEAD 11 0 + 1) % max 1 s.burSize) ∧
  (∀ (r : BurRun) (y x0 x1 : Nat) (s : State), s.bur.run = some r → r.seg + 1 < (burCmd r.cmd).segments →
    (burCmd r.cmd).segment r.seg = (y, x0, x1) →
    (∀ q ∈ (burCmd r.cmd).reads y x0 x1, s.rangeMay clBurin q.1 q.2 = true ∧ s.rangePoisoned q.1 q.2 = false) →
    s.rangeMay clBurin ((burCmd r.cmd).writes y x0 x1).1 ((burCmd r.cmd).writes y x0 x1).2 = true →
    ((burCmd r.cmd).op = 1 → ∃ t, exec (.burFill 1) s = .next t ∧ t.bur.run = some { r with seg := r.seg + 1 } ∧
      t.mem = (s.putPixels (burCmd r.cmd).dst ((burCmd r.cmd).dx + x0) ((burCmd r.cmd).dy + y)
        (List.replicate (x1 - x0) (some (burCmd r.cmd).w2))).mem ∧ (s.dmc.sr = .off → t.regs = s.regs)) ∧
    ((burCmd r.cmd).op = 2 → ∃ t, exec (.burCopy 1) s = .next t ∧ t.bur.run = some { r with seg := r.seg + 1 } ∧
      t.mem = (s.putPixels (burCmd r.cmd).dst ((burCmd r.cmd).dx + x0) ((burCmd r.cmd).dy + y)
        (s.segValues (burCmd r.cmd) y x0 x1)).mem ∧ (s.dmc.sr = .off → t.regs = s.regs)) ∧
    ((burCmd r.cmd).op = 3 → ∃ t, exec (.burStipple 1) s = .next t ∧ t.bur.run = some { r with seg := r.seg + 1 } ∧
      t.mem = (s.putPixels (burCmd r.cmd).dst ((burCmd r.cmd).dx + x0) ((burCmd r.cmd).dy + y)
        (s.segValues (burCmd r.cmd) y x0 x1)).mem ∧ (s.dmc.sr = .off → t.regs = s.regs))) ∧
  (∀ (r : BurRun) (s : State), s.bur.run = some r → (burCmd r.cmd).op = 1 → (burCmd r.cmd).segments ≤ r.seg →
    ∃ t, exec (.burFill 0) s = .next t ∧ t.bur.run = none ∧
      t.rd BUR_DONE_TOTAL = min (s.rd BUR_DONE_TOTAL + 1) (2 ^ 32 - 1)) ∧
  (∀ (n : Nat) (s : State), s.bur.run = none → s.rdF BUR_STATUS 1 1 = 1 →
    ∃ t, exec .burNop s = .next t ∧ exec (.burFill n) s = .next t ∧ exec (.burCopy n) s = .next t ∧
      exec (.burStipple n) s = .next t ∧ t.regs = s.regs ∧ t.mem = s.mem ∧ t.bur = s.bur) ∧
  (∀ s : State, s.shut .service BUR_CTRL = false → s.burStopped = false → ∃ t, exec .burCtrlResume s = .next t ∧
    t.rdF BUR_STATUS 1 1 = 0 ∧ t.rd BUR_HEAD = s.rd BUR_HEAD ∧
    t.bur.run = s.bur.run ∧ t.bur.held = s.bur.held ∧ t.rdF BUR_STATUS 3 3 = b2n (t.bur.run.isNone && !t.burReady)) ∧
  (∀ (r : BurRun) (s : State), s.shut .service BUR_CTRL = false → s.burStopped = false → s.bur.run = some r → r.slot < 4096 →
    ∃ t, exec .burCtrlAbort s = .next t ∧ t.bur.run = none ∧ t.rdF BUR_STATUS 1 1 = 1 ∧
      t.rdF BUR_ERR_LAST 19 16 = burAborted ∧ t.rd BUR_HEAD = (r.slot + 1) % max 1 s.burSize ∧
      t.rd BUR_ERR_TOTAL = min (s.rd BUR_ERR_TOTAL + 1) (2 ^ 32 - 1) ∧ (s.quiet = true → t.saw Ev.BUR_ABORTED = true)) ∧
  (∀ s : State, s.shut .service BUR_CTRL = false → s.burStopped = false → s.bur.run = none →
    ∃ t, exec .burCtrlAbort s = .next t ∧ t.regs = s.regs ∧ t.bur = s.bur) ∧
  (∀ s : State, s.shut .service BUR_CTRL = false → s.burStopped = false →
    ∃ t, exec (.burCtrlEnWrite true) s = .next t ∧ t.rdF BUR_CTRL 0 0 = 1 ∧ t.bur.run = s.bur.run ∧
      t.bur.held = s.bur.held ∧ t.rdF BUR_STATUS 3 3 = b2n (t.bur.run.isNone && !t.burReady)) ∧
  (∀ s : State, s.shut .service BUR_CTRL = false → s.burStopped = false →
    ∃ t, exec (.burCtrlEnWrite false) s = .next t ∧ t.rdF BUR_CTRL 0 0 = 0 ∧ t.bur.run = none ∧
      t.rdF BUR_STATUS 3 3 = 1) ∧
  (∀ (en : Bool) (s : State), s.shut .service BUR_CTRL = false → s.burStopped = true →
    exec .burCtrlResume s = .next { s with bur := { s.bur with held := s.bur.held ++ [.resume] } } ∧
    exec .burCtrlAbort s = .next { s with bur := { s.bur with held := s.bur.held ++ [.abort] } } ∧
    exec (.burCtrlEnWrite en) s = .next { s with bur := { s.bur with held := s.bur.held ++ [.enable en] } }) ∧
  (∀ s : State, s.burReady = true → s.burFetchOk = false →
    ∃ t, exec .burNop s = .next t ∧ exec (.burFill 0) s = .next t ∧ exec (.burCopy 0) s = .next t ∧
      exec (.burStipple 0) s = .next t ∧ t.bur.run = none ∧ t.rdF BUR_STATUS 1 1 = 1 ∧
      t.rd BUR_HEAD = (s.rdF BUR_HEAD 11 0 + 1) % max 1 s.burSize ∧
      t.rdF BUR_ERR_LAST 19 16 =
        if s.rangeMay clBurin (s.burRing + 32 * s.rdF BUR_HEAD 11 0) 32 then burPoison else burAccess)

/-- R5 to R8, R27, R411, R440: register and memory accesses of the hosts. A write that the address rules or the stage refuse
changes no register and is answered with its status; a writable register takes the value's writable bits; a service port
transaction keeps its status and the words completed, sends the words read, and a word cut short is ALIGN_ERROR. An access
beyond the register space is reported as unmapped and kept in GBL_ADDR_LAST (R27). A command that goes through a register is
turned away while nothing answers or its window does not (R411). R439: the bits of each opcode of Table 17.1, an address most
significant byte first and words least significant byte first, spell that opcode's transaction, and any other opcode is
unknown. -/
def Obligations.HostAccess : Prop :=
  (∀ (who : Requester) (a : BitVec 32) (v : Word) (st : Nat) (s : State), s.deaf = false →
    (who = .service ∨ 2 ≤ s.stageNow) → s.regGate a.toNat = some st →
    ∃ t, exec (.registerWrite who a v) s = .next t ∧ t.acc = (st, 0#32) ∧ t.mem = s.mem ∧
      t.regs = (s.regOutside a.toNat).regs ∧
      (0xFFFFF < a.toNat → t.rd GBL_ADDR_LAST_LO = a.toNat ∧ t.rdF GBL_ADDR_LAST_HI 13 13 = 1)) ∧
  (∀ (who : Requester) (a : BitVec 32) (v : Word) (s : State), s.deaf = true →
    ∃ t, exec (.registerWrite who a v) s = .next t ∧ t.regs = s.regs ∧ t.acc = s.acc) ∧
  (∀ (who : Requester) (a : BitVec 32) (v : Word) (r m : Nat) (s : State), s.deaf = false →
    (who = .service ∨ 2 ≤ s.stageNow) →
    a.toNat ∈ [GBL_IRQ_MASK, GBL_EVT_CTRL, GBL_EVT_DEST] → regInfo a.toNat = some ⟨.rw, r, m⟩ →
    ∃ t, exec (.registerWrite who a v) s = .next t ∧ t.acc = (0, 0#32) ∧
      t.rd a.toNat = (s.rd a.toNat &&& (0xFFFFFFFF ^^^ m)) ||| (v.toNat &&& m)) ∧
  (∀ (a : BitVec 32) (w : Word) (ws : List Word) (cut : Bool) (st : Nat) (s : State), s.deaf = false →
    s.regGate a.toNat = some st →
    ∃ t, exec (.spiRegWrite a (w :: ws) cut) s = .next t ∧ exec (.spiRegWriteFixed a (w :: ws) cut) s = .next t ∧
      t.hst.spiStatus = st ∧ t.hst.spiCount = 0 ∧ t.regs = (s.regOutside a.toNat).regs ∧
      t.out = s.out ++ [.spi st []]) ∧
  (∀ (w x : Word) (cut : Bool) (s : State), s.deaf = false →
    (∃ t, exec (.spiRegWrite (BitVec.ofNat 32 GBL_IRQ_MASK) [w] cut) s = .next t ∧ t.rd GBL_IRQ_MASK = w.toNat ∧
      t.hst.spiStatus = (if cut then 2 else 0) ∧ t.hst.spiCount = 1) ∧
    ∃ t, exec (.spiRegWriteFixed (BitVec.ofNat 32 GBL_IRQ_MASK) [x, w] cut) s = .next t ∧ t.rd GBL_IRQ_MASK = w.toNat ∧
      t.hst.spiStatus = (if cut then 2 else 0) ∧ t.hst.spiCount = 2) ∧
  (∀ (a : BitVec 32) (n : Nat) (cut : Bool) (st : Nat) (s : State), s.deaf = false → s.regGate a.toNat = some st → 0 < n →
    ∃ t, exec (.spiRegRead a n cut) s = .next t ∧ exec (.spiRegReadFixed a n cut) s = .next t ∧ t.hst.spiStatus = st ∧
      t.hst.spiCount = 0 ∧ t.regs = (s.regOutside a.toNat).regs ∧
      t.out = s.out ++ [.spi st (List.replicate n 0#32)]) ∧
  (∀ (cut : Bool) (s : State), s.deaf = false →
    (∃ t, exec (.spiRegRead (BitVec.ofNat 32 GBL_IRQ_MASK) 1 cut) s = .next t ∧ t.hst.spiCount = 1 ∧ t.regs = s.regs ∧
      t.out = s.out ++ [.spi (if cut then 2 else 0) [BitVec.ofNat 32 (s.rd GBL_IRQ_MASK)]]) ∧
    ∃ t, exec (.spiRegReadFixed (BitVec.ofNat 32 GBL_IRQ_MASK) 2 cut) s = .next t ∧ t.hst.spiCount = 2 ∧ t.regs = s.regs ∧
      t.out = s.out ++ [.spi (if cut then 2 else 0) (List.replicate 2 (BitVec.ofNat 32 (s.rd GBL_IRQ_MASK)))]) ∧
  (∀ (a : BitVec 40) (ws : List Word) (n : Nat) (cut : Bool) (late : Option Nat) (s : State), s.deaf = false → a.toNat % 4 ≠ 0 →
    ∃ t u, exec (.spiMemWrite a ws cut) s = .next t ∧ t.hst.spiStatus = 2 ∧ t.hst.spiCount = 0 ∧ t.mem = s.mem ∧
      exec (.spiMemRead a n cut late) s = .next u ∧ u.hst.spiStatus = 2 ∧ u.hst.spiCount = 0 ∧
      u.out = s.out ++ [.spi 2 (List.replicate n 0#32)]) ∧
  (∀ (a : BitVec 40) (w : Word) (s : State), s.deaf = false → a.toNat % 4 = 0 → inGranary a.toNat = false → 3 ≤ s.stageNow →
    s.mapped a.toNat = true → s.inRing a.toNat = false →
    ∃ t u, exec (.spiMemWrite a [w] false) s = .next t ∧ t.mem = (s.memPut a.toNat (toLe 4 w.toNat)).mem ∧
      t.hst.spiStatus = 0 ∧ t.hst.spiCount = 1 ∧
      exec (.spiMemRead a 1 false none) s = .next u ∧ u.mem = s.mem ∧
      u.hst.spiStatus = (if s.poisoned a.toNat then 4 else 0) ∧
      (s.poisoned a.toNat = false → u.out = s.out ++ [.spi 0 [BitVec.ofNat 32 (s.memLe a.toNat 4)]])) ∧
  (∀ (a : BitVec 40) (w : Word) (s : State), s.deaf = false → a.toNat % 4 = 0 → inGranary a.toNat = false → s.stageNow < 3 →
    ∃ t u, exec (.spiMemWrite a [w] false) s = .next t ∧ t.mem = s.mem ∧ t.hst.spiStatus = 5 ∧
      exec (.spiMemRead a 1 false none) s = .next u ∧ u.hst.spiStatus = 5) ∧
  (∀ s : State, s.deaf = false →
    exec .spiStatus s = .next (s.put (.spi s.hst.spiStatus [BitVec.ofNat 32 s.hst.spiCount]))) ∧
  (∀ s : State, s.deaf = false → ∃ t, exec .spiUnknownOpcode s = .next t ∧ t.hst.spiStatus = 9 ∧ t.hst.spiCount = 0 ∧
    (s.quiet = true → t.saw Ev.GBL_SPI_ERROR = true)) ∧
  (∀ (c : Instr) (who : Requester) (a : Nat) (s : State), gateOf c = some (who, a) → s.shut who a = true →
    exec c s = .next (s.turnedAway who a)) ∧
  (∀ (a : BitVec 32) (ws : List Word), decodeSpi (wireBits 1 0x01 ++ wireBits 4 a.toNat ++ wireData ws) = some (.spiRegWrite a ws false) ∧
    decodeSpi (wireBits 1 0x06 ++ wireBits 4 a.toNat ++ wireData ws) = some (.spiRegWriteFixed a ws false)) ∧
  (∀ (a : BitVec 40) (ws : List Word),
    decodeSpi (wireBits 1 0x11 ++ wireBits 5 a.toNat ++ wireData ws) = some (.spiMemWrite a ws false)) ∧
  (∀ (a : BitVec 32) (n : Nat) (m : List Bool), m.length = 64 + 32 * n →
    decodeSpi (wireBits 1 0x03 ++ wireBits 4 a.toNat ++ m) = some (.spiRegRead a n false) ∧
    decodeSpi (wireBits 1 0x07 ++ wireBits 4 a.toNat ++ m) = some (.spiRegReadFixed a n false)) ∧
  (∀ (a : BitVec 40) (n : Nat) (m : List Bool), m.length = 256 + 32 * n →
    decodeSpi (wireBits 1 0x13 ++ wireBits 5 a.toNat ++ m) = some (.spiMemRead a n false none)) ∧
  (∀ (b : Byte) (m : List Bool), decodeSpi (wireBits 1 0x05 ++ m) = some .spiStatus ∧
    (b.toNat ∉ [0x01, 0x03, 0x05, 0x06, 0x07, 0x11, 0x13] → decodeSpi (wireBits 1 b.toNat ++ m) = some .spiUnknownOpcode))

/-- R446, R452, R453, R458: the GLOBAL block. SOFTWARE claims and releases a GPIO, any other holder is refused; the host's
ring index moves only to a record that is present; a read of the lost count clears it; an EVENT message passes at most BATCH
records; the oldest item of the flash log is appended at the write point. -/
def Obligations.GlobalCommands : Prop :=
  (∀ (n : Fin 16) (v : Word) (s : State), s.shut .service (GBL_GPIO_OWN n.val) = false → v.toNat % 2 ^ 16 = fnSoftware →
    (s.mayClaim 1 n fnSoftware = true ∨
      s.outbids 1 n fnSoftware = true) → s.claimsOk = true →
    ∃ t, exec (.gblGpioOwnWrite n v) s = .next t ∧ t.holder 1 n = fnSoftware ∧ t.acc.1 = 0) ∧
  (∀ (n : Fin 16) (v : Word) (s : State), s.shut .service (GBL_GPIO_OWN n.val) = false → v.toNat % 2 ^ 16 = fnSoftware →
    s.mayClaim 1 n fnSoftware = false →
    s.outbids 1 n fnSoftware = false →
    ∃ t, exec (.gblGpioOwnWrite n v) s = .next t ∧ t.fpl.claims = s.fpl.claims ∧ t.acc.1 = 3 ∧
      (s.quiet = true → t.saw Ev.GBL_PIN_BUSY = true)) ∧
  (∀ (n : Fin 16) (v : Word) (s : State), s.shut .service (GBL_GPIO_OWN n.val) = false → v.toNat % 2 ^ 16 = 0 →
    ∃ t, exec (.gblGpioOwnWrite n v) s = .next t ∧ t.holder 1 n ≠ fnSoftware ∧ t.acc.1 = 0 ∧
      ∀ c k, ¬(c = 1 ∧ k = n.val) → t.holder c k = s.holder c k) ∧
  (∀ (n : Fin 16) (v : Word) (s : State), s.shut .service (GBL_GPIO_OWN n.val) = false → v.toNat % 2 ^ 16 ≠ fnSoftware →
    v.toNat % 2 ^ 16 ≠ 0 →
    ∃ t, exec (.gblGpioOwnWrite n v) s = .next t ∧ t.fpl.claims = s.fpl.claims ∧ t.acc.1 = 3) ∧
  (∀ (v : Word) (s : State), s.shut .service GBL_EVQ_RD = false → s.evPresent (v.toNat % ringSize) = true →
    ∃ t, exec (.gblEvqRdWrite v) s = .next t ∧ t.rd GBL_EVQ_RD = v.toNat % ringSize ∧
      t.ev.hostUnread = (s.rd GBL_EVQ_WR + ringSize - v.toNat % ringSize) % ringSize) ∧
  (∀ (v : Word) (s : State), s.shut .service GBL_EVQ_RD = false → s.evPresent (v.toNat % ringSize) = false →
    exec (.gblEvqRdWrite v) s = .next s) ∧
  (∀ s : State, s.shut .service GBL_EVQ_LOST = false → ∃ t, exec .gblEvqLostRead s = .next t ∧
    t.acc = (0, BitVec.ofNat 32 (s.rd GBL_EVQ_LOST)) ∧
    t.rd GBL_EVQ_LOST = 0) ∧
  (∀ s : State, s.rdF GBL_EVT_CTRL 0 0 = 0 ∨ s.stageNow < 2 → exec .eventMessageSend s = .next s) ∧
  (∀ s : State, s.rdF GBL_EVT_CTRL 0 0 = 1 → s.rdF GBL_EVT_CTRL 1 1 = 0 → 2 ≤ s.stageNow →
    s.rdF LNK_STATUS 16 16 = 0 → s.ev.sndUnread ≠ 0 →
    ∃ t, exec .eventMessageSend s = .next t ∧ t.ev.sndUnread = s.ev.sndUnread - min s.evBatch s.ev.sndUnread ∧
      t.ev.sndLost = 0 ∧ t.ev.sndOverflow = false) ∧
  (∀ (f : Bool) (s : State), s.stageNow < 2 → exec (.flashLogAppend f) s = .next s) ∧
  (∀ (x : LogItem) (l : List LogItem) (s : State), s.ev.flashPend = x :: l → 2 ≤ s.stageNow →
    ∃ t, exec (.flashLogAppend false) s = .next t ∧ t.ev.flashPend = l ∧
      (∀ i q, s.logPoint = (some i, q) → i % 1024 ≠ 0 →
        t.logAt i = logBytes x.payload.1 q (s.lifetime 1 % 2 ^ 32) x.payload.2))

/-- R448: who holds the mailbox. A claim succeeds when it is free and has no effect while another requester holds it; the holder
releases it, or 10 s without an access do, and a command that runs goes on; while it is held the writes of others to the
command, argument and buffer registers are answered ACCESS_DENIED and change nothing. -/
def Obligations.MailboxOwner : Prop :=
  (∀ (who : Requester) (s : State), s.shut who UPD_MBX_OWNER = false → s.hst.owner = none →
    exec (.mbxClaim who) s = .next ({ s with hst := { s.hst with owner := some who } }.result 0 0)) ∧
  (∀ (who : Requester) (s : State), s.shut who UPD_MBX_OWNER = false → s.hst.owner ≠ none →
    ∃ t, exec (.mbxClaim who) s = .next t ∧ t.hst = s.hst ∧
    t.mbxOwnerReg = s.mbxOwnerReg) ∧
  (∀ (who : Requester) (s : State), s.shut who UPD_MBX_OWNER = false → s.hst.owner = some who →
    ∃ t, exec (.mbxRelease who) s = .next t ∧ t.hst = { s.hst with owner := none }) ∧
  (∀ (who : Requester) (s : State), s.shut who UPD_MBX_OWNER = false → s.hst.owner ≠ some who →
    ∃ t, exec (.mbxRelease who) s = .next t ∧ t.hst = s.hst) ∧
  (∀ s : State, exec .mbxIdleRelease s = .next { s with hst := { s.hst with owner := none } }) ∧
  (∀ (who : Requester) (a : BitVec 32) (v : Word) (s : State), s.mbxDenied who = true → s.deaf = false →
    (who = .service ∨ 2 ≤ s.stageNow) → a.toNat % 4 = 0 →
    (a.toNat = UPD_MBX_CMD ∨ UPD_MBX_ARG 0 ≤ a.toNat ∧ a.toNat ≤ UPD_MBX_ARG 7 ∨
      UPD_MBX_BUF ≤ a.toNat ∧ a.toNat < UPD_MBX_BUF + 3840) →
    ∃ t, exec (.registerWrite who a v) s = .next t ∧ t.acc.1 = 3 ∧ t.hst = s.hst ∧ t.regs = s.regs) ∧
  (∀ (who : Requester) (a : BitVec 32) (v : Word) (s : State), s.mbxDenied who = false → s.deaf = false →
    (who = .service ∨ 2 ≤ s.stageNow) → a.toNat % 4 = 0 → UPD_MBX_BUF ≤ a.toNat → a.toNat < UPD_MBX_BUF + 3840 →
    ∃ t, exec (.registerWrite who a v) s = .next t ∧ t.acc.1 = 0 ∧
      t.mbxBytes (a.toNat - UPD_MBX_BUF) 4 = toLe 4 v.toNat)

/-- R449, R450, R456: the commands of the mailbox. A requester that does not hold it is denied, and a command that runs keeps
it busy; each command ends with DONE, its status and what it returns, INVALID for arguments out of range, or waits for the
stores that it asked for. -/
def Obligations.MailboxCommands : Prop :=
  (∀ (who : Requester) (c : Instr) (irq f : Bool) (s : State),
    c ∈ [.mbxIdentify who irq, .mbxShutdown who irq, .mbxStore who irq, .mbxFlashRead who irq, .mbxPlanWrite who irq f,
      .mbxPlanSelect who irq, .mbxFeatureEnable who irq, .mbxFeatureDisable who irq, .mbxThrJob who irq,
      .mbxSelftest who irq, .mbxLogRead who irq, .mbxLogExport who irq, .mbxDiagCapture who irq, .mbxCalWrite who irq f,
      .mbxClearLog who irq] → s.shut who UPD_MBX_CMD = false → s.mbxDenied who = true ∨ s.hst.running.isSome = true →
    ∃ t, exec c s = .next t ∧ t.acc.1 = (if s.mbxDenied who then 3 else 5) ∧ t.hst = s.hst ∧ t.regs = s.regs) ∧
  (∀ (who : Requester) (irq : Bool) (s : State), s.shut who UPD_MBX_CMD = false → s.mbxReady who 0x01 2 = true →
    ∃ t, exec (.mbxIdentify who irq) s = .next t ∧ t.mbxEnded 0 0 = true ∧ t.rd (UPD_MBX_RES 0) = fusedId % 2 ^ 32 ∧
      t.rd (UPD_MBX_RES 1) = fusedId / 2 ^ 32 ∧ t.rd (UPD_MBX_RES 2) = s.rd GBL_ID ∧
      (irq = true → t.rdF GBL_IRQ_STATUS 18 18 = 1) ∧ (s.quiet = true → t.rdF UPD_MBX_EVENT_STATUS 0 0 = 1)) ∧
  (∀ (who : Requester) (irq : Bool) (s : State), s.shut who UPD_MBX_CMD = false → s.mbxReady who 0x02 2 = true →
    s.mbxArg 0 ≠ 0x7440 →
    ∃ t, exec (.mbxShutdown who irq) s = .next t ∧ t.mbxEnded 6 0 = true ∧ t.supState = s.supState) ∧
  (∀ (who : Requester) (irq : Bool) (s : State), s.shut who UPD_MBX_CMD = false → s.mbxReady who 0x02 2 = true →
    s.mbxArg 0 = 0x7440 → s.sbk.final = false →
    s.supState = supOn → s.etc.seq ≠ .pfail →
    ∃ t, exec (.mbxShutdown who irq) s = .next t ∧ t.hst.running = some (2, irq) ∧ t.rd UPD_MBX_STATUS = 2 ^ 9 ∧
      t.supState = supDown ∧ t.etc.after = .shutdown) ∧
  (∀ (who : Requester) (irq : Bool) (s : State), s.shut who UPD_MBX_CMD = false → s.mbxReady who 0x03 2 = true →
    s.sramRefused = false →
    s.sbk.tripped = false →
    ∃ t, exec (.mbxStore who irq) s = .next t ∧ t.hst.running = some (3, irq) ∧ t.rd UPD_MBX_STATUS = 2 ^ 9 ∧
      t.hst.stores = if s.sbk.store.isSome then 2 else 1) ∧
  (∀ (who : Requester) (irq : Bool) (s : State), s.shut who UPD_MBX_CMD = false → s.mbxReady who 0x03 2 = true →
    s.sbk.final = true →
    ∃ t, exec (.mbxStore who irq) s = .next t ∧ t.mbxEnded 5 0 = true) ∧
  (∀ (who : Requester) (irq : Bool) (s : State), s.shut who UPD_MBX_CMD = false → s.mbxReady who 0x04 2 = true →
    s.mbxArg 0 ≤ 1 → 4 ≤ s.mbxArg 2 →
    s.mbxArg 2 ≤ 3840 → s.mbxArg 2 % 4 = 0 → s.mbxArg 1 + s.mbxArg 2 ≤ flashSize →
    (s.mbxArg 0 = 0 → s.mbxArg 1 + s.mbxArg 2 ≤ flashReservedAt) →
    ∃ t, exec (.mbxFlashRead who irq) s = .next t ∧ t.mbxEnded 0 (s.mbxArg 2) = true ∧
      t.mbxBytes 0 (s.mbxArg 2) = s.flashGet (s.mbxArg 0) (s.mbxArg 1) (s.mbxArg 2)) ∧
  (∀ (who : Requester) (irq : Bool) (s : State), s.shut who UPD_MBX_CMD = false → s.mbxReady who 0x04 2 = true →
    (1 < s.mbxArg 0 ∨ s.mbxArg 2 < 4 ∨ 3840 < s.mbxArg 2 ∨ s.mbxArg 2 % 4 ≠ 0) →
    ∃ t, exec (.mbxFlashRead who irq) s = .next t ∧ t.mbxEnded 6 0 = true ∧ t.hst.buf = s.hst.buf) ∧
  (∀ (who : Requester) (irq : Bool) (s : State), s.shut who UPD_MBX_CMD = false → s.mbxReady who 0x05 3 = true →
    s.mbxArg 0 ≤ 7 → s.mbxArg 3 % 64 = 0 →
    s.mbxArg 3 ≤ 4194304 → inGranary (s.mbxArg 1 + s.mbxArg 2 % 256 * 2 ^ 32) = false →
    ∃ t, exec (.mbxPlanWrite who irq false) s = .next t ∧
      match (s.stewardRead (s.mbxArg 1 + s.mbxArg 2 % 256 * 2 ^ 32) (s.mbxArg 3)).2 with
      | some b => t.mbxEnded 0 0 = true ∧ t.flashGet 0 (planSlotAt (s.mbxArg 0)) (s.mbxArg 3) = b
      | none => t.mbxEnded 8 0 = true ∧ t.rd (UPD_MBX_RES 0) = Ev.GBL_ADDR_UNMAPPED ∧ t.flash0 = s.flash0) ∧
  (∀ (who : Requester) (irq : Bool) (s : State), s.shut who UPD_MBX_CMD = false → s.mbxReady who 0x06 2 = true →
    (s.mbxArg 0 ≤ 7 ∨ s.mbxArg 0 = 0xFF) →
    s.sramFree = true → s.sbk.tripped = false →
    ∃ t, exec (.mbxPlanSelect who irq) s = .next t ∧ t.hst.running = some (6, irq) ∧ t.act 28 1 = s.mbxArg 0) ∧
  (∀ (who : Requester) (irq : Bool) (s : State), s.shut who UPD_MBX_CMD = false → s.mbxReady who 0x06 2 = true →
    7 < s.mbxArg 0 → s.mbxArg 0 ≠ 0xFF →
    ∃ t, exec (.mbxPlanSelect who irq) s = .next t ∧ t.mbxEnded 6 0 = true ∧ t.sbk = s.sbk) ∧
  (∀ (who : Requester) (irq : Bool) (s : State), s.shut who UPD_MBX_CMD = false → s.mbxReady who 0x07 2 = true → s.claimsOk = true →
    claimArgOk (fld (s.mbxArg 1) 7 0) (fld (s.mbxArg 1) 15 8) = true → s.mbxArg 0 ≠ 0 → s.mbxArg 0 < 2 ^ 16 →
    ¬(fld (s.mbxArg 1) 7 0 = 1 ∧ 0x106 ≤ s.mbxArg 0 ∧ s.mbxArg 0 ≤ 0x1FF) →
    ∃ t, exec (.mbxFeatureEnable who irq) s = .next t ∧
      if s.mayClaim (fld (s.mbxArg 1) 7 0) (fld (s.mbxArg 1) 15 8) (s.mbxArg 0) ∨
          s.outbids (fld (s.mbxArg 1) 7 0) (fld (s.mbxArg 1) 15 8) (s.mbxArg 0) then
        t.mbxEnded 0 0 = true ∧ t.holder (fld (s.mbxArg 1) 7 0) (fld (s.mbxArg 1) 15 8) = s.mbxArg 0
      else t.mbxEnded 8 0 = true ∧ t.rd (UPD_MBX_RES 0) = busyEvent (fld (s.mbxArg 1) 7 0) ∧ t.fpl.claims = s.fpl.claims) ∧
  (∀ (who : Requester) (irq : Bool) (s : State), s.shut who UPD_MBX_CMD = false → s.mbxReady who 0x08 2 = true → s.mbxArg 0 ≠ 0 →
    claimArgOk (fld (s.mbxArg 1) 7 0) (fld (s.mbxArg 1) 15 8) = true →
    ∃ t, exec (.mbxFeatureDisable who irq) s = .next t ∧ t.mbxEnded 0 0 = true ∧
      t.holder (fld (s.mbxArg 1) 7 0) (fld (s.mbxArg 1) 15 8) ≠ s.mbxArg 0) ∧
  (∀ (who : Requester) (irq : Bool) (s : State), s.shut who UPD_MBX_CMD = false → s.mbxReady who 0x09 3 = true → s.mbxArg 0 ≠ 0 →
    s.mbxArg 0 < 2 ^ 16 → ringSizeOk s.jobRingSize = true →
    (s.rdF THR_JOB_TAIL 9 0 + 1) % s.jobRingSize ≠ s.rd THR_JOB_HEAD →
    s.rangeMay 0x0B (s.jobRing + 64 * s.rdF THR_JOB_TAIL 9 0) 64 = true →
    ∃ t, exec (.mbxThrJob who irq) s = .next t ∧ t.mbxEnded 0 0 = true ∧
      t.rd (UPD_MBX_RES 0) = s.rdF THR_JOB_TAIL 9 0 ∧
      t.rd THR_JOB_TAIL = (s.rdF THR_JOB_TAIL 9 0 + 1) % s.jobRingSize) ∧
  (∀ (who : Requester) (irq : Bool) (s : State), s.shut who UPD_MBX_CMD = false → s.mbxReady who 0x09 3 = true → s.mbxArg 0 ≠ 0 →
    s.mbxArg 0 < 2 ^ 16 → (ringSizeOk s.jobRingSize = false ∨ (s.rdF THR_JOB_TAIL 9 0 + 1) % s.jobRingSize = s.rd THR_JOB_HEAD ∨
      s.rangeMay 0x0B (s.jobRing + 64 * s.rdF THR_JOB_TAIL 9 0) 64 = false) →
    ∃ t, exec (.mbxThrJob who irq) s = .next t ∧ t.mbxEnded 5 0 = true ∧ t.mem = s.mem) ∧
  (∀ (who : Requester) (irq : Bool) (s : State), s.shut who UPD_MBX_CMD = false → s.mbxReady who 0x09 3 = true →
    (s.mbxArg 0 = 0 ∨ 2 ^ 16 ≤ s.mbxArg 0) →
    ∃ t, exec (.mbxThrJob who irq) s = .next t ∧ t.mbxEnded 6 0 = true ∧ t.mem = s.mem ∧ t.thr = s.thr) ∧
  (∀ (who : Requester) (irq : Bool) (s : State), s.shut who UPD_MBX_CMD = false → s.mbxReady who 0x0A 3 = true → s.tests = [] →
    (s.mbxArg 0 = 1 ∧ s.mbxArg 1 < 16384 ∨ s.mbxArg 0 = 3 ∧ s.mbxArg 1 < 50 ∨ s.mbxArg 0 = 4 ∧ s.mbxArg 1 < 216 ∨
      s.mbxArg 0 = 5 ∧ s.mbxArg 1 < 24 ∨
      s.mbxArg 0 = 2 ∧ s.mbxArg 1 < 2 ^ 25 ∧ fld (s.mbxArg 1) 24 8 < s.dramRows) →
    ∃ t, exec (.mbxSelftest who irq) s = .next t ∧ t.mbxEnded 0 0 = true ∧
      t.tests = [⟨s.mbxArg 0, s.mbxArg 1, false⟩]) ∧
  (∀ (who : Requester) (irq : Bool) (s : State), s.shut who UPD_MBX_CMD = false → s.mbxReady who 0x0A 3 = true →
    (s.mbxArg 0 = 0 ∨ 5 < s.mbxArg 0) →
    ∃ t, exec (.mbxSelftest who irq) s = .next t ∧ t.mbxEnded 6 0 = true ∧ t.tests = s.tests) ∧
  (∀ (who : Requester) (irq : Bool) (s : State), s.shut who UPD_MBX_CMD = false → s.mbxReady who 0x0B 2 = true →
    s.mbxArg 0 = 0 → s.mbxArg 2 ≤ 32 →
    s.mbxArg 1 + s.mbxArg 2 ≤ 32 → s.sbk.ready = true →
    ∃ t, exec (.mbxLogRead who irq) s = .next t ∧ t.mbxEnded 0 (32 * s.mbxArg 2) = true ∧
      t.mbxBytes 0 (32 * s.mbxArg 2) = s.sramBytes (0x800 + 32 * s.mbxArg 1) (32 * s.mbxArg 2)) ∧
  (∀ (who : Requester) (irq : Bool) (s : State), s.shut who UPD_MBX_CMD = false → s.mbxReady who 0x0B 2 = true → s.mbxArg 0 = 0 →
    s.mbxArg 2 ≤ 32 → s.mbxArg 1 + s.mbxArg 2 ≤ 32 → s.sbk.ready = false →
    ∃ t, exec (.mbxLogRead who irq) s = .next t ∧ t.mbxEnded 5 0 = true ∧ t.hst.buf = s.hst.buf ∧
      (s.quiet = true → t.saw Ev.SBK_NOT_READY = true)) ∧
  (∀ (who : Requester) (irq : Bool) (s : State), s.shut who UPD_MBX_CMD = false → s.mbxReady who 0x0B 2 = true →
    s.mbxArg 0 = 1 → s.mbxArg 2 ≤ 60 →
    ∃ t, exec (.mbxLogRead who irq) s = .next t ∧
      t.mbxEnded 0 ((s.logFrom (s.mbxArg 1)).take (s.mbxArg 2)).flatten.length = true ∧
      t.mbxBytes 0 ((s.logFrom (s.mbxArg 1)).take (s.mbxArg 2)).flatten.length =
        ((s.logFrom (s.mbxArg 1)).take (s.mbxArg 2)).flatten) ∧
  (∀ (who : Requester) (irq : Bool) (s : State), s.shut who UPD_MBX_CMD = false → s.mbxReady who 0x0C 3 = true →
    ∃ t, exec (.mbxLogExport who irq) s = .next t ∧
      if s.mayClaim 2 (s.featurePipe 3) 3 ∨ s.outbids 2 (s.featurePipe 3) 3 then t.mbxEnded 0 0 = true ∧
      t.holder 2 (s.featurePipe 3) ≠ 3
      else t.mbxEnded 8 0 = true ∧ t.rd (UPD_MBX_RES 0) = Ev.THR_PIPE_BUSY) ∧
  (∀ (who : Requester) (irq : Bool) (s : State), s.shut who UPD_MBX_CMD = false → s.mbxReady who 0x0D 5 = true →
    s.plateRec (s.mbxArg 0) = none →
    ∃ t, exec (.mbxDiagCapture who irq) s = .next t ∧ t.mbxEnded 6 0 = true) ∧
  (∀ (who : Requester) (irq : Bool) (r : PlateRec) (s : State), s.shut who UPD_MBX_CMD = false → s.mbxReady who 0x0D 5 = true →
    s.plateRec (s.mbxArg 0) = some r →
    ∃ t, exec (.mbxDiagCapture who irq) s = .next t ∧ (t.mbxEnded 0 0 = true ∨ t.mbxEnded 8 0 = true) ∧
      (t.mbxEnded 0 0 = true → (s.mayClaim 2 (s.featurePipe 2) 2 = true ∨ s.outbids 2 (s.featurePipe 2) 2 = true) ∧
        t.rd (UPD_MBX_RES 0) ≤ s.mbxArg 3) ∧
      (t.mbxEnded 8 0 = true → t.mem = s.mem)) ∧
  (∀ (who : Requester) (irq : Bool) (s : State), s.shut who UPD_MBX_CMD = false → s.mbxReady who 0x0E 3 = true →
    (1 < s.mbxArg 0 ∨ inGranary (s.mbxArg 1 + s.mbxArg 2 % 256 * 2 ^ 32) = true) →
    ∃ t, exec (.mbxCalWrite who irq false) s = .next t ∧ t.mbxEnded 6 0 = true ∧ t.flash0 = s.flash0) ∧
  (∀ (who : Requester) (irq : Bool) (s : State), s.shut who UPD_MBX_CMD = false → s.mbxReady who 0x0E 3 = true →
    s.mbxArg 0 = 1 → s.mode ≠ modeTest →
    inGranary (s.mbxArg 1 + s.mbxArg 2 % 256 * 2 ^ 32) = false →
    ∃ t, exec (.mbxCalWrite who irq false) s = .next t ∧ t.mbxEnded 3 0 = true ∧ t.flash0 = s.flash0) ∧
  (∀ (who : Requester) (irq : Bool) (k : Nat) (s : State), s.shut who UPD_MBX_CMD = false → s.mbxReady who 0x0E 3 = true →
    (s.mbxArg 0 = 0 ∧ k = kindCurrent ∨ s.mbxArg 0 = 1 ∧ s.mode = modeTest ∧ k = kindFactory) →
    inGranary (s.mbxArg 1 + s.mbxArg 2 % 256 * 2 ^ 32) = false →
    ∃ t, exec (.mbxCalWrite who irq false) s = .next t ∧
      match (s.stewardRead (s.mbxArg 1 + s.mbxArg 2 % 256 * 2 ^ 32) hglImageLen).2 with
      | some b => if hglImageOk b k then t.mbxEnded 0 0 = true ∧ t.flashGet 0 (imageAt k) hglImageLen = b
          else t.mbxEnded 8 0 = true ∧ t.flash0 = s.flash0
      | none => t.mbxEnded 8 0 = true ∧ t.rd (UPD_MBX_RES 0) = Ev.GBL_ADDR_UNMAPPED ∧ t.flash0 = s.flash0) ∧
  (∀ (who : Requester) (irq : Bool) (s : State), s.shut who UPD_MBX_CMD = false → s.mbxReady who 0x0F 2 = true →
    s.writeOpen = false →
    ∃ t, exec (.mbxClearLog who irq) s = .next t ∧ t.mbxEnded 3 0 = true ∧ t.sbk.sram = s.sbk.sram) ∧
  (∀ (who : Requester) (irq : Bool) (s : State), s.shut who UPD_MBX_CMD = false → s.mbxReady who 0x0F 2 = true →
    s.writeOpen = true → s.sramFree = true →
    ∃ t, exec (.mbxClearLog who irq) s = .next t ∧ t.mbxEnded 0 0 = true ∧
      t.sramBytes 0x800 1024 = List.replicate 1024 0#8)

/-- R84: an access to a RETIRED plot is not performed: it stores nothing, returns no data and is answered with an error, ADDR_ERROR
from the bank, and it is reported with its requester. (An engine that the wheel of the plot's bank never names waits, log entry
243.) -/
def Obligations.RetiredAccess : Prop :=
  ∀ (req : GrnReq) (p : Fin 16384) (l o : Fin 64) (n : Nat) (d : Option Bytes) (w : Bool) (e : GrnErr) (rivals : List GrnReq)
    (s : State), s.grnOpen = true → (s.plot p).state = 3 →
    ∃ t, exec (.granaryAccess req p l o n d w e rivals) s = .next t ∧ t.acc.1 ≠ 0 ∧ t.accBytes = [] ∧ t.mem = s.mem ∧
      t.poison = s.poison ∧ (∀ m, t.plot m = s.plot m) ∧ (s.bankServes req (s.physOf p % 32) = true → t.acc.1 = 1 ∧
      (s.quiet = true → t.saw Ev.GRN_RETIRED_ACCESS = true ∧ (s.ev.ringOn = true →
        (t.evRec (s.rd GBL_EVQ_WR)).code = Ev.GRN_RETIRED_ACCESS ∧ (t.evRec (s.rd GBL_EVQ_WR)).arg0 = reqClient req)))

/-- R363: a sensor that has gone 500 ms without a conversion at stage S5 is marked STALE and reported once; its reading counts
as before; its next valid conversion clears STALE. -/
def Obligations.StaleSensor : Prop :=
  (∀ (n : Fin 24) (s : State), s.stageNow = 5 → (s.sensor n).stale = false →
    ∃ t, exec (.thmSensorStale n) s = .next t ∧ t.sensor n = { s.sensor n with stale := true } ∧
      (∀ k, t.contribution k = s.contribution k) ∧ (s.quiet = true → t.saw Ev.THM_SENSOR_STALE = true)) ∧
  (∀ (n : Fin 24) (s : State), (s.sensor n).stale = true → exec (.thmSensorStale n) s = .next s) ∧
  (∀ (n : Fin 24) (v : Int) (s : State), (s.sensor n).failed = false → -40 * 256 ≤ v → v ≤ 150 * 256 →
    ((s.sensor n).has = false ∨ (v - (s.sensor n).temp) * (cyclesPerMs : Int) ≤
      (20 * 256 : Int) * ((max cyclesPerMs (s.now - (s.sensor n).time) : Nat) : Int)) →
    ∃ t, exec (.thmConversionResult n v) s = .next t ∧ (t.sensor n).stale = false)
end

