-- ==== Sys2Proof/Laws/Bits.lean ====
section
/-! SUPPORT. Fields of a value read back after one field is replaced. -/
namespace Sys2Proof.Machine

theorem putFld_eq {x hi lo v : Nat} (h : lo ≤ hi) :
    putFld x hi lo v = x / 2 ^ (hi + 1) * 2 ^ (hi + 1) + v % 2 ^ (hi + 1 - lo) * 2 ^ lo + x % 2 ^ lo := by
  have h1 : 2 ^ (hi + 1) = 2 ^ lo * 2 ^ (hi + 1 - lo) := by rw [← Nat.pow_add]; congr 1; omega
  have h2 : x / 2 ^ lo / 2 ^ (hi + 1 - lo) = x / 2 ^ (hi + 1) := by rw [Nat.div_div_eq_div_mul, ← h1]
  have h3 := Nat.div_add_mod (x / 2 ^ lo) (2 ^ (hi + 1 - lo))
  have h4 := Nat.div_add_mod x (2 ^ lo)
  rw [h2] at h3
  unfold putFld fld
  have h5 : x = x / 2 ^ (hi + 1) * 2 ^ (hi + 1) + x / 2 ^ lo % 2 ^ (hi + 1 - lo) * 2 ^ lo + x % 2 ^ lo := by
    conv_lhs => rw [← h4, ← h3]
    rw [h1]; ring
  omega

theorem testBit_fld (x hi lo i : Nat) : (fld x hi lo).testBit i = (decide (i < hi + 1 - lo) && x.testBit (lo + i)) := by
  simp [fld, Nat.testBit_mod_two_pow, Nat.testBit_div_two_pow, Nat.add_comm]

/-- Bit `i` of a value whose field was replaced. -/
theorem testBit_putFld {hi lo : Nat} (h : lo ≤ hi) (x v i : Nat) :
    (putFld x hi lo v).testBit i = if i < lo ∨ hi < i then x.testBit i else v.testBit (i - lo) := by
  have h1 : 2 ^ (hi + 1) = 2 ^ (hi + 1 - lo) * 2 ^ lo := by rw [← Nat.pow_add]; congr 1; omega
  have hl : x % 2 ^ lo < 2 ^ lo := Nat.mod_lt _ (Nat.two_pow_pos _)
  have hv : v % 2 ^ (hi + 1 - lo) < 2 ^ (hi + 1 - lo) := Nat.mod_lt _ (Nat.two_pow_pos _)
  have hm : v % 2 ^ (hi + 1 - lo) * 2 ^ lo + x % 2 ^ lo < 2 ^ (hi + 1) := by
    have := Nat.mul_le_mul_right (2 ^ lo) (Nat.succ_le_of_lt hv)
    rw [Nat.succ_mul] at this
    omega
  rw [putFld_eq h, Nat.add_assoc, Nat.mul_comm, Nat.testBit_two_pow_mul_add _ hm]
  by_cases hi' : i < hi + 1
  · rw [if_pos hi', Nat.mul_comm, Nat.testBit_two_pow_mul_add _ hl]
    by_cases hlo : i < lo
    · simp [hlo, Nat.testBit_mod_two_pow]
    · rw [if_neg hlo, if_neg (by omega), Nat.testBit_mod_two_pow]
      simp; omega
  · rw [if_neg hi', if_pos (by omega), Nat.testBit_div_two_pow]
    congr 1; omega

theorem fld_putFld_self {hi lo : Nat} (h : lo ≤ hi) (x v : Nat) : fld (putFld x hi lo v) hi lo = v % 2 ^ (hi + 1 - lo) := by
  apply Nat.eq_of_testBit_eq
  intro i
  rw [testBit_fld, testBit_putFld h, Nat.testBit_mod_two_pow]
  by_cases hi' : i < hi + 1 - lo
  · rw [if_neg (by omega)]; simp [hi']
  · simp [hi']

theorem fld_putFld_of_disjoint {hi lo a b : Nat} (h : lo ≤ hi) (x v : Nat) (hd : a < lo ∨ hi < b) :
    fld (putFld x hi lo v) a b = fld x a b := by
  apply Nat.eq_of_testBit_eq
  intro i
  rw [testBit_fld, testBit_fld, testBit_putFld h]
  by_cases hi' : i < a + 1 - b
  · rw [if_pos (by omega)]
  · simp [hi']

theorem putFld_lt {x hi lo v : Nat} (h : lo ≤ hi) (hh : hi < 32) (hx : x < 2 ^ 32) : putFld x hi lo v < 2 ^ 32 := by
  apply Nat.lt_pow_two_of_testBit
  intro i hi'
  rw [testBit_putFld h, if_pos (by omega)]
  exact Nat.testBit_lt_two_pow (hx.trans_le (Nat.pow_le_pow_right (by decide) hi'))

theorem fld_lt (x hi lo : Nat) : fld x hi lo < 2 ^ (hi + 1 - lo) := Nat.mod_lt _ (Nat.two_pow_pos _)
end Sys2Proof.Machine
end

