-- ==== Sys2Proof/Laws/Sparse.lean ====
section
/-! SUPPORT. The laws of sparse maps: a read after a write, and the canonical form kept by every operation. -/
namespace Sys2Proof.Machine

variable {α : Type}

/-! ### Reads after writes -/

@[simp] theorem sget_nil (d : α) (k : Nat) : sget d [] k = d := rfl

theorem sget_sdel_self (d : α) (m : List (Nat × α)) (k : Nat) : sget d (sdel k m) k = d := by
  induction m with
  | nil => rfl
  | cons e t ih =>
    obtain ⟨j, w⟩ := e
    by_cases hj : j = k <;> simp [sdel, sget, hj, ih]

theorem sget_sdel_of_ne (d : α) (m : List (Nat × α)) {k j : Nat} (h : j ≠ k) : sget d (sdel k m) j = sget d m j := by
  induction m with
  | nil => rfl
  | cons e t ih =>
    obtain ⟨i, w⟩ := e
    by_cases hi : i = k
    · have : i ≠ j := fun hij => h (hij.symm.trans hi)
      simp [sdel, sget, hi, ih, hi ▸ this]
    · by_cases hij : i = j <;> simp [sdel, sget, hi, hij, ih, h]

theorem sget_sins_sdel (d v : α) (m : List (Nat × α)) (k : Nat) : sget d (sins k v (sdel k m)) k = v := by
  induction m with
  | nil => simp [sdel, sins, sget]
  | cons e t ih =>
    obtain ⟨j, w⟩ := e
    by_cases hj : j = k
    · simpa [sdel, hj] using ih
    · by_cases hk : k < j <;> simp [sdel, sins, sget, hj, hk, ih]

theorem sget_sins_of_ne (d v : α) (m : List (Nat × α)) {k j : Nat} (h : j ≠ k) : sget d (sins k v m) j = sget d m j := by
  induction m with
  | nil => simp [sins, sget, h.symm]
  | cons e t ih =>
    obtain ⟨i, w⟩ := e
    by_cases hk : k < i
    · simp [sins, sget, hk, h.symm]
    · by_cases hij : i = j
      · subst hij
        simp [sins, sget, hk]
      · simp [sins, sget, hk, hij, ih]

theorem sdel_eq_filter (k : Nat) (m : List (Nat × α)) : sdel k m = m.filter (fun e => !decide (e.1 = k)) := by
  induction m with
  | nil => rfl
  | cons e t ih =>
    obtain ⟨j, v⟩ := e
    by_cases hj : j = k <;> simp [sdel, List.filter, hj, ih]

variable [DecidableEq α]

@[simp] theorem sget_sset_self (d : α) (m : List (Nat × α)) (k : Nat) (v : α) : sget d (sset d m k v) k = v := by
  by_cases h : v = d
  · simp [sset, h, sget_sdel_self]
  · simp [sset, h, sget_sins_sdel]

theorem sget_sset_of_ne (d e : α) (m : List (Nat × α)) {k j : Nat} (v : α) (h : j ≠ k) :
    sget e (sset d m k v) j = sget e m j := by
  by_cases hv : v = d <;> simp [sset, hv, sget_sins_of_ne _ _ _ h, sget_sdel_of_ne _ _ h]

theorem sget_sset (d : α) (m : List (Nat × α)) (k j : Nat) (v : α) :
    sget d (sset d m k v) j = if j = k then v else sget d m j := by
  by_cases h : j = k
  · simp [h]
  · simp [h, sget_sset_of_ne]

@[simp] theorem sget_smod_self (d : α) (m : List (Nat × α)) (k : Nat) (f : α → α) :
    sget d (smod d m k f) k = f (sget d m k) := sget_sset_self d m k _

theorem sget_smod_of_ne (d : α) (m : List (Nat × α)) {k j : Nat} (f : α → α) (h : j ≠ k) :
    sget d (smod d m k f) j = sget d m j := sget_sset_of_ne d d m _ h

/-! ### The canonical form -/

variable {d : Nat → α}

theorem swfFrom_mono {m : List (Nat × α)} {lo lo' : Nat} (h : lo ≤ lo') (hm : swfFrom d lo' m = true) :
    swfFrom d lo m = true := by
  cases m with
  | nil => rfl
  | cons e t =>
    obtain ⟨j, v⟩ := e
    simp only [swfFrom, Bool.and_eq_true, decide_eq_true_eq] at hm ⊢
    exact ⟨⟨h.trans hm.1.1, hm.1.2⟩, hm.2⟩

theorem swfFrom_filter {m : List (Nat × α)} (p : Nat × α → Bool) :
    ∀ {lo : Nat}, swfFrom d lo m = true → swfFrom d lo (m.filter p) = true := by
  induction m with
  | nil => intro lo h; simp [swfFrom]
  | cons e t ih =>
    obtain ⟨j, v⟩ := e
    intro lo h
    simp only [swfFrom, Bool.and_eq_true, decide_eq_true_eq] at h
    by_cases hp : p (j, v) = true
    · simp [List.filter, hp, swfFrom, h.1.1, h.1.2, ih h.2]
    · simp only [List.filter, hp]
      exact swfFrom_mono (by omega) (ih h.2)

theorem swfFrom_sdel {m : List (Nat × α)} (k : Nat) {lo : Nat} (h : swfFrom d lo m = true) :
    swfFrom d lo (sdel k m) = true := by
  rw [sdel_eq_filter]
  exact swfFrom_filter _ h

/-- An entry put in keeps the canonical form when no entry of its key is there. -/
theorem swfFrom_sins {m : List (Nat × α)} {k : Nat} {v : α} (hv : v ≠ d k) :
    ∀ {lo : Nat}, lo ≤ k → (∀ e ∈ m, e.1 ≠ k) → swfFrom d lo m = true → swfFrom d lo (sins k v m) = true := by
  induction m with
  | nil => intro lo hk _ _; simp [sins, swfFrom, hk, hv]
  | cons e t ih =>
    obtain ⟨j, w⟩ := e
    intro lo hk hne h
    simp only [swfFrom, Bool.and_eq_true, decide_eq_true_eq] at h
    have hj : j ≠ k := hne (j, w) (by simp)
    by_cases hkj : k < j
    · simp [sins, hkj, swfFrom, hk, hv, h.1.2, h.2]
    · simp only [sins, hkj, if_false, swfFrom, Bool.and_eq_true, decide_eq_true_eq]
      exact ⟨⟨h.1.1, h.1.2⟩, ih (by omega) (fun e he => hne e (by simp [he])) h.2⟩

theorem swfFrom_sset {m : List (Nat × α)} {lo k : Nat} (v : α) (hk : lo ≤ k) (h : swfFrom d lo m = true) :
    swfFrom d lo (sset (d k) m k v) = true := by
  by_cases hv : v = d k
  · simpa [sset, hv] using swfFrom_sdel k h
  · simp only [sset, hv, if_false]
    refine swfFrom_sins hv hk ?_ (swfFrom_sdel k h)
    intro e he
    rw [sdel_eq_filter] at he
    simpa using (List.mem_filter.mp he).2

/-- A write keeps the canonical form. -/
theorem swf_sset {m : List (Nat × α)} (k : Nat) (v : α) (h : swf d m = true) : swf d (sset (d k) m k v) = true :=
  swfFrom_sset v (Nat.zero_le k) h

theorem swf_filter {m : List (Nat × α)} (p : Nat × α → Bool) (h : swf d m = true) : swf d (m.filter p) = true :=
  swfFrom_filter p h

@[simp] theorem swf_nil : swf d [] = true := rfl

end Sys2Proof.Machine
end

