-- ==== Sys2Proof/Laws/Keeps.lean ====
section
/-! SUPPORT. What every operation and every meaning keeps: the queue of waiting commands, and each invariant of
`Sys2Proof.Safety`. It also says which parts of the state
an operation leaves as they are. `Keeps W r s` says so of a state `s` that comes from `r`; the files Laws/Keeps… prove it of every
operation that answers a state, one lemma each. -/

-- One theorem at a time: hundreds of them at once would need more thread stacks than a check may map.
set_option Elab.async false
namespace Sys2Proof.Machine

/-! ### Numbers of the parts of the state

A set of parts is a number, bit `b.idx` standing for part `b`. -/

def RegGroup.idx : RegGroup → Nat
  | .gbl => 0 | .fpl => 1 | .grn => 2 | .plt => 3 | .thr => 4 | .drl => 5 | .hgl => 6 | .etc => 7 | .lne => 8
  | .lnk => 9 | .wal => 10 | .dmc => 11 | .bur => 12 | .thm => 13 | .sbk => 14 | .upd => 15 | .events => 16
  | .none => 17

def Block.idx : Block → Nat
  | .now => 0 | .tickStart => 1 | .freeCtr => 2 | .ev => 3 | .fpl => 4 | .sbk => 5 | .sram => 6 | .etc => 7
  | .thm => 8 | .grn => 9 | .dmc => 10 | .plt => 11 | .thr => 12 | .bnd => 13 | .drl => 14 | .hgl => 15 | .lne => 16
  | .lnk => 17 | .wal => 18 | .bur => 19 | .boot => 20 | .hst => 21 | .mem => 22 | .flash0 => 23 | .flash1 => 24
  | .poison => 25 | .history => 26 | .tests => 27 | .out => 28 | .acc => 29 | .accBytes => 30 | .reg g => 31 + g.idx

/-- The set of the group of one register. -/
def regBit (a : Nat) : Nat := 2 ^ (Block.reg (regGroup a)).idx

/-- Every part of `m` is a part of `W`. -/
def Sub (m W : Nat) : Prop := ∀ i, m.testBit i = true → W.testBit i = true

theorem Sub.refl (W : Nat) : Sub W W := fun _ h => h

theorem Sub.mono {b m W : Nat} (hw : Sub m W) (e : b ||| m = m) : Sub b W := fun i h =>
  hw i (by rw [← e, Nat.testBit_or, h, Bool.true_or])

/-- The group of any register is one of the register groups. -/
theorem Sub.any {a m W : Nat} (hw : Sub m W) (e : 0x1ffff80000000 ||| m = m) : Sub (regBit a) W := by
  refine fun i h => hw i ?_
  rw [← e, Nat.testBit_or, Bool.or_eq_true]
  left
  rw [regBit, Nat.testBit_two_pow, decide_eq_true_eq] at h
  subst h
  generalize regGroup a = g
  cases g <;> decide

/-- A part of `m` is not one that stays out of `W`. -/
theorem Sub.off {m W i : Nat} {p : Prop} (hw : Sub m W) (hb : W.testBit i = false) (hm : m.testBit i = true) : p :=
  absurd (hw i hm) (by simp [hb])

theorem Block.same.refl (b : Block) (s : State) : b.same s s := by
  cases b <;> simp [Block.same]

theorem Block.same.trans {b : Block} {r s t : State} (h : b.same r s) (g : b.same s t) : b.same r t := by
  cases b <;> simp only [Block.same] at * <;> first
    | exact g.trans h
    | exact ⟨g.1.trans h.1, g.2.1.trans h.2.1, g.2.2.1.trans h.2.2.1, g.2.2.2.trans h.2.2.2⟩
    | exact fun a e => (g a e).trans (h a e)

/-- `s` holds the queue of `r`, each invariant that `r` holds, and every part of `r` outside the set `W`. -/
structure Keeps (W : Nat) (r s : State) : Prop where
  pending : s.pending = r.pending
  mem : r.memWf = true → s.memWf = true
  regs : r.regsWf = true → s.regsWf = true
  claims : r.claimsOk = true → s.claimsOk = true
  ring : r.ringOk = true → s.ringOk = true
  frame : r.frameOk = true → s.frameOk = true
  /-- No core cycle is left open. -/
  cycle : r.ev.cycle = none → s.ev.cycle = none
  same : ∀ b : Block, W.testBit b.idx = false → b.same r s

namespace Keeps

variable {W : Nat} {r s t u : State}

theorem refl (W : Nat) (r : State) : Keeps W r r := ⟨rfl, id, id, id, id, id, id, fun b _ => Block.same.refl b r⟩

theorem trans (h : Keeps W r s) (g : Keeps W s t) : Keeps W r t :=
  ⟨g.pending.trans h.pending, g.mem ∘ h.mem, g.regs ∘ h.regs, g.claims ∘ h.claims, g.ring ∘ h.ring, g.frame ∘ h.frame, g.cycle ∘ h.cycle,
    fun b hb => (h.same b hb).trans (g.same b hb)⟩

/-- A state that differs in nothing that the invariants speak of, but perhaps in the Seedbank. -/
theorem of {m : Nat} (hw : Sub m W) (h : Keeps W r u) (e1 : t.pending = u.pending) (e2 : t.mem = u.mem) (e3 : t.flash0 = u.flash0)
    (e4 : t.flash1 = u.flash1) (hk : u.sbk.wf = true → t.sbk.wf = true) (e8 : t.regs = u.regs)
    (e9 : t.fpl.claims = u.fpl.claims) (e10 : t.ev.present = u.ev.present) (e11 : t.ev.hostUnread = u.ev.hostUnread)
    (e12 : t.ev.sndUnread = u.ev.sndUnread) (e13 : t.fpl.frame = u.fpl.frame)
    (e14 : t.ev.cycle = u.ev.cycle) (hs : ∀ b : Block, m.testBit b.idx = true ∨ b.same u t := by
      intro b; cases b <;> first
        | exact .inl (by decide) | exact .inr rfl | exact .inr (fun _ _ => rfl) | exact .inr ⟨rfl, rfl, rfl, rfl⟩) : Keeps W r t :=
  h.trans ⟨e1, by simp only [State.memWf, e2, e3, e4, Bool.and_eq_true]; exact fun h => ⟨h.1, hk h.2⟩,
    by simp [State.regsWf, e8], by simp [State.claimsOk, e9], by simp [State.ringOk, e10, e11, e12],
    by simp [State.frameOk, e13], by simp [e14], fun b hb => (hs b).elim (hw.off hb) id⟩

/-- A state that differs in its memories, which stay canonical. -/
theorem ofMem {m : Nat} (hw : Sub m W) (h : Keeps W r u) (e1 : t.pending = u.pending)
    (hm : Memory.wf 0#8 u.mem = true → Memory.wf 0#8 t.mem = true)
    (h0 : Memory.wf 0xFF#8 u.flash0 = true → Memory.wf 0xFF#8 t.flash0 = true)
    (h1 : Memory.wf 0xFF#8 u.flash1 = true → Memory.wf 0xFF#8 t.flash1 = true) (e5 : t.sbk = u.sbk) (e8 : t.regs = u.regs)
    (e9 : t.fpl = u.fpl) (e10 : t.ev = u.ev)
    (hs : ∀ b : Block, m.testBit b.idx = true ∨ b.same u t := by
      intro b; cases b <;> first
        | exact .inl (by decide) | exact .inr rfl | exact .inr (fun _ _ => rfl) | exact .inr ⟨rfl, rfl, rfl, rfl⟩) : Keeps W r t :=
  h.trans ⟨e1, by simp only [State.memWf, e5, Bool.and_eq_true]; exact fun h => ⟨⟨⟨hm h.1.1.1, h0 h.1.1.2⟩, h1 h.1.2⟩, h.2⟩,
    by simp [State.regsWf, e8], by simp [State.claimsOk, e9], by simp [State.ringOk, e10], by simp [State.frameOk, e9], by simp [e10], fun b hb => (hs b).elim (hw.off hb) id⟩

/-- A record update whose Seedbank stays canonical and that writes no memory, no register and nothing else that the
invariants speak of; the parts it does write are in `m`. -/
theorem updSbk {m : Nat} {a1 a2 a3 : Nat} {ev : Events} {fpl : Fpl} {sbk : Sbk} {etc : Etc} {thm : Thm} {grn : Grn} {dmc : Dmc} {plt : Plt}
    {thr : Thr} {bnd : Bnd} {drl : Drl} {hgl : Hgl} {lne : Lne} {lnk : Lnk} {wal : Wal} {bur : Bur} {boot : Boot}
    {hst : Hst} {poison : List (Nat × Bool)} {history : List FaultHist} {tests : List TestReq} {out : List Out}
    {acc : Nat × Word} {accBytes : Bytes} (hw : Sub m W) (h : Keeps W r u)
    (hk : u.sbk.wf = true → sbk.wf = true)
    (e9 : fpl.claims = u.fpl.claims) (e10 : ev.present = u.ev.present) (e11 : ev.hostUnread = u.ev.hostUnread)
    (e12 : ev.sndUnread = u.ev.sndUnread) (e13 : fpl.frame = u.fpl.frame) (e14 : ev.cycle = u.ev.cycle)
    (c0 : m.testBit 0 = true ∨ a1 = u.now)
    (c1 : m.testBit 1 = true ∨ a2 = u.tickStart)
    (c2 : m.testBit 2 = true ∨ a3 = u.freeCtr)
    (c3 : m.testBit 3 = true ∨ ev = u.ev)
    (c4 : m.testBit 4 = true ∨ fpl = u.fpl)
    (c5 : m.testBit 5 = true ∨ sbk.rest = u.sbk.rest)
    (c6 : m.testBit 6 = true ∨ (sbk.sram = u.sbk.sram ∧ sbk.poison = u.sbk.poison ∧ sbk.held = u.sbk.held ∧ sbk.busyTick = u.sbk.busyTick))
    (c7 : m.testBit 7 = true ∨ etc = u.etc)
    (c8 : m.testBit 8 = true ∨ thm = u.thm)
    (c9 : m.testBit 9 = true ∨ grn = u.grn)
    (c10 : m.testBit 10 = true ∨ dmc = u.dmc)
    (c11 : m.testBit 11 = true ∨ plt = u.plt)
    (c12 : m.testBit 12 = true ∨ thr = u.thr)
    (c13 : m.testBit 13 = true ∨ bnd = u.bnd)
    (c14 : m.testBit 14 = true ∨ drl = u.drl)
    (c15 : m.testBit 15 = true ∨ hgl = u.hgl)
    (c16 : m.testBit 16 = true ∨ lne = u.lne)
    (c17 : m.testBit 17 = true ∨ lnk = u.lnk)
    (c18 : m.testBit 18 = true ∨ wal = u.wal)
    (c19 : m.testBit 19 = true ∨ bur = u.bur)
    (c20 : m.testBit 20 = true ∨ boot = u.boot)
    (c21 : m.testBit 21 = true ∨ hst = u.hst)
    (c25 : m.testBit 25 = true ∨ poison = u.poison)
    (c26 : m.testBit 26 = true ∨ history = u.history)
    (c27 : m.testBit 27 = true ∨ tests = u.tests)
    (c28 : m.testBit 28 = true ∨ out = u.out)
    (c29 : m.testBit 29 = true ∨ acc = u.acc)
    (c30 : m.testBit 30 = true ∨ accBytes = u.accBytes) :
    Keeps W r ⟨u.pending, a1, a2, a3, u.regs, ev, fpl, sbk, etc, thm, grn, dmc, plt, thr, bnd, drl, hgl, lne, lnk, wal, bur,
      boot, hst, u.mem, u.flash0, u.flash1, poison, history, tests, out, acc, accBytes⟩ :=
  of hw h rfl rfl rfl rfl hk rfl e9 e10 e11 e12 e13 e14 fun b => by
    cases b with
    | now => exact c0
    | tickStart => exact c1
    | freeCtr => exact c2
    | ev => exact c3
    | fpl => exact c4
    | sbk => exact c5
    | sram => exact c6
    | etc => exact c7
    | thm => exact c8
    | grn => exact c9
    | dmc => exact c10
    | plt => exact c11
    | thr => exact c12
    | bnd => exact c13
    | drl => exact c14
    | hgl => exact c15
    | lne => exact c16
    | lnk => exact c17
    | wal => exact c18
    | bur => exact c19
    | boot => exact c20
    | hst => exact c21
    | mem => exact .inr rfl
    | flash0 => exact .inr rfl
    | flash1 => exact .inr rfl
    | poison => exact c25
    | history => exact c26
    | tests => exact c27
    | out => exact c28
    | acc => exact c29
    | accBytes => exact c30
    | reg g => exact .inr fun _ _ => rfl

/-- A record update that writes nothing that the invariants speak of; the parts it does write are in `m`. -/
theorem upd {m : Nat} {a1 a2 a3 : Nat} {ev : Events} {fpl : Fpl} {sbk : Sbk} {etc : Etc} {thm : Thm} {grn : Grn} {dmc : Dmc} {plt : Plt}
    {thr : Thr} {bnd : Bnd} {drl : Drl} {hgl : Hgl} {lne : Lne} {lnk : Lnk} {wal : Wal} {bur : Bur} {boot : Boot}
    {hst : Hst} {poison : List (Nat × Bool)} {history : List FaultHist} {tests : List TestReq} {out : List Out}
    {acc : Nat × Word} {accBytes : Bytes} (hw : Sub m W) (h : Keeps W r u)
    (e5 : sbk.sram = u.sbk.sram := by rfl) (e6 : sbk.copyA = u.sbk.copyA := by rfl) (e7 : sbk.copyB = u.sbk.copyB := by rfl)
    (e8 : sbk.store = u.sbk.store := by rfl) (e9 : fpl.claims = u.fpl.claims := by rfl)
    (e10 : ev.present = u.ev.present := by rfl) (e11 : ev.hostUnread = u.ev.hostUnread := by rfl)
    (e12 : ev.sndUnread = u.ev.sndUnread := by rfl) (e13 : fpl.frame = u.fpl.frame := by rfl)
    (e14 : ev.cycle = u.ev.cycle := by rfl)
    (c0 : m.testBit 0 = true ∨ a1 = u.now := by first | exact .inl (by decide) | exact .inr rfl)
    (c1 : m.testBit 1 = true ∨ a2 = u.tickStart := by first | exact .inl (by decide) | exact .inr rfl)
    (c2 : m.testBit 2 = true ∨ a3 = u.freeCtr := by first | exact .inl (by decide) | exact .inr rfl)
    (c3 : m.testBit 3 = true ∨ ev = u.ev := by first | exact .inl (by decide) | exact .inr rfl)
    (c4 : m.testBit 4 = true ∨ fpl = u.fpl := by first | exact .inl (by decide) | exact .inr rfl)
    (c5 : m.testBit 5 = true ∨ sbk.rest = u.sbk.rest := by first | exact .inl (by decide) | exact .inr rfl)
    (c6 : m.testBit 6 = true ∨ (sbk.sram = u.sbk.sram ∧ sbk.poison = u.sbk.poison ∧ sbk.held = u.sbk.held ∧ sbk.busyTick = u.sbk.busyTick) := by first | exact .inl (by decide) | exact .inr ⟨rfl, rfl, rfl, rfl⟩)
    (c7 : m.testBit 7 = true ∨ etc = u.etc := by first | exact .inl (by decide) | exact .inr rfl)
    (c8 : m.testBit 8 = true ∨ thm = u.thm := by first | exact .inl (by decide) | exact .inr rfl)
    (c9 : m.testBit 9 = true ∨ grn = u.grn := by first | exact .inl (by decide) | exact .inr rfl)
    (c10 : m.testBit 10 = true ∨ dmc = u.dmc := by first | exact .inl (by decide) | exact .inr rfl)
    (c11 : m.testBit 11 = true ∨ plt = u.plt := by first | exact .inl (by decide) | exact .inr rfl)
    (c12 : m.testBit 12 = true ∨ thr = u.thr := by first | exact .inl (by decide) | exact .inr rfl)
    (c13 : m.testBit 13 = true ∨ bnd = u.bnd := by first | exact .inl (by decide) | exact .inr rfl)
    (c14 : m.testBit 14 = true ∨ drl = u.drl := by first | exact .inl (by decide) | exact .inr rfl)
    (c15 : m.testBit 15 = true ∨ hgl = u.hgl := by first | exact .inl (by decide) | exact .inr rfl)
    (c16 : m.testBit 16 = true ∨ lne = u.lne := by first | exact .inl (by decide) | exact .inr rfl)
    (c17 : m.testBit 17 = true ∨ lnk = u.lnk := by first | exact .inl (by decide) | exact .inr rfl)
    (c18 : m.testBit 18 = true ∨ wal = u.wal := by first | exact .inl (by decide) | exact .inr rfl)
    (c19 : m.testBit 19 = true ∨ bur = u.bur := by first | exact .inl (by decide) | exact .inr rfl)
    (c20 : m.testBit 20 = true ∨ boot = u.boot := by first | exact .inl (by decide) | exact .inr rfl)
    (c21 : m.testBit 21 = true ∨ hst = u.hst := by first | exact .inl (by decide) | exact .inr rfl)
    (c25 : m.testBit 25 = true ∨ poison = u.poison := by first | exact .inl (by decide) | exact .inr rfl)
    (c26 : m.testBit 26 = true ∨ history = u.history := by first | exact .inl (by decide) | exact .inr rfl)
    (c27 : m.testBit 27 = true ∨ tests = u.tests := by first | exact .inl (by decide) | exact .inr rfl)
    (c28 : m.testBit 28 = true ∨ out = u.out := by first | exact .inl (by decide) | exact .inr rfl)
    (c29 : m.testBit 29 = true ∨ acc = u.acc := by first | exact .inl (by decide) | exact .inr rfl)
    (c30 : m.testBit 30 = true ∨ accBytes = u.accBytes := by first | exact .inl (by decide) | exact .inr rfl) :
    Keeps W r ⟨u.pending, a1, a2, a3, u.regs, ev, fpl, sbk, etc, thm, grn, dmc, plt, thr, bnd, drl, hgl, lne, lnk, wal, bur,
      boot, hst, u.mem, u.flash0, u.flash1, poison, history, tests, out, acc, accBytes⟩ :=
  updSbk hw h (by simp [Sbk.wf, e5, e6, e7, e8]) e9 e10 e11 e12 e13 e14 c0 c1 c2 c3 c4 c5 c6 c7 c8 c9 c10 c11 c12 c13 c14 c15 c16 c17 c18 c19 c20 c21 c25 c26 c27 c28 c29 c30

/-- The records of the open core cycle changed. -/
theorem evCycle {m : Nat} {l : List (Bool × EvRec)} (hw : Sub m W) (h : Keeps W r u) (hm : m.testBit 3 = true)
    (hl : u.ev.cycle = Option.some l) (l' : List (Bool × EvRec)) :
    Keeps W r { u with ev := { u.ev with cycle := Option.some l' } } :=
  ⟨h.pending, h.mem, h.regs, h.claims, h.ring, h.frame, fun q => absurd (h.cycle q) (by simp [hl]), fun b hb =>
    (h.same b hb).trans (by
      cases b <;> first
        | exact rfl | exact fun _ _ => rfl | exact ⟨rfl, rfl, rfl, rfl⟩ | exact hw.off hb hm)⟩

theorem foldl {α : Type} {f : State → α → State} (hf : ∀ x a, Keeps W r x → Keeps W r (f x a)) :
    ∀ (l : List α) {s : State}, Keeps W r s → Keeps W r (l.foldl f s)
  | [], _, h => h
  | a :: l, _, h => foldl hf l (hf _ a h)

/-- The state of a pair that an operation answered. -/
theorem fst {α : Type} {p : State × α} {x : α} (e : p = (t, x)) (h : Keeps W r p.1) : Keeps W r t := by
  rw [e] at h; exact h

theorem snd {α : Type} {p : α × State} {x : α} (e : p = (x, t)) (h : Keeps W r p.2) : Keeps W r t := by
  rw [e] at h; exact h

theorem foldlPair {α β : Type} {f : State × β → α → State × β} (hf : ∀ x a, Keeps W r x.1 → Keeps W r (f x a).1) :
    ∀ (l : List α) {p : State × β}, Keeps W r p.1 → Keeps W r (l.foldl f p).1
  | [], _, h => h
  | a :: l, _, h => foldlPair hf l (hf _ a h)

theorem ite {c : Prop} [Decidable c] {a b : State} (ha : Keeps W r a) (hb : Keeps W r b) : Keeps W r (if c then a else b) := by
  by_cases hc : c <;> simp [hc, ha, hb]

theorem iteFst {α : Type} {c : Prop} [Decidable c] {a b : State × α} (ha : Keeps W r a.1) (hb : Keeps W r b.1) :
    Keeps W r (if c then a else b).1 := by
  by_cases hc : c <;> simp [hc, ha, hb]

end Keeps

/-- Every state that an operation may answer keeps what `Keeps` says. -/
def OptKeeps (W : Nat) (r : State) (o : Option State) : Prop := ∀ t, o = some t → Keeps W r t

theorem OptKeeps.none {W : Nat} {r : State} : OptKeeps W r none := fun _ h => nomatch h

theorem OptKeeps.some {W : Nat} {r t : State} (h : Keeps W r t) : OptKeeps W r (some t) := fun _ e => Option.some.inj e ▸ h

theorem OptKeeps.ite {W : Nat} {r : State} {c : Prop} [Decidable c] {a b : Option State} (ha : OptKeeps W r a) (hb : OptKeeps W r b) :
    OptKeeps W r (if c then a else b) := by
  by_cases hc : c <;> simp [hc, ha, hb]

theorem OptKeeps.get {W : Nat} {r t : State} {o : Option State} (e : o = Option.some t) (h : OptKeeps W r o) : Keeps W r t := h t e

theorem OptKeeps.getSnd {α : Type} {W : Nat} {r t : State} {o : Option (α × State)} {x : α} (e : o = Option.some (x, t))
    (h : OptKeeps W r (o.map (·.2))) : Keeps W r t := h t (by simp [e])

theorem OptKeeps.getFst {α : Type} {W : Nat} {r t : State} {o : Option (State × α)} {x : α} (e : o = Option.some (t, x))
    (h : OptKeeps W r (o.map (·.1))) : Keeps W r t := h t (by simp [e])

/-- What the answer of a command keeps. -/
def OutKeeps (W : Nat) (r : State) : Host.Outcome State Fault Refusal → Prop
  | .next t => Keeps W r t
  | .fault _ => True
  | .refused _ => True

theorem State.ringOk_iff (s : State) : s.ringOk = true ↔
    s.ev.present ≤ ringSize ∧ s.ev.hostUnread ≤ ringSize ∧ s.ev.sndUnread ≤ ringSize := by
  simp [State.ringOk, and_assoc]

/-! ### The groups of banked registers -/

theorem regGroup_plain {a : Nat} (h : a ∉ eventRegs) : regGroup a = windowGroup (a / 0x10000) := by
  unfold regGroup
  rw [if_neg (by simpa using h)]

theorem mem_eventRegs (a : Nat) : a ∈ eventRegs ↔ a ∈ [0x70, 0x10070, 0x20070, 0x30070, 0x40070, 0x50070, 0x60070, 0x70070,
    0x8A070, 0x90070, 0xA0070, 0xB0070, 0xC0070, 0xD0070, 0xE0070, 0xF1070, 0xF0070, 0x24, 0x38, 0x3C, 0x40, 0x44] := Iff.rfl

theorem regBit_lne {a : Nat} (lo : 0x80000 ≤ a) (hi : a < 0x8A000) : regBit a = 2 ^ 39 := by
  have h : a ∉ eventRegs := by
    simp only [mem_eventRegs, List.mem_cons, List.not_mem_nil, or_false]
    omega
  have e : a / 0x10000 = 8 := by omega
  rw [regBit, regGroup_plain h, e]
  rfl

theorem regBit_port (p o : Nat) (h : o < 0x2000) : regBit (0x80000 + 0x2000 * (p % 4) + o) = 2 ^ 39 :=
  regBit_lne (by omega) (by omega)

theorem regBit_lane (l o : Nat) (h : o < 0x80) : regBit (laneBase l + o) = 2 ^ 39 := by
  have hl : 0x80000 ≤ laneBase l ∧ laneBase l < 0x89E00 := by
    unfold laneBase
    split <;> omega
  exact regBit_lne (by omega) (by omega)

theorem regBit_panel (m o : Nat) (h : o < 0x100) : regBit (0x88000 + 0x100 * (m % 18) + o) = 2 ^ 39 :=
  regBit_lne (by omega) (by omega)

theorem regBit_lnkPort (p o : Nat) (h : o < 0x100) : regBit (0x90100 + 0x100 * (p % 4) + o) = 2 ^ 40 := by
  have hn : 0x90100 + 0x100 * (p % 4) + o ∉ eventRegs := by
    simp only [mem_eventRegs, List.mem_cons, List.not_mem_nil, or_false]
    omega
  have e : (0x90100 + 0x100 * (p % 4) + o) / 0x10000 = 9 := by omega
  rw [regBit, regGroup_plain hn, e]
  rfl

theorem regBit_mbxRes (n : Nat) : regBit (UPD_MBX_RES n) = 2 ^ 46 := by
  have hn : UPD_MBX_RES n ∉ eventRegs := by
    simp only [UPD_MBX_RES, mem_eventRegs, List.mem_cons, List.not_mem_nil, or_false]
    omega
  have e : UPD_MBX_RES n / 0x10000 = 15 := by unfold UPD_MBX_RES; omega
  rw [regBit, regGroup_plain hn, e]
  rfl

theorem regBit_plotCounter (n : Nat) : regBit (plotCounter n) = 2 ^ 33 := by
  unfold plotCounter
  split
  · decide
  · split
    · decide
    · split <;> decide

theorem regBit_eventStatus (n : Nat) : regBit (eventStatusReg n) = 2 ^ 47 := by
  unfold eventStatusReg
  split <;> decide

/-! ### The Seedbank's cells -/

theorem Sbk.wf_iff (b : Sbk) : b.wf = true ↔ Memory.wf 0#8 b.sram = true ∧ Memory.wf 0#8 b.copyA.image = true ∧
    Memory.wf 0#8 b.copyB.image = true ∧ ∀ r, b.store = some r → Memory.wf 0#8 r.image = true := by
  unfold Sbk.wf
  cases b.store <;> simp [and_assoc]

theorem Sbk.wf_setCopy {b : Sbk} (x : Nat) {c : NvCopy} (hb : b.wf = true) (hc : Memory.wf 0#8 c.image = true) :
    (b.setCopy x c).wf = true := by
  rw [Sbk.wf_iff] at hb ⊢
  unfold Sbk.setCopy
  split
  · exact ⟨hb.1, hc, hb.2.2.1, hb.2.2.2⟩
  · exact ⟨hb.1, hb.2.1, hc, hb.2.2.2⟩

theorem Sbk.wf_copy {b : Sbk} (x : Nat) (hb : b.wf = true) : Memory.wf 0#8 (b.copy x).image = true := by
  rw [Sbk.wf_iff] at hb
  unfold Sbk.copy
  split
  · exact hb.2.1
  · exact hb.2.2.1

/-! ### Cell lists -/

theorem cellSet_wf {m : List Host.Cell} (a : Nat) (b : Byte) (h : Memory.wf 0#8 m = true) :
    Memory.wf 0#8 (cellSet m a b) = true := swf_sset (d := fun _ => 0#8) a b h

theorem cellsSet_wf : ∀ {m : List Host.Cell} (a : Nat) (bs : Bytes), Memory.wf 0#8 m = true →
    Memory.wf 0#8 (cellsSet m a bs) = true
  | _, _, [], h => h
  | _, a, b :: t, h => cellsSet_wf (a + 1) t (cellSet_wf a b h)

theorem flashCells_wf : ∀ {m : List Host.Cell} (a : Nat) (bs : Bytes), Memory.wf 0xFF#8 m = true →
    Memory.wf 0xFF#8 (flashCells m a bs) = true
  | _, _, [], h => h
  | _, a, b :: t, h => flashCells_wf (a + 1) t (swf_sset (d := fun _ => 0xFF#8) a b h)

theorem cellsFold_wf {α : Type} (f : α → Nat × Byte) : ∀ (l : List α) {m : List Host.Cell}, Memory.wf 0#8 m = true →
    Memory.wf 0#8 (l.foldl (fun m c => cellSet m (f c).1 (f c).2) m) = true
  | [], _, h => h
  | _ :: l, _, h => cellsFold_wf f l (cellSet_wf _ _ h)

end Sys2Proof.Machine
end

