-- ==== Sys2Proof/Laws/KeepsOps.lean ====
section
/-! SUPPORT. Every operation and meaning of Machine/Ops.lean keeps what `Keeps` says. -/

-- One theorem at a time: hundreds of them at once would need more thread stacks than a check may map.
set_option Elab.async false
namespace Sys2Proof.Machine

/-- A register write keeps the register file canonical. -/
theorem State.wr_keeps {W : Nat} {r s : State} (a v : Nat) (ha : Sub (regBit a) W) (h : Keeps W r s) :
    Keeps W r (s.wr a v) := by
  refine h.trans ⟨rfl, id, fun hr => swf_sset (d := fun a => BitVec.ofNat 32 (regReset a)) a _ hr, id, id, id, id, fun b hb => ?_⟩
  cases b <;> first
    | exact rfl
    | exact ⟨rfl, rfl, rfl, rfl⟩
    | skip
  intro c hc
  have hn : c ≠ a := by
    rintro rfl
    exact ha.off hb (by simp [regBit, hc])
  show (sget _ (sset _ s.regs a _) c).toNat = (sget _ s.regs c).toNat
  rw [sget_sset_of_ne _ _ _ _ hn]

theorem State.wrF_keeps {W : Nat} {r s : State} (a : ℕ) (hi : ℕ) (lo : ℕ) (v : ℕ)
    (ha : Sub (regBit a) W) (h : Keeps W r s) : Keeps W r (State.wrF s a hi lo v) := by
  unfold State.wrF
  try dsimp only
  with_reducible repeat' first
      | exact h | exact ha | apply State.wr_keeps

theorem State.orR_keeps {W : Nat} {r s : State} (a : ℕ) (m : ℕ)
    (ha : Sub (regBit a) W) (h : Keeps W r s) : Keeps W r (State.orR s a m) := by
  unfold State.orR
  try dsimp only
  with_reducible repeat' first
      | exact h | exact ha | apply State.wr_keeps

theorem State.bumpBy_keeps {W : Nat} {r s : State} (a : ℕ) (n : ℕ)
    (ha : Sub (regBit a) W) (h : Keeps W r s) : Keeps W r (State.bumpBy s a n) := by
  unfold State.bumpBy
  try dsimp only
  with_reducible repeat' first
      | exact h | exact ha | apply State.wr_keeps

theorem State.bump_keeps {W : Nat} {r s : State} (a : ℕ)
    (ha : Sub (regBit a) W) (h : Keeps W r s) : Keeps W r (State.bump s a) := by
  unfold State.bump
  try dsimp only
  with_reducible repeat' first
      | exact h | exact ha | apply State.bumpBy_keeps

theorem State.bumpF_keeps {W : Nat} {r s : State} (a : ℕ) (hi : ℕ) (lo : ℕ)
    (ha : Sub (regBit a) W) (h : Keeps W r s) : Keeps W r (State.bumpF s a hi lo) := by
  unfold State.bumpF
  try dsimp only
  with_reducible repeat' first
      | exact h | exact ha | apply State.wrF_keeps

theorem State.regWrite_keeps {W : Nat} {r s : State} (a : ℕ) (v : ℕ)
    (ha : Sub (regBit a) W) (h : Keeps W r s) : Keeps W r (State.regWrite s a v) := by
  unfold State.regWrite
  try dsimp only
  with_reducible repeat' first
      | exact h | exact ha | apply State.wr_keeps | dsimp only | split

theorem State.draw_keeps {W : Nat} {r s : State} 
    (hw : Sub 0x4 W) (h : Keeps W r s) : Keeps W r (State.draw s).2 := by
  unfold State.draw
  try dsimp only
  with_reducible repeat' first
      | exact h | exact hw.mono (by decide) | fail_if_no_progress refine Keeps.upd hw ?_

/-- SRAM bytes put keep the SRAM canonical. -/
theorem State.sramPut_keeps {W : Nat} {r s : State} (off : Nat) (bs : Bytes) (hw : Sub 0x40 W) (h : Keeps W r s) : Keeps W r (s.sramPut off bs) := by
  refine Keeps.of hw h rfl rfl rfl rfl (fun hk => ?_) rfl rfl rfl rfl rfl rfl rfl
  rw [Sbk.wf_iff] at hk ⊢
  exact ⟨cellsSet_wf off bs hk.1, hk.2⟩

/-- R11: a frame number set has 48 bits. -/
theorem State.setFrame_keeps {W : Nat} {r s : State} (n : Nat) (hw : Sub 0x10 W) (h : Keeps W r s) : Keeps W r (s.setFrame n) :=
  h.trans ⟨rfl, id, id, id, id, fun _ => decide_eq_true (Nat.mod_lt _ (by decide)), id, (fun b hb => by cases b <;> first | exact rfl | exact fun _ _ => rfl | exact ⟨rfl, rfl, rfl, rfl⟩ | exact hw.off hb (by decide))⟩

theorem State.setSticky_keeps {W : Nat} {r s : State} (code : ℕ)
    (hw : Sub 0x800000000000 W) (h : Keeps W r s) : Keeps W r (State.setSticky s code) := by
  unfold State.setSticky
  try dsimp only
  with_reducible repeat' first
      | exact h | exact hw.mono (by decide) | exact hw.mono (by rw [regBit_eventStatus]; decide)
      | apply State.orR_keeps | refine Keeps.ite ?_ ?_ | dsimp only | split

/-- A record put keeps the counts of ring records within the ring. -/
theorem State.putRec_keeps {W : Nat} {r s : State} (e : EvRec) (hw : Sub 0x800000000008 W) (h : Keeps W r s) : Keeps W r (s.putRec e) := by
  have hq : Keeps W r (s.wr GBL_EVQ_SEQ (e.seq + 1)) := wr_keeps _ _ (hw.mono (by decide)) h
  unfold State.putRec
  dsimp only
  split
  · with_reducible refine Keeps.upd hw hq
  · generalize s.wr GBL_EVQ_SEQ (e.seq + 1) = x at hq
    have key : ∀ y : State, y.pending = x.pending → y.memWf = x.memWf → y.regs = x.regs → y.fpl = x.fpl →
        y.ev.cycle = x.ev.cycle → (∀ b : Block, W.testBit b.idx = false → b.same x y) →
        y.ev.present ≤ ringSize → y.ev.hostUnread ≤ ringSize → y.ev.sndUnread ≤ ringSize → Keeps W r y := fun y a b c d j k e f g =>
      hq.trans ⟨a, fun q => b ▸ q, fun q => by simpa [regsWf, c] using q, fun q => by simpa [claimsOk, d] using q,
        fun _ => by simp [ringOk, e, f, g], fun q => by simpa [frameOk, d] using q, fun q => j.trans q, k⟩
    have hs : ∀ c : Bool, (if c = true then min ringSize (x.ev.sndUnread + 1) else 0) ≤ ringSize := by
      intro c; cases c <;> simp
    split
    · exact bump_keeps _ (hw.mono (by decide)) (wr_keeps _ _ (hw.mono (by decide)) (wr_keeps _ _ (hw.mono (by decide))
        (key _ rfl rfl rfl rfl rfl (fun b hb => by cases b <;> first | exact rfl | exact fun _ _ => rfl | exact ⟨rfl, rfl, rfl, rfl⟩ | exact hw.off hb (by decide)) (Nat.min_le_left ..) (Nat.min_le_left ..) (hs _))))
    · exact wr_keeps _ _ (hw.mono (by decide)) (key _ rfl rfl rfl rfl rfl (fun b hb => by cases b <;> first | exact rfl | exact fun _ _ => rfl | exact ⟨rfl, rfl, rfl, rfl⟩ | exact hw.off hb (by decide)) (Nat.min_le_left ..) (Nat.min_le_left ..) (hs _))

theorem State.emitRec_keeps {W : Nat} {r s : State} (r' : EvRec)
    (hw : Sub 0x800000000008 W) (h : Keeps W r s) : Keeps W r (State.emitRec s r') := by
  unfold State.emitRec
  try dsimp only
  with_reducible repeat' first
      | exact h | exact hw.mono (by decide) | apply State.putRec_keeps | apply State.setSticky_keeps
      | fail_if_no_progress refine Keeps.upd hw ?_ | refine Keeps.ite ?_ ?_

theorem State.emit_keeps {W : Nat} {r s : State} (code cls : Nat) (args : List Nat) (hw : Sub 0x800000000008 W) (h : Keeps W r s) :
    Keeps W r (s.emit code cls args) := by
  unfold State.emit
  split
  · rename_i l hl
    exact Keeps.evCycle hw h (by decide) hl _
  · exact emitRec_keeps _ (hw.mono (by decide)) h

theorem State.sramRefuse_keeps {W : Nat} {r s : State} 
    (hw : Sub 0x800000000048 W) (h : Keeps W r s) : Keeps W r (State.sramRefuse s) := by
  unfold State.sramRefuse
  try dsimp only
  with_reducible repeat' first
      | exact h | exact hw.mono (by decide) | apply State.emit_keeps | fail_if_no_progress refine Keeps.upd hw ?_
      | refine Keeps.ite ?_ ?_

theorem State.sramHold_keeps {W : Nat} {r s : State} (n : ℕ)
    (hw : Sub 0x40 W) (h : Keeps W r s) : Keeps W r (State.sramHold s n) := by
  unfold State.sramHold
  try dsimp only
  with_reducible repeat' first
      | exact h | exact hw.mono (by decide) | fail_if_no_progress refine Keeps.upd hw ?_

theorem State.sramWrite_keeps {W : Nat} {r s : State} (off : ℕ) (bs : Bytes)
    (hw : Sub 0x800000000048 W) (h : Keeps W r s) : Keeps W r (State.sramWrite s off bs) := by
  unfold State.sramWrite
  try dsimp only
  with_reducible repeat' first
      | exact h | exact hw.mono (by decide) | apply State.emit_keeps | apply State.sramPut_keeps
      | fail_if_no_progress refine Keeps.upd hw ?_ | refine Keeps.ite ?_ ?_ | assumption
      | apply State.sramRefuse_keeps | apply State.sramHold_keeps | refine Keeps.foldl (fun _ _ _ => ?_) _ ?_

theorem State.stewardWrite_keeps {W : Nat} {r s : State} (f : State → State)
    (hs : ∀ x, Keeps W r x → Keeps W r (f x)) (hw : Sub 0x800000000048 W) (h : Keeps W r s) : Keeps W r (State.stewardWrite s f) := by
  unfold State.stewardWrite
  try dsimp only
  with_reducible repeat' first
      | exact h | apply hs | assumption | exact hw.mono (by decide) | apply State.sramRefuse_keeps
      | apply State.emit_keeps | apply State.sramHold_keeps | refine Keeps.ite ?_ ?_

theorem State.critLog_keeps {W : Nat} {r s : State} (r' : EvRec)
    (hw : Sub 0x800000000048 W) (h : Keeps W r s) : Keeps W r (State.critLog s r') := by
  unfold State.critLog
  try dsimp only
  with_reducible repeat' first
      | exact h | assumption | exact hw.mono (by decide) | apply State.sramWrite_keeps
      | refine Keeps.foldl (fun _ _ _ => ?_) _ ?_ | refine Keeps.foldlPair (fun _ _ _ => ?_) _ ?_
      | refine Keeps.ite ?_ ?_ | dsimp only | split

theorem State.reportRec_keeps {W : Nat} {r s : State} (r' : EvRec)
    (hw : Sub 0x800010000048 W) (h : Keeps W r s) : Keeps W r (State.reportRec s r') := by
  unfold State.reportRec
  try dsimp only
  with_reducible repeat' first
      | exact h | exact hw.mono (by decide) | apply State.emitRec_keeps | apply State.orR_keeps
      | apply State.critLog_keeps | fail_if_no_progress refine Keeps.upd hw ?_ | refine Keeps.ite ?_ ?_

theorem State.reportAs_keeps {W : Nat} {r s : State} (joined : Bool) (code cls : Nat) (args : List Nat) (hw : Sub 0x800010000048 W)
    (h : Keeps W r s) : Keeps W r (s.reportAs joined code cls args) := by
  unfold State.reportAs
  split
  · rename_i l hl
    exact Keeps.evCycle hw h (by decide) hl _
  · exact reportRec_keeps _ (hw.mono (by decide)) h

theorem State.reportC_keeps {W : Nat} {r s : State} (code : ℕ) (cls : ℕ) (args : List ℕ)
    (hw : Sub 0x800010000048 W) (h : Keeps W r s) : Keeps W r (State.reportC s code cls args) := by
  unfold State.reportC
  try dsimp only
  with_reducible repeat' first
      | exact h | exact hw.mono (by decide) | apply State.reportAs_keeps

theorem State.report_keeps {W : Nat} {r s : State} (code : ℕ) (args : List ℕ)
    (hw : Sub 0x800010000048 W) (h : Keeps W r s) : Keeps W r (State.report s code args) := by
  unfold State.report
  try dsimp only
  with_reducible repeat' first
      | exact h | exact hw.mono (by decide) | apply State.reportC_keeps

theorem State.reportJoined_keeps {W : Nat} {r s : State} (code : ℕ) (args : List ℕ)
    (hw : Sub 0x800010000048 W) (h : Keeps W r s) : Keeps W r (State.reportJoined s code args) := by
  unfold State.reportJoined
  try dsimp only
  with_reducible repeat' first
      | exact h | exact hw.mono (by decide) | apply State.reportAs_keeps

theorem State.oneCycle_keeps {W : Nat} {r s : State} {f : State → State}
    (hf : ∀ q x, Keeps W q x → Keeps W q (f x)) (hw : Sub 0x800010000048 W) (h : Keeps W r s) : Keeps W r (s.oneCycle f) := by
  unfold State.oneCycle
  split
  · exact hf r s h
  · rename_i hn
    have same : ∀ (q : State) (o : Option (List (Bool × EvRec))) (b : Block), W.testBit b.idx = false →
        b.same q { q with ev := { q.ev with cycle := o } } := fun q o b hb => by
      cases b <;> first | exact rfl | exact fun _ _ => rfl | exact ⟨rfl, rfl, rfl, rfl⟩ | exact hw.off hb (by decide)
    have h1 := hf _ _ (Keeps.refl W { s with ev := { s.ev with cycle := some [] } })
    generalize f { s with ev := { s.ev with cycle := some [] } } = t at h1 ⊢
    refine h.trans ?_
    refine Keeps.foldl (fun _ _ => reportRec_keeps _ (hw.mono (by decide))) _ ?_
    exact ⟨h1.pending, h1.mem, h1.regs, h1.claims, h1.ring, h1.frame, fun _ => rfl, fun b hb =>
      (same s (some []) b hb).trans ((h1.same b hb).trans (same t none b hb))⟩

theorem State.restamp_keeps {W : Nat} {r s : State} (hw : Sub 0x8 W) (h : Keeps W r s) : Keeps W r s.restamp := by
  unfold State.restamp
  split
  · rename_i l hl
    exact Keeps.evCycle hw h (by decide) hl _
  · exact h

theorem State.sramPoisonRead_keeps {W : Nat} {r s : State} (off : ℕ)
    (hw : Sub 0x800010000048 W) (h : Keeps W r s) : Keeps W r (State.sramPoisonRead s off) := by
  unfold State.sramPoisonRead
  try dsimp only
  with_reducible repeat' first
      | exact h | exact hw.mono (by decide) | apply State.report_keeps | apply State.reportJoined_keeps
      | refine Keeps.ite ?_ ?_

theorem State.sramMeet_keeps {W : Nat} {r s : State} (off : ℕ) (n : ℕ)
    (hw : Sub 0x800010000048 W) (h : Keeps W r s) : Keeps W r (State.sramMeet s off n) := by
  unfold State.sramMeet
  try dsimp only
  with_reducible repeat' first
      | exact h | assumption | exact hw.mono (by decide) | apply State.report_keeps | apply State.sramPoisonRead_keeps
      | refine Keeps.foldl (fun _ _ _ => ?_) _ ?_ | refine Keeps.foldlPair (fun _ _ _ => ?_) _ ?_
      | refine Keeps.ite ?_ ?_

theorem State.bumpLifetime_keeps {W : Nat} {r s : State} (i : ℕ)
    (hw : Sub 0x800010000048 W) (h : Keeps W r s) : Keeps W r (State.bumpLifetime s i) := by
  unfold State.bumpLifetime
  try dsimp only
  with_reducible repeat' first
      | exact h | assumption | exact hw.mono (by decide) | apply State.sramWrite_keeps
      | refine Keeps.foldl (fun _ _ _ => ?_) _ ?_ | refine Keeps.foldlPair (fun _ _ _ => ?_) _ ?_
      | refine Keeps.ite ?_ ?_ | apply State.sramMeet_keeps

theorem State.result_keeps {W : Nat} {r s : State} (status : ℕ) (v : ℕ)
    (hw : Sub 0x20000000 W) (h : Keeps W r s) : Keeps W r (State.result s status v) := by
  unfold State.result
  try dsimp only
  with_reducible repeat' first
      | exact h | exact hw.mono (by decide) | fail_if_no_progress refine Keeps.upd hw ?_

theorem State.resultBytes_keeps {W : Nat} {r s : State} (status : ℕ) (bs : Bytes)
    (hw : Sub 0x60000000 W) (h : Keeps W r s) : Keeps W r (State.resultBytes s status bs) := by
  unfold State.resultBytes
  try dsimp only
  with_reducible repeat' first
      | exact h | exact hw.mono (by decide) | apply State.result_keeps | fail_if_no_progress refine Keeps.upd hw ?_

theorem State.put_keeps {W : Nat} {r s : State} (o : Out)
    (hw : Sub 0x10000000 W) (h : Keeps W r s) : Keeps W r (State.put s o) := by
  unfold State.put
  try dsimp only
  with_reducible repeat' first
      | exact h | exact hw.mono (by decide) | fail_if_no_progress refine Keeps.upd hw ?_

theorem State.turnedAway_keeps {W : Nat} {r s : State} (who : Requester) (a : ℕ)
    (hw : Sub 0x20000000 W) (h : Keeps W r s) : Keeps W r (State.turnedAway s who a) := by
  unfold State.turnedAway
  try dsimp only
  with_reducible repeat' first
      | exact h | exact hw.mono (by decide) | apply State.result_keeps | refine Keeps.ite ?_ ?_

theorem OutKeeps.next {W : Nat} {s t : State} {o : Host.Outcome State Fault Refusal} (h : OutKeeps W s o) (e : o = .next t) :
    Keeps W s t := by
  rw [e] at h
  exact h

/-- R411: a command turned away at the gate keeps what its status alone may change. -/
theorem OutKeeps.gate {W : Nat} {s : State} {who : Requester} {a : Nat} {o : Host.Outcome State Fault Refusal}
    (hw : Sub 0x20000000 W) (h : OutKeeps W s o) :
    OutKeeps W s (if s.shut who a then .next (s.turnedAway who a) else o) := by
  split
  · exact State.turnedAway_keeps _ _ hw (Keeps.refl W s)
  · exact h

/-- R60: a resource given to a feature keeps every resource with one holder. -/
theorem State.grantClaim_keeps {W : Nat} {r s : State} (cls idx feature : Nat) (hf : feature ≠ 0) (hw : Sub 0x10 W)
    (h : Keeps W r s) : Keeps W r (s.grantClaim cls idx feature) := by
  refine h.trans ⟨rfl, id, id, fun hc => ?_, id, id, id, (fun b hb => by cases b <;> first | exact rfl | exact fun _ _ => rfl | exact ⟨rfl, rfl, rfl, rfl⟩ | exact hw.off hb (by decide))⟩
  simp only [claimsOk, grantClaim, Bool.and_eq_true, List.all_eq_true, decide_eq_true_eq, bne_iff_ne, List.mem_append,
    List.mem_singleton] at hc ⊢
  refine ⟨?_, decide_eq_true ?_⟩
  · rintro c (hm | rfl)
    · exact hc.1 c (List.mem_filter.mp hm).1
    · exact hf
  rw [List.map_append, List.nodup_append]
  refine ⟨hc.2.sublist (List.filter_sublist.map _), by simp, ?_⟩
  · intro x hx y hy
    obtain ⟨c, hm, rfl⟩ := List.mem_map.mp hx
    intro e
    have hy : (c.cls, c.idx) = (cls, idx) := e.trans (by simpa using hy)
    simp only [Prod.mk.injEq] at hy
    simp [hy.1, hy.2] at hm

/-- R60: a claim keeps every resource with one holder. -/
theorem State.claim_keeps {W : Nat} {r s : State} (cls idx feature : Nat) (hw : Sub 0x800010000058 W) (h : Keeps W r s) :
    Keeps W r (s.claim cls idx feature).1 := by
  unfold State.claim
  split
  · rename_i hm
    dsimp only
    split
    · exact h
    · rename_i hf
      simp only [mayClaim, Bool.and_eq_true, Bool.or_eq_true, beq_iff_eq, hf, or_false] at hm
      exact grantClaim_keeps _ _ _ (fun e => hf (hm.1.2.trans e.symm)) (hw.mono (by decide)) h
  · split
    · rename_i hb
      simp only [outbids, Bool.and_eq_true, bne_iff_ne] at hb
      exact grantClaim_keeps _ _ _ hb.1.1.1.1.1 (hw.mono (by decide)) (report_keeps _ _ (hw.mono (by decide)) h)
    · exact report_keeps _ _ (hw.mono (by decide)) h

theorem State.unclaim_keeps {W : Nat} {r s : State} (cls idx feature : Nat) (hw : Sub 0x10 W) (h : Keeps W r s) : Keeps W r (s.unclaim cls idx feature) := by
  refine h.trans ⟨rfl, id, id, fun hc => ?_, id, id, id, (fun b hb => by cases b <;> first | exact rfl | exact fun _ _ => rfl | exact ⟨rfl, rfl, rfl, rfl⟩ | exact hw.off hb (by decide))⟩
  simp only [claimsOk, unclaim, Bool.and_eq_true, List.all_eq_true, decide_eq_true_eq] at hc ⊢
  exact ⟨fun c hm => hc.1 c (List.mem_filter.mp hm).1, decide_eq_true (hc.2.sublist (List.filter_sublist.map _))⟩

theorem State.unclaimClass_keeps {W : Nat} {r s : State} (cls : Nat) (hw : Sub 0x10 W) (h : Keeps W r s) : Keeps W r (s.unclaimClass cls) := by
  refine h.trans ⟨rfl, id, id, fun hc => ?_, id, id, id, (fun b hb => by cases b <;> first | exact rfl | exact fun _ _ => rfl | exact ⟨rfl, rfl, rfl, rfl⟩ | exact hw.off hb (by decide))⟩
  simp only [claimsOk, unclaimClass, Bool.and_eq_true, List.all_eq_true, decide_eq_true_eq] at hc ⊢
  exact ⟨fun c hm => hc.1 c (List.mem_filter.mp hm).1, decide_eq_true (hc.2.sublist (List.filter_sublist.map _))⟩

theorem State.addFault_keeps {W : Nat} {r s : State} (kind : ℕ) (idx : ℕ)
    (hw : Sub 0x800004000048 W) (h : Keeps W r s) : Keeps W r (State.addFault s kind idx) := by
  unfold State.addFault
  try dsimp only
  with_reducible repeat' first
      | exact h | assumption | exact hw.mono (by decide) | refine Keeps.foldl (fun _ _ _ => ?_) _ ?_
      | refine Keeps.foldlPair (fun _ _ _ => ?_) _ ?_ | fail_if_no_progress refine Keeps.upd hw ?_
      | refine Keeps.ite ?_ ?_ | refine State.stewardWrite_keeps _ (fun _ _ => ?_) (hw.mono (by decide)) ?_

theorem State.queueTest_keeps {W : Nat} {r s : State} (kind : ℕ) (idx : ℕ) (faulted : Bool)
    (hw : Sub 0x80000c000048 W) (h : Keeps W r s) : Keeps W r (State.queueTest s kind idx faulted) := by
  unfold State.queueTest
  try dsimp only
  with_reducible repeat' first
      | exact h | exact hw.mono (by decide) | apply State.addFault_keeps | fail_if_no_progress refine Keeps.upd hw ?_
      | refine Keeps.ite ?_ ?_ | dsimp only | split

theorem State.queueTestLim_keeps {W : Nat} {r s : State} (kind : ℕ) (idx : ℕ) (faulted : Bool) (limit : ℕ) (dropped : ℕ)
    (hw : Sub 0x80000c000048 W) (ha : Sub (regBit dropped) W) (h : Keeps W r s) : Keeps W r (State.queueTestLim s kind idx faulted limit dropped) := by
  unfold State.queueTestLim
  try dsimp only
  with_reducible repeat' first
      | exact h | exact hw.mono (by decide) | exact ha | apply State.queueTest_keeps | apply State.bump_keeps
      | refine Keeps.ite ?_ ?_

theorem State.dropTest_keeps {W : Nat} {r s : State} (kind : ℕ) (idx : ℕ)
    (hw : Sub 0x8000000 W) (h : Keeps W r s) : Keeps W r (State.dropTest s kind idx) := by
  unfold State.dropTest
  try dsimp only
  with_reducible repeat' first
      | exact h | exact hw.mono (by decide) | fail_if_no_progress refine Keeps.upd hw ?_

theorem State.countClass_keeps {W : Nat} {r s : State} (cls : ℕ)
    (hw : Sub 0x80000000 W) (h : Keeps W r s) : Keeps W r (State.countClass s cls) := by
  unfold State.countClass
  try dsimp only
  with_reducible repeat' first
      | exact h | exact hw.mono (by decide) | apply State.bumpF_keeps | dsimp only | split

theorem State.testResult_keeps {W : Nat} {r s : State} (code : ℕ) (kind : ℕ) (idx : ℕ) (faulted : Bool) (failed : Bool) (figure : ℕ)
    (hw : Sub 0x800098000048 W) (h : Keeps W r s) : Keeps W r (State.testResult s code kind idx faulted failed figure).1 := by
  unfold State.testResult
  try dsimp only
  with_reducible repeat' first
      | exact h | exact hw.mono (by decide) | apply State.countClass_keeps | apply State.dropTest_keeps
      | apply State.reportC_keeps

end Sys2Proof.Machine
end

