-- ==== Sys2Proof/Laws/State.lean ====
section
/-! SUPPORT. What the base updates of the state leave as it is, one lemma per field and update; what a register reads after a
register write; and what a reported event and a whole core cycle leave as it is. -/

-- One theorem at a time: hundreds of them at once would need more thread stacks than a check may map.
set_option Elab.async false
namespace Sys2Proof.Machine

variable (s : State)

@[simp] theorem State.wr_pending (a v : Nat) : (s.wr a v).pending = s.pending := rfl
@[simp] theorem State.wr_now (a v : Nat) : (s.wr a v).now = s.now := rfl
@[simp] theorem State.wr_tickStart (a v : Nat) : (s.wr a v).tickStart = s.tickStart := rfl
@[simp] theorem State.wr_freeCtr (a v : Nat) : (s.wr a v).freeCtr = s.freeCtr := rfl
@[simp] theorem State.wr_ev (a v : Nat) : (s.wr a v).ev = s.ev := rfl
@[simp] theorem State.wr_fpl (a v : Nat) : (s.wr a v).fpl = s.fpl := rfl
@[simp] theorem State.wr_sbk (a v : Nat) : (s.wr a v).sbk = s.sbk := rfl
@[simp] theorem State.wr_etc (a v : Nat) : (s.wr a v).etc = s.etc := rfl
@[simp] theorem State.wr_thm (a v : Nat) : (s.wr a v).thm = s.thm := rfl
@[simp] theorem State.wr_grn (a v : Nat) : (s.wr a v).grn = s.grn := rfl
@[simp] theorem State.wr_dmc (a v : Nat) : (s.wr a v).dmc = s.dmc := rfl
@[simp] theorem State.wr_plt (a v : Nat) : (s.wr a v).plt = s.plt := rfl
@[simp] theorem State.wr_thr (a v : Nat) : (s.wr a v).thr = s.thr := rfl
@[simp] theorem State.wr_bnd (a v : Nat) : (s.wr a v).bnd = s.bnd := rfl
@[simp] theorem State.wr_drl (a v : Nat) : (s.wr a v).drl = s.drl := rfl
@[simp] theorem State.wr_hgl (a v : Nat) : (s.wr a v).hgl = s.hgl := rfl
@[simp] theorem State.wr_lne (a v : Nat) : (s.wr a v).lne = s.lne := rfl
@[simp] theorem State.wr_lnk (a v : Nat) : (s.wr a v).lnk = s.lnk := rfl
@[simp] theorem State.wr_wal (a v : Nat) : (s.wr a v).wal = s.wal := rfl
@[simp] theorem State.wr_bur (a v : Nat) : (s.wr a v).bur = s.bur := rfl
@[simp] theorem State.wr_boot (a v : Nat) : (s.wr a v).boot = s.boot := rfl
@[simp] theorem State.wr_hst (a v : Nat) : (s.wr a v).hst = s.hst := rfl
@[simp] theorem State.wr_mem (a v : Nat) : (s.wr a v).mem = s.mem := rfl
@[simp] theorem State.wr_flash0 (a v : Nat) : (s.wr a v).flash0 = s.flash0 := rfl
@[simp] theorem State.wr_flash1 (a v : Nat) : (s.wr a v).flash1 = s.flash1 := rfl
@[simp] theorem State.wr_poison (a v : Nat) : (s.wr a v).poison = s.poison := rfl
@[simp] theorem State.wr_history (a v : Nat) : (s.wr a v).history = s.history := rfl
@[simp] theorem State.wr_tests (a v : Nat) : (s.wr a v).tests = s.tests := rfl
@[simp] theorem State.wr_out (a v : Nat) : (s.wr a v).out = s.out := rfl
@[simp] theorem State.wr_acc (a v : Nat) : (s.wr a v).acc = s.acc := rfl
@[simp] theorem State.wr_accBytes (a v : Nat) : (s.wr a v).accBytes = s.accBytes := rfl

@[simp] theorem State.wrF_pending (a hi lo v : Nat) : (s.wrF a hi lo v).pending = s.pending := rfl
@[simp] theorem State.wrF_now (a hi lo v : Nat) : (s.wrF a hi lo v).now = s.now := rfl
@[simp] theorem State.wrF_tickStart (a hi lo v : Nat) : (s.wrF a hi lo v).tickStart = s.tickStart := rfl
@[simp] theorem State.wrF_freeCtr (a hi lo v : Nat) : (s.wrF a hi lo v).freeCtr = s.freeCtr := rfl
@[simp] theorem State.wrF_ev (a hi lo v : Nat) : (s.wrF a hi lo v).ev = s.ev := rfl
@[simp] theorem State.wrF_fpl (a hi lo v : Nat) : (s.wrF a hi lo v).fpl = s.fpl := rfl
@[simp] theorem State.wrF_sbk (a hi lo v : Nat) : (s.wrF a hi lo v).sbk = s.sbk := rfl
@[simp] theorem State.wrF_etc (a hi lo v : Nat) : (s.wrF a hi lo v).etc = s.etc := rfl
@[simp] theorem State.wrF_thm (a hi lo v : Nat) : (s.wrF a hi lo v).thm = s.thm := rfl
@[simp] theorem State.wrF_grn (a hi lo v : Nat) : (s.wrF a hi lo v).grn = s.grn := rfl
@[simp] theorem State.wrF_dmc (a hi lo v : Nat) : (s.wrF a hi lo v).dmc = s.dmc := rfl
@[simp] theorem State.wrF_plt (a hi lo v : Nat) : (s.wrF a hi lo v).plt = s.plt := rfl
@[simp] theorem State.wrF_thr (a hi lo v : Nat) : (s.wrF a hi lo v).thr = s.thr := rfl
@[simp] theorem State.wrF_bnd (a hi lo v : Nat) : (s.wrF a hi lo v).bnd = s.bnd := rfl
@[simp] theorem State.wrF_drl (a hi lo v : Nat) : (s.wrF a hi lo v).drl = s.drl := rfl
@[simp] theorem State.wrF_hgl (a hi lo v : Nat) : (s.wrF a hi lo v).hgl = s.hgl := rfl
@[simp] theorem State.wrF_lne (a hi lo v : Nat) : (s.wrF a hi lo v).lne = s.lne := rfl
@[simp] theorem State.wrF_lnk (a hi lo v : Nat) : (s.wrF a hi lo v).lnk = s.lnk := rfl
@[simp] theorem State.wrF_wal (a hi lo v : Nat) : (s.wrF a hi lo v).wal = s.wal := rfl
@[simp] theorem State.wrF_bur (a hi lo v : Nat) : (s.wrF a hi lo v).bur = s.bur := rfl
@[simp] theorem State.wrF_boot (a hi lo v : Nat) : (s.wrF a hi lo v).boot = s.boot := rfl
@[simp] theorem State.wrF_hst (a hi lo v : Nat) : (s.wrF a hi lo v).hst = s.hst := rfl
@[simp] theorem State.wrF_mem (a hi lo v : Nat) : (s.wrF a hi lo v).mem = s.mem := rfl
@[simp] theorem State.wrF_flash0 (a hi lo v : Nat) : (s.wrF a hi lo v).flash0 = s.flash0 := rfl
@[simp] theorem State.wrF_flash1 (a hi lo v : Nat) : (s.wrF a hi lo v).flash1 = s.flash1 := rfl
@[simp] theorem State.wrF_poison (a hi lo v : Nat) : (s.wrF a hi lo v).poison = s.poison := rfl
@[simp] theorem State.wrF_history (a hi lo v : Nat) : (s.wrF a hi lo v).history = s.history := rfl
@[simp] theorem State.wrF_tests (a hi lo v : Nat) : (s.wrF a hi lo v).tests = s.tests := rfl
@[simp] theorem State.wrF_out (a hi lo v : Nat) : (s.wrF a hi lo v).out = s.out := rfl
@[simp] theorem State.wrF_acc (a hi lo v : Nat) : (s.wrF a hi lo v).acc = s.acc := rfl
@[simp] theorem State.wrF_accBytes (a hi lo v : Nat) : (s.wrF a hi lo v).accBytes = s.accBytes := rfl

@[simp] theorem State.orR_pending (a m : Nat) : (s.orR a m).pending = s.pending := rfl
@[simp] theorem State.orR_now (a m : Nat) : (s.orR a m).now = s.now := rfl
@[simp] theorem State.orR_tickStart (a m : Nat) : (s.orR a m).tickStart = s.tickStart := rfl
@[simp] theorem State.orR_freeCtr (a m : Nat) : (s.orR a m).freeCtr = s.freeCtr := rfl
@[simp] theorem State.orR_ev (a m : Nat) : (s.orR a m).ev = s.ev := rfl
@[simp] theorem State.orR_fpl (a m : Nat) : (s.orR a m).fpl = s.fpl := rfl
@[simp] theorem State.orR_sbk (a m : Nat) : (s.orR a m).sbk = s.sbk := rfl
@[simp] theorem State.orR_etc (a m : Nat) : (s.orR a m).etc = s.etc := rfl
@[simp] theorem State.orR_thm (a m : Nat) : (s.orR a m).thm = s.thm := rfl
@[simp] theorem State.orR_grn (a m : Nat) : (s.orR a m).grn = s.grn := rfl
@[simp] theorem State.orR_dmc (a m : Nat) : (s.orR a m).dmc = s.dmc := rfl
@[simp] theorem State.orR_plt (a m : Nat) : (s.orR a m).plt = s.plt := rfl
@[simp] theorem State.orR_thr (a m : Nat) : (s.orR a m).thr = s.thr := rfl
@[simp] theorem State.orR_bnd (a m : Nat) : (s.orR a m).bnd = s.bnd := rfl
@[simp] theorem State.orR_drl (a m : Nat) : (s.orR a m).drl = s.drl := rfl
@[simp] theorem State.orR_hgl (a m : Nat) : (s.orR a m).hgl = s.hgl := rfl
@[simp] theorem State.orR_lne (a m : Nat) : (s.orR a m).lne = s.lne := rfl
@[simp] theorem State.orR_lnk (a m : Nat) : (s.orR a m).lnk = s.lnk := rfl
@[simp] theorem State.orR_wal (a m : Nat) : (s.orR a m).wal = s.wal := rfl
@[simp] theorem State.orR_bur (a m : Nat) : (s.orR a m).bur = s.bur := rfl
@[simp] theorem State.orR_boot (a m : Nat) : (s.orR a m).boot = s.boot := rfl
@[simp] theorem State.orR_hst (a m : Nat) : (s.orR a m).hst = s.hst := rfl
@[simp] theorem State.orR_mem (a m : Nat) : (s.orR a m).mem = s.mem := rfl
@[simp] theorem State.orR_flash0 (a m : Nat) : (s.orR a m).flash0 = s.flash0 := rfl
@[simp] theorem State.orR_flash1 (a m : Nat) : (s.orR a m).flash1 = s.flash1 := rfl
@[simp] theorem State.orR_poison (a m : Nat) : (s.orR a m).poison = s.poison := rfl
@[simp] theorem State.orR_history (a m : Nat) : (s.orR a m).history = s.history := rfl
@[simp] theorem State.orR_tests (a m : Nat) : (s.orR a m).tests = s.tests := rfl
@[simp] theorem State.orR_out (a m : Nat) : (s.orR a m).out = s.out := rfl
@[simp] theorem State.orR_acc (a m : Nat) : (s.orR a m).acc = s.acc := rfl
@[simp] theorem State.orR_accBytes (a m : Nat) : (s.orR a m).accBytes = s.accBytes := rfl

@[simp] theorem State.bumpBy_pending (a n : Nat) : (s.bumpBy a n).pending = s.pending := rfl
@[simp] theorem State.bumpBy_now (a n : Nat) : (s.bumpBy a n).now = s.now := rfl
@[simp] theorem State.bumpBy_tickStart (a n : Nat) : (s.bumpBy a n).tickStart = s.tickStart := rfl
@[simp] theorem State.bumpBy_freeCtr (a n : Nat) : (s.bumpBy a n).freeCtr = s.freeCtr := rfl
@[simp] theorem State.bumpBy_ev (a n : Nat) : (s.bumpBy a n).ev = s.ev := rfl
@[simp] theorem State.bumpBy_fpl (a n : Nat) : (s.bumpBy a n).fpl = s.fpl := rfl
@[simp] theorem State.bumpBy_sbk (a n : Nat) : (s.bumpBy a n).sbk = s.sbk := rfl
@[simp] theorem State.bumpBy_etc (a n : Nat) : (s.bumpBy a n).etc = s.etc := rfl
@[simp] theorem State.bumpBy_thm (a n : Nat) : (s.bumpBy a n).thm = s.thm := rfl
@[simp] theorem State.bumpBy_grn (a n : Nat) : (s.bumpBy a n).grn = s.grn := rfl
@[simp] theorem State.bumpBy_dmc (a n : Nat) : (s.bumpBy a n).dmc = s.dmc := rfl
@[simp] theorem State.bumpBy_plt (a n : Nat) : (s.bumpBy a n).plt = s.plt := rfl
@[simp] theorem State.bumpBy_thr (a n : Nat) : (s.bumpBy a n).thr = s.thr := rfl
@[simp] theorem State.bumpBy_bnd (a n : Nat) : (s.bumpBy a n).bnd = s.bnd := rfl
@[simp] theorem State.bumpBy_drl (a n : Nat) : (s.bumpBy a n).drl = s.drl := rfl
@[simp] theorem State.bumpBy_hgl (a n : Nat) : (s.bumpBy a n).hgl = s.hgl := rfl
@[simp] theorem State.bumpBy_lne (a n : Nat) : (s.bumpBy a n).lne = s.lne := rfl
@[simp] theorem State.bumpBy_lnk (a n : Nat) : (s.bumpBy a n).lnk = s.lnk := rfl
@[simp] theorem State.bumpBy_wal (a n : Nat) : (s.bumpBy a n).wal = s.wal := rfl
@[simp] theorem State.bumpBy_bur (a n : Nat) : (s.bumpBy a n).bur = s.bur := rfl
@[simp] theorem State.bumpBy_boot (a n : Nat) : (s.bumpBy a n).boot = s.boot := rfl
@[simp] theorem State.bumpBy_hst (a n : Nat) : (s.bumpBy a n).hst = s.hst := rfl
@[simp] theorem State.bumpBy_mem (a n : Nat) : (s.bumpBy a n).mem = s.mem := rfl
@[simp] theorem State.bumpBy_flash0 (a n : Nat) : (s.bumpBy a n).flash0 = s.flash0 := rfl
@[simp] theorem State.bumpBy_flash1 (a n : Nat) : (s.bumpBy a n).flash1 = s.flash1 := rfl
@[simp] theorem State.bumpBy_poison (a n : Nat) : (s.bumpBy a n).poison = s.poison := rfl
@[simp] theorem State.bumpBy_history (a n : Nat) : (s.bumpBy a n).history = s.history := rfl
@[simp] theorem State.bumpBy_tests (a n : Nat) : (s.bumpBy a n).tests = s.tests := rfl
@[simp] theorem State.bumpBy_out (a n : Nat) : (s.bumpBy a n).out = s.out := rfl
@[simp] theorem State.bumpBy_acc (a n : Nat) : (s.bumpBy a n).acc = s.acc := rfl
@[simp] theorem State.bumpBy_accBytes (a n : Nat) : (s.bumpBy a n).accBytes = s.accBytes := rfl

@[simp] theorem State.bump_pending (a : Nat) : (s.bump a).pending = s.pending := rfl
@[simp] theorem State.bump_now (a : Nat) : (s.bump a).now = s.now := rfl
@[simp] theorem State.bump_tickStart (a : Nat) : (s.bump a).tickStart = s.tickStart := rfl
@[simp] theorem State.bump_freeCtr (a : Nat) : (s.bump a).freeCtr = s.freeCtr := rfl
@[simp] theorem State.bump_ev (a : Nat) : (s.bump a).ev = s.ev := rfl
@[simp] theorem State.bump_fpl (a : Nat) : (s.bump a).fpl = s.fpl := rfl
@[simp] theorem State.bump_sbk (a : Nat) : (s.bump a).sbk = s.sbk := rfl
@[simp] theorem State.bump_etc (a : Nat) : (s.bump a).etc = s.etc := rfl
@[simp] theorem State.bump_thm (a : Nat) : (s.bump a).thm = s.thm := rfl
@[simp] theorem State.bump_grn (a : Nat) : (s.bump a).grn = s.grn := rfl
@[simp] theorem State.bump_dmc (a : Nat) : (s.bump a).dmc = s.dmc := rfl
@[simp] theorem State.bump_plt (a : Nat) : (s.bump a).plt = s.plt := rfl
@[simp] theorem State.bump_thr (a : Nat) : (s.bump a).thr = s.thr := rfl
@[simp] theorem State.bump_bnd (a : Nat) : (s.bump a).bnd = s.bnd := rfl
@[simp] theorem State.bump_drl (a : Nat) : (s.bump a).drl = s.drl := rfl
@[simp] theorem State.bump_hgl (a : Nat) : (s.bump a).hgl = s.hgl := rfl
@[simp] theorem State.bump_lne (a : Nat) : (s.bump a).lne = s.lne := rfl
@[simp] theorem State.bump_lnk (a : Nat) : (s.bump a).lnk = s.lnk := rfl
@[simp] theorem State.bump_wal (a : Nat) : (s.bump a).wal = s.wal := rfl
@[simp] theorem State.bump_bur (a : Nat) : (s.bump a).bur = s.bur := rfl
@[simp] theorem State.bump_boot (a : Nat) : (s.bump a).boot = s.boot := rfl
@[simp] theorem State.bump_hst (a : Nat) : (s.bump a).hst = s.hst := rfl
@[simp] theorem State.bump_mem (a : Nat) : (s.bump a).mem = s.mem := rfl
@[simp] theorem State.bump_flash0 (a : Nat) : (s.bump a).flash0 = s.flash0 := rfl
@[simp] theorem State.bump_flash1 (a : Nat) : (s.bump a).flash1 = s.flash1 := rfl
@[simp] theorem State.bump_poison (a : Nat) : (s.bump a).poison = s.poison := rfl
@[simp] theorem State.bump_history (a : Nat) : (s.bump a).history = s.history := rfl
@[simp] theorem State.bump_tests (a : Nat) : (s.bump a).tests = s.tests := rfl
@[simp] theorem State.bump_out (a : Nat) : (s.bump a).out = s.out := rfl
@[simp] theorem State.bump_acc (a : Nat) : (s.bump a).acc = s.acc := rfl
@[simp] theorem State.bump_accBytes (a : Nat) : (s.bump a).accBytes = s.accBytes := rfl

@[simp] theorem State.bumpF_pending (a hi lo : Nat) : (s.bumpF a hi lo).pending = s.pending := rfl
@[simp] theorem State.bumpF_now (a hi lo : Nat) : (s.bumpF a hi lo).now = s.now := rfl
@[simp] theorem State.bumpF_tickStart (a hi lo : Nat) : (s.bumpF a hi lo).tickStart = s.tickStart := rfl
@[simp] theorem State.bumpF_freeCtr (a hi lo : Nat) : (s.bumpF a hi lo).freeCtr = s.freeCtr := rfl
@[simp] theorem State.bumpF_ev (a hi lo : Nat) : (s.bumpF a hi lo).ev = s.ev := rfl
@[simp] theorem State.bumpF_fpl (a hi lo : Nat) : (s.bumpF a hi lo).fpl = s.fpl := rfl
@[simp] theorem State.bumpF_sbk (a hi lo : Nat) : (s.bumpF a hi lo).sbk = s.sbk := rfl
@[simp] theorem State.bumpF_etc (a hi lo : Nat) : (s.bumpF a hi lo).etc = s.etc := rfl
@[simp] theorem State.bumpF_thm (a hi lo : Nat) : (s.bumpF a hi lo).thm = s.thm := rfl
@[simp] theorem State.bumpF_grn (a hi lo : Nat) : (s.bumpF a hi lo).grn = s.grn := rfl
@[simp] theorem State.bumpF_dmc (a hi lo : Nat) : (s.bumpF a hi lo).dmc = s.dmc := rfl
@[simp] theorem State.bumpF_plt (a hi lo : Nat) : (s.bumpF a hi lo).plt = s.plt := rfl
@[simp] theorem State.bumpF_thr (a hi lo : Nat) : (s.bumpF a hi lo).thr = s.thr := rfl
@[simp] theorem State.bumpF_bnd (a hi lo : Nat) : (s.bumpF a hi lo).bnd = s.bnd := rfl
@[simp] theorem State.bumpF_drl (a hi lo : Nat) : (s.bumpF a hi lo).drl = s.drl := rfl
@[simp] theorem State.bumpF_hgl (a hi lo : Nat) : (s.bumpF a hi lo).hgl = s.hgl := rfl
@[simp] theorem State.bumpF_lne (a hi lo : Nat) : (s.bumpF a hi lo).lne = s.lne := rfl
@[simp] theorem State.bumpF_lnk (a hi lo : Nat) : (s.bumpF a hi lo).lnk = s.lnk := rfl
@[simp] theorem State.bumpF_wal (a hi lo : Nat) : (s.bumpF a hi lo).wal = s.wal := rfl
@[simp] theorem State.bumpF_bur (a hi lo : Nat) : (s.bumpF a hi lo).bur = s.bur := rfl
@[simp] theorem State.bumpF_boot (a hi lo : Nat) : (s.bumpF a hi lo).boot = s.boot := rfl
@[simp] theorem State.bumpF_hst (a hi lo : Nat) : (s.bumpF a hi lo).hst = s.hst := rfl
@[simp] theorem State.bumpF_mem (a hi lo : Nat) : (s.bumpF a hi lo).mem = s.mem := rfl
@[simp] theorem State.bumpF_flash0 (a hi lo : Nat) : (s.bumpF a hi lo).flash0 = s.flash0 := rfl
@[simp] theorem State.bumpF_flash1 (a hi lo : Nat) : (s.bumpF a hi lo).flash1 = s.flash1 := rfl
@[simp] theorem State.bumpF_poison (a hi lo : Nat) : (s.bumpF a hi lo).poison = s.poison := rfl
@[simp] theorem State.bumpF_history (a hi lo : Nat) : (s.bumpF a hi lo).history = s.history := rfl
@[simp] theorem State.bumpF_tests (a hi lo : Nat) : (s.bumpF a hi lo).tests = s.tests := rfl
@[simp] theorem State.bumpF_out (a hi lo : Nat) : (s.bumpF a hi lo).out = s.out := rfl
@[simp] theorem State.bumpF_acc (a hi lo : Nat) : (s.bumpF a hi lo).acc = s.acc := rfl
@[simp] theorem State.bumpF_accBytes (a hi lo : Nat) : (s.bumpF a hi lo).accBytes = s.accBytes := rfl

@[simp] theorem State.result_pending (x v : Nat) : (s.result x v).pending = s.pending := rfl
@[simp] theorem State.result_now (x v : Nat) : (s.result x v).now = s.now := rfl
@[simp] theorem State.result_tickStart (x v : Nat) : (s.result x v).tickStart = s.tickStart := rfl
@[simp] theorem State.result_freeCtr (x v : Nat) : (s.result x v).freeCtr = s.freeCtr := rfl
@[simp] theorem State.result_regs (x v : Nat) : (s.result x v).regs = s.regs := rfl
@[simp] theorem State.result_ev (x v : Nat) : (s.result x v).ev = s.ev := rfl
@[simp] theorem State.result_fpl (x v : Nat) : (s.result x v).fpl = s.fpl := rfl
@[simp] theorem State.result_sbk (x v : Nat) : (s.result x v).sbk = s.sbk := rfl
@[simp] theorem State.result_etc (x v : Nat) : (s.result x v).etc = s.etc := rfl
@[simp] theorem State.result_thm (x v : Nat) : (s.result x v).thm = s.thm := rfl
@[simp] theorem State.result_grn (x v : Nat) : (s.result x v).grn = s.grn := rfl
@[simp] theorem State.result_dmc (x v : Nat) : (s.result x v).dmc = s.dmc := rfl
@[simp] theorem State.result_plt (x v : Nat) : (s.result x v).plt = s.plt := rfl
@[simp] theorem State.result_thr (x v : Nat) : (s.result x v).thr = s.thr := rfl
@[simp] theorem State.result_bnd (x v : Nat) : (s.result x v).bnd = s.bnd := rfl
@[simp] theorem State.result_drl (x v : Nat) : (s.result x v).drl = s.drl := rfl
@[simp] theorem State.result_hgl (x v : Nat) : (s.result x v).hgl = s.hgl := rfl
@[simp] theorem State.result_lne (x v : Nat) : (s.result x v).lne = s.lne := rfl
@[simp] theorem State.result_lnk (x v : Nat) : (s.result x v).lnk = s.lnk := rfl
@[simp] theorem State.result_wal (x v : Nat) : (s.result x v).wal = s.wal := rfl
@[simp] theorem State.result_bur (x v : Nat) : (s.result x v).bur = s.bur := rfl
@[simp] theorem State.result_boot (x v : Nat) : (s.result x v).boot = s.boot := rfl
@[simp] theorem State.result_hst (x v : Nat) : (s.result x v).hst = s.hst := rfl
@[simp] theorem State.result_mem (x v : Nat) : (s.result x v).mem = s.mem := rfl
@[simp] theorem State.result_flash0 (x v : Nat) : (s.result x v).flash0 = s.flash0 := rfl
@[simp] theorem State.result_flash1 (x v : Nat) : (s.result x v).flash1 = s.flash1 := rfl
@[simp] theorem State.result_poison (x v : Nat) : (s.result x v).poison = s.poison := rfl
@[simp] theorem State.result_history (x v : Nat) : (s.result x v).history = s.history := rfl
@[simp] theorem State.result_tests (x v : Nat) : (s.result x v).tests = s.tests := rfl
@[simp] theorem State.result_out (x v : Nat) : (s.result x v).out = s.out := rfl
@[simp] theorem State.result_accBytes (x v : Nat) : (s.result x v).accBytes = s.accBytes := rfl

@[simp] theorem State.resultBytes_pending (x : Nat) (b : Bytes) : (s.resultBytes x b).pending = s.pending := rfl
@[simp] theorem State.resultBytes_now (x : Nat) (b : Bytes) : (s.resultBytes x b).now = s.now := rfl
@[simp] theorem State.resultBytes_tickStart (x : Nat) (b : Bytes) : (s.resultBytes x b).tickStart = s.tickStart := rfl
@[simp] theorem State.resultBytes_freeCtr (x : Nat) (b : Bytes) : (s.resultBytes x b).freeCtr = s.freeCtr := rfl
@[simp] theorem State.resultBytes_regs (x : Nat) (b : Bytes) : (s.resultBytes x b).regs = s.regs := rfl
@[simp] theorem State.resultBytes_ev (x : Nat) (b : Bytes) : (s.resultBytes x b).ev = s.ev := rfl
@[simp] theorem State.resultBytes_fpl (x : Nat) (b : Bytes) : (s.resultBytes x b).fpl = s.fpl := rfl
@[simp] theorem State.resultBytes_sbk (x : Nat) (b : Bytes) : (s.resultBytes x b).sbk = s.sbk := rfl
@[simp] theorem State.resultBytes_etc (x : Nat) (b : Bytes) : (s.resultBytes x b).etc = s.etc := rfl
@[simp] theorem State.resultBytes_thm (x : Nat) (b : Bytes) : (s.resultBytes x b).thm = s.thm := rfl
@[simp] theorem State.resultBytes_grn (x : Nat) (b : Bytes) : (s.resultBytes x b).grn = s.grn := rfl
@[simp] theorem State.resultBytes_dmc (x : Nat) (b : Bytes) : (s.resultBytes x b).dmc = s.dmc := rfl
@[simp] theorem State.resultBytes_plt (x : Nat) (b : Bytes) : (s.resultBytes x b).plt = s.plt := rfl
@[simp] theorem State.resultBytes_thr (x : Nat) (b : Bytes) : (s.resultBytes x b).thr = s.thr := rfl
@[simp] theorem State.resultBytes_bnd (x : Nat) (b : Bytes) : (s.resultBytes x b).bnd = s.bnd := rfl
@[simp] theorem State.resultBytes_drl (x : Nat) (b : Bytes) : (s.resultBytes x b).drl = s.drl := rfl
@[simp] theorem State.resultBytes_hgl (x : Nat) (b : Bytes) : (s.resultBytes x b).hgl = s.hgl := rfl
@[simp] theorem State.resultBytes_lne (x : Nat) (b : Bytes) : (s.resultBytes x b).lne = s.lne := rfl
@[simp] theorem State.resultBytes_lnk (x : Nat) (b : Bytes) : (s.resultBytes x b).lnk = s.lnk := rfl
@[simp] theorem State.resultBytes_wal (x : Nat) (b : Bytes) : (s.resultBytes x b).wal = s.wal := rfl
@[simp] theorem State.resultBytes_bur (x : Nat) (b : Bytes) : (s.resultBytes x b).bur = s.bur := rfl
@[simp] theorem State.resultBytes_boot (x : Nat) (b : Bytes) : (s.resultBytes x b).boot = s.boot := rfl
@[simp] theorem State.resultBytes_hst (x : Nat) (b : Bytes) : (s.resultBytes x b).hst = s.hst := rfl
@[simp] theorem State.resultBytes_mem (x : Nat) (b : Bytes) : (s.resultBytes x b).mem = s.mem := rfl
@[simp] theorem State.resultBytes_flash0 (x : Nat) (b : Bytes) : (s.resultBytes x b).flash0 = s.flash0 := rfl
@[simp] theorem State.resultBytes_flash1 (x : Nat) (b : Bytes) : (s.resultBytes x b).flash1 = s.flash1 := rfl
@[simp] theorem State.resultBytes_poison (x : Nat) (b : Bytes) : (s.resultBytes x b).poison = s.poison := rfl
@[simp] theorem State.resultBytes_history (x : Nat) (b : Bytes) : (s.resultBytes x b).history = s.history := rfl
@[simp] theorem State.resultBytes_tests (x : Nat) (b : Bytes) : (s.resultBytes x b).tests = s.tests := rfl
@[simp] theorem State.resultBytes_out (x : Nat) (b : Bytes) : (s.resultBytes x b).out = s.out := rfl

@[simp] theorem State.put_pending (o : Out) : (s.put o).pending = s.pending := rfl
@[simp] theorem State.put_now (o : Out) : (s.put o).now = s.now := rfl
@[simp] theorem State.put_tickStart (o : Out) : (s.put o).tickStart = s.tickStart := rfl
@[simp] theorem State.put_freeCtr (o : Out) : (s.put o).freeCtr = s.freeCtr := rfl
@[simp] theorem State.put_regs (o : Out) : (s.put o).regs = s.regs := rfl
@[simp] theorem State.put_ev (o : Out) : (s.put o).ev = s.ev := rfl
@[simp] theorem State.put_fpl (o : Out) : (s.put o).fpl = s.fpl := rfl
@[simp] theorem State.put_sbk (o : Out) : (s.put o).sbk = s.sbk := rfl
@[simp] theorem State.put_etc (o : Out) : (s.put o).etc = s.etc := rfl
@[simp] theorem State.put_thm (o : Out) : (s.put o).thm = s.thm := rfl
@[simp] theorem State.put_grn (o : Out) : (s.put o).grn = s.grn := rfl
@[simp] theorem State.put_dmc (o : Out) : (s.put o).dmc = s.dmc := rfl
@[simp] theorem State.put_plt (o : Out) : (s.put o).plt = s.plt := rfl
@[simp] theorem State.put_thr (o : Out) : (s.put o).thr = s.thr := rfl
@[simp] theorem State.put_bnd (o : Out) : (s.put o).bnd = s.bnd := rfl
@[simp] theorem State.put_drl (o : Out) : (s.put o).drl = s.drl := rfl
@[simp] theorem State.put_hgl (o : Out) : (s.put o).hgl = s.hgl := rfl
@[simp] theorem State.put_lne (o : Out) : (s.put o).lne = s.lne := rfl
@[simp] theorem State.put_lnk (o : Out) : (s.put o).lnk = s.lnk := rfl
@[simp] theorem State.put_wal (o : Out) : (s.put o).wal = s.wal := rfl
@[simp] theorem State.put_bur (o : Out) : (s.put o).bur = s.bur := rfl
@[simp] theorem State.put_boot (o : Out) : (s.put o).boot = s.boot := rfl
@[simp] theorem State.put_hst (o : Out) : (s.put o).hst = s.hst := rfl
@[simp] theorem State.put_mem (o : Out) : (s.put o).mem = s.mem := rfl
@[simp] theorem State.put_flash0 (o : Out) : (s.put o).flash0 = s.flash0 := rfl
@[simp] theorem State.put_flash1 (o : Out) : (s.put o).flash1 = s.flash1 := rfl
@[simp] theorem State.put_poison (o : Out) : (s.put o).poison = s.poison := rfl
@[simp] theorem State.put_history (o : Out) : (s.put o).history = s.history := rfl
@[simp] theorem State.put_tests (o : Out) : (s.put o).tests = s.tests := rfl
@[simp] theorem State.put_acc (o : Out) : (s.put o).acc = s.acc := rfl
@[simp] theorem State.put_accBytes (o : Out) : (s.put o).accBytes = s.accBytes := rfl

@[simp] theorem State.setFrame_pending (n : Nat) : (s.setFrame n).pending = s.pending := rfl
@[simp] theorem State.setFrame_now (n : Nat) : (s.setFrame n).now = s.now := rfl
@[simp] theorem State.setFrame_tickStart (n : Nat) : (s.setFrame n).tickStart = s.tickStart := rfl
@[simp] theorem State.setFrame_freeCtr (n : Nat) : (s.setFrame n).freeCtr = s.freeCtr := rfl
@[simp] theorem State.setFrame_regs (n : Nat) : (s.setFrame n).regs = s.regs := rfl
@[simp] theorem State.setFrame_ev (n : Nat) : (s.setFrame n).ev = s.ev := rfl
@[simp] theorem State.setFrame_sbk (n : Nat) : (s.setFrame n).sbk = s.sbk := rfl
@[simp] theorem State.setFrame_etc (n : Nat) : (s.setFrame n).etc = s.etc := rfl
@[simp] theorem State.setFrame_thm (n : Nat) : (s.setFrame n).thm = s.thm := rfl
@[simp] theorem State.setFrame_grn (n : Nat) : (s.setFrame n).grn = s.grn := rfl
@[simp] theorem State.setFrame_dmc (n : Nat) : (s.setFrame n).dmc = s.dmc := rfl
@[simp] theorem State.setFrame_plt (n : Nat) : (s.setFrame n).plt = s.plt := rfl
@[simp] theorem State.setFrame_thr (n : Nat) : (s.setFrame n).thr = s.thr := rfl
@[simp] theorem State.setFrame_bnd (n : Nat) : (s.setFrame n).bnd = s.bnd := rfl
@[simp] theorem State.setFrame_drl (n : Nat) : (s.setFrame n).drl = s.drl := rfl
@[simp] theorem State.setFrame_hgl (n : Nat) : (s.setFrame n).hgl = s.hgl := rfl
@[simp] theorem State.setFrame_lne (n : Nat) : (s.setFrame n).lne = s.lne := rfl
@[simp] theorem State.setFrame_lnk (n : Nat) : (s.setFrame n).lnk = s.lnk := rfl
@[simp] theorem State.setFrame_wal (n : Nat) : (s.setFrame n).wal = s.wal := rfl
@[simp] theorem State.setFrame_bur (n : Nat) : (s.setFrame n).bur = s.bur := rfl
@[simp] theorem State.setFrame_boot (n : Nat) : (s.setFrame n).boot = s.boot := rfl
@[simp] theorem State.setFrame_hst (n : Nat) : (s.setFrame n).hst = s.hst := rfl
@[simp] theorem State.setFrame_mem (n : Nat) : (s.setFrame n).mem = s.mem := rfl
@[simp] theorem State.setFrame_flash0 (n : Nat) : (s.setFrame n).flash0 = s.flash0 := rfl
@[simp] theorem State.setFrame_flash1 (n : Nat) : (s.setFrame n).flash1 = s.flash1 := rfl
@[simp] theorem State.setFrame_poison (n : Nat) : (s.setFrame n).poison = s.poison := rfl
@[simp] theorem State.setFrame_history (n : Nat) : (s.setFrame n).history = s.history := rfl
@[simp] theorem State.setFrame_tests (n : Nat) : (s.setFrame n).tests = s.tests := rfl
@[simp] theorem State.setFrame_out (n : Nat) : (s.setFrame n).out = s.out := rfl
@[simp] theorem State.setFrame_acc (n : Nat) : (s.setFrame n).acc = s.acc := rfl
@[simp] theorem State.setFrame_accBytes (n : Nat) : (s.setFrame n).accBytes = s.accBytes := rfl

@[simp] theorem State.result_rd (x v : Nat) (c : Nat) : (s.result x v).rd c = s.rd c := rfl
@[simp] theorem State.resultBytes_rd (x : Nat) (b : Bytes) (c : Nat) : (s.resultBytes x b).rd c = s.rd c := rfl
@[simp] theorem State.put_rd (o : Out) (c : Nat) : (s.put o).rd c = s.rd c := rfl
@[simp] theorem State.setFrame_rd (n : Nat) (c : Nat) : (s.setFrame n).rd c = s.rd c := rfl

/-! ### Registers read back -/

theorem State.rd_wr (a v c : Nat) : (s.wr a v).rd c = if c = a then v % 2 ^ 32 else s.rd c := by
  by_cases h : c = a
  · subst h
    simp [State.rd, State.wr]
  · simp [State.rd, State.wr, h, sget_sset_of_ne]

@[simp] theorem State.rd_wr_self (a v : Nat) : (s.wr a v).rd a = v % 2 ^ 32 := by simp [State.rd_wr]

theorem State.rd_wr_ne {a c : Nat} (v : Nat) (h : c ≠ a) : (s.wr a v).rd c = s.rd c := by simp [State.rd_wr, h]

theorem State.rd_lt (a : Nat) : s.rd a < 2 ^ 32 := BitVec.isLt _

theorem State.rd_wrF (a hi lo v c : Nat) (h : lo ≤ hi) (hh : hi < 32) :
    (s.wrF a hi lo v).rd c = if c = a then putFld (s.rd a) hi lo v else s.rd c := by
  rw [State.wrF, State.rd_wr, Nat.mod_eq_of_lt (putFld_lt h hh (s.rd_lt a))]

theorem State.rd_wrF_ne {a c : Nat} (hi lo v : Nat) (h : c ≠ a) : (s.wrF a hi lo v).rd c = s.rd c :=
  s.rd_wr_ne _ h

theorem State.rdF_wrF_self (a v : Nat) {hi lo : Nat} (h : lo ≤ hi) (hh : hi < 32) :
    (s.wrF a hi lo v).rdF a hi lo = v % 2 ^ (hi + 1 - lo) := by
  rw [State.rdF, State.rd_wrF s _ _ _ _ _ h hh, if_pos rfl, fld_putFld_self h]

theorem State.rdF_wrF_disjoint (a v : Nat) {hi lo x y : Nat} (h : lo ≤ hi) (hh : hi < 32) (hd : x < lo ∨ hi < y) :
    (s.wrF a hi lo v).rdF a x y = s.rdF a x y := by
  rw [State.rdF, State.rd_wrF s _ _ _ _ _ h hh, if_pos rfl, fld_putFld_of_disjoint h _ _ hd, State.rdF]

theorem State.rdF_wrF_ne {a c : Nat} (hi lo v x y : Nat) (h : c ≠ a) : (s.wrF a hi lo v).rdF c x y = s.rdF c x y := by
  rw [State.rdF, State.rd_wrF_ne s _ _ _ h, State.rdF]

theorem State.rd_orR (a m c : Nat) (h : m < 2 ^ 32) : (s.orR a m).rd c = if c = a then s.rd a ||| m else s.rd c := by
  rw [State.orR, State.rd_wr, Nat.mod_eq_of_lt (Nat.or_lt_two_pow (s.rd_lt a) h)]

/-- A counter register counts up to 0xFFFF_FFFF and stays there. -/
theorem State.rd_bump (a c : Nat) : (s.bump a).rd c = if c = a then min (s.rd a + 1) (2 ^ 32 - 1) else s.rd c := by
  rw [State.bump, State.bumpBy, State.rd_wr]
  split
  · rw [Nat.mod_eq_of_lt] <;> unfold satN <;> omega
  · rfl

/-! ### What a reported event leaves as it is -/

theorem State.report_same (code : Nat) (args : List Nat) (b : Block) (hb : (0x800010000048 : Nat).testBit b.idx = false) : b.same s (s.report code args) :=
  (State.report_keeps _ _ (Sub.refl _) (Keeps.refl _ s)).same b hb

@[simp] theorem State.report_pending (code : Nat) (args : List Nat) : (s.report code args).pending = s.pending :=
  (State.report_keeps _ _ (Sub.refl _) (Keeps.refl _ s)).pending

@[simp] theorem State.report_now (code : Nat) (args : List Nat) : (s.report code args).now = s.now := s.report_same code args .now rfl
@[simp] theorem State.report_tickStart (code : Nat) (args : List Nat) : (s.report code args).tickStart = s.tickStart := s.report_same code args .tickStart rfl
@[simp] theorem State.report_freeCtr (code : Nat) (args : List Nat) : (s.report code args).freeCtr = s.freeCtr := s.report_same code args .freeCtr rfl
@[simp] theorem State.report_fpl (code : Nat) (args : List Nat) : (s.report code args).fpl = s.fpl := s.report_same code args .fpl rfl
@[simp] theorem State.report_etc (code : Nat) (args : List Nat) : (s.report code args).etc = s.etc := s.report_same code args .etc rfl
@[simp] theorem State.report_thm (code : Nat) (args : List Nat) : (s.report code args).thm = s.thm := s.report_same code args .thm rfl
@[simp] theorem State.report_grn (code : Nat) (args : List Nat) : (s.report code args).grn = s.grn := s.report_same code args .grn rfl
@[simp] theorem State.report_dmc (code : Nat) (args : List Nat) : (s.report code args).dmc = s.dmc := s.report_same code args .dmc rfl
@[simp] theorem State.report_plt (code : Nat) (args : List Nat) : (s.report code args).plt = s.plt := s.report_same code args .plt rfl
@[simp] theorem State.report_thr (code : Nat) (args : List Nat) : (s.report code args).thr = s.thr := s.report_same code args .thr rfl
@[simp] theorem State.report_bnd (code : Nat) (args : List Nat) : (s.report code args).bnd = s.bnd := s.report_same code args .bnd rfl
@[simp] theorem State.report_drl (code : Nat) (args : List Nat) : (s.report code args).drl = s.drl := s.report_same code args .drl rfl
@[simp] theorem State.report_hgl (code : Nat) (args : List Nat) : (s.report code args).hgl = s.hgl := s.report_same code args .hgl rfl
@[simp] theorem State.report_lne (code : Nat) (args : List Nat) : (s.report code args).lne = s.lne := s.report_same code args .lne rfl
@[simp] theorem State.report_lnk (code : Nat) (args : List Nat) : (s.report code args).lnk = s.lnk := s.report_same code args .lnk rfl
@[simp] theorem State.report_wal (code : Nat) (args : List Nat) : (s.report code args).wal = s.wal := s.report_same code args .wal rfl
@[simp] theorem State.report_bur (code : Nat) (args : List Nat) : (s.report code args).bur = s.bur := s.report_same code args .bur rfl
@[simp] theorem State.report_boot (code : Nat) (args : List Nat) : (s.report code args).boot = s.boot := s.report_same code args .boot rfl
@[simp] theorem State.report_hst (code : Nat) (args : List Nat) : (s.report code args).hst = s.hst := s.report_same code args .hst rfl
@[simp] theorem State.report_mem (code : Nat) (args : List Nat) : (s.report code args).mem = s.mem := s.report_same code args .mem rfl
@[simp] theorem State.report_flash0 (code : Nat) (args : List Nat) : (s.report code args).flash0 = s.flash0 := s.report_same code args .flash0 rfl
@[simp] theorem State.report_flash1 (code : Nat) (args : List Nat) : (s.report code args).flash1 = s.flash1 := s.report_same code args .flash1 rfl
@[simp] theorem State.report_poison (code : Nat) (args : List Nat) : (s.report code args).poison = s.poison := s.report_same code args .poison rfl
@[simp] theorem State.report_history (code : Nat) (args : List Nat) : (s.report code args).history = s.history := s.report_same code args .history rfl
@[simp] theorem State.report_tests (code : Nat) (args : List Nat) : (s.report code args).tests = s.tests := s.report_same code args .tests rfl
@[simp] theorem State.report_acc (code : Nat) (args : List Nat) : (s.report code args).acc = s.acc := s.report_same code args .acc rfl
@[simp] theorem State.report_accBytes (code : Nat) (args : List Nat) : (s.report code args).accBytes = s.accBytes := s.report_same code args .accBytes rfl

@[simp] theorem State.report_rest (code : Nat) (args : List Nat) : (s.report code args).sbk.rest = s.sbk.rest := s.report_same code args .sbk rfl

theorem State.report_rd (code : Nat) (args : List Nat) {c : Nat} (h : regGroup c ≠ .events) : (s.report code args).rd c = s.rd c :=
  s.report_same code args (.reg (regGroup c)) (by revert h; generalize regGroup c = g; cases g <;> decide) c rfl

theorem State.reportC_same (code cls : Nat) (args : List Nat) (b : Block) (hb : (0x800010000048 : Nat).testBit b.idx = false) : b.same s (s.reportC code cls args) :=
  (State.reportC_keeps _ _ _ (Sub.refl _) (Keeps.refl _ s)).same b hb

@[simp] theorem State.reportC_pending (code cls : Nat) (args : List Nat) : (s.reportC code cls args).pending = s.pending :=
  (State.reportC_keeps _ _ _ (Sub.refl _) (Keeps.refl _ s)).pending

@[simp] theorem State.reportC_now (code cls : Nat) (args : List Nat) : (s.reportC code cls args).now = s.now := s.reportC_same code cls args .now rfl
@[simp] theorem State.reportC_tickStart (code cls : Nat) (args : List Nat) : (s.reportC code cls args).tickStart = s.tickStart := s.reportC_same code cls args .tickStart rfl
@[simp] theorem State.reportC_freeCtr (code cls : Nat) (args : List Nat) : (s.reportC code cls args).freeCtr = s.freeCtr := s.reportC_same code cls args .freeCtr rfl
@[simp] theorem State.reportC_fpl (code cls : Nat) (args : List Nat) : (s.reportC code cls args).fpl = s.fpl := s.reportC_same code cls args .fpl rfl
@[simp] theorem State.reportC_etc (code cls : Nat) (args : List Nat) : (s.reportC code cls args).etc = s.etc := s.reportC_same code cls args .etc rfl
@[simp] theorem State.reportC_thm (code cls : Nat) (args : List Nat) : (s.reportC code cls args).thm = s.thm := s.reportC_same code cls args .thm rfl
@[simp] theorem State.reportC_grn (code cls : Nat) (args : List Nat) : (s.reportC code cls args).grn = s.grn := s.reportC_same code cls args .grn rfl
@[simp] theorem State.reportC_dmc (code cls : Nat) (args : List Nat) : (s.reportC code cls args).dmc = s.dmc := s.reportC_same code cls args .dmc rfl
@[simp] theorem State.reportC_plt (code cls : Nat) (args : List Nat) : (s.reportC code cls args).plt = s.plt := s.reportC_same code cls args .plt rfl
@[simp] theorem State.reportC_thr (code cls : Nat) (args : List Nat) : (s.reportC code cls args).thr = s.thr := s.reportC_same code cls args .thr rfl
@[simp] theorem State.reportC_bnd (code cls : Nat) (args : List Nat) : (s.reportC code cls args).bnd = s.bnd := s.reportC_same code cls args .bnd rfl
@[simp] theorem State.reportC_drl (code cls : Nat) (args : List Nat) : (s.reportC code cls args).drl = s.drl := s.reportC_same code cls args .drl rfl
@[simp] theorem State.reportC_hgl (code cls : Nat) (args : List Nat) : (s.reportC code cls args).hgl = s.hgl := s.reportC_same code cls args .hgl rfl
@[simp] theorem State.reportC_lne (code cls : Nat) (args : List Nat) : (s.reportC code cls args).lne = s.lne := s.reportC_same code cls args .lne rfl
@[simp] theorem State.reportC_lnk (code cls : Nat) (args : List Nat) : (s.reportC code cls args).lnk = s.lnk := s.reportC_same code cls args .lnk rfl
@[simp] theorem State.reportC_wal (code cls : Nat) (args : List Nat) : (s.reportC code cls args).wal = s.wal := s.reportC_same code cls args .wal rfl
@[simp] theorem State.reportC_bur (code cls : Nat) (args : List Nat) : (s.reportC code cls args).bur = s.bur := s.reportC_same code cls args .bur rfl
@[simp] theorem State.reportC_boot (code cls : Nat) (args : List Nat) : (s.reportC code cls args).boot = s.boot := s.reportC_same code cls args .boot rfl
@[simp] theorem State.reportC_hst (code cls : Nat) (args : List Nat) : (s.reportC code cls args).hst = s.hst := s.reportC_same code cls args .hst rfl
@[simp] theorem State.reportC_mem (code cls : Nat) (args : List Nat) : (s.reportC code cls args).mem = s.mem := s.reportC_same code cls args .mem rfl
@[simp] theorem State.reportC_flash0 (code cls : Nat) (args : List Nat) : (s.reportC code cls args).flash0 = s.flash0 := s.reportC_same code cls args .flash0 rfl
@[simp] theorem State.reportC_flash1 (code cls : Nat) (args : List Nat) : (s.reportC code cls args).flash1 = s.flash1 := s.reportC_same code cls args .flash1 rfl
@[simp] theorem State.reportC_poison (code cls : Nat) (args : List Nat) : (s.reportC code cls args).poison = s.poison := s.reportC_same code cls args .poison rfl
@[simp] theorem State.reportC_history (code cls : Nat) (args : List Nat) : (s.reportC code cls args).history = s.history := s.reportC_same code cls args .history rfl
@[simp] theorem State.reportC_tests (code cls : Nat) (args : List Nat) : (s.reportC code cls args).tests = s.tests := s.reportC_same code cls args .tests rfl
@[simp] theorem State.reportC_acc (code cls : Nat) (args : List Nat) : (s.reportC code cls args).acc = s.acc := s.reportC_same code cls args .acc rfl
@[simp] theorem State.reportC_accBytes (code cls : Nat) (args : List Nat) : (s.reportC code cls args).accBytes = s.accBytes := s.reportC_same code cls args .accBytes rfl

@[simp] theorem State.reportC_rest (code cls : Nat) (args : List Nat) : (s.reportC code cls args).sbk.rest = s.sbk.rest := s.reportC_same code cls args .sbk rfl

theorem State.reportC_rd (code cls : Nat) (args : List Nat) {c : Nat} (h : regGroup c ≠ .events) : (s.reportC code cls args).rd c = s.rd c :=
  s.reportC_same code cls args (.reg (regGroup c)) (by revert h; generalize regGroup c = g; cases g <;> decide) c rfl

theorem State.reportRec_same (r : EvRec) (b : Block) (hb : (0x800010000048 : Nat).testBit b.idx = false) : b.same s (s.reportRec r) :=
  (State.reportRec_keeps _ (Sub.refl _) (Keeps.refl _ s)).same b hb

@[simp] theorem State.reportRec_pending (r : EvRec) : (s.reportRec r).pending = s.pending :=
  (State.reportRec_keeps _ (Sub.refl _) (Keeps.refl _ s)).pending

@[simp] theorem State.reportRec_now (r : EvRec) : (s.reportRec r).now = s.now := s.reportRec_same r .now rfl
@[simp] theorem State.reportRec_tickStart (r : EvRec) : (s.reportRec r).tickStart = s.tickStart := s.reportRec_same r .tickStart rfl
@[simp] theorem State.reportRec_freeCtr (r : EvRec) : (s.reportRec r).freeCtr = s.freeCtr := s.reportRec_same r .freeCtr rfl
@[simp] theorem State.reportRec_fpl (r : EvRec) : (s.reportRec r).fpl = s.fpl := s.reportRec_same r .fpl rfl
@[simp] theorem State.reportRec_etc (r : EvRec) : (s.reportRec r).etc = s.etc := s.reportRec_same r .etc rfl
@[simp] theorem State.reportRec_thm (r : EvRec) : (s.reportRec r).thm = s.thm := s.reportRec_same r .thm rfl
@[simp] theorem State.reportRec_grn (r : EvRec) : (s.reportRec r).grn = s.grn := s.reportRec_same r .grn rfl
@[simp] theorem State.reportRec_dmc (r : EvRec) : (s.reportRec r).dmc = s.dmc := s.reportRec_same r .dmc rfl
@[simp] theorem State.reportRec_plt (r : EvRec) : (s.reportRec r).plt = s.plt := s.reportRec_same r .plt rfl
@[simp] theorem State.reportRec_thr (r : EvRec) : (s.reportRec r).thr = s.thr := s.reportRec_same r .thr rfl
@[simp] theorem State.reportRec_bnd (r : EvRec) : (s.reportRec r).bnd = s.bnd := s.reportRec_same r .bnd rfl
@[simp] theorem State.reportRec_drl (r : EvRec) : (s.reportRec r).drl = s.drl := s.reportRec_same r .drl rfl
@[simp] theorem State.reportRec_hgl (r : EvRec) : (s.reportRec r).hgl = s.hgl := s.reportRec_same r .hgl rfl
@[simp] theorem State.reportRec_lne (r : EvRec) : (s.reportRec r).lne = s.lne := s.reportRec_same r .lne rfl
@[simp] theorem State.reportRec_lnk (r : EvRec) : (s.reportRec r).lnk = s.lnk := s.reportRec_same r .lnk rfl
@[simp] theorem State.reportRec_wal (r : EvRec) : (s.reportRec r).wal = s.wal := s.reportRec_same r .wal rfl
@[simp] theorem State.reportRec_bur (r : EvRec) : (s.reportRec r).bur = s.bur := s.reportRec_same r .bur rfl
@[simp] theorem State.reportRec_boot (r : EvRec) : (s.reportRec r).boot = s.boot := s.reportRec_same r .boot rfl
@[simp] theorem State.reportRec_hst (r : EvRec) : (s.reportRec r).hst = s.hst := s.reportRec_same r .hst rfl
@[simp] theorem State.reportRec_mem (r : EvRec) : (s.reportRec r).mem = s.mem := s.reportRec_same r .mem rfl
@[simp] theorem State.reportRec_flash0 (r : EvRec) : (s.reportRec r).flash0 = s.flash0 := s.reportRec_same r .flash0 rfl
@[simp] theorem State.reportRec_flash1 (r : EvRec) : (s.reportRec r).flash1 = s.flash1 := s.reportRec_same r .flash1 rfl
@[simp] theorem State.reportRec_poison (r : EvRec) : (s.reportRec r).poison = s.poison := s.reportRec_same r .poison rfl
@[simp] theorem State.reportRec_history (r : EvRec) : (s.reportRec r).history = s.history := s.reportRec_same r .history rfl
@[simp] theorem State.reportRec_tests (r : EvRec) : (s.reportRec r).tests = s.tests := s.reportRec_same r .tests rfl
@[simp] theorem State.reportRec_acc (r : EvRec) : (s.reportRec r).acc = s.acc := s.reportRec_same r .acc rfl
@[simp] theorem State.reportRec_accBytes (r : EvRec) : (s.reportRec r).accBytes = s.accBytes := s.reportRec_same r .accBytes rfl

@[simp] theorem State.reportRec_rest (r : EvRec) : (s.reportRec r).sbk.rest = s.sbk.rest := s.reportRec_same r .sbk rfl

theorem State.reportRec_rd (r : EvRec) {c : Nat} (h : regGroup c ≠ .events) : (s.reportRec r).rd c = s.rd c :=
  s.reportRec_same r (.reg (regGroup c)) (by revert h; generalize regGroup c = g; cases g <;> decide) c rfl

/-! ### What the end of a core cycle leaves as it is -/

theorem State.oneCycle_same (f : State → State) (b : Block) (hb : (0x800010000048 : Nat).testBit b.idx = false) :
    b.same (f s.opened) (s.oneCycle f) := by
  unfold State.oneCycle State.opened
  split
  · rename_i h
    try simp only [h]
    exact Block.same.refl b _
  · rename_i h
    try simp only [h]
    generalize f { s with ev := { s.ev with cycle := some [] } } = t
    have h0 : b.same t { t with ev := { t.ev with cycle := none } } := by
      cases b <;> first
        | exact rfl | exact fun _ _ => rfl | exact ⟨rfl, rfl, rfl, rfl⟩ | exact absurd hb (by decide)
    exact h0.trans ((Keeps.foldl (W := 0x800010000048) (fun _ _ => State.reportRec_keeps _ (Sub.refl _))
      (cycleOrder (t.ev.cycle.getD [])) (Keeps.refl _ _)).same b hb)

@[simp] theorem State.opened_pending : s.opened.pending = s.pending := by unfold State.opened; split <;> rfl
@[simp] theorem State.opened_now : s.opened.now = s.now := by unfold State.opened; split <;> rfl
@[simp] theorem State.opened_tickStart : s.opened.tickStart = s.tickStart := by unfold State.opened; split <;> rfl
@[simp] theorem State.opened_freeCtr : s.opened.freeCtr = s.freeCtr := by unfold State.opened; split <;> rfl
@[simp] theorem State.opened_regs : s.opened.regs = s.regs := by unfold State.opened; split <;> rfl
@[simp] theorem State.opened_fpl : s.opened.fpl = s.fpl := by unfold State.opened; split <;> rfl
@[simp] theorem State.opened_sbk : s.opened.sbk = s.sbk := by unfold State.opened; split <;> rfl
@[simp] theorem State.opened_etc : s.opened.etc = s.etc := by unfold State.opened; split <;> rfl
@[simp] theorem State.opened_thm : s.opened.thm = s.thm := by unfold State.opened; split <;> rfl
@[simp] theorem State.opened_grn : s.opened.grn = s.grn := by unfold State.opened; split <;> rfl
@[simp] theorem State.opened_dmc : s.opened.dmc = s.dmc := by unfold State.opened; split <;> rfl
@[simp] theorem State.opened_plt : s.opened.plt = s.plt := by unfold State.opened; split <;> rfl
@[simp] theorem State.opened_thr : s.opened.thr = s.thr := by unfold State.opened; split <;> rfl
@[simp] theorem State.opened_bnd : s.opened.bnd = s.bnd := by unfold State.opened; split <;> rfl
@[simp] theorem State.opened_drl : s.opened.drl = s.drl := by unfold State.opened; split <;> rfl
@[simp] theorem State.opened_hgl : s.opened.hgl = s.hgl := by unfold State.opened; split <;> rfl
@[simp] theorem State.opened_lne : s.opened.lne = s.lne := by unfold State.opened; split <;> rfl
@[simp] theorem State.opened_lnk : s.opened.lnk = s.lnk := by unfold State.opened; split <;> rfl
@[simp] theorem State.opened_wal : s.opened.wal = s.wal := by unfold State.opened; split <;> rfl
@[simp] theorem State.opened_bur : s.opened.bur = s.bur := by unfold State.opened; split <;> rfl
@[simp] theorem State.opened_boot : s.opened.boot = s.boot := by unfold State.opened; split <;> rfl
@[simp] theorem State.opened_hst : s.opened.hst = s.hst := by unfold State.opened; split <;> rfl
@[simp] theorem State.opened_mem : s.opened.mem = s.mem := by unfold State.opened; split <;> rfl
@[simp] theorem State.opened_flash0 : s.opened.flash0 = s.flash0 := by unfold State.opened; split <;> rfl
@[simp] theorem State.opened_flash1 : s.opened.flash1 = s.flash1 := by unfold State.opened; split <;> rfl
@[simp] theorem State.opened_poison : s.opened.poison = s.poison := by unfold State.opened; split <;> rfl
@[simp] theorem State.opened_history : s.opened.history = s.history := by unfold State.opened; split <;> rfl
@[simp] theorem State.opened_tests : s.opened.tests = s.tests := by unfold State.opened; split <;> rfl
@[simp] theorem State.opened_out : s.opened.out = s.out := by unfold State.opened; split <;> rfl
@[simp] theorem State.opened_acc : s.opened.acc = s.acc := by unfold State.opened; split <;> rfl
@[simp] theorem State.opened_accBytes : s.opened.accBytes = s.accBytes := by unfold State.opened; split <;> rfl
@[simp] theorem State.opened_rd (c : Nat) : s.opened.rd c = s.rd c := by simp [State.rd]

@[simp] theorem State.opened_rdF (c hi lo : Nat) : s.opened.rdF c hi lo = s.rdF c hi lo := by simp [State.rdF]

@[simp] theorem State.oneCycle_now (f : State → State) : (s.oneCycle f).now = (f s.opened).now := s.oneCycle_same f .now rfl
@[simp] theorem State.oneCycle_tickStart (f : State → State) : (s.oneCycle f).tickStart = (f s.opened).tickStart := s.oneCycle_same f .tickStart rfl
@[simp] theorem State.oneCycle_freeCtr (f : State → State) : (s.oneCycle f).freeCtr = (f s.opened).freeCtr := s.oneCycle_same f .freeCtr rfl
@[simp] theorem State.oneCycle_fpl (f : State → State) : (s.oneCycle f).fpl = (f s.opened).fpl := s.oneCycle_same f .fpl rfl
@[simp] theorem State.oneCycle_etc (f : State → State) : (s.oneCycle f).etc = (f s.opened).etc := s.oneCycle_same f .etc rfl
@[simp] theorem State.oneCycle_thm (f : State → State) : (s.oneCycle f).thm = (f s.opened).thm := s.oneCycle_same f .thm rfl
@[simp] theorem State.oneCycle_grn (f : State → State) : (s.oneCycle f).grn = (f s.opened).grn := s.oneCycle_same f .grn rfl
@[simp] theorem State.oneCycle_dmc (f : State → State) : (s.oneCycle f).dmc = (f s.opened).dmc := s.oneCycle_same f .dmc rfl
@[simp] theorem State.oneCycle_plt (f : State → State) : (s.oneCycle f).plt = (f s.opened).plt := s.oneCycle_same f .plt rfl
@[simp] theorem State.oneCycle_thr (f : State → State) : (s.oneCycle f).thr = (f s.opened).thr := s.oneCycle_same f .thr rfl
@[simp] theorem State.oneCycle_bnd (f : State → State) : (s.oneCycle f).bnd = (f s.opened).bnd := s.oneCycle_same f .bnd rfl
@[simp] theorem State.oneCycle_drl (f : State → State) : (s.oneCycle f).drl = (f s.opened).drl := s.oneCycle_same f .drl rfl
@[simp] theorem State.oneCycle_hgl (f : State → State) : (s.oneCycle f).hgl = (f s.opened).hgl := s.oneCycle_same f .hgl rfl
@[simp] theorem State.oneCycle_lne (f : State → State) : (s.oneCycle f).lne = (f s.opened).lne := s.oneCycle_same f .lne rfl
@[simp] theorem State.oneCycle_lnk (f : State → State) : (s.oneCycle f).lnk = (f s.opened).lnk := s.oneCycle_same f .lnk rfl
@[simp] theorem State.oneCycle_wal (f : State → State) : (s.oneCycle f).wal = (f s.opened).wal := s.oneCycle_same f .wal rfl
@[simp] theorem State.oneCycle_bur (f : State → State) : (s.oneCycle f).bur = (f s.opened).bur := s.oneCycle_same f .bur rfl
@[simp] theorem State.oneCycle_boot (f : State → State) : (s.oneCycle f).boot = (f s.opened).boot := s.oneCycle_same f .boot rfl
@[simp] theorem State.oneCycle_hst (f : State → State) : (s.oneCycle f).hst = (f s.opened).hst := s.oneCycle_same f .hst rfl
@[simp] theorem State.oneCycle_mem (f : State → State) : (s.oneCycle f).mem = (f s.opened).mem := s.oneCycle_same f .mem rfl
@[simp] theorem State.oneCycle_flash0 (f : State → State) : (s.oneCycle f).flash0 = (f s.opened).flash0 := s.oneCycle_same f .flash0 rfl
@[simp] theorem State.oneCycle_flash1 (f : State → State) : (s.oneCycle f).flash1 = (f s.opened).flash1 := s.oneCycle_same f .flash1 rfl
@[simp] theorem State.oneCycle_poison (f : State → State) : (s.oneCycle f).poison = (f s.opened).poison := s.oneCycle_same f .poison rfl
@[simp] theorem State.oneCycle_history (f : State → State) : (s.oneCycle f).history = (f s.opened).history := s.oneCycle_same f .history rfl
@[simp] theorem State.oneCycle_tests (f : State → State) : (s.oneCycle f).tests = (f s.opened).tests := s.oneCycle_same f .tests rfl
@[simp] theorem State.oneCycle_acc (f : State → State) : (s.oneCycle f).acc = (f s.opened).acc := s.oneCycle_same f .acc rfl
@[simp] theorem State.oneCycle_accBytes (f : State → State) : (s.oneCycle f).accBytes = (f s.opened).accBytes := s.oneCycle_same f .accBytes rfl

@[simp] theorem State.oneCycle_rest (f : State → State) : (s.oneCycle f).sbk.rest = (f s.opened).sbk.rest :=
  s.oneCycle_same f .sbk rfl

theorem State.oneCycle_rd (f : State → State) {c : Nat} (h : regGroup c ≠ .events) : (s.oneCycle f).rd c = (f s.opened).rd c :=
  s.oneCycle_same f (.reg (regGroup c)) (by revert h; generalize regGroup c = g; cases g <;> decide) c rfl

end Sys2Proof.Machine
end

