-- ==== Sys2Proof/Laws/Events.lean ====
section
/-! SUPPORT. What a reported event sets: the sticky bit of its EVENT_STATUS register, which no later record clears. -/

-- One theorem at a time: hundreds of them at once would need more thread stacks than a check may map.
set_option Elab.async false
namespace Sys2Proof.Machine

/-- The EVENT_STATUS registers. -/
def stickyRegs : List Nat := eventRegs.take 17

/-- No sticky bit of `s` is clear in `t`. -/
def Sticks (s t : State) : Prop := ∀ a ∈ stickyRegs, ∀ i, (s.rd a).testBit i = true → (t.rd a).testBit i = true

namespace Sticks

variable {s t u : State}

theorem refl (s : State) : Sticks s s := fun _ _ _ h => h

theorem trans (h : Sticks s t) (g : Sticks t u) : Sticks s u := fun a ha i x => g a ha i (h a ha i x)

theorem ofRegs (h : Sticks s t) (e : u.regs = t.regs) : Sticks s u := fun a ha i x => by
  have := h a ha i x
  rwa [show u.rd a = t.rd a by simp [State.rd, e]]

theorem wr {a : Nat} (v : Nat) (h : Sticks s t) (ha : a ∉ stickyRegs) : Sticks s (t.wr a v) := fun c hc i x => by
  have hn : c ≠ a := by
    rintro rfl
    exact ha hc
  rw [State.rd_wr_ne _ _ hn]
  exact h c hc i x

theorem orR {a m : Nat} (h : Sticks s t) : Sticks s (t.orR a m) := fun c hc i x => by
  have hx := h c hc i x
  rw [State.orR, State.rd_wr]
  split
  · rename_i e
    subst e
    have hi : i < 32 := by
      by_contra hn
      rw [Nat.testBit_lt_two_pow ((t.rd_lt c).trans_le (Nat.pow_le_pow_right (by decide) (not_lt.mp hn)))] at hx
      exact absurd hx (by decide)
    rw [Nat.testBit_mod_two_pow, Nat.testBit_or, hx]
    simpa using hi
  · exact hx

theorem ite {c : Prop} [Decidable c] {a b : State} (ha : Sticks s a) (hb : Sticks s b) : Sticks s (if c then a else b) := by
  by_cases hc : c <;> simp [hc, ha, hb]

theorem foldl {α : Type} {f : State → α → State} (hf : ∀ x a, Sticks s x → Sticks s (f x a)) :
    ∀ (l : List α) {t : State}, Sticks s t → Sticks s (l.foldl f t)
  | [], _, h => h
  | a :: l, _, h => foldl hf l (hf _ a h)

end Sticks

theorem State.setSticky_sticks {s t : State} (code : Nat) (h : Sticks s t) : Sticks s (t.setSticky code) := by
  unfold State.setSticky
  refine Sticks.ite (Sticks.orR h) (Sticks.ite (Sticks.orR h) ?_)
  split
  · rename_i b hb
    exact Sticks.orR h
  · exact h

theorem State.putRec_sticks {s t : State} (r : EvRec) (h : Sticks s t) : Sticks s (t.putRec r) := by
  have h1 : Sticks s (t.wr GBL_EVQ_SEQ (r.seq + 1)) := Sticks.wr _ h (by decide)
  unfold State.putRec
  dsimp only
  generalize t.wr GBL_EVQ_SEQ (r.seq + 1) = x at h1
  split
  · exact h1.ofRegs rfl
  · split
    · unfold State.bump State.bumpBy
      exact Sticks.wr _ (Sticks.wr _ (Sticks.wr _ (h1.ofRegs rfl) (by decide)) (by decide)) (by decide)
    · exact Sticks.wr _ (h1.ofRegs rfl) (by decide)

/-- What follows the entry of the record itself clears no sticky bit. -/
theorem State.emitRec_sticks_put {s t : State} (r : EvRec)
    (h : Sticks s ((t.setSticky r.code).putRec { r with seq := t.rd GBL_EVQ_SEQ })) : Sticks s (t.emitRec r) := by
  unfold State.emitRec
  dsimp only
  generalize (t.setSticky r.code).putRec { r with seq := t.rd GBL_EVQ_SEQ } = x at h
  have step : ∀ (y u : State) (c : Bool) (q : EvRec), Sticks s y → u.regs = y.regs →
      Sticks s (if c = true then (u.setSticky Ev.GBL_EVQ_OVERRUN).putRec q else y) := fun _ _ _ _ hy e =>
    Sticks.ite (putRec_sticks _ (setSticky_sticks _ (hy.ofRegs e))) hy
  exact step _ _ _ _ (step _ _ _ _ h rfl) rfl

theorem State.emitRec_sticks {s t : State} (r : EvRec) (h : Sticks s t) : Sticks s (t.emitRec r) :=
  emitRec_sticks_put r (putRec_sticks _ (setSticky_sticks _ h))

theorem State.emit_sticks {s t : State} (code cls : Nat) (args : List Nat) (h : Sticks s t) :
    Sticks s (t.emit code cls args) := by
  unfold State.emit
  split
  · exact h.ofRegs rfl
  · exact emitRec_sticks _ h

theorem State.sramRefuse_sticks {s t : State} (h : Sticks s t) : Sticks s t.sramRefuse := by
  unfold State.sramRefuse
  exact Sticks.ite (emit_sticks _ _ _ h) (Sticks.ite h ((emit_sticks _ _ _ h).ofRegs rfl))

theorem State.sramWrite_sticks {s t : State} (off : Nat) (bs : Bytes) (h : Sticks s t) : Sticks s (t.sramWrite off bs) := by
  have put (b : Bytes) : Sticks s (t.sramPut off b) := h.ofRegs rfl
  have hold (b : Bytes) (n : Nat) : Sticks s ((t.sramPut off b).sramHold n) := (put b).ofRegs rfl
  unfold State.sramWrite
  dsimp only
  exact Sticks.ite (sramRefuse_sticks h) (Sticks.ite
    (Sticks.foldl (fun _ _ h => emit_sticks _ _ _ h) _ (Sticks.ite (hold _ _) (Sticks.ite h (hold _ _)))) (put _))

theorem State.critLog_sticks {s t : State} (r : EvRec) (h : Sticks s t) : Sticks s (t.critLog r) := by
  unfold State.critLog
  dsimp only
  split
  · exact sramWrite_sticks _ _ h
  · split
    · exact sramWrite_sticks _ _ h
    · exact sramWrite_sticks _ _ h

/-- What follows the entry of a record clears no sticky bit. -/
theorem State.reportRec_sticks_emit {s t : State} (r : EvRec) (h : Sticks s (t.emitRec { r with seq := t.rd GBL_EVQ_SEQ })) :
    Sticks s (t.reportRec r) := by
  unfold State.reportRec
  dsimp only
  generalize t.emitRec { r with seq := t.rd GBL_EVQ_SEQ } = x at h
  refine Sticks.ite ?_ h
  have h1 : Sticks s (x.orR GBL_IRQ_STATUS (2 ^ 17)) := Sticks.orR h
  generalize x.orR GBL_IRQ_STATUS (2 ^ 17) = y at h1
  refine Sticks.ite (critLog_sticks _ (Sticks.ite ?_ ?_)) (Sticks.ofRegs (Sticks.ite ?_ ?_) rfl) <;> exact h1.ofRegs rfl

theorem State.reportRec_sticks {s t : State} (r : EvRec) (h : Sticks s t) : Sticks s (t.reportRec r) :=
  reportRec_sticks_emit r (emitRec_sticks _ h)

theorem eventStatusReg_sticky (n : Nat) : eventStatusReg n ∈ stickyRegs := by
  unfold eventStatusReg
  split <;> decide

/-- A record entered sets the sticky bit of its event (R451). -/
theorem State.reportRec_sticky (s : State) (r : EvRec) {b : Nat} (h : stickyBit r.code = some b) (hb : b < 32)
    (h1 : r.code ≠ Ev.UPD_MBX_DONE) (h2 : r.code ≠ Ev.UPD_MBX_FAILED) :
    ((s.reportRec r).rd (eventStatusReg (r.code / 256))).testBit b = true := by
  have hs : (s.setSticky r.code).rd (eventStatusReg (r.code / 256)) = s.rd (eventStatusReg (r.code / 256)) ||| 2 ^ b := by
    unfold State.setSticky
    rw [if_neg h1, if_neg h2]
    simp only [h]
    rw [State.rd_orR _ _ _ _ (Nat.pow_lt_pow_right (by decide) hb), if_pos rfl]
  refine State.reportRec_sticks_emit (s := s.setSticky r.code) r ?_ _ (eventStatusReg_sticky _) b ?_
  · exact emitRec_sticks_put _ (putRec_sticks _ (Sticks.refl _))
  · rw [hs, Nat.testBit_or, Nat.testBit_two_pow_self, Bool.or_true]

/-- Outside a core cycle's effect, an event reported sets its sticky bit. -/
theorem State.report_sticky {s : State} (hc : s.ev.cycle = none) {code b : Nat} (args : List Nat) (h : stickyBit code = some b)
    (hb : b < 32 := by decide) (h1 : code ≠ Ev.UPD_MBX_DONE := by decide) (h2 : code ≠ Ev.UPD_MBX_FAILED := by decide) :
    ((s.report code args).rd (eventStatusReg (code / 256))).testBit b = true := by
  unfold State.report State.reportC State.reportAs
  simp only [hc]
  exact s.reportRec_sticky (s.mkRec code 0 args) h hb h1 h2

theorem State.saw_report {s : State} (hq : s.quiet = true) {code : Nat} (args : List Nat)
    (h : ((stickyBit code).map (fun b => decide (b < 32))) = some true := by decide)
    (h1 : code ≠ Ev.UPD_MBX_DONE := by decide) (h2 : code ≠ Ev.UPD_MBX_FAILED := by decide) :
    (s.report code args).saw code = true := by
  obtain ⟨b, hb, hd⟩ := Option.map_eq_some_iff.mp h
  simp only [State.saw, hb]
  exact State.report_sticky (by simpa [State.quiet] using hq) args hb (by simpa using hd) h1 h2

end Sys2Proof.Machine
end

