-- ==== Sys2Proof/Laws/KeepsMemory.lean ====
section
/-! SUPPORT. Every operation and meaning of the Seedbank, memory and the Granary (Machine/Seedbank.lean, Memory.lean and Granary.lean)
keeps what `Keeps` says. -/

-- One theorem at a time: hundreds of them at once would need more thread stacks than a check may map.
set_option Elab.async false
namespace Sys2Proof.Machine

/-! ### Seedbank -/

/-- R383: a store that starts takes a canonical snapshot. -/
theorem State.storeStart_keeps {W : Nat} {r s : State} (kind : Nat) (hw : Sub 0x800010000068 W) (h : Keeps W r s) : Keeps W r (s.storeStart kind) := by
  have h' := sramPut_keeps 0x286 (toLe 1 (storeKindByte kind)) (hw.mono (by decide))
    (sramPut_keeps 0xC0 (s.bumpLifetime 2).commitStateBytes (hw.mono (by decide)) (bumpLifetime_keeps 2 (hw.mono (by decide)) h))
  unfold State.storeStart
  dsimp only
  generalize ((s.bumpLifetime 2).sramPut 0xC0 (s.bumpLifetime 2).commitStateBytes).sramPut 0x286
    (toLe 1 (storeKindByte kind)) = x at h'
  refine Keeps.of hw h' rfl rfl rfl rfl (fun hk => ?_) rfl rfl rfl rfl rfl rfl rfl
  have hc := Sbk.wf_setCopy x.sbk.target.1 (c := { x.sbk.copy x.sbk.target.1 with hdr := none }) hk (Sbk.wf_copy _ hk)
  rw [Sbk.wf_iff] at hk hc ⊢
  refine ⟨hc.1, hc.2.1, hc.2.2.1, ?_⟩
  rintro q hq
  obtain rfl := Option.some.inj hq
  exact hk.1

theorem State.sbkBusy_keeps {W : Nat} {r s : State} 
    (hw : Sub 0x800010000048 W) (h : Keeps W r s) : Keeps W r (State.sbkBusy s) := by
  unfold State.sbkBusy
  try dsimp only
  with_reducible repeat' first
      | exact h | exact hw.mono (by decide) | apply State.report_keeps | fail_if_no_progress refine Keeps.upd hw ?_
      | refine Keeps.ite ?_ ?_

theorem State.requestStore_keeps {W : Nat} {r s : State} (kind : ℕ)
    (hw : Sub 0x800010000068 W) (h : Keeps W r s) : Keeps W r (State.requestStore s kind).1 := by
  unfold State.requestStore
  try dsimp only
  with_reducible repeat' first
      | exact h | exact hw.mono (by decide) | apply State.report_keeps | apply State.sbkBusy_keeps
      | apply State.storeStart_keeps | fail_if_no_progress refine Keeps.upd hw ?_ | refine Keeps.ite ?_ ?_
      | refine Keeps.iteFst ?_ ?_

theorem State.nextStore_keeps {W : Nat} {r s : State} 
    (hw : Sub 0x800010000068 W) (h : Keeps W r s) : Keeps W r (State.nextStore s) := by
  unfold State.nextStore
  try dsimp only
  with_reducible repeat' first
      | exact h | exact hw.mono (by decide) | apply State.storeStart_keeps
      | fail_if_no_progress refine Keeps.upd hw ?_ | refine Keeps.ite ?_ ?_ | dsimp only | split

theorem tornImage_wf {old new : List Host.Cell} (rows d : Nat) (h : Memory.wf 0#8 old = true) :
    Memory.wf 0#8 (tornImage old new rows d) = true := by
  have h1 := cellsFold_wf (fun a => (a, cellGet new a)) (List.range (128 * min rows 512)) h
  unfold tornImage
  dsimp only
  split
  · exact cellsFold_wf (fun i => (128 * rows + i, Config.tornByte (128 * d + i))) _ h1
  · exact h1

/-- A copy written and the store gone. -/
theorem Sbk.wf_stored {b : Sbk} {x held : Nat} {c : NvCopy} {n : Option Nat} {f : Bool} (hb : b.wf = true)
    (hc : Memory.wf 0#8 c.image = true) :
    Sbk.wf { b.setCopy x c with store := none, held := held, newest := n, final := f } = true := by
  have h := Sbk.wf_setCopy x hb hc
  rw [Sbk.wf_iff] at h ⊢
  exact ⟨h.1, h.2.1, h.2.2.1, by simp⟩

/-- R387, R390: a torn copy is canonical. -/
theorem State.storeTorn_keeps {W : Nat} {r s : State} (q : StoreRun) (rows : Nat) (hw : Sub 0x64 W) (h : Keeps W r s) : Keeps W r (s.storeTorn q rows) := by
  refine Keeps.of hw h rfl rfl rfl rfl (fun hk => ?_) rfl rfl rfl rfl rfl rfl rfl
  exact Sbk.wf_stored hk (tornImage_wf _ _ (Sbk.wf_copy _ hk))

/-- R383, R390: the end of a store writes a copy from the canonical snapshot, or leaves it torn. -/
theorem State.storeEnd_keeps {W : Nat} {r s : State} (result : StoreEnd) (hw : Sub 0xa0001000006c W) (h : Keeps W r s) : Keeps W r (s.storeEnd result) := by
  unfold State.storeEnd
  split
  · exact h
  · rename_i q hq
    split
    · refine nextStore_keeps (hw.mono (by decide)) (report_keeps _ _ (hw.mono (by decide)) (wr_keeps _ _ (hw.mono (by decide))
        (bump_keeps _ (hw.mono (by decide)) ?_)))
      refine Keeps.of hw h rfl rfl rfl rfl (fun hk => ?_) rfl rfl rfl rfl rfl rfl rfl
      exact Sbk.wf_stored hk (((Sbk.wf_iff _).mp hk).2.2.2 q hq)
    · exact nextStore_keeps (hw.mono (by decide)) (report_keeps _ _ (hw.mono (by decide)) (wr_keeps _ _ (hw.mono (by decide))
        (storeTorn_keeps _ _ (hw.mono (by decide)) h)))

theorem State.storeDrop_keeps {W : Nat} {r s : State} (hw : Sub 0x60 W) (h : Keeps W r s) : Keeps W r s.storeDrop := by
  refine Keeps.of hw h rfl rfl rfl rfl (fun hk => ?_) rfl rfl rfl rfl rfl rfl rfl
  rw [Sbk.wf_iff] at hk ⊢
  exact ⟨hk.1, hk.2.1, hk.2.2.1, fun x hx => by cases hx⟩

theorem State.powerFailStore_keeps {W : Nat} {r s : State} 
    (hw : Sub 0x800010000068 W) (h : Keeps W r s) : Keeps W r (State.powerFailStore s) := by
  unfold State.powerFailStore
  try dsimp only
  with_reducible repeat' first
      | exact h | exact hw.mono (by decide) | apply State.storeStart_keeps | apply State.storeDrop_keeps
      | fail_if_no_progress refine Keeps.upd hw ?_ | refine Keeps.ite ?_ ?_

theorem State.tripStore_keeps {W : Nat} {r s : State} 
    (hw : Sub 0x800010000068 W) (h : Keeps W r s) : Keeps W r (State.tripStore s) := by
  unfold State.tripStore
  try dsimp only
  with_reducible repeat' first
      | exact h | exact hw.mono (by decide) | apply State.storeStart_keeps
      | fail_if_no_progress refine Keeps.upd hw ?_ | refine Keeps.ite ?_ ?_

theorem State.reconcileCounter_keeps {W : Nat} {r s : State} (i : ℕ)
    (hw : Sub 0x800010000048 W) (h : Keeps W r s) : Keeps W r (State.reconcileCounter s i) := by
  unfold State.reconcileCounter
  try dsimp only
  with_reducible repeat' first
      | exact h | assumption | exact hw.mono (by decide) | apply State.sramPut_keeps | apply State.report_keeps
      | refine Keeps.foldl (fun _ _ _ => ?_) _ ?_ | refine Keeps.foldlPair (fun _ _ _ => ?_) _ ?_
      | refine Keeps.ite ?_ ?_

/-- R391: recall takes a canonical image. -/
theorem State.recallImage_keeps {W : Nat} {r s : State} (pick : Option (Nat × Nat)) (hw : Sub 0x4000060 W) (h : Keeps W r s) :
    Keeps W r (s.recallImage pick) := by
  unfold State.recallImage
  split
  · rename_i x _
    refine Keeps.of hw h rfl rfl rfl rfl (fun hk => ?_) rfl rfl rfl rfl rfl rfl rfl
    have hc := Sbk.wf_copy x hk
    rw [Sbk.wf_iff] at hk ⊢
    exact ⟨hc, hk.2.1, hk.2.2.1, by simp⟩
  · refine Keeps.of hw h rfl rfl rfl rfl (fun hk => ?_) rfl rfl rfl rfl rfl rfl rfl
    rw [Sbk.wf_iff] at hk ⊢
    exact ⟨cellsSet_wf (m := []) _ _ rfl, hk.2.1, hk.2.2.1, by simp⟩

theorem State.recall_keeps {W : Nat} {r s : State} (ra : CopyRead) (rb : CopyRead)
    (hw : Sub 0x800014000068 W) (h : Keeps W r s) : Keeps W r (State.recall s ra rb) := by
  unfold State.recall
  try dsimp only
  with_reducible repeat' first
      | exact h | assumption | exact hw.mono (by decide) | apply State.recallImage_keeps
      | apply State.reconcileCounter_keeps | apply State.bumpLifetime_keeps | apply State.report_keeps
      | apply State.critLog_keeps | refine Keeps.foldl (fun _ _ _ => ?_) _ ?_
      | refine Keeps.foldlPair (fun _ _ _ => ?_) _ ?_ | fail_if_no_progress refine Keeps.upd hw ?_
      | refine Keeps.ite ?_ ?_ | dsimp only | split

theorem State.sbkDenied_keeps {W : Nat} {r s : State} 
    (hw : Sub 0x800010000068 W) (h : Keeps W r s) : Keeps W r (State.sbkDenied s) := by
  unfold State.sbkDenied
  try dsimp only
  with_reducible repeat' first
      | exact h | exact hw.mono (by decide) | apply State.report_keeps | fail_if_no_progress refine Keeps.upd hw ?_
      | refine Keeps.ite ?_ ?_

theorem State.sbkPut_keeps {W : Nat} {r s : State} (off : Nat) (v : Word) (ue : Bool) (pair : Option Nat) (hw : Sub 0x60 W) (h : Keeps W r s) :
    Keeps W r (s.sbkPut off v ue pair) := by
  refine Keeps.of hw h rfl rfl rfl rfl (fun hk => ?_) rfl rfl rfl rfl rfl rfl rfl
  rw [Sbk.wf_iff] at hk ⊢
  exact ⟨cellsSet_wf off _ hk.1, hk.2⟩

theorem State.sbkData_keeps {W : Nat} {r s : State} (write : Option Word) (ue : Bool)
    (hw : Sub 0xa00030000068 W) (h : Keeps W r s) : Keeps W r (State.sbkData s write ue) := by
  unfold State.sbkData
  try dsimp only
  with_reducible repeat' first
      | exact h | exact hw.mono (by decide) | apply State.wr_keeps | apply State.result_keeps
      | apply State.report_keeps | apply State.sbkDenied_keeps | apply State.sramPoisonRead_keeps
      | apply State.sbkBusy_keeps | apply State.sbkPut_keeps | fail_if_no_progress refine Keeps.upd hw ?_
      | refine Keeps.ite ?_ ?_ | dsimp only | split

theorem State.pwUnlock_keeps {W : Nat} {r s : State} (off : ℕ) (write : Bool)
    (hw : Sub 0x800010000068 W) (h : Keeps W r s) : Keeps W r (State.pwUnlock s off write) := by
  unfold State.pwUnlock
  try dsimp only
  with_reducible repeat' first
      | exact h | exact hw.mono (by decide) | apply State.report_keeps | fail_if_no_progress refine Keeps.upd hw ?_
      | refine Keeps.ite ?_ ?_

theorem State.pwSet_keeps {W : Nat} {r s : State} (off : ℕ)
    (hw : Sub 0x800010000068 W) (h : Keeps W r s) : Keeps W r (State.pwSet s off) := by
  unfold State.pwSet
  try dsimp only
  with_reducible repeat' first
      | exact h | exact hw.mono (by decide) | apply State.report_keeps | apply State.sramWrite_keeps
      | fail_if_no_progress refine Keeps.upd hw ?_ | refine Keeps.ite ?_ ?_

theorem execSbkCtrlStore_keeps {W : Nat} (s : State) (hw : Sub 0x800030000068 W) :
    OutKeeps W s (execSbkCtrlStore s) := by
  unfold execSbkCtrlStore
  have h := Keeps.refl W s
  refine OutKeeps.gate (hw.mono (by decide)) ?_
  try dsimp only [OutKeeps]
  with_reducible repeat' first
      | exact h | assumption | exact hw.mono (by decide)
      | refine State.oneCycle_keeps (fun _ _ _ => ?_) (hw.mono (by decide)) ?_ | apply State.requestStore_keeps
     

theorem execSbkCtrlGlean_keeps {W : Nat} (s : State) (hw : Sub 0x20000020 W) :
    OutKeeps W s (execSbkCtrlGlean s) := by
  unfold execSbkCtrlGlean
  have h := Keeps.refl W s
  refine OutKeeps.gate (hw.mono (by decide)) ?_
  try dsimp only [OutKeeps]
  with_reducible repeat' first
      | exact h | exact hw.mono (by decide) | fail_if_no_progress refine Keeps.upd hw ?_ | refine Keeps.ite ?_ ?_
     

theorem execSbkRecall_keeps {W : Nat} (a : CopyRead) (b : CopyRead) (s : State) (hw : Sub 0x800014000068 W) :
    OutKeeps W s (execSbkRecall a b s) := by
  unfold execSbkRecall
  have h := Keeps.refl W s
  try dsimp only [OutKeeps]
  with_reducible repeat' first
      | exact h | assumption | exact hw.mono (by decide)
      | refine State.oneCycle_keeps (fun _ _ _ => ?_) (hw.mono (by decide)) ?_ | apply State.recall_keeps

theorem execSbkDataAccess_keeps {W : Nat} (req : Requester) (write : Option Word) (ue : Bool) (s : State) (hw : Sub 0xa00030000068 W) :
    OutKeeps W s (execSbkDataAccess req write ue s) := by
  unfold execSbkDataAccess
  have h := Keeps.refl W s
  refine OutKeeps.gate (hw.mono (by decide)) ?_
  try dsimp only [OutKeeps]
  with_reducible repeat' first
      | exact h | assumption | exact hw.mono (by decide)
      | refine State.oneCycle_keeps (fun _ _ _ => ?_) (hw.mono (by decide)) ?_ | apply State.sbkData_keeps

theorem execSbkPwUnlockR_keeps {W : Nat} (s : State) (hw : Sub 0x800030000068 W) :
    OutKeeps W s (execSbkPwUnlockR s) := by
  unfold execSbkPwUnlockR
  have h := Keeps.refl W s
  refine OutKeeps.gate (hw.mono (by decide)) ?_
  try dsimp only [OutKeeps]
  with_reducible repeat' first
      | exact h | assumption | exact hw.mono (by decide)
      | refine State.oneCycle_keeps (fun _ _ _ => ?_) (hw.mono (by decide)) ?_ | apply State.pwUnlock_keeps

theorem execSbkPwUnlockW_keeps {W : Nat} (s : State) (hw : Sub 0x800030000068 W) :
    OutKeeps W s (execSbkPwUnlockW s) := by
  unfold execSbkPwUnlockW
  have h := Keeps.refl W s
  refine OutKeeps.gate (hw.mono (by decide)) ?_
  try dsimp only [OutKeeps]
  with_reducible repeat' first
      | exact h | assumption | exact hw.mono (by decide)
      | refine State.oneCycle_keeps (fun _ _ _ => ?_) (hw.mono (by decide)) ?_ | apply State.pwUnlock_keeps

theorem execSbkPwSetR_keeps {W : Nat} (s : State) (hw : Sub 0x800030000068 W) :
    OutKeeps W s (execSbkPwSetR s) := by
  unfold execSbkPwSetR
  have h := Keeps.refl W s
  refine OutKeeps.gate (hw.mono (by decide)) ?_
  try dsimp only [OutKeeps]
  with_reducible repeat' first
      | exact h | assumption | exact hw.mono (by decide)
      | refine State.oneCycle_keeps (fun _ _ _ => ?_) (hw.mono (by decide)) ?_ | apply State.pwSet_keeps

theorem execSbkPwSetW_keeps {W : Nat} (s : State) (hw : Sub 0x800030000068 W) :
    OutKeeps W s (execSbkPwSetW s) := by
  unfold execSbkPwSetW
  have h := Keeps.refl W s
  refine OutKeeps.gate (hw.mono (by decide)) ?_
  try dsimp only [OutKeeps]
  with_reducible repeat' first
      | exact h | assumption | exact hw.mono (by decide)
      | refine State.oneCycle_keeps (fun _ _ _ => ?_) (hw.mono (by decide)) ?_ | apply State.pwSet_keeps

theorem execSbkPwLock_keeps {W : Nat} (s : State) (hw : Sub 0x20000020 W) :
    OutKeeps W s (execSbkPwLock s) := by
  unfold execSbkPwLock
  have h := Keeps.refl W s
  refine OutKeeps.gate (hw.mono (by decide)) ?_
  try dsimp only [OutKeeps]
  with_reducible repeat' first
      | exact h | exact hw.mono (by decide) | fail_if_no_progress refine Keeps.upd hw ?_
     

theorem execSbkCntLoRead_keeps {W : Nat} (s : State) (hw : Sub 0xa00030000048 W) :
    OutKeeps W s (execSbkCntLoRead s) := by
  unfold execSbkCntLoRead
  have h := Keeps.refl W s
  refine OutKeeps.gate (hw.mono (by decide)) ?_
  try dsimp only [OutKeeps]
  with_reducible repeat' first
      | exact h | exact hw.mono (by decide) | apply State.result_keeps | apply State.wr_keeps | assumption
      | refine State.oneCycle_keeps (fun _ _ _ => ?_) (hw.mono (by decide)) ?_
      | apply State.sramMeet_keeps | refine Keeps.ite ?_ ?_

theorem execOperatingSecond_keeps {W : Nat} (s : State) (hw : Sub 0x800010000048 W) :
    OutKeeps W s (execOperatingSecond s) := by
  unfold execOperatingSecond
  have h := Keeps.refl W s
  try dsimp only [OutKeeps]
  with_reducible repeat' first
      | exact h | exact hw.mono (by decide) | apply State.bumpLifetime_keeps | refine Keeps.ite ?_ ?_ | assumption
      | refine State.oneCycle_keeps (fun _ _ _ => ?_) (hw.mono (by decide)) ?_

theorem execGleanPassDone_keeps {W : Nat} (weakA : ℕ) (weakB : ℕ) (s : State) (hw : Sub 0x800010000068 W) :
    OutKeeps W s (execGleanPassDone weakA weakB s) := by
  unfold execGleanPassDone
  have h := Keeps.refl W s
  try dsimp only [OutKeeps]
  with_reducible repeat' first
      | exact h | assumption | exact hw.mono (by decide)
      | refine State.oneCycle_keeps (fun _ _ _ => ?_) (hw.mono (by decide)) ?_ | apply State.report_keeps
      | apply State.requestStore_keeps | fail_if_no_progress refine Keeps.upd hw ?_ | refine Keeps.ite ?_ ?_
      | refine Keeps.foldl (fun _ _ _ => ?_) _ ?_

/-- R387: cells whose contents are lost are in canonical form. -/
theorem Sbk.wf_lost {b c : Sbk} (h : b.wf = true) (es : c.sram = []) (ea : c.copyA = b.copyA) (eb : c.copyB = b.copyB)
    (er : c.store = b.store) : c.wf = true := by
  rw [Sbk.wf_iff] at h ⊢
  exact ⟨es ▸ rfl, ea ▸ h.2.1, eb ▸ h.2.2.1, er ▸ h.2.2.2⟩

theorem execVddNvmLoss_keeps {W : Nat} (rows : ℕ) (s : State) (hw : Sub 0x64 W) :
    OutKeeps W s (execVddNvmLoss rows s) := by
  unfold execVddNvmLoss
  have h := Keeps.refl W s
  cases e : s.sbk.store with
  | none => exact Keeps.of hw h rfl rfl rfl rfl (fun hk => Sbk.wf_lost hk rfl rfl rfl rfl) rfl rfl rfl rfl rfl rfl rfl
  | some r =>
    exact Keeps.of hw (State.storeTorn_keeps r rows (hw.mono (by decide)) h) rfl rfl rfl rfl
      (fun hk => Sbk.wf_lost hk rfl rfl rfl rfl) rfl rfl rfl rfl rfl rfl rfl

/-! ### Memory -/

theorem State.setPoison_keeps {W : Nat} {r s : State} (a : ℕ) (p : Bool)
    (hw : Sub 0x2000000 W) (h : Keeps W r s) : Keeps W r (State.setPoison s a p) := by
  unfold State.setPoison
  try dsimp only
  with_reducible repeat' first
      | exact h | exact hw.mono (by decide) | fail_if_no_progress refine Keeps.upd hw ?_

/-- Bytes stored keep the memory canonical. -/
theorem State.memPut_keeps {W : Nat} {r s : State} (a : Nat) (bs : Bytes) (hw : Sub 0x400000 W) (h : Keeps W r s) : Keeps W r (s.memPut a bs) :=
  Keeps.ofMem hw h rfl (cellsFold_wf (fun c : Nat × Byte => (s.place c.1, c.2)) _) id id rfl rfl rfl rfl

theorem State.memSet_keeps {W : Nat} {r s : State} (a : ℕ) (bs : Bytes)
    (hw : Sub 0x2400000 W) (h : Keeps W r s) : Keeps W r (State.memSet s a bs) := by
  unfold State.memSet
  try dsimp only
  with_reducible repeat' first
      | exact h | assumption | exact hw.mono (by decide) | apply State.setPoison_keeps | apply State.memPut_keeps
      | refine Keeps.foldl (fun _ _ _ => ?_) _ ?_

theorem State.zeroRange_keeps {W : Nat} {r s : State} (a n : Nat) (hw : Sub 0x2400000 W) (h : Keeps W r s) : Keeps W r (s.zeroRange a n) :=
  Keeps.ofMem hw h rfl (swf_filter _) id id rfl rfl rfl rfl

/-- A fold of cell writes keeps a memory canonical. -/
theorem cellsMove_wf (f g : Nat → Nat) : ∀ (l : List Nat) {m : List Host.Cell}, Memory.wf 0#8 m = true →
    Memory.wf 0#8 (l.foldl (fun m i => cellSet m (f i) (cellGet m (g i))) m) = true
  | [], _, h => h
  | _ :: l, _, h => cellsMove_wf f g l (cellSet_wf _ _ h)

theorem State.memMoved_keeps {W : Nat} {r s : State} (f g : Nat → Nat) (l : List Nat) (x : List (Nat × Bool))
    (hw : Sub 0x2400000 W) (h : Keeps W r s) :
    Keeps W r { s with mem := l.foldl (fun m i => cellSet m (f i) (cellGet m (g i))) s.mem, poison := x } :=
  Keeps.ofMem hw h rfl (cellsMove_wf f g l) id id rfl rfl rfl rfl

theorem State.copyPlot_keeps {W : Nat} {r s : State} (p q : Nat) (hw : Sub 0x2400000 W) (h : Keeps W r s) :
    Keeps W r (s.copyPlot p q) :=
  memMoved_keeps (fun i => grnBase + q * 4096 + i) (fun i => grnBase + p * 4096 + i) (List.range 4096) _ hw h

theorem State.unmapped_keeps {W : Nat} {r s : State} (client : ℕ) (a : ℕ) (regSpace : Bool)
    (hw : Sub 0x800090000048 W) (h : Keeps W r s) : Keeps W r (State.unmapped s client a regSpace) := by
  unfold State.unmapped
  try dsimp only
  with_reducible repeat' first
      | exact h | exact hw.mono (by decide) | apply State.wr_keeps | apply State.report_keeps

theorem State.unmappedIn_keeps {W : Nat} {r s : State} (client : ℕ) (a : ℕ) (n : ℕ)
    (hw : Sub 0x800090000048 W) (h : Keeps W r s) : Keeps W r (State.unmappedIn s client a n) := by
  unfold State.unmappedIn
  try dsimp only
  with_reducible repeat' first
      | exact h | exact hw.mono (by decide) | apply State.unmapped_keeps | dsimp only | split

theorem State.poisonDram_keeps {W : Nat} {r s : State} (a : ℕ)
    (hw : Sub 0x800012000448 W) (h : Keeps W r s) : Keeps W r (State.poisonDram s a) := by
  unfold State.poisonDram
  try dsimp only
  with_reducible repeat' first
      | exact h | exact hw.mono (by decide) | apply State.setPoison_keeps | apply State.report_keeps
      | fail_if_no_progress refine Keeps.upd hw ?_ | refine Keeps.ite ?_ ?_ | dsimp only | split

theorem State.setChan_keeps {W : Nat} {r s : State} (c : ℕ) (x : Chan)
    (hw : Sub 0x400 W) (h : Keeps W r s) : Keeps W r (State.setChan s c x) := by
  unfold State.setChan
  try dsimp only
  with_reducible repeat' first
      | exact h | exact hw.mono (by decide) | fail_if_no_progress refine Keeps.upd hw ?_

theorem State.putDram_keeps {W : Nat} {r s : State} (c : ℕ) (kind : ℕ) (arg : ℕ)
    (hw : Sub 0x10000000 W) (h : Keeps W r s) : Keeps W r (State.putDram s c kind arg) := by
  unfold State.putDram
  try dsimp only
  with_reducible repeat' first
      | exact h | exact hw.mono (by decide) | apply State.put_keeps | refine Keeps.ite ?_ ?_

theorem State.srExit_keeps {W : Nat} {r s : State} 
    (hw : Sub 0x40010000400 W) (h : Keeps W r s) : Keeps W r (State.srExit s) := by
  unfold State.srExit
  try dsimp only
  with_reducible repeat' first
      | exact h | assumption | exact hw.mono (by decide) | apply State.putDram_keeps | apply State.setChan_keeps
      | apply State.wrF_keeps | refine Keeps.foldl (fun _ _ _ => ?_) _ ?_
      | refine Keeps.foldlPair (fun _ _ _ => ?_) _ ?_ | fail_if_no_progress refine Keeps.upd hw ?_
      | refine Keeps.ite ?_ ?_

theorem State.srCancel_keeps {W : Nat} {r s : State} 
    (hw : Sub 0x400 W) (h : Keeps W r s) : Keeps W r (State.srCancel s) := by
  unfold State.srCancel
  try dsimp only
  with_reducible repeat' first
      | exact h | exact hw.mono (by decide) | fail_if_no_progress refine Keeps.upd hw ?_ | refine Keeps.ite ?_ ?_

theorem State.queueReq_keeps {W : Nat} {r s : State} (c : ℕ) (r' : DramReq)
    (hw : Sub 0x400 W) (h : Keeps W r s) : Keeps W r (State.queueReq s c r') := by
  unfold State.queueReq
  try dsimp only
  with_reducible repeat' first
      | exact h | exact hw.mono (by decide) | apply State.setChan_keeps

theorem State.arrive_keeps {W : Nat} {r s : State} (c : ℕ) (r' : DramReq)
    (hw : Sub 0x40010000400 W) (h : Keeps W r s) : Keeps W r (State.arrive s c r') := by
  unfold State.arrive
  try dsimp only
  with_reducible repeat' first
      | exact h | exact hw.mono (by decide) | apply State.srCancel_keeps | apply State.bump_keeps
      | apply State.queueReq_keeps | apply State.srExit_keeps | refine Keeps.ite ?_ ?_

theorem State.cacheEvict_keeps {W : Nat} {r s : State} 
    (hw : Sub 0x404 W) (h : Keeps W r s) : Keeps W r (State.cacheEvict s) := by
  unfold State.cacheEvict
  try dsimp only
  with_reducible repeat' first
      | exact h | exact hw.mono (by decide) | apply State.draw_keeps | apply State.queueReq_keeps
      | fail_if_no_progress refine Keeps.upd hw ?_ | refine Keeps.ite ?_ ?_ | dsimp only | split

theorem State.cacheLine_keeps {W : Nat} {r s : State} (stream : Bool) (write : Bool) (a : ℕ)
    (hw : Sub 0x404 W) (h : Keeps W r s) : Keeps W r (State.cacheLine s stream write a) := by
  unfold State.cacheLine
  try dsimp only
  with_reducible repeat' first
      | exact h | exact hw.mono (by decide) | apply State.cacheEvict_keeps | apply State.queueReq_keeps
      | fail_if_no_progress refine Keeps.upd hw ?_ | refine Keeps.ite ?_ ?_ | dsimp only | split

theorem State.cacheFlush_keeps {W : Nat} {r s : State} 
    (hw : Sub 0x400 W) (h : Keeps W r s) : Keeps W r (State.cacheFlush s) := by
  unfold State.cacheFlush
  try dsimp only
  with_reducible repeat' first
      | exact h | assumption | exact hw.mono (by decide) | apply State.queueReq_keeps
      | refine Keeps.foldl (fun _ _ _ => ?_) _ ?_ | refine Keeps.foldlPair (fun _ _ _ => ?_) _ ?_
      | fail_if_no_progress refine Keeps.upd hw ?_

theorem State.queueLine_keeps {W : Nat} {r s : State} (client : ℕ) (stream : Bool) (write : Bool) (a : ℕ)
    (hw : Sub 0x40010000404 W) (h : Keeps W r s) : Keeps W r (State.queueLine s client stream write a) := by
  unfold State.queueLine
  try dsimp only
  with_reducible repeat' first
      | exact h | exact hw.mono (by decide) | apply State.cacheLine_keeps | apply State.arrive_keeps

theorem State.lineRenewed_keeps {W : Nat} {r s : State} (a : ℕ)
    (hw : Sub 0x400 W) (h : Keeps W r s) : Keeps W r (State.lineRenewed s a) := by
  unfold State.lineRenewed
  try dsimp only
  with_reducible repeat' first
      | exact h | exact hw.mono (by decide) | fail_if_no_progress refine Keeps.upd hw ?_ | refine Keeps.ite ?_ ?_

theorem State.queueWrite_keeps {W : Nat} {r s : State} (client : ℕ) (a : ℕ) (n : ℕ)
    (hw : Sub 0x40010000404 W) (h : Keeps W r s) : Keeps W r (State.queueWrite s client a n) := by
  unfold State.queueWrite
  try dsimp only
  with_reducible repeat' first
      | exact h | assumption | exact hw.mono (by decide) | apply State.queueLine_keeps | apply State.lineRenewed_keeps
      | refine Keeps.foldl (fun _ _ _ => ?_) _ ?_ | refine Keeps.foldlPair (fun _ _ _ => ?_) _ ?_
      | refine Keeps.ite ?_ ?_

theorem State.dramSet_keeps {W : Nat} {r s : State} (client : ℕ) (a : ℕ) (b : Bytes)
    (hw : Sub 0x84009240044c W) (h : Keeps W r s) : Keeps W r (State.dramSet s client a b) := by
  unfold State.dramSet
  try dsimp only
  with_reducible repeat' first
      | exact h | exact hw.mono (by decide) | apply State.memSet_keeps | apply State.queueWrite_keeps
      | apply State.unmappedIn_keeps | refine Keeps.ite ?_ ?_

/-! ### Granary -/

theorem State.holdStage_keeps {W : Nat} {r s : State} (code : ℕ)
    (hw : Sub 0xc00090000048 W) (h : Keeps W r s) : Keeps W r (State.holdStage s code) := by
  unfold State.holdStage
  try dsimp only
  with_reducible repeat' first
      | exact h | exact hw.mono (by decide) | apply State.wrF_keeps | apply State.wr_keeps | apply State.report_keeps
      | apply State.put_keeps | fail_if_no_progress refine Keeps.upd hw ?_

theorem State.setPlot_keeps {W : Nat} {r s : State} (n : ℕ) (p : Plot)
    (hw : Sub 0x200000200 W) (h : Keeps W r s) : Keeps W r (State.setPlot s n p) := by
  unfold State.setPlot
  try dsimp only
  with_reducible repeat' first
      | exact h | exact hw.mono (by decide) | exact hw.mono (by rw [regBit_plotCounter]; decide)
      | apply State.wr_keeps | fail_if_no_progress refine Keeps.upd hw ?_

theorem State.holdPlot_keeps {W : Nat} {r s : State} (c : ℕ) (n : ℕ)
    (hw : Sub 0x200 W) (h : Keeps W r s) : Keeps W r (State.holdPlot s c n) := by
  unfold State.holdPlot
  try dsimp only
  with_reducible repeat' first
      | exact h | exact hw.mono (by decide) | fail_if_no_progress refine Keeps.upd hw ?_

theorem State.dropPlot_keeps {W : Nat} {r s : State} (c : ℕ) (n : ℕ)
    (hw : Sub 0x200 W) (h : Keeps W r s) : Keeps W r (State.dropPlot s c n) := by
  unfold State.dropPlot
  try dsimp only
  with_reducible repeat' first
      | exact h | exact hw.mono (by decide) | fail_if_no_progress refine Keeps.upd hw ?_

theorem State.allocPlot_keeps {W : Nat} {r s : State} (c : ℕ) (n : ℕ)
    (hw : Sub 0x200000200 W) (h : Keeps W r s) : Keeps W r (State.allocPlot s c n) := by
  unfold State.allocPlot
  try dsimp only
  with_reducible repeat' first
      | exact h | exact hw.mono (by decide) | apply State.holdPlot_keeps | apply State.setPlot_keeps

theorem State.serveWaiting_keeps {W : Nat} {r s : State} 
    (hw : Sub 0x200000200 W) (h : Keeps W r s) : Keeps W r (State.serveWaiting s) := by
  unfold State.serveWaiting
  try dsimp only
  with_reducible repeat' first
      | exact h | assumption | exact hw.mono (by decide) | apply State.allocPlot_keeps
      | refine Keeps.foldl (fun _ _ _ => ?_) _ ?_ | refine Keeps.foldlPair (fun _ _ _ => ?_) _ ?_
      | fail_if_no_progress refine Keeps.upd hw ?_ | dsimp only | split

theorem State.addRetired_keeps {W : Nat} {r s : State} (p : ℕ)
    (hw : Sub 0x800000000048 W) (h : Keeps W r s) : Keeps W r (State.addRetired s p).1 := by
  unfold State.addRetired
  try dsimp only
  with_reducible repeat' first
      | exact h | exact hw.mono (by decide) | apply State.sramWrite_keeps | refine Keeps.ite ?_ ?_
      | refine Keeps.iteFst ?_ ?_ | dsimp only | split

theorem State.sparesExhausted_keeps {W : Nat} {r s : State} 
    (hw : Sub 0x800210000048 W) (h : Keeps W r s) : Keeps W r (State.sparesExhausted s) := by
  unfold State.sparesExhausted
  try dsimp only
  with_reducible repeat' first
      | exact h | exact hw.mono (by decide) | apply State.report_keeps | apply State.wrF_keeps

theorem State.buildPlotMap_keeps {W : Nat} {r s : State} 
    (hw : Sub 0x200000200 W) (h : Keeps W r s) : Keeps W r (State.buildPlotMap s) := by
  unfold State.buildPlotMap
  try dsimp only
  with_reducible repeat' first
      | exact h | assumption | exact hw.mono (by decide) | apply State.wr_keeps | apply State.allocPlot_keeps
      | apply State.setPlot_keeps | refine Keeps.foldl (fun _ _ _ => ?_) _ ?_
      | refine Keeps.foldlPair (fun _ _ _ => ?_) _ ?_ | fail_if_no_progress refine Keeps.upd hw ?_
      | refine Keeps.ite ?_ ?_

theorem State.queuePlot_keeps {W : Nat} {r s : State} (p : ℕ) (faulted : Bool)
    (hw : Sub 0x80020c000048 W) (h : Keeps W r s) : Keeps W r (State.queuePlot s p faulted) := by
  unfold State.queuePlot
  try dsimp only
  with_reducible repeat' first
      | exact h | exact hw.mono (by decide) | apply State.queueTestLim_keeps

theorem State.grnCorrected_keeps {W : Nat} {r s : State} (phys : ℕ) (line : ℕ) (word : ℕ)
    (hw : Sub 0x80021c000248 W) (h : Keeps W r s) : Keeps W r (State.grnCorrected s phys line word) := by
  unfold State.grnCorrected
  try dsimp only
  with_reducible repeat' first
      | exact h | exact hw.mono (by decide) | apply State.wr_keeps | apply State.bump_keeps | apply State.report_keeps
      | apply State.queuePlot_keeps | fail_if_no_progress refine Keeps.upd hw ?_ | refine Keeps.ite ?_ ?_

theorem State.grnUncorrectable_keeps {W : Nat} {r s : State} (phys : ℕ) (line : ℕ) (word : ℕ)
    (hw : Sub 0x80021e000048 W) (h : Keeps W r s) : Keeps W r (State.grnUncorrectable s phys line word) := by
  unfold State.grnUncorrectable
  try dsimp only
  with_reducible repeat' first
      | exact h | exact hw.mono (by decide) | apply State.wr_keeps | apply State.bump_keeps
      | apply State.queuePlot_keeps | apply State.report_keeps | fail_if_no_progress refine Keeps.upd hw ?_

theorem State.poisonConsumed_keeps {W : Nat} {r s : State} (consumer : ℕ) (plot : ℕ) (line : ℕ)
    (hw : Sub 0x800210000248 W) (h : Keeps W r s) : Keeps W r (State.poisonConsumed s consumer plot line) := by
  unfold State.poisonConsumed
  try dsimp only
  with_reducible repeat' first
      | exact h | exact hw.mono (by decide) | apply State.report_keeps | apply State.bump_keeps
      | fail_if_no_progress refine Keeps.upd hw ?_ | refine Keeps.ite ?_ ?_

theorem State.rebuildPlots_keeps {W : Nat} {r s : State} 
    (hw : Sub 0x800210000248 W) (h : Keeps W r s) : Keeps W r (State.rebuildPlots s).1 := by
  unfold State.rebuildPlots
  try dsimp only
  with_reducible repeat' first
      | exact h | assumption | exact hw.mono (by decide) | apply State.report_keeps | apply State.wr_keeps
      | refine Keeps.foldl (fun _ _ _ => ?_) _ ?_ | refine Keeps.foldlPair (fun _ _ _ => ?_) _ ?_
      | fail_if_no_progress refine Keeps.upd hw ?_

theorem State.auditLast_keeps {W : Nat} {r s : State} (mismatch : Bool) (revoked : Bool)
    (hw : Sub 0x200000000 W) (h : Keeps W r s) : Keeps W r (State.auditLast s mismatch revoked) := by
  unfold State.auditLast
  try dsimp only
  with_reducible repeat' first
      | exact h | exact hw.mono (by decide) | apply State.wr_keeps

theorem State.auditFailed_keeps {W : Nat} {r s : State} (joined : Bool)
    (hw : Sub 0x800210000248 W) (h : Keeps W r s) : Keeps W r (State.auditFailed s joined) := by
  unfold State.auditFailed
  try dsimp only
  with_reducible repeat' first
      | exact h | exact hw.mono (by decide) | apply State.reportAs_keeps | apply State.bump_keeps
      | apply State.rebuildPlots_keeps | apply State.serveWaiting_keeps | apply State.auditLast_keeps

theorem State.tableError_keeps {W : Nat} {r s : State} (t : ℕ) (entry : ℕ)
    (hw : Sub 0x800210000248 W) (h : Keeps W r s) : Keeps W r (State.tableError s t entry) := by
  unfold State.tableError
  try dsimp only
  with_reducible repeat' first
      | exact h | exact hw.mono (by decide) | apply State.wr_keeps | apply State.bump_keeps
      | apply State.auditFailed_keeps | apply State.report_keeps

theorem State.arbCycle_keeps {W : Nat} {r s : State} (b : ℕ) (act : List (ℕ × ℕ))
    (hw : Sub 0x200 W) (h : Keeps W r s) : Keeps W r (State.arbCycle s b act).1 := by
  unfold State.arbCycle
  try dsimp only
  with_reducible repeat' first
      | exact h | assumption | exact hw.mono (by decide) | refine Keeps.foldl (fun _ _ _ => ?_) _ ?_
      | refine Keeps.foldlPair (fun _ _ _ => ?_) _ ?_ | fail_if_no_progress refine Keeps.upd hw ?_
      | refine Keeps.ite ?_ ?_ | refine Keeps.iteFst ?_ ?_

theorem State.countGrant_keeps {W : Nat} {r s : State} (c : ℕ)
    (hw : Sub 0x200 W) (h : Keeps W r s) : Keeps W r (State.countGrant s c) := by
  unfold State.countGrant
  try dsimp only
  with_reducible repeat' first
      | exact h | exact hw.mono (by decide) | fail_if_no_progress refine Keeps.upd hw ?_

theorem State.wordBack_keeps {W : Nat} {r s : State} (b : ℕ)
    (hw : Sub 0x200 W) (h : Keeps W r s) : Keeps W r (State.wordBack s b) := by
  unfold State.wordBack
  try dsimp only
  with_reducible repeat' first
      | exact h | exact hw.mono (by decide) | fail_if_no_progress refine Keeps.upd hw ?_ | dsimp only | split

theorem State.arbitrate_keeps {W : Nat} {r : State} (req : GrnReq) (rivals : List GrnReq) (b : Nat) (hw : Sub 0x200 W) :
    ∀ (fuel i : Nat) {s : State}, Keeps W r s → Keeps W r (State.arbitrate req rivals b fuel i s) := by
  intro fuel
  induction fuel with
  | zero =>
    intro i s h
    exact h
  | succ n ih =>
    intro i s h
    unfold State.arbitrate
    try dsimp only
    with_reducible repeat' first
        | exact h | apply ih | assumption | exact hw.mono (by decide) | apply State.wordBack_keeps | exact ha | apply State.arbCycle_keeps
        | apply State.countGrant_keeps | refine Keeps.foldl (fun _ _ _ => ?_) _ ?_
        | refine Keeps.foldlPair (fun _ _ _ => ?_) _ ?_ | fail_if_no_progress refine Keeps.upd hw ?_
        | refine Keeps.ite ?_ ?_ | refine Keeps.iteFst ?_ ?_ | refine OptKeeps.ite ?_ ?_ | dsimp only | split

theorem State.grantRange_keeps {W : Nat} {r s : State} (req : GrnReq) (a : ℕ) (n : ℕ)
    (hw : Sub 0x200 W) (h : Keeps W r s) : Keeps W r (State.grantRange s req a n) := by
  unfold State.grantRange
  try dsimp only
  with_reducible repeat' first
      | exact h | assumption | exact hw.mono (by decide) | apply State.arbitrate_keeps
      | refine Keeps.foldl (fun _ _ _ => ?_) _ ?_

theorem State.grnEarly_keeps {W : Nat} {r s : State} 
    (hw : Sub 0x800010000048 W) (h : Keeps W r s) : Keeps W r (State.grnEarly s) := by
  unfold State.grnEarly
  try dsimp only
  with_reducible repeat' first
      | exact h | exact hw.mono (by decide) | apply State.report_keeps | refine Keeps.ite ?_ ?_

theorem State.grnCheck_keeps {W : Nat} {r s : State} (req : GrnReq) (n : ℕ)
    (hw : Sub 0x800010000048 W) (h : Keeps W r s) : Keeps W r (State.grnCheck s req n).1 := by
  unfold State.grnCheck
  try dsimp only
  with_reducible repeat' first
      | exact h | exact hw.mono (by decide) | apply State.report_keeps | refine Keeps.ite ?_ ?_
      | refine Keeps.iteFst ?_ ?_ | apply State.grnEarly_keeps

theorem State.engineRefuse_keeps {W : Nat} {r s : State} (e : ℕ) (a : ℕ) (n : ℕ)
    (hw : Sub 0x800010000058 W) (h : Keeps W r s) : Keeps W r (State.engineRefuse s e a n) := by
  unfold State.engineRefuse
  try dsimp only
  with_reducible repeat' first
      | exact h | assumption | exact hw.mono (by decide) | apply State.report_keeps
      | refine Keeps.foldl (fun _ _ _ => ?_) _ ?_ | refine Keeps.foldlPair (fun _ _ _ => ?_) _ ?_
      | fail_if_no_progress refine Keeps.upd hw ?_ | refine Keeps.ite ?_ ?_

theorem State.engineSet_keeps {W : Nat} {r s : State} (e : ℕ) (a : ℕ) (b : Bytes)
    (hw : Sub 0x800012400058 W) (h : Keeps W r s) : Keeps W r (State.engineSet s e a b) := by
  unfold State.engineSet
  try dsimp only
  with_reducible repeat' first
      | exact h | assumption | exact hw.mono (by decide) | apply State.memSet_keeps | apply State.engineRefuse_keeps
      | refine Keeps.foldl (fun _ _ _ => ?_) _ ?_ | refine Keeps.foldlPair (fun _ _ _ => ?_) _ ?_
      | refine Keeps.ite ?_ ?_

theorem State.refuseRange_keeps {W : Nat} {r s : State} (c : ℕ) (a : ℕ) (n : ℕ)
    (hw : Sub 0x800090000048 W) (h : Keeps W r s) : Keeps W r (State.refuseRange s c a n) := by
  unfold State.refuseRange
  try dsimp only
  with_reducible repeat' first
      | exact h | exact hw.mono (by decide) | apply State.unmapped_keeps | apply State.report_keeps
      | refine Keeps.ite ?_ ?_ | dsimp only | split | apply State.grnEarly_keeps

theorem State.refuseFirst_keeps {W : Nat} {r s : State} (c : ℕ) (ranges : List (ℕ × ℕ))
    (hw : Sub 0x800090000048 W) (h : Keeps W r s) : Keeps W r (State.refuseFirst s c ranges) := by
  unfold State.refuseFirst
  try dsimp only
  with_reducible repeat' first
      | exact h | exact hw.mono (by decide) | apply State.refuseRange_keeps | dsimp only | split

theorem State.consumePoison_keeps {W : Nat} {r s : State} (c : ℕ) (a : ℕ) (n : ℕ)
    (hw : Sub 0x840210000248 W) (h : Keeps W r s) : Keeps W r (State.consumePoison s c a n) := by
  unfold State.consumePoison
  try dsimp only
  with_reducible repeat' first
      | exact h | assumption | exact hw.mono (by decide) | apply State.poisonConsumed_keeps | apply State.bump_keeps
      | refine Keeps.foldl (fun _ _ _ => ?_) _ ?_ | refine Keeps.foldlPair (fun _ _ _ => ?_) _ ?_
      | refine Keeps.ite ?_ ?_

theorem State.grnErrOf_keeps {W : Nat} {r s : State} (phys : ℕ) (line : ℕ) (x4 : GrnErr)
    (hw : Sub 0x80021e000248 W) (h : Keeps W r s) : Keeps W r (State.grnErrOf s phys line x4) := by
  unfold State.grnErrOf
  try dsimp only
  with_reducible repeat' first
      | exact h | exact hw.mono (by decide) | apply State.grnCorrected_keeps | apply State.grnUncorrectable_keeps
      | apply State.tableError_keeps | dsimp only | split

theorem State.grnAccess_keeps {W : Nat} {r s : State} (req : GrnReq) (n : ℕ) (line : ℕ) (off : ℕ) (len : ℕ) (write : Option Bytes) (poisonIn : Bool) (err : GrnErr)
    (hw : Sub 0x80027e400248 W) (h : Keeps W r s) : Keeps W r (State.grnAccess s req n line off len write poisonIn err) := by
  unfold State.grnAccess
  try dsimp only
  with_reducible repeat' first
      | exact h | exact hw.mono (by decide) | apply State.grnCheck_keeps | apply State.resultBytes_keeps
      | apply State.tableError_keeps | apply State.grnErrOf_keeps | apply State.memSet_keeps
      | apply State.setPoison_keeps | apply State.poisonConsumed_keeps | refine Keeps.ite ?_ ?_ | dsimp only | split

theorem execPlotRequest_keeps {W : Nat} (client : Fin 32) (s : State) (hw : Sub 0x800230000248 W) :
    OutKeeps W s (execPlotRequest client s) := by
  unfold execPlotRequest
  have h := Keeps.refl W s
  try dsimp only [OutKeeps]
  with_reducible repeat' first
      | exact h | exact hw.mono (by decide) | apply State.result_keeps | apply State.report_keeps
      | apply State.allocPlot_keeps | fail_if_no_progress refine Keeps.upd hw ?_ | refine Keeps.ite ?_ ?_ | dsimp only
      | split

theorem execPlotRelease_keeps {W : Nat} (client : Fin 32) (plot : Fin 16384) (outstanding : ℕ) (receiver : Option (Fin 32)) (s : State) (hw : Sub 0x200000200 W) :
    OutKeeps W s (execPlotRelease client plot outstanding receiver s) := by
  unfold execPlotRelease
  have h := Keeps.refl W s
  try dsimp only [OutKeeps]
  with_reducible repeat' first
      | exact h | exact hw.mono (by decide) | apply State.dropPlot_keeps | apply State.setPlot_keeps
      | apply State.serveWaiting_keeps | refine Keeps.ite ?_ ?_ | dsimp only | split

theorem execPlotAccessComplete_keeps {W : Nat} (plot : Fin 16384) (s : State) (hw : Sub 0x200000200 W) :
    OutKeeps W s (execPlotAccessComplete plot s) := by
  unfold execPlotAccessComplete
  have h := Keeps.refl W s
  try dsimp only [OutKeeps]
  with_reducible repeat' first
      | exact h | exact hw.mono (by decide) | apply State.serveWaiting_keeps | apply State.setPlot_keeps
      | refine Keeps.ite ?_ ?_

theorem execPlotHandoverAccept_keeps {W : Nat} (client : Fin 32) (plot : Fin 16384) (s : State) (hw : Sub 0x200000200 W) :
    OutKeeps W s (execPlotHandoverAccept client plot s) := by
  unfold execPlotHandoverAccept
  have h := Keeps.refl W s
  try dsimp only [OutKeeps]
  with_reducible repeat' first
      | exact h | exact hw.mono (by decide) | apply State.allocPlot_keeps | refine Keeps.ite ?_ ?_

theorem execPlotHandoverTimeout_keeps {W : Nat} (plot : Fin 16384) (s : State) (hw : Sub 0x800210000248 W) :
    OutKeeps W s (execPlotHandoverTimeout plot s) := by
  unfold execPlotHandoverTimeout
  have h := Keeps.refl W s
  try dsimp only [OutKeeps]
  with_reducible repeat' first
      | exact h | exact hw.mono (by decide) | apply State.setPlot_keeps | apply State.serveWaiting_keeps
      | apply State.report_keeps | refine Keeps.ite ?_ ?_

theorem execGrnAllocStall_keeps {W : Nat} (client : Fin 32) (s : State) (hw : Sub 0x800010000048 W) :
    OutKeeps W s (execGrnAllocStall client s) := by
  unfold execGrnAllocStall
  have h := Keeps.refl W s
  try dsimp only [OutKeeps]
  with_reducible repeat' first
      | exact h | exact hw.mono (by decide) | apply State.report_keeps | refine Keeps.ite ?_ ?_

theorem State.grnCycle_keeps {W : Nat} {r s : State} (req : GrnReq) (rivals : List GrnReq) (b : ℕ)
    (hw : Sub 0x200 W) (h : Keeps W r s) : Keeps W r (State.grnCycle s req rivals b).1 := by
  unfold State.grnCycle
  try dsimp only
  with_reducible repeat' first
      | exact h | exact hw.mono (by decide) | apply State.arbitrate_keeps | dsimp only | split

theorem execGranaryAccess_keeps {W : Nat} (req : GrnReq) (plot : Fin 16384) (line : Fin 64) (off : Fin 64) (len : ℕ) (write : Option Bytes) (poisonIn : Bool) (err : GrnErr) (rivals : List GrnReq) (s : State) (hw : Sub 0x80027e400248 W) :
    OutKeeps W s (execGranaryAccess req plot line off len write poisonIn err rivals s) := by
  unfold execGranaryAccess
  have h := Keeps.refl W s
  try dsimp only [OutKeeps]
  with_reducible repeat' first
      | exact h | assumption | exact hw.mono (by decide)
      | refine State.oneCycle_keeps (fun _ _ _ => ?_) (hw.mono (by decide)) ?_ | apply State.grnAccess_keeps
      | apply State.grnCycle_keeps | apply State.resultBytes_keeps | refine Keeps.ite ?_ ?_ | dsimp only | split
      | refine Keeps.fst (by assumption) ?_

theorem execEccWriteback_keeps {W : Nat} (s : State) (hw : Sub 0x200 W) :
    OutKeeps W s (execEccWriteback s) := by
  unfold execEccWriteback
  have h := Keeps.refl W s
  try dsimp only [OutKeeps]
  with_reducible repeat' first
      | exact h | exact hw.mono (by decide) | apply State.wordBack_keeps | split

theorem execGranaryBist_keeps {W : Nat} (fails : List (Fin 16384)) (s : State) (hw : Sub 0xc00292400248 W) :
    OutKeeps W s (execGranaryBist fails s) := by
  unfold execGranaryBist
  have h := Keeps.refl W s
  try dsimp only [OutKeeps]
  with_reducible repeat' first
      | exact h | assumption | exact hw.mono (by decide)
      | refine State.oneCycle_keeps (fun _ _ _ => ?_) (hw.mono (by decide)) ?_ | apply State.addRetired_keeps
      | apply State.holdStage_keeps | apply State.report_keeps | apply State.zeroRange_keeps | apply State.wrF_keeps
      | apply State.wr_keeps | refine Keeps.foldl (fun _ _ _ => ?_) _ ?_
      | refine Keeps.foldlPair (fun _ _ _ => ?_) _ ?_ | fail_if_no_progress refine Keeps.upd hw ?_
      | refine Keeps.ite ?_ ?_

theorem execPlotAudit_keeps {W : Nat} (s : State) (hw : Sub 0x800210000248 W) :
    OutKeeps W s (execPlotAudit s) := by
  unfold execPlotAudit
  have h := Keeps.refl W s
  try dsimp only [OutKeeps]
  with_reducible repeat' first
      | exact h | assumption | exact hw.mono (by decide)
      | refine State.oneCycle_keeps (fun _ _ _ => ?_) (hw.mono (by decide)) ?_ | apply State.auditLast_keeps
      | apply State.auditFailed_keeps | refine Keeps.ite ?_ ?_

theorem execGrnSelftestReq_keeps {W : Nat} (value : Word) (s : State) (hw : Sub 0x80022c000048 W) :
    OutKeeps W s (execGrnSelftestReq value s) := by
  unfold execGrnSelftestReq
  have h := Keeps.refl W s
  refine OutKeeps.gate (hw.mono (by decide)) ?_
  try dsimp only [OutKeeps]
  with_reducible repeat' first
      | exact h | exact hw.mono (by decide) | apply State.queuePlot_keeps

theorem execPlotSelftest_keeps {W : Nat} (bad : List (Fin 64 × Fin 8)) (s : State) (hw : Sub 0x80021e400248 W) :
    OutKeeps W s (execPlotSelftest bad s) := by
  unfold execPlotSelftest
  have h := Keeps.refl W s
  try dsimp only [OutKeeps]
  with_reducible repeat' first
      | exact h | assumption | exact hw.mono (by decide)
      | refine State.oneCycle_keeps (fun _ _ _ => ?_) (hw.mono (by decide)) ?_ | apply State.dropTest_keeps
      | apply State.sparesExhausted_keeps | apply State.setPlot_keeps | apply State.grnUncorrectable_keeps
      | apply State.copyPlot_keeps | apply State.report_keeps | refine Keeps.foldl (fun _ _ _ => ?_) _ ?_
      | refine Keeps.foldlPair (fun _ _ _ => ?_) _ ?_ | fail_if_no_progress refine Keeps.upd hw ?_
      | refine Keeps.ite ?_ ?_ | dsimp only | split

theorem execPlotSelftestDone_keeps {W : Nat} (fail : Bool) (figure : Word) (s : State) (hw : Sub 0x800298000248 W) :
    OutKeeps W s (execPlotSelftestDone fail figure s) := by
  unfold execPlotSelftestDone
  have h := Keeps.refl W s
  try dsimp only [OutKeeps]
  with_reducible repeat' first
      | exact h | assumption | exact hw.mono (by decide)
      | refine State.oneCycle_keeps (fun _ _ _ => ?_) (hw.mono (by decide)) ?_ | apply State.setPlot_keeps
      | apply State.addRetired_keeps | apply State.report_keeps | apply State.sparesExhausted_keeps
      | apply State.serveWaiting_keeps | apply State.wr_keeps | apply State.testResult_keeps
      | fail_if_no_progress refine Keeps.upd hw ?_ | refine Keeps.ite ?_ ?_ | refine Keeps.iteFst ?_ ?_ | dsimp only
      | split

theorem execGrnClientGrantsRead_keeps {W : Nat} (s : State) (hw : Sub 0x20000208 W) :
    OutKeeps W s (execGrnClientGrantsRead s) := by
  unfold execGrnClientGrantsRead
  have h := Keeps.refl W s
  refine OutKeeps.gate (hw.mono (by decide)) ?_
  try dsimp only [OutKeeps]
  with_reducible repeat' first
      | exact h | exact hw.mono (by decide) | apply State.result_keeps | fail_if_no_progress refine Keeps.upd hw ?_

end Sys2Proof.Machine
end

