-- ==== Sys2Proof/Laws/KeepsPlates.lean ====
section
/-! SUPPORT. Every operation and meaning of the plates, the supplies and DRAM (Machine/Plates.lean, Supply.lean and Dram.lean)
keeps what `Keeps` says. -/

-- One theorem at a time: hundreds of them at once would need more thread stacks than a check may map.
set_option Elab.async false
namespace Sys2Proof.Machine

/-! ### Plates -/

theorem State.setPlate_keeps {W : Nat} {r s : State} (k : ℕ) (p : PlateSt)
    (hw : Sub 0x800 W) (h : Keeps W r s) : Keeps W r (State.setPlate s k p) := by
  unfold State.setPlate
  try dsimp only
  with_reducible repeat' first
      | exact h | exact hw.mono (by decide) | fail_if_no_progress refine Keeps.upd hw ?_

theorem State.setArriving_keeps {W : Nat} {r s : State} (k : ℕ) (r' : PlateRec) (i : ℕ) (v : ℕ)
    (hw : Sub 0x84009240044c W) (h : Keeps W r s) : Keeps W r (State.setArriving s k r' i v) := by
  unfold State.setArriving
  try dsimp only
  with_reducible repeat' first
      | exact h | exact hw.mono (by decide) | apply State.dramSet_keeps

theorem State.clearMaps_keeps {W : Nat} {r s : State} (r' : PlateRec)
    (hw : Sub 0x84009240044c W) (h : Keeps W r s) : Keeps W r (State.clearMaps s r') := by
  unfold State.clearMaps
  try dsimp only
  with_reducible repeat' first
      | exact h | assumption | exact hw.mono (by decide) | refine Keeps.foldl (fun _ _ _ => ?_) _ ?_
      | apply State.dramSet_keeps

theorem State.pltDrop_keeps {W : Nat} {r s : State} 
    (hw : Sub 0x400000000 W) (h : Keeps W r s) : Keeps W r (State.pltDrop s) := by
  unfold State.pltDrop
  try dsimp only
  with_reducible repeat' first
      | exact h | exact hw.mono (by decide) | apply State.bump_keeps

theorem State.publishMap_keeps {W : Nat} {r s : State} (k : ℕ) (r' : PlateRec) (u : Upd)
    (hw : Sub 0x84009240044c W) (h : Keeps W r s) : Keeps W r (State.publishMap s k r' u) := by
  unfold State.publishMap
  try dsimp only
  with_reducible repeat' first
      | exact h | assumption | exact hw.mono (by decide) | apply State.setArriving_keeps
      | refine Keeps.foldl (fun _ _ _ => ?_) _ ?_ | refine Keeps.foldlPair (fun _ _ _ => ?_) _ ?_
      | refine Keeps.ite ?_ ?_ | dsimp only | split

theorem State.publish_keeps {W : Nat} {r : State} (k : Nat) (hw : Sub 0x840092400c4c W) :
    ∀ (fuel : Nat) {s : State}, Keeps W r s → Keeps W r (State.publish k fuel s) := by
  intro fuel
  induction fuel with
  | zero =>
    intro s h
    exact h
  | succ n ih =>
    intro s h
    unfold State.publish
    try dsimp only
    with_reducible repeat' first
        | exact h | apply ih | assumption | exact hw.mono (by decide) | exact ha | apply State.setPlate_keeps
        | apply State.publishMap_keeps | refine Keeps.foldl (fun _ _ _ => ?_) _ ?_
        | refine Keeps.foldlPair (fun _ _ _ => ?_) _ ?_ | fail_if_no_progress refine Keeps.upd hw ?_
        | refine Keeps.ite ?_ ?_ | refine Keeps.iteFst ?_ ?_ | refine OptKeeps.ite ?_ ?_ | dsimp only | split

theorem State.publishPlate_keeps {W : Nat} {r s : State} (k : ℕ)
    (hw : Sub 0x840092400c4c W) (h : Keeps W r s) : Keeps W r (State.publishPlate k s) := by
  unfold State.publishPlate
  try dsimp only
  with_reducible repeat' first
      | exact h | exact hw.mono (by decide) | apply State.publish_keeps

theorem State.publishAll_keeps {W : Nat} {r s : State} 
    (hw : Sub 0x840092400c4c W) (h : Keeps W r s) : Keeps W r (State.publishAll s) := by
  unfold State.publishAll
  try dsimp only
  with_reducible repeat' first
      | exact h | assumption | exact hw.mono (by decide) | apply State.publishPlate_keeps
      | refine Keeps.foldl (fun _ _ _ => ?_) _ ?_

theorem State.abandon_keeps {W : Nat} {r s : State} (k : ℕ) (seq : ℕ)
    (hw : Sub 0x800410000848 W) (h : Keeps W r s) : Keeps W r (State.abandon s k seq) := by
  unfold State.abandon
  try dsimp only
  with_reducible repeat' first
      | exact h | exact hw.mono (by decide) | apply State.setPlate_keeps | apply State.report_keeps
      | apply State.bump_keeps

theorem State.checkEntries_keeps {W : Nat} {r s : State} (f : FrameRec)
    (hw : Sub 0x800010000048 W) (h : Keeps W r s) : Keeps W r (State.checkEntries s f) := by
  unfold State.checkEntries
  try dsimp only
  with_reducible repeat' first
      | exact h | assumption | exact hw.mono (by decide) | apply State.report_keeps
      | refine Keeps.foldl (fun _ _ _ => ?_) _ ?_ | refine Keeps.foldlPair (fun _ _ _ => ?_) _ ?_
      | refine Keeps.ite ?_ ?_ | dsimp only | split

theorem State.frameRecordIn_keeps {W : Nat} {r s : State} (b : Bytes)
    (hw : Sub 0x800410000848 W) (h : Keeps W r s) : Keeps W r (State.frameRecordIn s b) := by
  unfold State.frameRecordIn
  try dsimp only
  with_reducible repeat' first
      | exact h | exact hw.mono (by decide) | apply State.pltDrop_keeps | apply State.report_keeps
      | apply State.wrF_keeps | apply State.bump_keeps | apply State.checkEntries_keeps
      | fail_if_no_progress refine Keeps.upd hw ?_ | refine Keeps.ite ?_ ?_

theorem State.adoptCandidate_keeps {W : Nat} {r s : State} (f : FrameRec)
    (hw : Sub 0x840092400c4c W) (h : Keeps W r s) : Keeps W r (State.adoptCandidate s f) := by
  unfold State.adoptCandidate
  try dsimp only
  with_reducible repeat' first
      | exact h | assumption | exact hw.mono (by decide) | apply State.setPlate_keeps | apply State.setArriving_keeps
      | apply State.report_keeps | refine Keeps.foldl (fun _ _ _ => ?_) _ ?_
      | refine Keeps.foldlPair (fun _ _ _ => ?_) _ ?_ | fail_if_no_progress refine Keeps.upd hw ?_
      | refine Keeps.ite ?_ ?_ | dsimp only | split

theorem State.updateRecordIn_keeps {W : Nat} {r s : State} (b : Bytes)
    (hw : Sub 0x840492400c4c W) (h : Keeps W r s) : Keeps W r (State.updateRecordIn s b) := by
  unfold State.updateRecordIn
  try dsimp only
  with_reducible repeat' first
      | exact h | exact hw.mono (by decide) | apply State.pltDrop_keeps | apply State.report_keeps
      | apply State.setPlate_keeps | apply State.abandon_keeps | apply State.publishPlate_keeps
      | refine Keeps.ite ?_ ?_ | dsimp only | split

theorem State.acceptBlock_keeps {W : Nat} {r s : State} (b : Bytes)
    (hw : Sub 0x840492400c4c W) (h : Keeps W r s) : Keeps W r (State.acceptBlock s b).1 := by
  unfold State.acceptBlock
  try dsimp only
  with_reducible repeat' first
      | exact h | exact hw.mono (by decide) | apply State.report_keeps | apply State.pltDrop_keeps
      | apply State.setPlate_keeps | apply State.publishPlate_keeps | apply State.bump_keeps
      | apply State.abandon_keeps | refine Keeps.ite ?_ ?_ | refine Keeps.iteFst ?_ ?_ | dsimp only | split
      | apply State.dramSet_keeps

theorem State.sheafBlockIn_keeps {W : Nat} {r s : State} (mid : ℕ) (b : Bytes)
    (hw : Sub 0x840492400c4c W) (h : Keeps W r s) : Keeps W r (State.sheafBlockIn s mid b).1 := by
  unfold State.sheafBlockIn
  try dsimp only
  with_reducible repeat' first
      | exact h | exact hw.mono (by decide) | apply State.pltDrop_keeps | apply State.report_keeps
      | apply State.acceptBlock_keeps | fail_if_no_progress refine Keeps.upd hw ?_ | refine Keeps.iteFst ?_ ?_

theorem State.scalerCheck_keeps {W : Nat} {r s : State} 
    (hw : Sub 0x801010000048 W) (h : Keeps W r s) : Keeps W r (State.scalerCheck s) := by
  unfold State.scalerCheck
  try dsimp only
  with_reducible repeat' first
      | exact h | assumption | exact hw.mono (by decide) | apply State.report_keeps | apply State.wr_keeps
      | refine Keeps.foldl (fun _ _ _ => ?_) _ ?_ | refine Keeps.foldlPair (fun _ _ _ => ?_) _ ?_
      | refine Keeps.ite ?_ ?_ | dsimp only | split

theorem State.judgePlate_keeps {W : Nat} {r s : State} (among : ℕ) (budget : ℕ) (k : ℕ) (r' : PlateRec)
    (hw : Sub 0x800410000048 W) (h : Keeps W r s) : Keeps W r (State.judgePlate s among budget k r').1 := by
  unfold State.judgePlate
  try dsimp only
  with_reducible repeat' first
      | exact h | exact hw.mono (by decide) | apply State.orR_keeps | apply State.report_keeps
      | apply State.bump_keeps | refine Keeps.iteFst ?_ ?_

theorem State.plateCommitPoint_keeps {W : Nat} {r s : State} (mask : ℕ) (budget : ℕ)
    (hw : Sub 0x801410000848 W) (h : Keeps W r s) : Keeps W r (State.plateCommitPoint s mask budget).1 := by
  unfold State.plateCommitPoint
  try dsimp only
  with_reducible repeat' first
      | exact h | assumption | exact hw.mono (by decide) | apply State.wr_keeps | apply State.wrF_keeps
      | apply State.scalerCheck_keeps | apply State.judgePlate_keeps | apply State.orR_keeps
      | refine Keeps.foldl (fun _ _ _ => ?_) _ ?_ | refine Keeps.foldlPair (fun _ _ _ => ?_) _ ?_
      | fail_if_no_progress refine Keeps.upd hw ?_ | refine Keeps.ite ?_ ?_

theorem State.copyMap_keeps {W : Nat} {r s : State} (k : ℕ)
    (hw : Sub 0x84009240044c W) (h : Keeps W r s) : Keeps W r (State.copyMap s k) := by
  unfold State.copyMap
  try dsimp only
  with_reducible repeat' first
      | exact h | assumption | exact hw.mono (by decide) | apply State.setArriving_keeps
      | refine Keeps.foldl (fun _ _ _ => ?_) _ ?_ | refine Keeps.foldlPair (fun _ _ _ => ?_) _ ?_ | dsimp only | split

theorem State.commitPlate_keeps {W : Nat} {r s : State} (k : ℕ)
    (hw : Sub 0x840092400c4c W) (h : Keeps W r s) : Keeps W r (State.commitPlate s k) := by
  unfold State.commitPlate
  try dsimp only
  with_reducible repeat' first
      | exact h | exact hw.mono (by decide) | apply State.copyMap_keeps | apply State.setPlate_keeps
      | refine Keeps.ite ?_ ?_

theorem State.abandonUpTo_keeps {W : Nat} {r s : State} (k : ℕ)
    (hw : Sub 0x800410000848 W) (h : Keeps W r s) : Keeps W r (State.abandonUpTo s k) := by
  unfold State.abandonUpTo
  try dsimp only
  with_reducible repeat' first
      | exact h | assumption | exact hw.mono (by decide) | apply State.abandon_keeps
      | refine Keeps.foldl (fun _ _ _ => ?_) _ ?_ | refine Keeps.foldlPair (fun _ _ _ => ?_) _ ?_ | dsimp only | split

theorem State.retryWaiting_keeps {W : Nat} {r s : State} 
    (hw : Sub 0x840492400c4c W) (h : Keeps W r s) : Keeps W r (State.retryWaiting s) := by
  unfold State.retryWaiting
  try dsimp only
  with_reducible repeat' first
      | exact h | assumption | exact hw.mono (by decide) | apply State.acceptBlock_keeps
      | refine Keeps.foldl (fun _ _ _ => ?_) _ ?_ | refine Keeps.foldlPair (fun _ _ _ => ?_) _ ?_
      | fail_if_no_progress refine Keeps.upd hw ?_

theorem State.plateBoundary_keeps {W : Nat} {r s : State} (commit : Bool)
    (hw : Sub 0x840492400c4c W) (h : Keeps W r s) : Keeps W r (State.plateBoundary s commit) := by
  unfold State.plateBoundary
  try dsimp only
  with_reducible repeat' first
      | exact h | assumption | exact hw.mono (by decide) | apply State.commitPlate_keeps | apply State.report_keeps
      | apply State.bump_keeps | apply State.abandonUpTo_keeps | apply State.wr_keeps | apply State.wrF_keeps
      | apply State.adoptCandidate_keeps | apply State.publishAll_keeps | apply State.retryWaiting_keeps
      | refine Keeps.foldl (fun _ _ _ => ?_) _ ?_ | refine Keeps.foldlPair (fun _ _ _ => ?_) _ ?_
      | fail_if_no_progress refine Keeps.upd hw ?_ | refine Keeps.ite ?_ ?_ | dsimp only | split

theorem State.mapLineLost_keeps {W : Nat} {r s : State} (a : ℕ)
    (hw : Sub 0x400800 W) (h : Keeps W r s) : Keeps W r (State.mapLineLost s a) := by
  unfold State.mapLineLost
  try dsimp only
  with_reducible repeat' first
      | exact h | assumption | exact hw.mono (by decide) | apply State.memPut_keeps | apply State.setPlate_keeps
      | refine Keeps.foldl (fun _ _ _ => ?_) _ ?_ | refine Keeps.foldlPair (fun _ _ _ => ?_) _ ?_
      | refine Keeps.ite ?_ ?_

theorem State.plateChanged_keeps {W : Nat} {r s : State} (k : ℕ) (r' : PlateRec) (sameId : Bool)
    (hw : Sub 0x840492400c4c W) (h : Keeps W r s) : Keeps W r (State.plateChanged s k r' sameId) := by
  unfold State.plateChanged
  try dsimp only
  with_reducible repeat' first
      | exact h | assumption | exact hw.mono (by decide) | apply State.clearMaps_keeps | apply State.setPlate_keeps
      | apply State.abandon_keeps | refine Keeps.foldl (fun _ _ _ => ?_) _ ?_
      | refine Keeps.foldlPair (fun _ _ _ => ?_) _ ?_ | refine Keeps.ite ?_ ?_

theorem State.plateSwitch_keeps {W : Nat} {r s : State} (old : List PlateRec) (cold : Bool)
    (hw : Sub 0x840492400c4c W) (h : Keeps W r s) : Keeps W r (State.plateSwitch s old cold) := by
  unfold State.plateSwitch
  try dsimp only
  with_reducible repeat' first
      | exact h | assumption | exact hw.mono (by decide) | apply State.wrF_keeps | apply State.plateChanged_keeps
      | refine Keeps.foldl (fun _ _ _ => ?_) _ ?_ | refine Keeps.foldlPair (fun _ _ _ => ?_) _ ?_
      | fail_if_no_progress refine Keeps.upd hw ?_ | refine Keeps.ite ?_ ?_ | dsimp only | split

theorem execUpdateComplete_keeps {W : Nat} (plate : Fin 32) (s : State) (hw : Sub 0x840092400c4c W) :
    OutKeeps W s (execUpdateComplete plate s) := by
  unfold execUpdateComplete
  have h := Keeps.refl W s
  try dsimp only [OutKeeps]
  with_reducible repeat' first
      | exact h | exact hw.mono (by decide) | apply State.publishPlate_keeps

theorem execMapCopyDone_keeps {W : Nat} (plate : Fin 32) (s : State) (hw : Sub 0x840092400c4c W) :
    OutKeeps W s (execMapCopyDone plate s) := by
  unfold execMapCopyDone
  have h := Keeps.refl W s
  try dsimp only [OutKeeps]
  with_reducible repeat' first
      | exact h | exact hw.mono (by decide) | apply State.publishPlate_keeps | apply State.setPlate_keeps
      | refine Keeps.ite ?_ ?_

theorem execPltCtrlResync_keeps {W : Nat} (s : State) (hw : Sub 0x420000000 W) :
    OutKeeps W s (execPltCtrlResync s) := by
  unfold execPltCtrlResync
  have h := Keeps.refl W s
  refine OutKeeps.gate (hw.mono (by decide)) ?_
  try dsimp only [OutKeeps]
  with_reducible repeat' first
      | exact h | exact hw.mono (by decide) | apply State.wrF_keeps

theorem execPltCtrlDropPending_keeps {W : Nat} (s : State) (hw : Sub 0x20000800 W) :
    OutKeeps W s (execPltCtrlDropPending s) := by
  unfold execPltCtrlDropPending
  have h := Keeps.refl W s
  refine OutKeeps.gate (hw.mono (by decide)) ?_
  try dsimp only [OutKeeps]
  with_reducible repeat' first
      | exact h | exact hw.mono (by decide) | fail_if_no_progress refine Keeps.upd hw ?_

/-! ### Supply -/

theorem State.setSup_keeps {W : Nat} {r s : State} (v : ℕ)
    (hw : Sub 0x4000000000 W) (h : Keeps W r s) : Keeps W r (State.setSup s v) := by
  unfold State.setSup
  try dsimp only
  with_reducible repeat' first
      | exact h | exact hw.mono (by decide) | apply State.wrF_keeps

theorem State.setPseq_keeps {W : Nat} {r s : State} (g : ℕ) (v : ℕ)
    (hw : Sub 0x4000000000 W) (h : Keeps W r s) : Keeps W r (State.setPseq s g v) := by
  unfold State.setPseq
  try dsimp only
  with_reducible repeat' first
      | exact h | exact hw.mono (by decide) | apply State.wrF_keeps

theorem State.setPgood_keeps {W : Nat} {r s : State} (g : ℕ) (v : ℕ)
    (hw : Sub 0x4000000000 W) (h : Keeps W r s) : Keeps W r (State.setPgood s g v) := by
  unfold State.setPgood
  try dsimp only
  with_reducible repeat' first
      | exact h | exact hw.mono (by decide) | apply State.wrF_keeps

theorem State.setEmit_keeps {W : Nat} {r s : State} (v : ℕ)
    (hw : Sub 0x4000000080 W) (h : Keeps W r s) : Keeps W r (State.setEmit s v) := by
  unfold State.setEmit
  try dsimp only
  with_reducible repeat' first
      | exact h | exact hw.mono (by decide) | apply State.wrF_keeps | fail_if_no_progress refine Keeps.upd hw ?_
      | refine Keeps.ite ?_ ?_

theorem State.setDischN_keeps {W : Nat} {r s : State} (level : ℕ)
    (hw : Sub 0x4000000000 W) (h : Keeps W r s) : Keeps W r (State.setDischN s level) := by
  unfold State.setDischN
  try dsimp only
  with_reducible repeat' first
      | exact h | exact hw.mono (by decide) | apply State.wrF_keeps

theorem State.setAllOpen_keeps {W : Nat} {r s : State} (v : ℕ)
    (hw : Sub 0x4010000000 W) (h : Keeps W r s) : Keeps W r (State.setAllOpen s v) := by
  unfold State.setAllOpen
  try dsimp only
  with_reducible repeat' first
      | exact h | exact hw.mono (by decide) | apply State.wrF_keeps | apply State.put_keeps | refine Keeps.ite ?_ ?_

theorem State.setSeq_keeps {W : Nat} {r s : State} (q : SupSeq)
    (hw : Sub 0x80 W) (h : Keeps W r s) : Keeps W r (State.setSeq s q) := by
  unfold State.setSeq
  try dsimp only
  with_reducible repeat' first
      | exact h | exact hw.mono (by decide) | fail_if_no_progress refine Keeps.upd hw ?_

theorem State.dischargeStart_keeps {W : Nat} {r s : State} (cause : ℕ)
    (hw : Sub 0x4010000080 W) (h : Keeps W r s) : Keeps W r (State.dischargeStart s cause) := by
  unfold State.dischargeStart
  try dsimp only
  with_reducible repeat' first
      | exact h | exact hw.mono (by decide) | apply State.setSeq_keeps | apply State.setAllOpen_keeps
      | apply State.setDischN_keeps | apply State.setEmit_keeps

theorem State.dischargeAccount_keeps {W : Nat} {r s : State} 
    (hw : Sub 0x80 W) (h : Keeps W r s) : Keeps W r (State.dischargeAccount s) := by
  unfold State.dischargeAccount
  try dsimp only
  with_reducible repeat' first
      | exact h | exact hw.mono (by decide) | fail_if_no_progress refine Keeps.upd hw ?_

theorem State.dischargeDone_keeps {W : Nat} {r s : State} (cause : ℕ)
    (hw : Sub 0x8040100000c8 W) (h : Keeps W r s) : Keeps W r (State.dischargeDone s cause) := by
  unfold State.dischargeDone
  try dsimp only
  with_reducible repeat' first
      | exact h | exact hw.mono (by decide) | apply State.report_keeps | apply State.bump_keeps
      | apply State.dischargeAccount_keeps | apply State.setAllOpen_keeps

theorem State.supplyUp_keeps {W : Nat} {r s : State} 
    (hw : Sub 0x4000000080 W) (h : Keeps W r s) : Keeps W r (State.supplyUp s) := by
  unfold State.supplyUp
  try dsimp only
  with_reducible repeat' first
      | exact h | exact hw.mono (by decide) | apply State.setSup_keeps | apply State.setDischN_keeps
      | apply State.setEmit_keeps | apply State.setSeq_keeps | apply State.setPseq_keeps | refine Keeps.ite ?_ ?_

theorem State.supplyDownFor_keeps {W : Nat} {r s : State} (cause : ℕ) (after : AfterDown)
    (hw : Sub 0x4010000080 W) (h : Keeps W r s) : Keeps W r (State.supplyDownFor s cause after) := by
  unfold State.supplyDownFor
  try dsimp only
  with_reducible repeat' first
      | exact h | exact hw.mono (by decide) | apply State.dischargeStart_keeps | apply State.setSup_keeps
      | fail_if_no_progress refine Keeps.upd hw ?_ | refine Keeps.ite ?_ ?_

theorem State.supplyDown_keeps {W : Nat} {r s : State} 
    (hw : Sub 0x4010000080 W) (h : Keeps W r s) : Keeps W r (State.supplyDown s) := by
  unfold State.supplyDown
  try dsimp only
  with_reducible repeat' first
      | exact h | exact hw.mono (by decide) | apply State.supplyDownFor_keeps
      | fail_if_no_progress refine Keeps.upd hw ?_ | refine Keeps.ite ?_ ?_

theorem State.supplyFail_keeps {W : Nat} {r s : State} (code : ℕ) (g : ℕ)
    (hw : Sub 0x8040100000c8 W) (h : Keeps W r s) : Keeps W r (State.supplyFail s code g) := by
  unfold State.supplyFail
  try dsimp only
  with_reducible repeat' first
      | exact h | exact hw.mono (by decide) | apply State.report_keeps | apply State.wrF_keeps
      | apply State.supplyDownFor_keeps | fail_if_no_progress refine Keeps.upd hw ?_ | refine Keeps.ite ?_ ?_

theorem State.supplyRest_keeps {W : Nat} {r s : State} 
    (hw : Sub 0x8040100000e8 W) (h : Keeps W r s) : Keeps W r (State.supplyRest s) := by
  unfold State.supplyRest
  try dsimp only
  with_reducible repeat' first
      | exact h | exact hw.mono (by decide) | apply State.setSeq_keeps | apply State.setSup_keeps
      | apply State.requestStore_keeps | dsimp only | split | apply State.supplyUp_keeps

theorem State.emitResume_keeps {W : Nat} {r s : State} 
    (hw : Sub 0x4000000080 W) (h : Keeps W r s) : Keeps W r (State.emitResume s) := by
  unfold State.emitResume
  try dsimp only
  with_reducible repeat' first
      | exact h | exact hw.mono (by decide) | apply State.setSeq_keeps | apply State.setSup_keeps
      | apply State.setDischN_keeps | refine Keeps.ite ?_ ?_

theorem State.emitAtTick_keeps {W : Nat} {r s : State} 
    (hw : Sub 0x8040100000c8 W) (h : Keeps W r s) : Keeps W r (State.emitAtTick s) := by
  unfold State.emitAtTick
  try dsimp only
  with_reducible repeat' first
      | exact h | exact hw.mono (by decide) | apply State.setSeq_keeps | apply State.setSup_keeps
      | apply State.setEmit_keeps | apply State.report_keeps | fail_if_no_progress refine Keeps.upd hw ?_
      | refine Keeps.ite ?_ ?_

theorem execEtcSupplyUp_keeps {W : Nat} (s : State) (hw : Sub 0x4020000080 W) :
    OutKeeps W s (execEtcSupplyUp s) := by
  unfold execEtcSupplyUp
  have h := Keeps.refl W s
  refine OutKeeps.gate (hw.mono (by decide)) ?_
  try dsimp only [OutKeeps]
  with_reducible repeat' first
      | exact h | exact hw.mono (by decide) | apply State.supplyUp_keeps

theorem execEtcSupplyDown_keeps {W : Nat} (s : State) (hw : Sub 0x4030000080 W) :
    OutKeeps W s (execEtcSupplyDown s) := by
  unfold execEtcSupplyDown
  have h := Keeps.refl W s
  refine OutKeeps.gate (hw.mono (by decide)) ?_
  try dsimp only [OutKeeps]
  with_reducible repeat' first
      | exact h | exact hw.mono (by decide) | apply State.supplyDown_keeps

theorem execEtcSupplyClearLockout_keeps {W : Nat} (s : State) (hw : Sub 0x4020000000 W) :
    OutKeeps W s (execEtcSupplyClearLockout s) := by
  unfold execEtcSupplyClearLockout
  have h := Keeps.refl W s
  refine OutKeeps.gate (hw.mono (by decide)) ?_
  try dsimp only [OutKeeps]
  with_reducible repeat' first
      | exact h | exact hw.mono (by decide) | apply State.setSup_keeps | refine Keeps.ite ?_ ?_

theorem execSupplyPgoodRise_keeps {W : Nat} (group : Fin 4) (s : State) (hw : Sub 0x4000000080 W) :
    OutKeeps W s (execSupplyPgoodRise group s) := by
  unfold execSupplyPgoodRise
  have h := Keeps.refl W s
  try dsimp only [OutKeeps]
  with_reducible repeat' first
      | exact h | exact hw.mono (by decide) | apply State.setPgood_keeps | apply State.setSeq_keeps
      | refine Keeps.ite ?_ ?_

theorem execSupplySeqDelayEnd_keeps {W : Nat}  (s : State) (hw : Sub 0x8040100000e8 W) :
    OutKeeps W s (execSupplySeqDelayEnd s) := by
  unfold execSupplySeqDelayEnd
  have h := Keeps.refl W s
  try dsimp only [OutKeeps]
  with_reducible repeat' first
      | exact h | assumption | exact hw.mono (by decide)
      | refine State.oneCycle_keeps (fun _ _ _ => ?_) (hw.mono (by decide)) ?_ | apply State.setSeq_keeps
      | apply State.setPseq_keeps | apply State.setAllOpen_keeps | apply State.setPgood_keeps
      | apply State.supplyRest_keeps | refine Keeps.ite ?_ ?_ | dsimp only | split

theorem execSupplyPgoodTimeout_keeps {W : Nat} (s : State) (hw : Sub 0x8040100000c8 W) :
    OutKeeps W s (execSupplyPgoodTimeout s) := by
  unfold execSupplyPgoodTimeout
  have h := Keeps.refl W s
  try dsimp only [OutKeeps]
  with_reducible repeat' first
      | exact h | assumption | exact hw.mono (by decide)
      | refine State.oneCycle_keeps (fun _ _ _ => ?_) (hw.mono (by decide)) ?_ | apply State.supplyFail_keeps
      | dsimp only | split

theorem execSupplyPgoodFault_keeps {W : Nat} (group : Fin 4) (s : State) (hw : Sub 0x8040100000c8 W) :
    OutKeeps W s (execSupplyPgoodFault group s) := by
  unfold execSupplyPgoodFault
  have h := Keeps.refl W s
  try dsimp only [OutKeeps]
  with_reducible repeat' first
      | exact h | assumption | exact hw.mono (by decide)
      | refine State.oneCycle_keeps (fun _ _ _ => ?_) (hw.mono (by decide)) ?_ | apply State.supplyFail_keeps
      | apply State.setEmit_keeps | apply State.setPgood_keeps | refine Keeps.ite ?_ ?_

theorem execSupplyRetryTimer_keeps {W : Nat}  (s : State) (hw : Sub 0x4000000080 W) :
    OutKeeps W s (execSupplyRetryTimer s) := by
  unfold execSupplyRetryTimer
  have h := Keeps.refl W s
  try dsimp only [OutKeeps]
  with_reducible repeat' first
      | exact h | exact hw.mono (by decide) | apply State.supplyUp_keeps | refine Keeps.ite ?_ ?_

theorem execDischargeAllOpenEnd_keeps {W : Nat} (s : State) (hw : Sub 0x8040100000c8 W) :
    OutKeeps W s (execDischargeAllOpenEnd s) := by
  unfold execDischargeAllOpenEnd
  have h := Keeps.refl W s
  try dsimp only [OutKeeps]
  with_reducible repeat' first
      | exact h | exact hw.mono (by decide) | apply State.emitResume_keeps | apply State.setAllOpen_keeps
      | apply State.dischargeDone_keeps | apply State.setSeq_keeps | apply State.setPgood_keeps
      | apply State.setPseq_keeps | refine Keeps.ite ?_ ?_ | dsimp only | split | apply State.setSup_keeps

theorem execEtcCtrlBlank_keeps {W : Nat} (value : Word) (s : State) (hw : Sub 0x4020000000 W) :
    OutKeeps W s (execEtcCtrlBlank value s) := by
  unfold execEtcCtrlBlank
  have h := Keeps.refl W s
  refine OutKeeps.gate (hw.mono (by decide)) ?_
  try dsimp only [OutKeeps]
  with_reducible repeat' first
      | exact h | exact hw.mono (by decide) | apply State.regWrite_keeps

theorem State.blankAtTick_keeps {W : Nat} {r s : State} 
    (hw : Sub 0x4010000080 W) (h : Keeps W r s) : Keeps W r (State.blankAtTick s) := by
  unfold State.blankAtTick
  try dsimp only
  with_reducible repeat' first
      | exact h | exact hw.mono (by decide) | apply State.dischargeStart_keeps | apply State.wrF_keeps
      | apply State.emitResume_keeps | refine Keeps.ite ?_ ?_

theorem State.blankEnd_keeps {W : Nat} {r s : State} 
    (hw : Sub 0x4000000080 W) (h : Keeps W r s) : Keeps W r (State.blankEnd s) := by
  unfold State.blankEnd
  try dsimp only
  with_reducible repeat' first
      | exact h | exact hw.mono (by decide) | apply State.wrF_keeps | apply State.emitResume_keeps
      | refine Keeps.ite ?_ ?_

theorem execPowerLossTrigger_keeps {W : Nat} (s : State) (hw : Sub 0x8040101000e8 W) :
    OutKeeps W s (execPowerLossTrigger s) := by
  unfold execPowerLossTrigger
  have h := Keeps.refl W s
  try dsimp only [OutKeeps]
  with_reducible repeat' first
      | exact h | exact hw.mono (by decide) | apply State.powerFailStore_keeps | apply State.setSeq_keeps
      | apply State.setAllOpen_keeps | apply State.setDischN_keeps | apply State.setEmit_keeps
      | fail_if_no_progress refine Keeps.upd hw ?_ | refine Keeps.ite ?_ ?_

/-! ### Dram -/

theorem State.urgentStep_keeps {W : Nat} {r s : State} (c : ℕ) (n : ℕ)
    (hw : Sub 0x840010000448 W) (h : Keeps W r s) : Keeps W r (State.urgentStep s c n) := by
  unfold State.urgentStep
  try dsimp only
  with_reducible repeat' first
      | exact h | exact hw.mono (by decide) | apply State.putDram_keeps | apply State.setChan_keeps
      | apply State.report_keeps | apply State.bump_keeps | refine Keeps.ite ?_ ?_

theorem State.chanIssue_keeps {W : Nat} {r s : State} (c : ℕ)
    (hw : Sub 0x840010000448 W) (h : Keeps W r s) : Keeps W r (State.chanIssue s c) := by
  unfold State.chanIssue
  try dsimp only
  with_reducible repeat' first
      | exact h | exact hw.mono (by decide) | apply State.putDram_keeps | apply State.setChan_keeps
      | refine Keeps.ite ?_ ?_ | dsimp only | split | apply State.urgentStep_keeps

theorem State.srCommit_keeps {W : Nat} {r s : State} 
    (hw : Sub 0x40010000400 W) (h : Keeps W r s) : Keeps W r (State.srCommit s) := by
  unfold State.srCommit
  try dsimp only
  with_reducible repeat' first
      | exact h | assumption | exact hw.mono (by decide) | apply State.putDram_keeps | apply State.setChan_keeps
      | apply State.wrF_keeps | refine Keeps.foldl (fun _ _ _ => ?_) _ ?_
      | refine Keeps.foldlPair (fun _ _ _ => ?_) _ ?_ | fail_if_no_progress refine Keeps.upd hw ?_
      | refine Keeps.ite ?_ ?_

theorem State.srAdvance_keeps {W : Nat} {r s : State} 
    (hw : Sub 0x40010000400 W) (h : Keeps W r s) : Keeps W r (State.srAdvance s) := by
  unfold State.srAdvance
  try dsimp only
  with_reducible repeat' first
      | exact h | exact hw.mono (by decide) | apply State.cacheFlush_keeps | apply State.srCommit_keeps
      | refine Keeps.ite ?_ ?_

theorem State.dmcCycle_keeps {W : Nat} {r s : State} 
    (hw : Sub 0x840010000448 W) (h : Keeps W r s) : Keeps W r (State.dmcCycle s) := by
  unfold State.dmcCycle
  try dsimp only
  with_reducible repeat' first
      | exact h | assumption | exact hw.mono (by decide) | apply State.chanIssue_keeps
      | refine Keeps.foldl (fun _ _ _ => ?_) _ ?_ | refine Keeps.foldlPair (fun _ _ _ => ?_) _ ?_
      | refine Keeps.ite ?_ ?_ | dsimp only | split | apply State.srAdvance_keeps

theorem State.dmcHold_keeps {W : Nat} {r s : State} (a : ℕ) (v : ℕ)
    (hw : Sub 0x400 W) (h : Keeps W r s) : Keeps W r (State.dmcHold s a v) := by
  unfold State.dmcHold
  try dsimp only
  with_reducible repeat' first
      | exact h | exact hw.mono (by decide) | fail_if_no_progress refine Keeps.upd hw ?_

theorem State.requestOp_keeps {W : Nat} {r s : State} (target : ℕ)
    (hw : Sub 0x840010000448 W) (h : Keeps W r s) : Keeps W r (State.requestOp s target) := by
  unfold State.requestOp
  try dsimp only
  with_reducible repeat' first
      | exact h | exact hw.mono (by decide) | apply State.report_keeps | apply State.wrF_keeps
      | fail_if_no_progress refine Keeps.upd hw ?_ | refine Keeps.ite ?_ ?_ | apply State.dmcHold_keeps

theorem State.urgentBurst_keeps {W : Nat} {r s : State} (c : ℕ)
    (hw : Sub 0x400 W) (h : Keeps W r s) : Keeps W r (State.urgentBurst s c) := by
  unfold State.urgentBurst
  try dsimp only
  with_reducible repeat' first
      | exact h | assumption | exact hw.mono (by decide) | apply State.setChan_keeps
      | refine Keeps.foldl (fun _ _ _ => ?_) _ ?_ | refine Keeps.ite ?_ ?_

theorem State.updateMult_keeps {W : Nat} {r s : State} (c : ℕ)
    (hw : Sub 0x800010000448 W) (h : Keeps W r s) : Keeps W r (State.updateMult s c) := by
  unfold State.updateMult
  try dsimp only
  with_reducible repeat' first
      | exact h | exact hw.mono (by decide) | apply State.setChan_keeps | apply State.srCancel_keeps
      | apply State.report_keeps | apply State.urgentBurst_keeps | refine Keeps.ite ?_ ?_

theorem State.refreshFloors_keeps {W : Nat} {r s : State} 
    (hw : Sub 0x800010000448 W) (h : Keeps W r s) : Keeps W r (State.refreshFloors s) := by
  unfold State.refreshFloors
  try dsimp only
  with_reducible repeat' first
      | exact h | assumption | exact hw.mono (by decide) | apply State.updateMult_keeps
      | refine Keeps.foldl (fun _ _ _ => ?_) _ ?_ | refine Keeps.foldlPair (fun _ _ _ => ?_) _ ?_
      | refine Keeps.ite ?_ ?_

theorem State.mr4Read_keeps {W : Nat} {r s : State} (c : ℕ) (m : Mr4)
    (hw : Sub 0x800010000448 W) (h : Keeps W r s) : Keeps W r (State.mr4Read s c m) := by
  unfold State.mr4Read
  try dsimp only
  with_reducible repeat' first
      | exact h | exact hw.mono (by decide) | apply State.setChan_keeps | apply State.report_keeps
      | apply State.updateMult_keeps | refine Keeps.ite ?_ ?_

theorem State.queueRow_keeps {W : Nat} {r s : State} (a : ℕ) (faulted : Bool)
    (hw : Sub 0x84000c000048 W) (h : Keeps W r s) : Keeps W r (State.queueRow s a faulted) := by
  unfold State.queueRow
  try dsimp only
  with_reducible repeat' first
      | exact h | exact hw.mono (by decide) | apply State.queueTestLim_keeps

theorem State.storeRetired_keeps {W : Nat} {r s : State} 
    (hw : Sub 0x400000 W) (h : Keeps W r s) : Keeps W r (State.storeRetired s) := by
  unfold State.storeRetired
  try dsimp only
  with_reducible repeat' first
      | exact h | exact hw.mono (by decide) | apply State.memPut_keeps

theorem State.storeTraining_keeps {W : Nat} {r s : State} 
    (hw : Sub 0x400000 W) (h : Keeps W r s) : Keeps W r (State.storeTraining s) := by
  unfold State.storeTraining
  try dsimp only
  with_reducible repeat' first
      | exact h | assumption | exact hw.mono (by decide) | apply State.memPut_keeps
      | refine Keeps.foldl (fun _ _ _ => ?_) _ ?_

theorem State.storeRow_keeps {W : Nat} {r s : State} (c : ℕ) (b : ℕ) (r' : ℕ)
    (hw : Sub 0x400000 W) (h : Keeps W r s) : Keeps W r (State.storeRow s c b r') := by
  unfold State.storeRow
  try dsimp only
  with_reducible repeat' first
      | exact h | exact hw.mono (by decide) | apply State.memPut_keeps

theorem State.remapRow_keeps {W : Nat} {r s : State} (c : ℕ) (b : ℕ) (r' : ℕ)
    (hw : Sub 0x800010400448 W) (h : Keeps W r s) : Keeps W r (State.remapRow s c b r').1 := by
  unfold State.remapRow
  try dsimp only
  with_reducible repeat' first
      | exact h | exact hw.mono (by decide) | apply State.report_keeps | fail_if_no_progress refine Keeps.upd hw ?_
      | refine Keeps.ite ?_ ?_ | refine Keeps.iteFst ?_ ?_ | dsimp only | split | apply State.storeRetired_keeps

theorem State.eccLastDram_keeps {W : Nat} {r s : State} (a : ℕ) (ue : Bool) (inCheck : Bool)
    (hw : Sub 0x40000000000 W) (h : Keeps W r s) : Keeps W r (State.eccLastDram s a ue inCheck) := by
  unfold State.eccLastDram
  try dsimp only
  with_reducible repeat' first
      | exact h | exact hw.mono (by decide) | apply State.wr_keeps

theorem State.dramCorrected_keeps {W : Nat} {r s : State} (a : ℕ) (inCheck : Bool)
    (hw : Sub 0x84001c000448 W) (h : Keeps W r s) : Keeps W r (State.dramCorrected s a inCheck) := by
  unfold State.dramCorrected
  try dsimp only
  with_reducible repeat' first
      | exact h | exact hw.mono (by decide) | apply State.eccLastDram_keeps | apply State.bump_keeps
      | apply State.report_keeps | apply State.queueRow_keeps | fail_if_no_progress refine Keeps.upd hw ?_
      | refine Keeps.ite ?_ ?_ | apply State.queueReq_keeps

theorem State.dramUncorrectable_keeps {W : Nat} {r s : State} (a : ℕ) (inCheck : Bool)
    (hw : Sub 0x84001c400c48 W) (h : Keeps W r s) : Keeps W r (State.dramUncorrectable s a inCheck) := by
  unfold State.dramUncorrectable
  try dsimp only
  with_reducible repeat' first
      | exact h | exact hw.mono (by decide) | apply State.eccLastDram_keeps | apply State.bump_keeps
      | apply State.report_keeps | apply State.reportJoined_keeps | apply State.mapLineLost_keeps
      | apply State.queueRow_keeps | dsimp only | split | fail_if_no_progress refine Keeps.upd hw ?_

theorem State.queueRead_keeps {W : Nat} {r s : State} (client : ℕ) (a : ℕ) (n : ℕ)
    (hw : Sub 0x84001c400c4c W) (h : Keeps W r s) : Keeps W r (State.queueRead s client a n) := by
  unfold State.queueRead
  try dsimp only
  with_reducible repeat' first
      | exact h | assumption | exact hw.mono (by decide) | apply State.queueLine_keeps
      | apply State.dramUncorrectable_keeps | refine Keeps.foldl (fun _ _ _ => ?_) _ ?_
      | refine Keeps.foldlPair (fun _ _ _ => ?_) _ ?_ | refine Keeps.ite ?_ ?_ | dsimp only | split

theorem State.useRange_keeps {W : Nat} {r s : State} (req : GrnReq) (write : Bool) (a : ℕ) (n : ℕ)
    (hw : Sub 0x84001c400e4c W) (h : Keeps W r s) : Keeps W r (State.useRange s req write a n) := by
  unfold State.useRange
  try dsimp only
  with_reducible repeat' first
      | exact h | exact hw.mono (by decide) | apply State.grantRange_keeps | apply State.queueWrite_keeps
      | apply State.queueRead_keeps | refine Keeps.ite ?_ ?_

theorem State.dramWriteLine_keeps {W : Nat} {r s : State} (a : ℕ) (d : Bytes) (mask : ℕ) (poisonIn : Bool) (check : DramCheck)
    (hw : Sub 0x84001e400c48 W) (h : Keeps W r s) : Keeps W r (State.dramWriteLine s a d mask poisonIn check) := by
  unfold State.dramWriteLine
  try dsimp only
  with_reducible repeat' first
      | exact h | exact hw.mono (by decide) | apply State.memSet_keeps | apply State.poisonDram_keeps
      | apply State.bump_keeps | apply State.dramCorrected_keeps | apply State.setPoison_keeps
      | apply State.dramUncorrectable_keeps | apply State.memPut_keeps | refine Keeps.ite ?_ ?_ | dsimp only | split
      | apply State.lineRenewed_keeps

theorem State.dramAccept_keeps {W : Nat} {r s : State} (client : ℕ) (stream : Bool) (a : ℕ) (write : Option Bytes) (mask : ℕ) (poisonIn : Bool) (check : DramCheck)
    (hw : Sub 0x84001e400c4c W) (h : Keeps W r s) : Keeps W r (State.dramAccept s client stream a write mask poisonIn check) := by
  unfold State.dramAccept
  try dsimp only
  with_reducible repeat' first
      | exact h | exact hw.mono (by decide) | apply State.dramWriteLine_keeps | dsimp only | split
      | apply State.cacheLine_keeps | apply State.arrive_keeps

theorem State.trainDone_keeps {W : Nat} {r s : State} (t : Training)
    (hw : Sub 0x84001000044c W) (h : Keeps W r s) : Keeps W r (State.trainDone s t).1 := by
  unfold State.trainDone
  try dsimp only
  with_reducible repeat' first
      | exact h | assumption | exact hw.mono (by decide) | apply State.report_keeps | apply State.wr_keeps
      | apply State.wrF_keeps | apply State.setChan_keeps | refine Keeps.foldl (fun _ _ _ => ?_) _ ?_
      | refine Keeps.foldlPair (fun _ _ _ => ?_) _ ?_ | refine Keeps.ite ?_ ?_ | refine Keeps.iteFst ?_ ?_
      | dsimp only | split | apply State.draw_keeps | fail_if_no_progress refine Keeps.upd hw ?_

theorem State.windowsInForce_keeps {W : Nat} {r s : State} 
    (hw : Sub 0x40002400400 W) (h : Keeps W r s) : Keeps W r (State.windowsInForce s) := by
  unfold State.windowsInForce
  try dsimp only
  with_reducible repeat' first
      | exact h | assumption | exact hw.mono (by decide) | apply State.wrF_keeps | apply State.zeroRange_keeps
      | refine Keeps.foldl (fun _ _ _ => ?_) _ ?_ | refine Keeps.foldlPair (fun _ _ _ => ?_) _ ?_
      | refine Keeps.ite ?_ ?_ | apply State.storeTraining_keeps | apply State.storeRetired_keeps
      | fail_if_no_progress refine Keeps.upd hw ?_

theorem execDramRequest_keeps {W : Nat} (client : Fin 32) (stream : Bool) (addr : BitVec 40) (write : Option Bytes) (mask : BitVec 64) (poisonIn : Bool) (check : DramCheck) (s : State) (hw : Sub 0x8400be400c4c W) :
    OutKeeps W s (execDramRequest client stream addr write mask poisonIn check s) := by
  unfold execDramRequest
  have h := Keeps.refl W s
  try dsimp only [OutKeeps]
  with_reducible repeat' first
      | exact h | assumption | exact hw.mono (by decide)
      | refine State.oneCycle_keeps (fun _ _ _ => ?_) (hw.mono (by decide)) ?_ | apply State.result_keeps
      | apply State.unmapped_keeps | apply State.dramAccept_keeps | refine Keeps.ite ?_ ?_

theorem execDramReadResponse_keeps {W : Nat} (channel : Fin 16) (check : DramCheck) (s : State) (hw : Sub 0x84007c400c48 W) :
    OutKeeps W s (execDramReadResponse channel check s) := by
  unfold execDramReadResponse
  have h := Keeps.refl W s
  try dsimp only [OutKeeps]
  with_reducible repeat' first
      | exact h | assumption | exact hw.mono (by decide)
      | refine State.oneCycle_keeps (fun _ _ _ => ?_) (hw.mono (by decide)) ?_ | apply State.setChan_keeps
      | apply State.resultBytes_keeps | apply State.bump_keeps | apply State.dramCorrected_keeps
      | apply State.dramUncorrectable_keeps | refine Keeps.ite ?_ ?_ | dsimp only | split

theorem execRefreshInterval_keeps {W : Nat} (channel : Fin 16) (s : State) (hw : Sub 0x400 W) :
    OutKeeps W s (execRefreshInterval channel s) := by
  unfold execRefreshInterval
  have h := Keeps.refl W s
  try dsimp only [OutKeeps]
  with_reducible repeat' first
      | exact h | exact hw.mono (by decide) | apply State.setChan_keeps | apply State.srCancel_keeps
      | apply State.urgentBurst_keeps | refine Keeps.ite ?_ ?_

theorem execMr4Stale_keeps {W : Nat} (channel : Fin 16) (s : State) (hw : Sub 0x800010000448 W) :
    OutKeeps W s (execMr4Stale channel s) := by
  unfold execMr4Stale
  have h := Keeps.refl W s
  try dsimp only [OutKeeps]
  with_reducible repeat' first
      | exact h | assumption | exact hw.mono (by decide)
      | refine State.oneCycle_keeps (fun _ _ _ => ?_) (hw.mono (by decide)) ?_ | apply State.updateMult_keeps
      | apply State.setChan_keeps | refine Keeps.ite ?_ ?_

theorem execPageIdleTimer_keeps {W : Nat} (channel : Fin 16) (bank : Fin 16) (s : State) (hw : Sub 0x10000400 W) :
    OutKeeps W s (execPageIdleTimer channel bank s) := by
  unfold execPageIdleTimer
  have h := Keeps.refl W s
  try dsimp only [OutKeeps]
  with_reducible repeat' first
      | exact h | exact hw.mono (by decide) | apply State.putDram_keeps | apply State.setChan_keeps
      | refine Keeps.ite ?_ ?_ | dsimp only | split

theorem execSelfRefreshIdle_keeps {W : Nat}  (s : State) (hw : Sub 0x400 W) :
    OutKeeps W s (execSelfRefreshIdle s) := by
  unfold execSelfRefreshIdle
  have h := Keeps.refl W s
  try dsimp only [OutKeeps]
  with_reducible repeat' first
      | exact h | exact hw.mono (by decide) | fail_if_no_progress refine Keeps.upd hw ?_ | refine Keeps.ite ?_ ?_

theorem execSelfRefreshExit_keeps {W : Nat} (s : State) (hw : Sub 0x40010000400 W) :
    OutKeeps W s (execSelfRefreshExit s) := by
  unfold execSelfRefreshExit
  have h := Keeps.refl W s
  try dsimp only [OutKeeps]
  with_reducible repeat' first
      | exact h | exact hw.mono (by decide) | apply State.srExit_keeps | fail_if_no_progress refine Keeps.upd hw ?_
      | refine Keeps.ite ?_ ?_ | apply State.srAdvance_keeps

theorem execDmcFreqReq_keeps {W : Nat} (value : Word) (s : State) (hw : Sub 0x840030000448 W) :
    OutKeeps W s (execDmcFreqReq value s) := by
  unfold execDmcFreqReq
  have h := Keeps.refl W s
  refine OutKeeps.gate (hw.mono (by decide)) ?_
  try dsimp only [OutKeeps]
  with_reducible repeat' first
      | exact h | exact hw.mono (by decide) | apply State.requestOp_keeps | apply State.wrF_keeps
      | apply State.dmcHold_keeps | refine Keeps.ite ?_ ?_

theorem execDmcSelftestReq_keeps {W : Nat} (value : Word) (s : State) (hw : Sub 0x8400bc000448 W) :
    OutKeeps W s (execDmcSelftestReq value s) := by
  unfold execDmcSelftestReq
  have h := Keeps.refl W s
  refine OutKeeps.gate (hw.mono (by decide)) ?_
  try dsimp only [OutKeeps]
  with_reducible repeat' first
      | exact h | exact hw.mono (by decide) | apply State.unmapped_keeps | apply State.queueRow_keeps
      | refine Keeps.ite ?_ ?_ | apply State.dmcHold_keeps

theorem State.dmcWrite_keeps {W : Nat} {r s : State} (a : ℕ) (v : ℕ)
    (hw : Sub 0x1ffffbc000448 W) (h : Keeps W r s) : Keeps W r (State.dmcWrite s a v) := by
  unfold State.dmcWrite
  try dsimp only
  with_reducible repeat' first
      | exact h
      | exact h.trans (OutKeeps.next (execDmcFreqReq_keeps _ _ (hw.mono (by decide))) (by assumption))
      | exact h.trans (OutKeeps.next (execDmcSelftestReq_keeps _ _ (hw.mono (by decide))) (by assumption))
      | exact hw.mono (by decide) | exact hw.any (by decide) | apply execDmcFreqReq_keeps
      | apply State.dmcHold_keeps | apply State.regWrite_keeps
      | refine Keeps.ite ?_ ?_ | dsimp only | split

theorem execFreqChangeEntry_keeps {W : Nat}  (s : State) (hw : Sub 0x40010000400 W) :
    OutKeeps W s (execFreqChangeEntry s) := by
  unfold execFreqChangeEntry
  have h := Keeps.refl W s
  try dsimp only [OutKeeps]
  with_reducible repeat' first
      | exact h | exact hw.mono (by decide) | apply State.srExit_keeps | fail_if_no_progress refine Keeps.upd hw ?_
      | refine Keeps.ite ?_ ?_

theorem execFreqChangeDone_keeps {W : Nat} (s : State) (hw : Sub 0x1ffffbc000448 W) :
    OutKeeps W s (execFreqChangeDone s) := by
  unfold execFreqChangeDone
  have h := Keeps.refl W s
  try dsimp only [OutKeeps]
  with_reducible repeat' first
      | exact h | exact hw.mono (by decide) | apply State.wrF_keeps | apply State.srExit_keeps
      | apply State.report_keeps | apply State.bump_keeps | fail_if_no_progress refine Keeps.upd hw ?_
      | refine Keeps.ite ?_ ?_ | dsimp only | split | assumption | apply State.srAdvance_keeps
      | apply State.dmcWrite_keeps | refine Keeps.foldl (fun _ _ _ => ?_) _ ?_

theorem execFreqWindowClose_keeps {W : Nat} (s : State) (hw : Sub 0x800010000448 W) :
    OutKeeps W s (execFreqWindowClose s) := by
  unfold execFreqWindowClose
  have h := Keeps.refl W s
  try dsimp only [OutKeeps]
  with_reducible repeat' first
      | exact h | exact hw.mono (by decide) | apply State.srCancel_keeps | apply State.report_keeps
      | refine Keeps.ite ?_ ?_

theorem execDramRowTestDone_keeps {W : Nat} (channel : Fin 16) (bank : Fin 16) (row : Fin 131072) (fail : Option (Fin 5)) (s : State) (hw : Sub 0x840098400448 W) :
    OutKeeps W s (execDramRowTestDone channel bank row fail s) := by
  unfold execDramRowTestDone
  have h := Keeps.refl W s
  try dsimp only [OutKeeps]
  with_reducible repeat' first
      | exact h | assumption | exact hw.mono (by decide)
      | refine State.oneCycle_keeps (fun _ _ _ => ?_) (hw.mono (by decide)) ?_ | apply State.testResult_keeps
      | apply State.remapRow_keeps | apply State.wr_keeps | refine Keeps.ite ?_ ?_ | refine Keeps.iteFst ?_ ?_
      | dsimp only | split | apply State.storeRow_keeps

end Sys2Proof.Machine
end

