-- ==== Sys2Proof/Laws/KeepsDrills.lean ====
section
/-! SUPPORT. Every operation and meaning of the decoder and the composition (Machine/Thresher.lean, BandWriter.lean, Hogel.lean and Drills.lean)
keeps what `Keeps` says. -/

-- One theorem at a time: hundreds of them at once would need more thread stacks than a check may map.
set_option Elab.async false
namespace Sys2Proof.Machine

/-! ### Thresher -/

theorem State.streamLine_keeps {W : Nat} {r s : State} (a : ℕ) (checks : List (ℕ × DramCheck))
    (hw : Sub 0x84009c400c4c W) (h : Keeps W r s) : Keeps W r (State.streamLine s a checks).1 := by
  unfold State.streamLine
  try dsimp only
  with_reducible repeat' first
      | exact h | exact hw.mono (by decide) | apply State.bump_keeps | apply State.dramCorrected_keeps
      | apply State.dramUncorrectable_keeps | refine Keeps.ite ?_ ?_ | refine Keeps.iteFst ?_ ?_ | dsimp only | split
      | apply State.unmapped_keeps | apply State.queueLine_keeps

theorem State.stageSlot_keeps {W : Nat} {r s : State} (a : ℕ) (at' : ℕ) (n : ℕ) (checks : List (ℕ × DramCheck))
    (hw : Sub 0x84009e400c5c W) (h : Keeps W r s) : Keeps W r (State.stageSlot s a at' n checks) := by
  unfold State.stageSlot
  try dsimp only
  with_reducible repeat' first
      | exact h | assumption | exact hw.mono (by decide) | apply State.streamLine_keeps | apply State.setPoison_keeps
      | refine Keeps.foldl (fun _ _ _ => ?_) _ ?_ | refine Keeps.foldlPair (fun _ _ _ => ?_) _ ?_
      | refine Keeps.ite ?_ ?_ | apply State.engineSet_keeps

theorem State.readMapLines_keeps {W : Nat} {r s : State} (u : PlateUse) (k : ℕ) (r' : PlateRec) (idx : List ℕ) (checks : List (ℕ × DramCheck))
    (hw : Sub 0x84009c400c4c W) (h : Keeps W r s) : Keeps W r (State.readMapLines s u k r' idx checks) := by
  unfold State.readMapLines
  try dsimp only
  with_reducible repeat' first
      | exact h | assumption | exact hw.mono (by decide) | apply State.streamLine_keeps
      | refine Keeps.foldl (fun _ _ _ => ?_) _ ?_

theorem State.streamRow_keeps {W : Nat} {r s : State} (row : ℕ) (fill : Bool) (mask : ℕ) (at' : ℕ) (checks : List (ℕ × DramCheck))
    (hw : Sub 0x84009e401c5c W) (h : Keeps W r s) : Keeps W r (State.streamRow s row fill mask at' checks) := by
  unfold State.streamRow
  try dsimp only
  with_reducible repeat' first
      | exact h | assumption | exact hw.mono (by decide) | apply State.stageSlot_keeps
      | apply State.readMapLines_keeps | refine Keeps.foldl (fun _ _ _ => ?_) _ ?_
      | refine Keeps.foldlPair (fun _ _ _ => ?_) _ ?_ | fail_if_no_progress refine Keeps.upd hw ?_ | dsimp only
      | split

theorem State.finish_keeps {W : Nat} {r s : State} (e : ℕ)
    (hw : Sub 0x10 W) (h : Keeps W r s) : Keeps W r (State.finish s e) := by
  unfold State.finish
  try dsimp only
  with_reducible repeat' first
      | exact h | exact hw.mono (by decide) | fail_if_no_progress refine Keeps.upd hw ?_ | refine Keeps.ite ?_ ?_

theorem State.thrAdvance_keeps {W : Nat} {r s : State} 
    (hw : Sub 0x1010 W) (h : Keeps W r s) : Keeps W r (State.thrAdvance s) := by
  unfold State.thrAdvance
  try dsimp only
  with_reducible repeat' first
      | exact h | exact hw.mono (by decide) | apply State.finish_keeps | fail_if_no_progress refine Keeps.upd hw ?_
      | refine Keeps.ite ?_ ?_

theorem State.thrCut_keeps {W : Nat} {r s : State} (fill : Bool)
    (hw : Sub 0x1000 W) (h : Keeps W r s) : Keeps W r (State.thrCut s fill) := by
  unfold State.thrCut
  try dsimp only
  with_reducible repeat' first
      | exact h | exact hw.mono (by decide) | fail_if_no_progress refine Keeps.upd hw ?_

theorem State.thrFailed_keeps {W : Nat} {r s : State} (f : DecFail) (plate : ℕ) (x : ℕ) (y : ℕ) (job : Bool)
    (hw : Sub 0x800810001048 W) (h : Keeps W r s) : Keeps W r (State.thrFailed s f plate x y job) := by
  unfold State.thrFailed
  try dsimp only
  with_reducible repeat' first
      | exact h | exact hw.mono (by decide) | apply State.bump_keeps | apply State.wr_keeps | apply State.report_keeps
      | apply State.setSticky_keeps | fail_if_no_progress refine Keeps.upd hw ?_ | refine Keeps.ite ?_ ?_

theorem State.absentArriving_keeps {W : Nat} {r s : State} (k : ℕ) (r' : PlateRec) (slot : ℕ)
    (hw : Sub 0x84009240044c W) (h : Keeps W r s) : Keeps W r (State.absentArriving s k r' slot) := by
  unfold State.absentArriving
  try dsimp only
  with_reducible repeat' first
      | exact h | assumption | exact hw.mono (by decide) | apply State.setArriving_keeps
      | refine Keeps.foldl (fun _ _ _ => ?_) _ ?_ | refine Keeps.foldlPair (fun _ _ _ => ?_) _ ?_
      | refine Keeps.ite ?_ ?_

theorem State.multiBlock_keeps {W : Nat} {r s : State} (plate : ℕ) (blocks : ℕ)
    (hw : Sub 0x800810001048 W) (h : Keeps W r s) : Keeps W r (State.multiBlock s plate blocks) := by
  unfold State.multiBlock
  try dsimp only
  with_reducible repeat' first
      | exact h | exact hw.mono (by decide) | apply State.bump_keeps | apply State.report_keeps
      | fail_if_no_progress refine Keeps.upd hw ?_ | refine Keeps.ite ?_ ?_

theorem State.absentMet_keeps {W : Nat} {r s : State} (plate : ℕ)
    (hw : Sub 0x800810001048 W) (h : Keeps W r s) : Keeps W r (State.absentMet s plate) := by
  unfold State.absentMet
  try dsimp only
  with_reducible repeat' first
      | exact h | exact hw.mono (by decide) | apply State.bump_keeps | apply State.report_keeps
      | fail_if_no_progress refine Keeps.upd hw ?_ | refine Keeps.ite ?_ ?_

theorem State.stagedPoison_keeps {W : Nat} {r s : State} (b : StagedBlk)
    (hw : Sub 0x800210000258 W) (h : Keeps W r s) : Keeps W r (State.stagedPoison s b).1 := by
  unfold State.stagedPoison
  try dsimp only
  with_reducible repeat' first
      | exact h | assumption | exact hw.mono (by decide) | apply State.poisonConsumed_keeps
      | refine Keeps.foldl (fun _ _ _ => ?_) _ ?_ | refine Keeps.foldlPair (fun _ _ _ => ?_) _ ?_
      | refine Keeps.ite ?_ ?_ | refine Keeps.iteFst ?_ ?_ | apply State.engineRefuse_keeps

theorem State.finishBlock_keeps {W : Nat} {r s : State} (fill : Bool) (b : StagedBlk) (cycles : ℕ)
    (hw : Sub 0x840a9240165c W) (h : Keeps W r s) : Keeps W r (State.finishBlock s fill b cycles) := by
  unfold State.finishBlock
  try dsimp only
  with_reducible repeat' first
      | exact h | exact hw.mono (by decide) | apply State.absentMet_keeps | apply State.stagedPoison_keeps
      | apply State.multiBlock_keeps | apply State.absentArriving_keeps | apply State.thrFailed_keeps
      | fail_if_no_progress refine Keeps.upd hw ?_ | refine Keeps.ite ?_ ?_ | refine Keeps.iteFst ?_ ?_ | dsimp only
      | split

theorem State.jobEnded_keeps {W : Nat} {r s : State} (idx : ℕ) (d : Bytes) (result : ℕ) (ev : ℕ) (out : ℕ) (blocks : ℕ)
    (hw : Sub 0x84089e401e4c W) (h : Keeps W r s) : Keeps W r (State.jobEnded s idx d result ev out blocks) := by
  unfold State.jobEnded
  try dsimp only
  with_reducible repeat' first
      | exact h | exact hw.mono (by decide) | apply State.memSet_keeps | apply State.refuseRange_keeps
      | apply State.bump_keeps | apply State.wr_keeps | apply State.report_keeps
      | fail_if_no_progress refine Keeps.upd hw ?_ | refine Keeps.ite ?_ ?_ | apply State.useRange_keeps

theorem State.endJob_keeps {W : Nat} {r s : State} (j : ThrJob) (result : ℕ) (ev : ℕ)
    (hw : Sub 0x84089e401e4c W) (h : Keeps W r s) : Keeps W r (State.endJob s j result ev) := by
  unfold State.endJob
  try dsimp only
  with_reducible repeat' first
      | exact h | exact hw.mono (by decide) | apply State.jobEnded_keeps

theorem State.jobFetch_keeps {W : Nat} {r : State}  (hw : Sub 0x840a9e401e4c W) :
    ∀ (fuel : Nat) {s : State}, Keeps W r s → Keeps W r (State.jobFetch fuel s) := by
  intro fuel
  induction fuel with
  | zero =>
    intro s h
    exact h
  | succ n ih =>
    intro s h
    unfold State.jobFetch
    try dsimp only
    with_reducible repeat' first
        | exact h | apply ih | assumption | exact hw.mono (by decide) | apply State.useRange_keeps | apply State.refuseRange_keeps | apply State.consumePoison_keeps | exact ha | apply State.jobEnded_keeps
        | refine Keeps.foldl (fun _ _ _ => ?_) _ ?_ | refine Keeps.foldlPair (fun _ _ _ => ?_) _ ?_
        | fail_if_no_progress refine Keeps.upd hw ?_ | refine Keeps.ite ?_ ?_

theorem State.jobPut_keeps {W : Nat} {r s : State} (j : ThrJob) (b : Bytes) (src : ℕ) (last : Bool)
    (hw : Sub 0x84089e401e4c W) (h : Keeps W r s) : Keeps W r (State.jobPut s j b src last) := by
  unfold State.jobPut
  try dsimp only
  with_reducible repeat' first
      | exact h | exact hw.mono (by decide) | apply State.endJob_keeps | apply State.refuseRange_keeps
      | apply State.memSet_keeps | fail_if_no_progress refine Keeps.upd hw ?_ | refine Keeps.ite ?_ ?_
      | apply State.useRange_keeps

theorem State.encodeBlock_keeps {W : Nat} {r s : State} (j : ThrJob)
    (hw : Sub 0x840a9e401e4c W) (h : Keeps W r s) : Keeps W r (State.encodeBlock s j) := by
  unfold State.encodeBlock
  try dsimp only
  with_reducible repeat' first
      | exact h | assumption | exact hw.mono (by decide) | apply State.endJob_keeps | apply State.refuseRange_keeps
      | apply State.consumePoison_keeps | apply State.jobPut_keeps | refine Keeps.foldl (fun _ _ _ => ?_) _ ?_
      | refine Keeps.foldlPair (fun _ _ _ => ?_) _ ?_ | refine Keeps.ite ?_ ?_ | dsimp only | split
      | apply State.useRange_keeps

theorem State.jobBusy_keeps {W : Nat} {r s : State} (t : ℕ)
    (hw : Sub 0x1004 W) (h : Keeps W r s) : Keeps W r (State.jobBusy s t) := by
  unfold State.jobBusy
  try dsimp only
  with_reducible repeat' first
      | exact h | exact hw.mono (by decide) | apply State.draw_keeps | fail_if_no_progress refine Keeps.upd hw ?_

theorem State.decodeBlock_keeps {W : Nat} {r s : State} (j : ThrJob)
    (hw : Sub 0x840a9e401e4c W) (h : Keeps W r s) : Keeps W r (State.decodeBlock s j) := by
  unfold State.decodeBlock
  try dsimp only
  with_reducible repeat' first
      | exact h | exact hw.mono (by decide) | apply State.endJob_keeps | apply State.refuseRange_keeps
      | apply State.consumePoison_keeps | apply State.jobBusy_keeps | apply State.multiBlock_keeps
      | apply State.jobPut_keeps | apply State.thrFailed_keeps | refine Keeps.ite ?_ ?_ | dsimp only | split
      | apply State.useRange_keeps

theorem State.preemptJobs_keeps {W : Nat} {r s : State} (decode : Bool)
    (hw : Sub 0x84089e401e4c W) (h : Keeps W r s) : Keeps W r (State.preemptJobs s decode) := by
  unfold State.preemptJobs
  try dsimp only
  with_reducible repeat' first
      | exact h | assumption | exact hw.mono (by decide) | apply State.endJob_keeps | apply State.report_keeps
      | refine Keeps.foldl (fun _ _ _ => ?_) _ ?_

theorem State.jobSubmit_keeps {W : Nat} {r s : State} (d : Bytes) (feature : ℕ)
    (hw : Sub 0x840a9e401e4c W) (h : Keeps W r s) : Keeps W r (State.jobSubmit s d feature).1 := by
  unfold State.jobSubmit
  try dsimp only
  with_reducible repeat' first
      | exact h | exact hw.mono (by decide) | apply State.refuseRange_keeps | apply State.jobFetch_keeps
      | apply State.wr_keeps | apply State.memSet_keeps | refine Keeps.iteFst ?_ ?_ | apply State.useRange_keeps
      | fail_if_no_progress refine Keeps.upd hw ?_

theorem State.thrTick_keeps {W : Nat} {r s : State} 
    (hw : Sub 0x800001000 W) (h : Keeps W r s) : Keeps W r (State.thrTick s) := by
  unfold State.thrTick
  try dsimp only
  with_reducible repeat' first
      | exact h | exact hw.mono (by decide) | apply State.wr_keeps | apply State.wrF_keeps
      | fail_if_no_progress refine Keeps.upd hw ?_

theorem execDmcStreamRecord_keeps {W : Nat} (slot : Fin 560) (line : ℕ) (checks : List (ℕ × DramCheck)) (s : State) (hw : Sub 0x84009e401c5c W) :
    OutKeeps W s (execDmcStreamRecord slot line checks s) := by
  unfold execDmcStreamRecord
  have h := Keeps.refl W s
  try dsimp only [OutKeeps]
  with_reducible repeat' first
      | exact h | assumption | exact hw.mono (by decide)
      | refine State.oneCycle_keeps (fun _ _ _ => ?_) (hw.mono (by decide)) ?_ | apply State.streamRow_keeps
      | dsimp only | split

theorem execStreamRowStaged_keeps {W : Nat} (row : ℕ) (fill : Bool) (s : State) (hw : Sub 0x1010 W) :
    OutKeeps W s (execStreamRowStaged row fill s) := by
  unfold execStreamRowStaged
  have h := Keeps.refl W s
  try dsimp only [OutKeeps]
  with_reducible repeat' first
      | exact h | exact hw.mono (by decide) | apply State.thrAdvance_keeps | apply State.finish_keeps
      | fail_if_no_progress refine Keeps.upd hw ?_ | refine Keeps.ite ?_ ?_

theorem execThrDecRecord_keeps {W : Nat} (slot : Fin 560) (s : State) (hw : Sub 0x1010 W) :
    OutKeeps W s (execThrDecRecord slot s) := by
  unfold execThrDecRecord
  have h := Keeps.refl W s
  try dsimp only [OutKeeps]
  with_reducible repeat' first
      | exact h | exact hw.mono (by decide) | apply State.thrAdvance_keeps
      | fail_if_no_progress refine Keeps.upd hw ?_ | dsimp only | split

theorem execThrBlockDecode_keeps {W : Nat} (pipe : Fin 8) (cycles : ℕ) (s : State) (hw : Sub 0x840a9240165c W) :
    OutKeeps W s (execThrBlockDecode pipe cycles s) := by
  unfold execThrBlockDecode
  have h := Keeps.refl W s
  try dsimp only [OutKeeps]
  with_reducible repeat' first
      | exact h | assumption | exact hw.mono (by decide)
      | refine State.oneCycle_keeps (fun _ _ _ => ?_) (hw.mono (by decide)) ?_ | apply State.thrAdvance_keeps
      | apply State.finishBlock_keeps | fail_if_no_progress refine Keeps.upd hw ?_ | dsimp only | split

theorem execThrJobTailWrite_keeps {W : Nat} (value : Word) (s : State) (hw : Sub 0x840abe401e4c W) :
    OutKeeps W s (execThrJobTailWrite value s) := by
  unfold execThrJobTailWrite
  have h := Keeps.refl W s
  refine OutKeeps.gate (hw.mono (by decide)) ?_
  try dsimp only [OutKeeps]
  with_reducible repeat' first
      | exact h | assumption | exact hw.mono (by decide)
      | refine State.oneCycle_keeps (fun _ _ _ => ?_) (hw.mono (by decide)) ?_ | apply State.jobFetch_keeps
      | apply State.regWrite_keeps

theorem execThrJobStart_keeps {W : Nat} (pipe : Fin 10) (s : State) (hw : Sub 0x840a9e401e4c W) :
    OutKeeps W s (execThrJobStart pipe s) := by
  unfold execThrJobStart
  have h := Keeps.refl W s
  try dsimp only [OutKeeps]
  with_reducible repeat' first
      | exact h | assumption | exact hw.mono (by decide)
      | refine State.oneCycle_keeps (fun _ _ _ => ?_) (hw.mono (by decide)) ?_ | apply State.jobFetch_keeps
      | fail_if_no_progress refine Keeps.upd hw ?_ | refine Keeps.ite ?_ ?_ | dsimp only | split
      | apply State.useRange_keeps

theorem execThrCtrlJobAbort_keeps {W : Nat} (s : State) (hw : Sub 0x20001000 W) :
    OutKeeps W s (execThrCtrlJobAbort s) := by
  unfold execThrCtrlJobAbort
  have h := Keeps.refl W s
  refine OutKeeps.gate (hw.mono (by decide)) ?_
  try dsimp only [OutKeeps]
  with_reducible repeat' first
      | exact h | exact hw.mono (by decide) | fail_if_no_progress refine Keeps.upd hw ?_

theorem execThrJobRingSizeWrite_keeps {W : Nat} (value : Word) (s : State) (hw : Sub 0x840abe401e4c W) :
    OutKeeps W s (execThrJobRingSizeWrite value s) := by
  unfold execThrJobRingSizeWrite
  have h := Keeps.refl W s
  refine OutKeeps.gate (hw.mono (by decide)) ?_
  try dsimp only [OutKeeps]
  with_reducible repeat' first
      | exact h | assumption | exact hw.mono (by decide)
      | refine State.oneCycle_keeps (fun _ _ _ => ?_) (hw.mono (by decide)) ?_ | apply State.regWrite_keeps
      | apply State.jobFetch_keeps | apply State.wrF_keeps

/-! ### BandWriter -/

theorem State.partPut_keeps {W : Nat} {r s : State} (q : Part) (off : ℕ) (b : Bytes)
    (hw : Sub 0x800012400058 W) (h : Keeps W r s) : Keeps W r (State.partPut s q off b).1 := by
  unfold State.partPut
  try dsimp only
  with_reducible repeat' first
      | exact h | exact hw.mono (by decide) | apply State.report_keeps | refine Keeps.ite ?_ ?_
      | refine Keeps.iteFst ?_ ?_ | apply State.engineSet_keeps

theorem State.texelsClamped_keeps {W : Nat} {r s : State} (k : ℕ) (n : ℕ)
    (hw : Sub 0x800410000848 W) (h : Keeps W r s) : Keeps W r (State.texelsClamped s k n) := by
  unfold State.texelsClamped
  try dsimp only
  with_reducible repeat' first
      | exact h | exact hw.mono (by decide) | apply State.bumpBy_keeps | apply State.report_keeps
      | fail_if_no_progress refine Keeps.upd hw ?_ | refine Keeps.ite ?_ ?_

theorem State.markRows_keeps {W : Nat} {r s : State} (k : ℕ) (rows : List ℕ)
    (hw : Sub 0x2000 W) (h : Keeps W r s) : Keeps W r (State.markRows s k rows) := by
  unfold State.markRows
  try dsimp only
  with_reducible repeat' first
      | exact h | exact hw.mono (by decide) | fail_if_no_progress refine Keeps.upd hw ?_

theorem State.putRow_keeps {W : Nat} {r s : State} (k : ℕ) (q : Part) (win : ℤ × ℤ) (x : ℕ) (w : ℕ) (l : List Texel)
    (hw : Sub 0x800012402058 W) (h : Keeps W r s) : Keeps W r (State.putRow s k q win x w l) := by
  unfold State.putRow
  try dsimp only
  with_reducible repeat' first
      | exact h | exact hw.mono (by decide) | apply State.partPut_keeps | fail_if_no_progress refine Keeps.upd hw ?_
      | refine Keeps.ite ?_ ?_

theorem State.placeTexels_keeps {W : Nat} {r s : State} (k : ℕ) (r' : PlateRec) (q : Part) (b : RouteBlk)
    (hw : Sub 0x800412402858 W) (h : Keeps W r s) : OptKeeps W r (State.placeTexels s k r' q b) := by
  unfold State.placeTexels
  try dsimp only
  with_reducible repeat' first
      | exact h | assumption | exact hw.mono (by decide) | apply State.texelsClamped_keeps | apply State.putRow_keeps
      | apply State.markRows_keeps | refine Keeps.foldl (fun _ _ _ => ?_) _ ?_
      | refine Keeps.foldlPair (fun _ _ _ => ?_) _ ?_ | fail_if_no_progress refine Keeps.upd hw ?_
      | refine Keeps.ite ?_ ?_ | refine OptKeeps.ite ?_ ?_ | dsimp only | split | exact OptKeeps.none
      | refine OptKeeps.some ?_

theorem State.placeRelief_keeps {W : Nat} {r s : State} (k : ℕ) (q : Part) (b : RouteBlk)
    (hw : Sub 0x800012402058 W) (h : Keeps W r s) : OptKeeps W r (State.placeRelief s k q b) := by
  unfold State.placeRelief
  try dsimp only
  with_reducible repeat' first
      | exact h | assumption | exact hw.mono (by decide) | apply State.partPut_keeps
      | refine Keeps.foldl (fun _ _ _ => ?_) _ ?_ | refine Keeps.foldlPair (fun _ _ _ => ?_) _ ?_
      | fail_if_no_progress refine Keeps.upd hw ?_ | refine Keeps.ite ?_ ?_ | refine Keeps.iteFst ?_ ?_
      | refine OptKeeps.ite ?_ ?_ | dsimp only | split | refine Keeps.fst (by assumption) ?_ | exact OptKeeps.none
      | refine OptKeeps.some ?_

theorem State.placeSource_keeps {W : Nat} {r s : State} (k : ℕ) (r' : PlateRec) (q : Part) (b : RouteBlk)
    (hw : Sub 0x800412402858 W) (h : Keeps W r s) : OptKeeps W r (State.placeSource s k r' q b) := by
  unfold State.placeSource
  try dsimp only
  with_reducible repeat' first
      | exact h | assumption | exact hw.mono (by decide) | apply State.texelsClamped_keeps | apply State.partPut_keeps
      | refine Keeps.foldl (fun _ _ _ => ?_) _ ?_ | refine Keeps.foldlPair (fun _ _ _ => ?_) _ ?_
      | fail_if_no_progress refine Keeps.upd hw ?_ | refine Keeps.ite ?_ ?_ | refine Keeps.iteFst ?_ ?_
      | refine OptKeeps.ite ?_ ?_ | dsimp only | split | refine Keeps.fst (by assumption) ?_ | exact OptKeeps.none
      | refine OptKeeps.some ?_

theorem State.scaleRow_keeps {W : Nat} {r s : State} (k : ℕ) (r' : PlateRec) (q : Part) (fill : Bool) (w : ℕ)
    (hw : Sub 0x800012402058 W) (h : Keeps W r s) : Keeps W r (State.scaleRow s k r' q fill w) := by
  unfold State.scaleRow
  try dsimp only
  with_reducible repeat' first
      | exact h | exact hw.mono (by decide) | apply State.markRows_keeps | apply State.putRow_keeps
      | fail_if_no_progress refine Keeps.upd hw ?_

theorem State.scaleRows_keeps {W : Nat} {r s : State} (k : ℕ) (r' : PlateRec) (q : Part) (fill : Bool) (rows : List ℕ)
    (hw : Sub 0x800012402058 W) (h : Keeps W r s) : Keeps W r (State.scaleRows s k r' q fill rows) := by
  unfold State.scaleRows
  try dsimp only
  with_reducible repeat' first
      | exact h | assumption | exact hw.mono (by decide) | apply State.scaleRow_keeps
      | refine Keeps.foldl (fun _ _ _ => ?_) _ ?_ | refine Keeps.foldlPair (fun _ _ _ => ?_) _ ?_
      | refine Keeps.ite ?_ ?_

theorem State.scaleInTurn_keeps {W : Nat} {r s : State} 
    (hw : Sub 0x800012402058 W) (h : Keeps W r s) : Keeps W r (State.scaleInTurn s) := by
  unfold State.scaleInTurn
  try dsimp only
  with_reducible repeat' first
      | exact h | assumption | exact hw.mono (by decide) | apply State.scaleRows_keeps
      | refine Keeps.foldl (fun _ _ _ => ?_) _ ?_ | refine Keeps.foldlPair (fun _ _ _ => ?_) _ ?_
      | refine Keeps.iteFst ?_ ?_

theorem State.bwAdvance_keeps {W : Nat} {r s : State} 
    (hw : Sub 0x800012402058 W) (h : Keeps W r s) : Keeps W r (State.bwAdvance s) := by
  unfold State.bwAdvance
  try dsimp only
  with_reducible repeat' first
      | exact h | exact hw.mono (by decide) | apply State.scaleInTurn_keeps | apply State.finish_keeps
      | fail_if_no_progress refine Keeps.upd hw ?_ | refine Keeps.ite ?_ ?_

theorem State.bwBegin_keeps {W : Nat} {r s : State} (t : ℕ) (fill : Bool) (mask : ℕ)
    (hw : Sub 0x800012402058 W) (h : Keeps W r s) : Keeps W r (State.bwBegin s t fill mask) := by
  unfold State.bwBegin
  try dsimp only
  with_reducible repeat' first
      | exact h | assumption | exact hw.mono (by decide) | apply State.bwAdvance_keeps
      | refine Keeps.foldl (fun _ _ _ => ?_) _ ?_ | refine Keeps.foldlPair (fun _ _ _ => ?_) _ ?_
      | fail_if_no_progress refine Keeps.upd hw ?_ | refine Keeps.ite ?_ ?_

theorem State.bandBlock_keeps {W : Nat} {r s : State} (b : RouteBlk)
    (hw : Sub 0x800412402858 W) (h : Keeps W r s) : OptKeeps W r (State.bandBlock s b) := by
  unfold State.bandBlock
  try dsimp only
  with_reducible repeat' first
      | exact h | exact hw.mono (by decide) | apply State.placeRelief_keeps | apply State.placeSource_keeps
      | apply State.placeTexels_keeps | refine Keeps.ite ?_ ?_ | refine OptKeeps.ite ?_ ?_ | dsimp only | split
      | refine OptKeeps.get (by assumption) ?_ | refine OptKeeps.getFst (by assumption) ?_ | exact OptKeeps.none
      | refine OptKeeps.some ?_

theorem State.bandRestart_keeps {W : Nat} {r s : State} 
    (hw : Sub 0x2000 W) (h : Keeps W r s) : Keeps W r (State.bandRestart s) := by
  unfold State.bandRestart
  try dsimp only
  with_reducible repeat' first
      | exact h | exact hw.mono (by decide) | fail_if_no_progress refine Keeps.upd hw ?_

theorem execPltBwRecord_keeps {W : Nat} (slot : Fin 560) (s : State) (hw : Sub 0x800012402058 W) :
    OutKeeps W s (execPltBwRecord slot s) := by
  unfold execPltBwRecord
  have h := Keeps.refl W s
  try dsimp only [OutKeeps]
  with_reducible repeat' first
      | exact h | exact hw.mono (by decide) | apply State.bwBegin_keeps | dsimp only | split

theorem execBandWriteBlock_keeps {W : Nat} (s : State) (hw : Sub 0x800412403858 W) :
    OutKeeps W s (execBandWriteBlock s) := by
  unfold execBandWriteBlock
  have h := Keeps.refl W s
  try dsimp only [OutKeeps]
  with_reducible repeat' first
      | exact h | assumption | exact hw.mono (by decide)
      | refine State.oneCycle_keeps (fun _ _ _ => ?_) (hw.mono (by decide)) ?_ | apply State.bandBlock_keeps
      | apply State.bwAdvance_keeps | fail_if_no_progress refine Keeps.upd hw ?_ | dsimp only | split
      | refine OptKeeps.get (by assumption) ?_

/-! ### Hogel -/

theorem State.hglFetch_keeps {W : Nat} {r s : State} (hx : ℕ) (hy : ℕ)
    (hw : Sub 0x802210008258 W) (h : Keeps W r s) : Keeps W r (State.hglFetch s hx hy).1 := by
  unfold State.hglFetch
  try dsimp only
  with_reducible repeat' first
      | exact h | assumption | exact hw.mono (by decide) | apply State.poisonConsumed_keeps | apply State.bumpBy_keeps
      | apply State.report_keeps | refine Keeps.foldl (fun _ _ _ => ?_) _ ?_
      | refine Keeps.foldlPair (fun _ _ _ => ?_) _ ?_ | fail_if_no_progress refine Keeps.upd hw ?_
      | refine Keeps.ite ?_ ?_ | refine Keeps.iteFst ?_ ?_ | dsimp only | split | apply State.engineRefuse_keeps

theorem State.hglRow_keeps {W : Nat} {r s : State} (hy : ℕ)
    (hw : Sub 0x802210008258 W) (h : Keeps W r s) : Keeps W r (State.hglRow s hy).1 := by
  unfold State.hglRow
  try dsimp only
  with_reducible repeat' first
      | exact h | assumption | exact hw.mono (by decide) | apply State.hglFetch_keeps
      | refine Keeps.foldl (fun _ _ _ => ?_) _ ?_ | refine Keeps.foldlPair (fun _ _ _ => ?_) _ ?_

theorem State.hglPrefetch_keeps {W : Nat} {r s : State} (hy : ℕ)
    (hw : Sub 0x802210008258 W) (h : Keeps W r s) : Keeps W r (State.hglPrefetch s hy) := by
  unfold State.hglPrefetch
  try dsimp only
  with_reducible repeat' first
      | exact h | exact hw.mono (by decide) | apply State.hglRow_keeps | fail_if_no_progress refine Keeps.upd hw ?_

theorem execHglPrefetchRecord_keeps {W : Nat} (slot : Fin 560) (s : State) (hw : Sub 0x802210008258 W) :
    OutKeeps W s (execHglPrefetchRecord slot s) := by
  unfold execHglPrefetchRecord
  have h := Keeps.refl W s
  try dsimp only [OutKeeps]
  with_reducible repeat' first
      | exact h | assumption | exact hw.mono (by decide)
      | refine State.oneCycle_keeps (fun _ _ _ => ?_) (hw.mono (by decide)) ?_ | apply State.finish_keeps
      | apply State.hglPrefetch_keeps | dsimp only | split

/-! ### Drills -/

theorem State.readRow_keeps {W : Nat} {r s : State} (q : Part) (x : ℕ) (w : ℕ) (n : ℕ)
    (hw : Sub 0x800210000258 W) (h : Keeps W r s) : Keeps W r (State.readRow s q x w n).1 := by
  unfold State.readRow
  try dsimp only
  with_reducible repeat' first
      | exact h | assumption | exact hw.mono (by decide) | apply State.poisonConsumed_keeps
      | refine Keeps.foldl (fun _ _ _ => ?_) _ ?_ | refine Keeps.foldlPair (fun _ _ _ => ?_) _ ?_
      | refine Keeps.ite ?_ ?_ | refine Keeps.iteFst ?_ ?_ | apply State.engineRefuse_keeps

theorem State.releaseRow_keeps {W : Nat} {r s : State} (set : ℕ) (w : ℕ)
    (hw : Sub 0x2000 W) (h : Keeps W r s) : Keeps W r (State.releaseRow s set w) := by
  unfold State.releaseRow
  try dsimp only
  with_reducible repeat' first
      | exact h | exact hw.mono (by decide) | fail_if_no_progress refine Keeps.upd hw ?_ | refine Keeps.ite ?_ ?_

theorem State.loadRow_keeps {W : Nat} {r s : State} (d : ℕ) (set : ℕ) (fill : Bool) (w : ℕ)
    (hw : Sub 0x800210006258 W) (h : Keeps W r s) : Keeps W r (State.loadRow s d set fill w) := by
  unfold State.loadRow
  try dsimp only
  with_reducible repeat' first
      | exact h | assumption | exact hw.mono (by decide) | apply State.readRow_keeps | apply State.releaseRow_keeps
      | refine Keeps.foldl (fun _ _ _ => ?_) _ ?_ | refine Keeps.foldlPair (fun _ _ _ => ?_) _ ?_
      | fail_if_no_progress refine Keeps.upd hw ?_ | refine Keeps.ite ?_ ?_ | refine Keeps.iteFst ?_ ?_ | dsimp only
      | split

theorem State.reliefMeet_keeps {W : Nat} {r s : State} (k : ℕ) (hx : ℕ) (hy : ℕ)
    (hw : Sub 0x800210000258 W) (h : Keeps W r s) : Keeps W r (State.reliefMeet s k hx hy) := by
  unfold State.reliefMeet
  try dsimp only
  with_reducible repeat' first
      | exact h | assumption | exact hw.mono (by decide) | apply State.engineRefuse_keeps
      | apply State.poisonConsumed_keeps | refine Keeps.foldl (fun _ _ _ => ?_) _ ?_
      | refine Keeps.foldlPair (fun _ _ _ => ?_) _ ?_ | refine Keeps.ite ?_ ?_ | dsimp only | split

theorem State.setLanes_keeps {W : Nat} {r s : State} (d : ℕ) (l : DrillLanes)
    (hw : Sub 0x4000 W) (h : Keeps W r s) : Keeps W r (State.setLanes s d l) := by
  unfold State.setLanes
  try dsimp only
  with_reducible repeat' first
      | exact h | exact hw.mono (by decide) | fail_if_no_progress refine Keeps.upd hw ?_

theorem State.laneBoundary_keeps {W : Nat} {r s : State} 
    (hw : Sub 0x800010004048 W) (h : Keeps W r s) : Keeps W r (State.laneBoundary s) := by
  unfold State.laneBoundary
  try dsimp only
  with_reducible repeat' first
      | exact h | assumption | exact hw.mono (by decide) | apply State.report_keeps | apply State.setLanes_keeps
      | refine Keeps.foldl (fun _ _ _ => ?_) _ ?_ | refine Keeps.foldlPair (fun _ _ _ => ?_) _ ?_
      | fail_if_no_progress refine Keeps.upd hw ?_ | refine Keeps.ite ?_ ?_

theorem State.setInactive_keeps {W : Nat} {r s : State} (b : TmBank)
    (hw : Sub 0x4000 W) (h : Keeps W r s) : Keeps W r (State.setInactive s b) := by
  unfold State.setInactive
  try dsimp only
  with_reducible repeat' first
      | exact h | exact hw.mono (by decide) | fail_if_no_progress refine Keeps.upd hw ?_ | refine Keeps.ite ?_ ?_

theorem State.tmSelect_keeps {W : Nat} {r s : State} 
    (hw : Sub 0x1000000000 W) (h : Keeps W r s) : Keeps W r (State.tmSelect s) := by
  unfold State.tmSelect
  try dsimp only
  with_reducible repeat' first
      | exact h | exact hw.mono (by decide) | apply State.wrF_keeps

theorem State.tmCommit_keeps {W : Nat} {r s : State} 
    (hw : Sub 0x801010000048 W) (h : Keeps W r s) : Keeps W r (State.tmCommit s) := by
  unfold State.tmCommit
  try dsimp only
  with_reducible repeat' first
      | exact h | exact hw.mono (by decide) | apply State.wrF_keeps | apply State.report_keeps
      | refine Keeps.ite ?_ ?_

theorem State.drlTick_keeps {W : Nat} {r s : State} 
    (hw : Sub 0x1000004000 W) (h : Keeps W r s) : Keeps W r (State.drlTick s) := by
  unfold State.drlTick
  try dsimp only
  with_reducible repeat' first
      | exact h | exact hw.mono (by decide) | apply State.wr_keeps | fail_if_no_progress refine Keeps.upd hw ?_

theorem State.limitHogel_keeps {W : Nat} {r s : State} (hx : ℕ) (f : ℕ) (mask : ℕ)
    (hw : Sub 0x801210004258 W) (h : Keeps W r s) : Keeps W r (State.limitHogel s hx f mask) := by
  unfold State.limitHogel
  try dsimp only
  with_reducible repeat' first
      | exact h | assumption | exact hw.mono (by decide) | apply State.bump_keeps | apply State.report_keeps
      | refine Keeps.foldl (fun _ _ _ => ?_) _ ?_ | refine Keeps.foldlPair (fun _ _ _ => ?_) _ ?_
      | fail_if_no_progress refine Keeps.upd hw ?_ | refine Keeps.ite ?_ ?_ | apply State.reliefMeet_keeps

theorem State.laneNext_keeps {W : Nat} {r s : State} (d : ℕ) (lane : ℕ)
    (hw : Sub 0x4000 W) (h : Keeps W r s) : Keeps W r (State.laneNext s d lane) := by
  unfold State.laneNext
  try dsimp only
  with_reducible repeat' first
      | exact h | exact hw.mono (by decide) | fail_if_no_progress refine Keeps.upd hw ?_ | dsimp only | split

theorem execDrillRecord_keeps {W : Nat} (slot : Fin 560) (s : State) (hw : Sub 0x1000004080 W) :
    OutKeeps W s (execDrillRecord slot s) := by
  unfold execDrillRecord
  have h := Keeps.refl W s
  try dsimp only [OutKeeps]
  with_reducible repeat' first
      | exact h | exact hw.mono (by decide) | apply State.wrF_keeps | fail_if_no_progress refine Keeps.upd hw ?_
      | refine Keeps.ite ?_ ?_ | dsimp only | split

theorem execDrillReachLoad_keeps {W : Nat} (drill : Fin 24) (slot : Fin 560) (s : State) (hw : Sub 0x801212406258 W) :
    OutKeeps W s (execDrillReachLoad drill slot s) := by
  unfold execDrillReachLoad
  have h := Keeps.refl W s
  try dsimp only [OutKeeps]
  with_reducible repeat' first
      | exact h | assumption | exact hw.mono (by decide)
      | refine State.oneCycle_keeps (fun _ _ _ => ?_) (hw.mono (by decide)) ?_ | apply State.loadRow_keeps
      | apply State.finish_keeps | apply State.wrF_keeps | apply State.bwAdvance_keeps
      | refine Keeps.foldl (fun _ _ _ => ?_) _ ?_ | refine Keeps.foldlPair (fun _ _ _ => ?_) _ ?_
      | refine Keeps.ite ?_ ?_ | fail_if_no_progress refine Keeps.upd hw ?_

theorem State.laneCheck_keeps {W : Nat} {r s : State} (drill : ℕ) (lane : ℕ) (furrow : ℕ) (spare : Bool)
    (hw : Sub 0x80101c004048 W) (h : Keeps W r s) : Keeps W r (State.laneCheck s drill lane furrow spare) := by
  unfold State.laneCheck
  try dsimp only
  with_reducible repeat' first
      | exact h | exact hw.mono (by decide) | apply State.bump_keeps | apply State.report_keeps
      | apply State.queueTest_keeps | fail_if_no_progress refine Keeps.upd hw ?_ | refine Keeps.ite ?_ ?_

theorem State.apronClamps_keeps {W : Nat} {r s : State} (l : List ℕ)
    (hw : Sub 0x801010004048 W) (h : Keeps W r s) : Keeps W r (State.apronClamps s l) := by
  unfold State.apronClamps
  try dsimp only
  with_reducible repeat' first
      | exact h | assumption | exact hw.mono (by decide) | apply State.bump_keeps | apply State.report_keeps
      | refine Keeps.foldl (fun _ _ _ => ?_) _ ?_ | refine Keeps.foldlPair (fun _ _ _ => ?_) _ ?_
      | fail_if_no_progress refine Keeps.upd hw ?_ | refine Keeps.ite ?_ ?_

theorem State.headColour_keeps {W : Nat} {r s : State} (r' : RayAcc)
    (hw : Sub 0x4 W) (h : Keeps W r s) : Keeps W r (State.headColour s r').1 := by
  unfold State.headColour
  try dsimp only
  with_reducible repeat' first
      | exact h | exact hw.mono (by decide) | apply State.draw_keeps | dsimp only | split

theorem State.gamutClip_keeps {W : Nat} {r s : State} 
    (hw : Sub 0x801010004048 W) (h : Keeps W r s) : Keeps W r (State.gamutClip s) := by
  unfold State.gamutClip
  try dsimp only
  with_reducible repeat' first
      | exact h | exact hw.mono (by decide) | apply State.bump_keeps | apply State.report_keeps
      | fail_if_no_progress refine Keeps.upd hw ?_ | refine Keeps.ite ?_ ?_

theorem State.rayDone_keeps {W : Nat} {r s : State} (i : ℕ) (rgb : Rgb) (r' : RayAcc) (cycle : ℕ)
    (hw : Sub 0x4080 W) (h : Keeps W r s) : Keeps W r (State.rayDone s i rgb r' cycle) := by
  unfold State.rayDone
  try dsimp only
  with_reducible repeat' first
      | exact h | exact hw.mono (by decide) | fail_if_no_progress refine Keeps.upd hw ?_

theorem State.composeRay_keeps {W : Nat} {r s : State} (d : ℕ) (hx : ℕ) (dir : ℕ) (lane : ℕ) (f : ℕ) (mask : ℕ) (h' : HglEntry) (check : Bool) (spareIdle : Bool) (cycle : ℕ)
    (hw : Sub 0x80121c0042dc W) (h : Keeps W r s) : Keeps W r (State.composeRay s d hx dir lane f mask h' check spareIdle cycle) := by
  unfold State.composeRay
  try dsimp only
  with_reducible repeat' first
      | exact h | exact hw.mono (by decide) | apply State.limitHogel_keeps | apply State.laneCheck_keeps
      | apply State.apronClamps_keeps | apply State.headColour_keeps | apply State.gamutClip_keeps
      | apply State.laneNext_keeps | apply State.rayDone_keeps | apply State.finish_keeps | apply State.wrF_keeps
      | refine Keeps.ite ?_ ?_

theorem execDrillRayComplete_keeps {W : Nat} (hx : Fin 960) (dir : Fin 144) (lane : Fin 9) (check : Bool) (spareIdle : Bool) (cycle : ℕ) (s : State) (hw : Sub 0x80121c0042dc W) :
    OutKeeps W s (execDrillRayComplete hx dir lane check spareIdle cycle s) := by
  unfold execDrillRayComplete
  have h := Keeps.refl W s
  try dsimp only [OutKeeps]
  with_reducible repeat' first
      | exact h | assumption | exact hw.mono (by decide)
      | refine State.oneCycle_keeps (fun _ _ _ => ?_) (hw.mono (by decide)) ?_ | apply State.composeRay_keeps
      | refine Keeps.ite ?_ ?_ | dsimp only | split

theorem execDrlLaneTest_keeps {W : Nat} (value : Word) (s : State) (hw : Sub 0x80002c000048 W) :
    OutKeeps W s (execDrlLaneTest value s) := by
  unfold execDrlLaneTest
  have h := Keeps.refl W s
  refine OutKeeps.gate (hw.mono (by decide)) ?_
  try dsimp only [OutKeeps]
  with_reducible repeat' first
      | exact h | exact hw.mono (by decide) | apply State.queueTest_keeps | refine Keeps.ite ?_ ?_

theorem execDrillLaneTestDone_keeps {W : Nat} (idx : Fin 216) (fail : Bool) (vector : Word) (s : State) (hw : Sub 0x800098004048 W) :
    OutKeeps W s (execDrillLaneTestDone idx fail vector s) := by
  unfold execDrillLaneTestDone
  have h := Keeps.refl W s
  try dsimp only [OutKeeps]
  with_reducible repeat' first
      | exact h | exact hw.mono (by decide) | apply State.testResult_keeps | apply State.setLanes_keeps
      | refine Keeps.ite ?_ ?_ | refine Keeps.iteFst ?_ ?_ | dsimp only | split

theorem execDrlTmArm_keeps {W : Nat} (value : Word) (s : State) (hw : Sub 0x1020000000 W) :
    OutKeeps W s (execDrlTmArm value s) := by
  unfold execDrlTmArm
  have h := Keeps.refl W s
  refine OutKeeps.gate (hw.mono (by decide)) ?_
  try dsimp only [OutKeeps]
  with_reducible repeat' first
      | exact h | exact hw.mono (by decide) | apply State.regWrite_keeps | apply State.wrF_keeps

theorem execDrlTmDisarm_keeps {W : Nat} (value : Word) (s : State) (hw : Sub 0x1020000000 W) :
    OutKeeps W s (execDrlTmDisarm value s) := by
  unfold execDrlTmDisarm
  have h := Keeps.refl W s
  refine OutKeeps.gate (hw.mono (by decide)) ?_
  try dsimp only [OutKeeps]
  with_reducible repeat' first
      | exact h | exact hw.mono (by decide) | apply State.regWrite_keeps | apply State.wrF_keeps

theorem execDrlTmLoad_keeps {W : Nat} (value : Word) (s : State) (hw : Sub 0x801030004048 W) :
    OutKeeps W s (execDrlTmLoad value s) := by
  unfold execDrlTmLoad
  have h := Keeps.refl W s
  refine OutKeeps.gate (hw.mono (by decide)) ?_
  try dsimp only [OutKeeps]
  with_reducible repeat' first
      | exact h | exact hw.mono (by decide) | apply State.report_keeps | apply State.wrF_keeps
      | apply State.regWrite_keeps | fail_if_no_progress refine Keeps.upd hw ?_ | refine Keeps.ite ?_ ?_

theorem execDrlTmLoadDone_keeps {W : Nat} (s : State) (hw : Sub 0x84129c404e4c W) :
    OutKeeps W s (execDrlTmLoadDone s) := by
  unfold execDrlTmLoadDone
  have h := Keeps.refl W s
  try dsimp only [OutKeeps]
  with_reducible repeat' first
      | exact h | exact hw.mono (by decide) | apply State.wrF_keeps | apply State.consumePoison_keeps
      | apply State.refuseRange_keeps | apply State.setInactive_keeps | apply State.report_keeps
      | refine Keeps.ite ?_ ?_ | apply State.useRange_keeps

theorem execDrlTmDataAccess_keeps {W : Nat} (write : Option Word) (s : State) (hw : Sub 0x801030004048 W) :
    OutKeeps W s (execDrlTmDataAccess write s) := by
  unfold execDrlTmDataAccess
  have h := Keeps.refl W s
  refine OutKeeps.gate (hw.mono (by decide)) ?_
  try dsimp only [OutKeeps]
  with_reducible repeat' first
      | exact h | exact hw.mono (by decide) | apply State.wrF_keeps | apply State.result_keeps
      | apply State.report_keeps | apply State.setInactive_keeps | refine Keeps.ite ?_ ?_ | dsimp only | split
     

theorem execDrlTmBankWrite_keeps {W : Nat} (reg : Fin 7) (value : Word) (s : State) (hw : Sub 0x800030004048 W) :
    OutKeeps W s (execDrlTmBankWrite reg value s) := by
  unfold execDrlTmBankWrite
  have h := Keeps.refl W s
  refine OutKeeps.gate (hw.mono (by decide)) ?_
  try dsimp only [OutKeeps]
  with_reducible repeat' first
      | exact h | exact hw.mono (by decide) | apply State.report_keeps | apply State.setInactive_keeps
      | refine Keeps.ite ?_ ?_ | dsimp only | split

end Sys2Proof.Machine
end

