-- ==== Sys2Proof/Laws/KeepsBurin.lean ====
section
/-! SUPPORT. Every operation and meaning of the link's base, the flash devices, the Burin and the sensors (Machine/LinkBase.lean, Flash.lean, Burin.lean and Thermal.lean)
keeps what `Keeps` says. -/

-- One theorem at a time: hundreds of them at once would need more thread stacks than a check may map.
set_option Elab.async false
namespace Sys2Proof.Machine

/-! ### LinkBase -/

theorem State.modPort_keeps {W : Nat} {r s : State} (p : ℕ) (f : PortSt → PortSt)
    (hw : Sub 0x10000 W) (h : Keeps W r s) : Keeps W r (State.modPort s p f) := by
  unfold State.modPort
  try dsimp only
  with_reducible repeat' first
      | exact h | exact hw.mono (by decide) | fail_if_no_progress refine Keeps.upd hw ?_

theorem State.modLnk_keeps {W : Nat} {r s : State} (p : ℕ) (f : LinkPort → LinkPort)
    (hw : Sub 0x20000 W) (h : Keeps W r s) : Keeps W r (State.modLnk s p f) := by
  unfold State.modLnk
  try dsimp only
  with_reducible repeat' first
      | exact h | exact hw.mono (by decide) | fail_if_no_progress refine Keeps.upd hw ?_

theorem State.sayOnce_keeps {W : Nat} {r s : State} (code : ℕ) (p : ℕ) (args : List ℕ)
    (hw : Sub 0x800010020048 W) (h : Keeps W r s) : Keeps W r (State.sayOnce s code p args) := by
  unfold State.sayOnce
  try dsimp only
  with_reducible repeat' first
      | exact h | exact hw.mono (by decide) | apply State.report_keeps | fail_if_no_progress refine Keeps.upd hw ?_
      | refine Keeps.ite ?_ ?_

theorem State.wakeTx_keeps {W : Nat} {r s : State} (p : ℕ)
    (hw : Sub 0x8000010000 W) (h : Keeps W r s) : Keeps W r (State.wakeTx s p) := by
  unfold State.wakeTx
  try dsimp only
  with_reducible repeat' first
      | exact h | exact hw.mono (by decide) | exact hw.mono (by rw [regBit_port _ _ (by decide)]; decide)
      | apply State.modPort_keeps | apply State.wrF_keeps | refine Keeps.ite ?_ ?_

theorem State.sendFlit_keeps {W : Nat} {r s : State} (p : ℕ) (seq : ℕ) (vc : ℕ) (kind : ℕ) (abort : Bool) (len : ℕ) (som : ℕ) (payload : Bytes)
    (hw : Sub 0x10020000 W) (h : Keeps W r s) : Keeps W r (State.sendFlit s p seq vc kind abort len som payload) := by
  unfold State.sendFlit
  try dsimp only
  with_reducible repeat' first
      | exact h | exact hw.mono (by decide) | apply State.put_keeps | apply State.modLnk_keeps

theorem State.sendLctl_keeps {W : Nat} {r s : State} (p : ℕ) (payload : Bytes)
    (hw : Sub 0x10020000 W) (h : Keeps W r s) : Keeps W r (State.sendLctl s p payload) := by
  unfold State.sendLctl
  try dsimp only
  with_reducible repeat' first
      | exact h | exact hw.mono (by decide) | apply State.sendFlit_keeps | refine Keeps.ite ?_ ?_

theorem State.sendNop_keeps {W : Nat} {r s : State} (p : ℕ)
    (hw : Sub 0x10020000 W) (h : Keeps W r s) : Keeps W r (State.sendNop s p) := by
  unfold State.sendNop
  try dsimp only
  with_reducible repeat' first
      | exact h | exact hw.mono (by decide) | apply State.sendLctl_keeps

theorem State.wakeNow_keeps {W : Nat} {r s : State} (p : ℕ)
    (hw : Sub 0x8000010000 W) (h : Keeps W r s) : Keeps W r (State.wakeNow s p) := by
  unfold State.wakeNow
  try dsimp only
  with_reducible repeat' first
      | exact h | exact hw.mono (by decide) | apply State.wakeTx_keeps | refine Keeps.ite ?_ ?_

theorem State.sendTx_keeps {W : Nat} {r s : State} (p : ℕ) (f : TxFlit)
    (hw : Sub 0x10020000 W) (h : Keeps W r s) : Keeps W r (State.sendTx s p f) := by
  unfold State.sendTx
  try dsimp only
  with_reducible repeat' first
      | exact h | exact hw.mono (by decide) | apply State.sendFlit_keeps

theorem State.freeSlots_keeps {W : Nat} {r s : State} (p : ℕ)
    (hw : Sub 0x20000 W) (h : Keeps W r s) : Keeps W r (State.freeSlots s p) := by
  unfold State.freeSlots
  try dsimp only
  with_reducible repeat' first
      | exact h | exact hw.mono (by decide) | apply State.modLnk_keeps | refine Keeps.ite ?_ ?_

theorem State.linkPlots_keeps {W : Nat} {r : State} (c : Nat) (hw : Sub 0x200000200 W) :
    ∀ (fuel : Nat) {s : State}, Keeps W r s → Keeps W r (State.linkPlots c fuel s) := by
  intro fuel
  induction fuel with
  | zero =>
    intro s h
    exact h
  | succ n ih =>
    intro s h
    unfold State.linkPlots
    try dsimp only
    with_reducible repeat' first
        | exact h | apply ih | assumption | exact hw.mono (by decide) | exact ha | apply State.allocPlot_keeps
        | refine Keeps.foldl (fun _ _ _ => ?_) _ ?_ | refine Keeps.foldlPair (fun _ _ _ => ?_) _ ?_
        | fail_if_no_progress refine Keeps.upd hw ?_ | refine Keeps.ite ?_ ?_ | refine Keeps.iteFst ?_ ?_
        | refine OptKeeps.ite ?_ ?_ | dsimp only | split

theorem State.takeSlots_keeps {W : Nat} {r s : State} (p : ℕ)
    (hw : Sub 0x800210020248 W) (h : Keeps W r s) : Keeps W r (State.takeSlots s p) := by
  unfold State.takeSlots
  try dsimp only
  with_reducible repeat' first
      | exact h | exact hw.mono (by decide) | apply State.modLnk_keeps | apply State.linkPlots_keeps
      | apply State.report_keeps | refine Keeps.ite ?_ ?_

theorem State.fillSlot_keeps {W : Nat} {r s : State} (p : ℕ) (pay : Bytes) (x4 : Option ℕ)
    (hw : Sub 0x2400200 W) (h : Keeps W r s) : Keeps W r (State.fillSlot s p pay x4) := by
  unfold State.fillSlot
  try dsimp only
  with_reducible repeat' first
      | exact h | exact hw.mono (by decide) | apply State.memSet_keeps | apply State.grantRange_keeps | dsimp only
      | split

theorem State.readStaging_keeps {W : Nat} {r s : State} (req : GrnReq) (l : List (ℕ × ℕ))
    (hw : Sub 0x840210000248 W) (h : Keeps W r s) : Keeps W r (State.readStaging s req l).1 := by
  unfold State.readStaging
  try dsimp only
  with_reducible repeat' first
      | exact h | assumption | exact hw.mono (by decide) | apply State.grantRange_keeps
      | apply State.consumePoison_keeps | refine Keeps.foldl (fun _ _ _ => ?_) _ ?_

theorem State.noteSource_keeps {W : Nat} {r s : State} (p : ℕ) (vc : ℕ) (m : Bytes)
    (hw : Sub 0x20000 W) (h : Keeps W r s) : Keeps W r (State.noteSource s p vc m) := by
  unfold State.noteSource
  try dsimp only
  with_reducible repeat' first
      | exact h | exact hw.mono (by decide) | apply State.modLnk_keeps

theorem State.dropPoisonedWaiting_keeps {W : Nat} {r s : State} 
    (hw : Sub 0x840210000a48 W) (h : Keeps W r s) : Keeps W r (State.dropPoisonedWaiting s) := by
  unfold State.dropPoisonedWaiting
  try dsimp only
  with_reducible repeat' first
      | exact h | assumption | exact hw.mono (by decide) | apply State.readStaging_keeps
      | refine Keeps.foldl (fun _ _ _ => ?_) _ ?_ | refine Keeps.foldlPair (fun _ _ _ => ?_) _ ?_
      | fail_if_no_progress refine Keeps.upd hw ?_ | refine Keeps.ite ?_ ?_

theorem State.sendSync_keeps {W : Nat} {r s : State} (p : ℕ)
    (hw : Sub 0x8010030000 W) (h : Keeps W r s) : Keeps W r (State.sendSync s p) := by
  unfold State.sendSync
  try dsimp only
  with_reducible repeat' first
      | exact h | exact hw.mono (by decide) | apply State.wakeNow_keeps | apply State.sendLctl_keeps
      | apply State.modLnk_keeps | refine Keeps.ite ?_ ?_

theorem State.sendSyncAck_keeps {W : Nat} {r s : State} (p : ℕ) (id : ℕ)
    (hw : Sub 0x8010030000 W) (h : Keeps W r s) : Keeps W r (State.sendSyncAck s p id) := by
  unfold State.sendSyncAck
  try dsimp only
  with_reducible repeat' first
      | exact h | exact hw.mono (by decide) | apply State.wakeNow_keeps | apply State.sendLctl_keeps
      | apply State.modLnk_keeps | refine Keeps.ite ?_ ?_

theorem State.nopNow_keeps {W : Nat} {r s : State} (p : ℕ)
    (hw : Sub 0x8010030000 W) (h : Keeps W r s) : Keeps W r (State.nopNow s p) := by
  unfold State.nopNow
  try dsimp only
  with_reducible repeat' first
      | exact h | exact hw.mono (by decide) | apply State.wakeNow_keeps | apply State.sendNop_keeps
      | apply State.modPort_keeps | refine Keeps.ite ?_ ?_

theorem State.sendDue_keeps {W : Nat} {r s : State} (p : ℕ)
    (hw : Sub 0x10030000 W) (h : Keeps W r s) : Keeps W r (State.sendDue s p) := by
  unfold State.sendDue
  try dsimp only
  with_reducible repeat' first
      | exact h | exact hw.mono (by decide) | apply State.modLnk_keeps | apply State.modPort_keeps
      | apply State.sendNop_keeps | apply State.sendLctl_keeps | refine Keeps.ite ?_ ?_ | dsimp only | split

theorem State.syncStart_keeps {W : Nat} {r s : State} (p : ℕ)
    (hw : Sub 0x818210030248 W) (h : Keeps W r s) : Keeps W r (State.syncStart s p) := by
  unfold State.syncStart
  try dsimp only
  with_reducible repeat' first
      | exact h | exact hw.mono (by decide) | exact hw.mono (by rw [regBit_lnkPort _ _ (by decide)]; decide)
      | apply State.takeSlots_keeps | apply State.modLnk_keeps | apply State.wrF_keeps | apply State.sendSync_keeps

theorem State.sendNext_keeps {W : Nat} {r s : State} (o : ℕ)
    (hw : Sub 0x10020000 W) (h : Keeps W r s) : OptKeeps W r (State.sendNext s o) := by
  unfold State.sendNext
  try dsimp only
  with_reducible repeat' first
      | exact h | exact hw.mono (by decide) | apply State.sendTx_keeps | apply State.modLnk_keeps
      | refine Keeps.ite ?_ ?_ | refine OptKeeps.ite ?_ ?_ | dsimp only | split | exact OptKeeps.none
      | refine OptKeeps.some ?_

theorem State.runReplay_keeps {W : Nat} {r s : State} (p : ℕ)
    (hw : Sub 0x18010030000 W) (h : Keeps W r s) : Keeps W r (State.runReplay s p) := by
  unfold State.runReplay
  try dsimp only
  with_reducible repeat' first
      | exact h | assumption | exact hw.mono (by decide)
      | exact hw.mono (by rw [regBit_lnkPort _ _ (by decide)]; decide) | apply State.wakeNow_keeps
      | apply State.wrF_keeps | apply State.put_keeps | apply State.modLnk_keeps | apply State.sendTx_keeps
      | refine Keeps.foldl (fun _ _ _ => ?_) _ ?_ | refine Keeps.foldlPair (fun _ _ _ => ?_) _ ?_
      | refine Keeps.ite ?_ ?_ | dsimp only | split

theorem State.abortMsg_keeps {W : Nat} {r s : State} (mid : ℕ)
    (hw : Sub 0x20000 W) (h : Keeps W r s) : Keeps W r (State.abortMsg s mid) := by
  unfold State.abortMsg
  try dsimp only
  with_reducible repeat' first
      | exact h | assumption | exact hw.mono (by decide) | apply State.modLnk_keeps
      | refine Keeps.foldl (fun _ _ _ => ?_) _ ?_ | refine Keeps.foldlPair (fun _ _ _ => ?_) _ ?_
      | refine Keeps.ite ?_ ?_ | dsimp only | split

theorem State.stopForward_keeps {W : Nat} {r s : State} (mid : ℕ)
    (hw : Sub 0x20000 W) (h : Keeps W r s) : Keeps W r (State.stopForward s mid) := by
  unfold State.stopForward
  try dsimp only
  with_reducible repeat' first
      | exact h | assumption | exact hw.mono (by decide) | apply State.modLnk_keeps
      | refine Keeps.foldl (fun _ _ _ => ?_) _ ?_

theorem State.pumpLoop_keeps {W : Nat} {r : State} (o : Nat) (hw : Sub 0x10020000 W) :
    ∀ (fuel : Nat) {s : State}, Keeps W r s → Keeps W r (State.pumpLoop o fuel s) := by
  intro fuel
  induction fuel with
  | zero =>
    intro s h
    exact h
  | succ n ih =>
    intro s h
    unfold State.pumpLoop
    try dsimp only
    with_reducible repeat' first
        | exact h | apply ih | assumption | exact hw.mono (by decide) | exact ha | apply State.sendNext_keeps
        | refine Keeps.foldl (fun _ _ _ => ?_) _ ?_ | refine Keeps.foldlPair (fun _ _ _ => ?_) _ ?_
        | fail_if_no_progress refine Keeps.upd hw ?_ | refine Keeps.ite ?_ ?_ | refine Keeps.iteFst ?_ ?_
        | refine OptKeeps.ite ?_ ?_ | dsimp only | split | refine Keeps.fst (by assumption) ?_
        | refine Keeps.snd (by assumption) ?_ | refine OptKeeps.get (by assumption) ?_

theorem State.pump_keeps {W : Nat} {r s : State} (o : ℕ)
    (hw : Sub 0x18010030000 W) (h : Keeps W r s) : Keeps W r (State.pump s o) := by
  unfold State.pump
  try dsimp only
  with_reducible repeat' first
      | exact h | assumption | exact hw.mono (by decide) | apply State.modLnk_keeps | apply State.pumpLoop_keeps
      | apply State.runReplay_keeps | apply State.freeSlots_keeps | refine Keeps.foldl (fun _ _ _ => ?_) _ ?_

theorem State.inject_keeps {W : Nat} {r s : State} (p : ℕ) (vc : ℕ) (b : Bytes)
    (hw : Sub 0x18010030000 W) (h : Keeps W r s) : Keeps W r (State.inject s p vc b) := by
  unfold State.inject
  try dsimp only
  with_reducible repeat' first
      | exact h | exact hw.mono (by decide) | apply State.put_keeps | apply State.modLnk_keeps
      | apply State.pump_keeps | apply State.wakeTx_keeps | fail_if_no_progress refine Keeps.upd hw ?_
      | refine Keeps.ite ?_ ?_

theorem State.sendLocal_keeps {W : Nat} {r s : State} (p : ℕ) (mtype : ℕ) (body : Bytes)
    (hw : Sub 0x18010030000 W) (h : Keeps W r s) : Keeps W r (State.sendLocal s p mtype body) := by
  unfold State.sendLocal
  try dsimp only
  with_reducible repeat' first
      | exact h | exact hw.mono (by decide) | apply State.inject_keeps

theorem State.sendTo_keeps {W : Nat} {r s : State} (dst : ℕ) (mtype : ℕ) (tag : ℕ) (body : Bytes)
    (hw : Sub 0x818010030048 W) (h : Keeps W r s) : Keeps W r (State.sendTo s dst mtype tag body) := by
  unfold State.sendTo
  try dsimp only
  with_reducible repeat' first
      | exact h | assumption | exact hw.mono (by decide) | apply State.inject_keeps | apply State.report_keeps
      | refine Keeps.foldl (fun _ _ _ => ?_) _ ?_ | refine Keeps.foldlPair (fun _ _ _ => ?_) _ ?_
      | refine Keeps.ite ?_ ?_ | dsimp only | split

theorem State.sendDisc_keeps {W : Nat} {r s : State} (p : ℕ) (dop : ℕ) (base : ℕ) (last : ℕ) (bridges : ℕ) (hops : ℕ)
    (hw : Sub 0x18010030000 W) (h : Keeps W r s) : Keeps W r (State.sendDisc s p dop base last bridges hops) := by
  unfold State.sendDisc
  try dsimp only
  with_reducible repeat' first
      | exact h | exact hw.mono (by decide) | apply State.sendLocal_keeps

theorem State.setNewPort_keeps {W : Nat} {r s : State} (p : ℕ) (t : TreePort)
    (hw : Sub 0x20000 W) (h : Keeps W r s) : Keeps W r (State.setNewPort s p t) := by
  unfold State.setNewPort
  try dsimp only
  with_reducible repeat' first
      | exact h | exact hw.mono (by decide) | fail_if_no_progress refine Keeps.upd hw ?_

theorem State.wakeBoth_keeps {W : Nat} {r s : State} (p : ℕ)
    (hw : Sub 0x8000010000 W) (h : Keeps W r s) : Keeps W r (State.wakeBoth s p) := by
  unfold State.wakeBoth
  try dsimp only
  with_reducible repeat' first
      | exact h | exact hw.mono (by decide) | exact hw.mono (by rw [regBit_port _ _ (by decide)]; decide)
      | apply State.wakeTx_keeps | apply State.wrF_keeps | refine Keeps.ite ?_ ?_

theorem State.treeCommit_keeps {W : Nat} {r s : State} 
    (hw : Sub 0x818010010048 W) (h : Keeps W r s) : Keeps W r (State.treeCommit s) := by
  unfold State.treeCommit
  try dsimp only
  with_reducible repeat' first
      | exact h | assumption | exact hw.mono (by decide)
      | exact hw.mono (by rw [regBit_lnkPort _ _ (by decide)]; decide) | apply State.wrF_keeps | apply State.wr_keeps
      | apply State.wakeBoth_keeps | apply State.report_keeps | refine Keeps.foldl (fun _ _ _ => ?_) _ ?_
      | refine Keeps.foldlPair (fun _ _ _ => ?_) _ ?_ | refine Keeps.ite ?_ ?_
      | dsimp only | split

theorem State.offerFrom_keeps {W : Nat} {r s : State} (p : ℕ)
    (hw : Sub 0x818010030048 W) (h : Keeps W r s) : Keeps W r (State.offerFrom s p) := by
  unfold State.offerFrom
  try dsimp only
  with_reducible repeat' first
      | exact h | exact hw.mono (by decide) | apply State.sendDisc_keeps | apply State.treeCommit_keeps
      | fail_if_no_progress refine Keeps.upd hw ?_ | refine Keeps.ite ?_ ?_ | dsimp only | split

theorem State.offerNext_keeps {W : Nat} {r s : State} 
    (hw : Sub 0x818010030048 W) (h : Keeps W r s) : Keeps W r (State.offerNext s) := by
  unfold State.offerNext
  try dsimp only
  with_reducible repeat' first
      | exact h | exact hw.mono (by decide) | apply State.offerFrom_keeps | dsimp only | split

theorem State.beaconOut_keeps {W : Nat} {r s : State} 
    (hw : Sub 0x18010030000 W) (h : Keeps W r s) : Keeps W r (State.beaconOut s) := by
  unfold State.beaconOut
  try dsimp only
  with_reducible repeat' first
      | exact h | assumption | exact hw.mono (by decide) | apply State.sendDisc_keeps
      | refine Keeps.foldl (fun _ _ _ => ?_) _ ?_

theorem State.takeBest_keeps {W : Nat} {r s : State} (b : Beacon)
    (hw : Sub 0x10000020000 W) (h : Keeps W r s) : Keeps W r (State.takeBest s b) := by
  unfold State.takeBest
  try dsimp only
  with_reducible repeat' first
      | exact h | exact hw.mono (by decide) | apply State.wr_keeps | apply State.wrF_keeps
      | fail_if_no_progress refine Keeps.upd hw ?_

theorem State.startEpoch_keeps {W : Nat} {r s : State} 
    (hw : Sub 0x18010030000 W) (h : Keeps W r s) : Keeps W r (State.startEpoch s) := by
  unfold State.startEpoch
  try dsimp only
  with_reducible repeat' first
      | exact h | exact hw.mono (by decide) | apply State.takeBest_keeps | apply State.beaconOut_keeps
      | fail_if_no_progress refine Keeps.upd hw ?_

theorem State.treeLost_keeps {W : Nat} {r s : State} 
    (hw : Sub 0x18010030000 W) (h : Keeps W r s) : Keeps W r (State.treeLost s) := by
  unfold State.treeLost
  try dsimp only
  with_reducible repeat' first
      | exact h | exact hw.mono (by decide) | apply State.startEpoch_keeps | apply State.sendDisc_keeps
      | refine Keeps.ite ?_ ?_ | dsimp only | split

theorem State.treePortLost_keeps {W : Nat} {r s : State} (p : ℕ)
    (hw : Sub 0x18010030000 W) (h : Keeps W r s) : Keeps W r (State.treePortLost s p) := by
  unfold State.treePortLost
  try dsimp only
  with_reducible repeat' first
      | exact h | assumption | exact hw.mono (by decide) | apply State.wrF_keeps | apply State.treeLost_keeps
      | refine Keeps.foldl (fun _ _ _ => ?_) _ ?_ | refine Keeps.foldlPair (fun _ _ _ => ?_) _ ?_
      | fail_if_no_progress refine Keeps.upd hw ?_ | refine Keeps.ite ?_ ?_ | dsimp only | split

theorem State.linkDown_keeps {W : Nat} {r s : State} (p : ℕ)
    (hw : Sub 0x18010030000 W) (h : Keeps W r s) : Keeps W r (State.linkDown s p) := by
  unfold State.linkDown
  try dsimp only
  with_reducible repeat' first
      | exact h | assumption | exact hw.mono (by decide)
      | exact hw.mono (by rw [regBit_lnkPort _ _ (by decide)]; decide) | apply State.modLnk_keeps
      | apply State.wrF_keeps | apply State.stopForward_keeps | apply State.abortMsg_keeps | apply State.pump_keeps
      | apply State.treePortLost_keeps | refine Keeps.foldl (fun _ _ _ => ?_) _ ?_
      | refine Keeps.foldlPair (fun _ _ _ => ?_) _ ?_ | refine Keeps.ite ?_ ?_

/-! ### Flash -/

/-- Bytes programmed keep the flash devices canonical. -/
theorem State.flashPut_keeps {W : Nat} {r s : State} (dev off : Nat) (b : Bytes) (hw : Sub 0x1800000 W) (h : Keeps W r s) : Keeps W r (s.flashPut dev off b) := by
  unfold State.flashPut
  split
  · exact Keeps.ofMem hw h rfl id (flashCells_wf off b) id rfl rfl rfl rfl
  · exact Keeps.ofMem hw h rfl id id (flashCells_wf off b) rfl rfl rfl rfl

theorem State.flashErase_keeps {W : Nat} {r s : State} (dev off n : Nat) (hw : Sub 0x1800000 W) (h : Keeps W r s) : Keeps W r (s.flashErase dev off n) := by
  unfold State.flashErase
  dsimp only
  split
  · exact Keeps.ofMem hw h rfl id (swf_filter _) id rfl rfl rfl rfl
  · exact Keeps.ofMem hw h rfl id id (swf_filter _) rfl rfl rfl rfl

theorem State.eraseSector_keeps {W : Nat} {r s : State} (dev : ℕ) (off : ℕ)
    (hw : Sub 0x1800000 W) (h : Keeps W r s) : Keeps W r (State.eraseSector s dev off) := by
  unfold State.eraseSector
  try dsimp only
  with_reducible repeat' first
      | exact h | exact hw.mono (by decide) | apply State.flashErase_keeps

theorem State.flashFail_keeps {W : Nat} {r s : State} (dev : ℕ) (off : ℕ)
    (hw : Sub 0x800010000048 W) (h : Keeps W r s) : Keeps W r (State.flashFail s dev off) := by
  unfold State.flashFail
  try dsimp only
  with_reducible repeat' first
      | exact h | exact hw.mono (by decide) | apply State.report_keeps

theorem State.tornFlash_keeps {W : Nat} {r s : State} (dev : ℕ) (off : ℕ) (n : ℕ)
    (hw : Sub 0x1800004 W) (h : Keeps W r s) : Keeps W r (State.tornFlash s dev off n) := by
  unfold State.tornFlash
  try dsimp only
  with_reducible repeat' first
      | exact h | exact hw.mono (by decide) | apply State.draw_keeps | apply State.flashPut_keeps

theorem State.actPut_keeps {W : Nat} {r s : State} (off : ℕ) (b : Bytes)
    (hw : Sub 0x800000000048 W) (h : Keeps W r s) : Keeps W r (State.actPut s off b) := by
  unfold State.actPut
  try dsimp only
  with_reducible repeat' first
      | exact h | exact hw.mono (by decide) | apply State.sramWrite_keeps | refine Keeps.ite ?_ ?_

/-! ### Burin -/

theorem State.putPixels_keeps {W : Nat} {r s : State} (f : Surface) (x : ℕ) (y : ℕ) (ps : List (Option ℕ))
    (hw : Sub 0x2480000 W) (h : Keeps W r s) : Keeps W r (State.putPixels s f x y ps) := by
  unfold State.putPixels
  try dsimp only
  with_reducible repeat' first
      | exact h | assumption | exact hw.mono (by decide) | apply State.memPut_keeps | apply State.memSet_keeps
      | refine Keeps.foldl (fun _ _ _ => ?_) _ ?_ | refine Keeps.foldlPair (fun _ _ _ => ?_) _ ?_
      | fail_if_no_progress refine Keeps.upd hw ?_ | refine Keeps.ite ?_ ?_ | dsimp only | split

theorem State.burSegment_keeps {W : Nat} {r s : State} (c : BurCmd) (k : ℕ)
    (hw : Sub 0x84029e480e4c W) (h : Keeps W r s) : Keeps W r (State.burSegment s c k).1 := by
  unfold State.burSegment
  try dsimp only
  with_reducible repeat' first
      | exact h | assumption | exact hw.mono (by decide) | apply State.refuseRange_keeps
      | apply State.consumePoison_keeps | apply State.putPixels_keeps | refine Keeps.foldl (fun _ _ _ => ?_) _ ?_
      | refine Keeps.foldlPair (fun _ _ _ => ?_) _ ?_ | refine Keeps.iteFst ?_ ?_ | dsimp only | split
      | apply State.useRange_keeps

theorem State.burFallow_keeps {W : Nat} {r s : State} 
    (hw : Sub 0x80000080000 W) (h : Keeps W r s) : Keeps W r (State.burFallow s) := by
  unfold State.burFallow
  try dsimp only
  with_reducible repeat' first
      | exact h | exact hw.mono (by decide) | apply State.wrF_keeps | fail_if_no_progress refine Keeps.upd hw ?_
      | refine Keeps.ite ?_ ?_

theorem State.burEnd_keeps {W : Nat} {r s : State} (slot : ℕ) (op : ℕ) (irq : Bool) (result : ℕ) (rows : ℕ)
    (hw : Sub 0x8c009e480e4c W) (h : Keeps W r s) : Keeps W r (State.burEnd s slot op irq result rows) := by
  unfold State.burEnd
  try dsimp only
  with_reducible repeat' first
      | exact h | exact hw.mono (by decide) | apply State.memSet_keeps | apply State.refuseRange_keeps
      | apply State.wr_keeps | apply State.bump_keeps | apply State.report_keeps | apply State.wrF_keeps
      | fail_if_no_progress refine Keeps.upd hw ?_ | refine Keeps.ite ?_ ?_ | apply State.useRange_keeps
      | apply State.burFallow_keeps

theorem State.burRun_keeps {W : Nat} {r : State}  (hw : Sub 0x8c029e480e4c W) :
    ∀ (fuel : Nat) {s : State}, Keeps W r s → Keeps W r (State.burRun fuel s) := by
  intro fuel
  induction fuel with
  | zero =>
    intro s h
    unfold State.burRun
    try dsimp only
    with_reducible repeat' first
        | exact h | assumption | exact hw.mono (by decide) | exact ha | apply State.burEnd_keeps
        | apply State.burSegment_keeps | refine Keeps.foldl (fun _ _ _ => ?_) _ ?_
        | refine Keeps.foldlPair (fun _ _ _ => ?_) _ ?_ | fail_if_no_progress refine Keeps.upd hw ?_
        | refine Keeps.ite ?_ ?_ | refine Keeps.iteFst ?_ ?_ | refine OptKeeps.ite ?_ ?_ | dsimp only | split
  | succ n ih =>
    intro s h
    unfold State.burRun
    try dsimp only
    with_reducible repeat' first
        | exact h | apply ih | assumption | exact hw.mono (by decide) | exact ha | apply State.burEnd_keeps
        | apply State.burSegment_keeps | refine Keeps.foldl (fun _ _ _ => ?_) _ ?_
        | refine Keeps.foldlPair (fun _ _ _ => ?_) _ ?_ | fail_if_no_progress refine Keeps.upd hw ?_
        | refine Keeps.ite ?_ ?_ | refine Keeps.iteFst ?_ ?_ | refine OptKeeps.ite ?_ ?_ | dsimp only | split
        | refine Keeps.fst (by assumption) ?_

theorem State.burFetch_keeps {W : Nat} {r s : State} (ops : ℕ → Bool) (n : ℕ)
    (hw : Sub 0x8c029e480e4c W) (h : Keeps W r s) : Keeps W r (State.burFetch s ops n) := by
  unfold State.burFetch
  try dsimp only
  with_reducible repeat' first
      | exact h | exact hw.mono (by decide) | apply State.burRun_keeps | apply State.draw_keeps
      | apply State.burEnd_keeps | apply State.refuseRange_keeps | apply State.consumePoison_keeps
      | apply State.wrF_keeps | fail_if_no_progress refine Keeps.upd hw ?_ | refine Keeps.ite ?_ ?_ | dsimp only
      | split | apply State.useRange_keeps

theorem State.burAbort_keeps {W : Nat} {r s : State} 
    (hw : Sub 0x8c009e480e4c W) (h : Keeps W r s) : Keeps W r (State.burAbort s) := by
  unfold State.burAbort
  try dsimp only
  with_reducible repeat' first
      | exact h | exact hw.mono (by decide) | apply State.burEnd_keeps | dsimp only | split

theorem State.ringBad_keeps {W : Nat} {r s : State} 
    (hw : Sub 0x880010000048 W) (h : Keeps W r s) : Keeps W r (State.ringBad s) := by
  unfold State.ringBad
  try dsimp only
  with_reducible repeat' first
      | exact h | exact hw.mono (by decide) | apply State.report_keeps | apply State.wrF_keeps

theorem State.burSizeWrite_keeps {W : Nat} {r s : State} (v : ℕ)
    (hw : Sub 0x880010000048 W) (h : Keeps W r s) : Keeps W r (State.burSizeWrite s v) := by
  unfold State.burSizeWrite
  try dsimp only
  with_reducible repeat' first
      | exact h | exact hw.mono (by decide) | apply State.ringBad_keeps | apply State.wrF_keeps | apply State.wr_keeps
      | refine Keeps.ite ?_ ?_

theorem State.burRingWrite_keeps {W : Nat} {r s : State} (a : ℕ) (v : ℕ)
    (hw : Sub 0x80000000000 W) (ha : Sub (regBit a) W) (h : Keeps W r s) : Keeps W r (State.burRingWrite s a v) := by
  unfold State.burRingWrite
  try dsimp only
  with_reducible repeat' first
      | exact h | exact hw.mono (by decide) | exact ha | apply State.regWrite_keeps | apply State.wr_keeps
      | refine Keeps.ite ?_ ?_

theorem State.burEnable_keeps {W : Nat} {r s : State} (en : Bool)
    (hw : Sub 0x8c009e480e4c W) (h : Keeps W r s) : Keeps W r (State.burEnable s en) := by
  unfold State.burEnable
  try dsimp only
  with_reducible repeat' first
      | exact h | exact hw.mono (by decide) | apply State.wrF_keeps | apply State.burAbort_keeps
      | refine Keeps.ite ?_ ?_ | apply State.burFallow_keeps

theorem State.burResume_keeps {W : Nat} {r s : State} 
    (hw : Sub 0x80000080000 W) (h : Keeps W r s) : Keeps W r (State.burResume s) := by
  unfold State.burResume
  try dsimp only
  with_reducible repeat' first
      | exact h | exact hw.mono (by decide) | apply State.wrF_keeps | apply State.burFallow_keeps

theorem State.burTake_keeps {W : Nat} {r s : State} (x2 : BurWrite)
    (hw : Sub 0x8c009e480e4c W) (h : Keeps W r s) : Keeps W r (State.burTake s x2) := by
  unfold State.burTake
  try dsimp only
  with_reducible repeat' first
      | exact h | exact hw.mono (by decide) | apply State.burResume_keeps | apply State.burAbort_keeps
      | apply State.burEnable_keeps | apply State.burSizeWrite_keeps | apply State.burRingWrite_keeps | dsimp only
      | split

theorem State.burControl_keeps {W : Nat} {r s : State} (w : BurWrite)
    (hw : Sub 0x8c009e480e4c W) (h : Keeps W r s) : Keeps W r (State.burControl s w) := by
  unfold State.burControl
  try dsimp only
  with_reducible repeat' first
      | exact h | exact hw.mono (by decide) | apply State.burTake_keeps | fail_if_no_progress refine Keeps.upd hw ?_
      | refine Keeps.ite ?_ ?_

theorem State.burRestart_keeps {W : Nat} {r s : State} 
    (hw : Sub 0x8c009e480e4c W) (h : Keeps W r s) : Keeps W r (State.burRestart s) := by
  unfold State.burRestart
  try dsimp only
  with_reducible repeat' first
      | exact h | assumption | exact hw.mono (by decide) | apply State.wrF_keeps | apply State.burTake_keeps
      | refine Keeps.foldl (fun _ _ _ => ?_) _ ?_ | refine Keeps.foldlPair (fun _ _ _ => ?_) _ ?_
      | fail_if_no_progress refine Keeps.upd hw ?_ | apply State.wr_keeps

theorem State.burTail_keeps {W : Nat} {r s : State} (v : ℕ)
    (hw : Sub 0x8c009e480e4c W) (h : Keeps W r s) : Keeps W r (State.burTail s v) := by
  unfold State.burTail
  try dsimp only
  with_reducible repeat' first
      | exact h | exact hw.mono (by decide) | apply State.burRestart_keeps | apply State.ringBad_keeps
      | apply State.wr_keeps | refine Keeps.ite ?_ ?_ | apply State.burFallow_keeps

theorem State.burTick_keeps {W : Nat} {r s : State} 
    (hw : Sub 0x80000080000 W) (h : Keeps W r s) : Keeps W r (State.burTick s) := by
  unfold State.burTick
  try dsimp only
  with_reducible repeat' first
      | exact h | exact hw.mono (by decide) | apply State.wr_keeps | fail_if_no_progress refine Keeps.upd hw ?_
      | refine Keeps.ite ?_ ?_

theorem execBurTailWrite_keeps {W : Nat} (value : Word) (s : State) (hw : Sub 0x8c00be480e4c W) :
    OutKeeps W s (execBurTailWrite value s) := by
  unfold execBurTailWrite
  have h := Keeps.refl W s
  refine OutKeeps.gate (hw.mono (by decide)) ?_
  try dsimp only [OutKeeps]
  with_reducible repeat' first
      | exact h | exact hw.mono (by decide) | apply State.burTail_keeps

theorem execBurNop_keeps {W : Nat} (s : State) (hw : Sub 0x8c029e480e4c W) :
    OutKeeps W s (execBurNop s) := by
  unfold execBurNop
  have h := Keeps.refl W s
  try dsimp only [OutKeeps]
  with_reducible repeat' first
      | exact h | assumption | exact hw.mono (by decide)
      | refine State.oneCycle_keeps (fun _ _ _ => ?_) (hw.mono (by decide)) ?_ | apply State.burFetch_keeps

theorem execBurFill_keeps {W : Nat} (segments : ℕ) (s : State) (hw : Sub 0x8c029e480e4c W) :
    OutKeeps W s (execBurFill segments s) := by
  unfold execBurFill
  have h := Keeps.refl W s
  try dsimp only [OutKeeps]
  with_reducible repeat' first
      | exact h | assumption | exact hw.mono (by decide)
      | refine State.oneCycle_keeps (fun _ _ _ => ?_) (hw.mono (by decide)) ?_ | apply State.burFetch_keeps

theorem execBurCopy_keeps {W : Nat} (segments : ℕ) (s : State) (hw : Sub 0x8c029e480e4c W) :
    OutKeeps W s (execBurCopy segments s) := by
  unfold execBurCopy
  have h := Keeps.refl W s
  try dsimp only [OutKeeps]
  with_reducible repeat' first
      | exact h | assumption | exact hw.mono (by decide)
      | refine State.oneCycle_keeps (fun _ _ _ => ?_) (hw.mono (by decide)) ?_ | apply State.burFetch_keeps

theorem execBurStipple_keeps {W : Nat} (segments : ℕ) (s : State) (hw : Sub 0x8c029e480e4c W) :
    OutKeeps W s (execBurStipple segments s) := by
  unfold execBurStipple
  have h := Keeps.refl W s
  try dsimp only [OutKeeps]
  with_reducible repeat' first
      | exact h | assumption | exact hw.mono (by decide)
      | refine State.oneCycle_keeps (fun _ _ _ => ?_) (hw.mono (by decide)) ?_ | apply State.burFetch_keeps

theorem execBurCtrlResume_keeps {W : Nat} (s : State) (hw : Sub 0x8c00be480e4c W) :
    OutKeeps W s (execBurCtrlResume s) := by
  unfold execBurCtrlResume
  have h := Keeps.refl W s
  refine OutKeeps.gate (hw.mono (by decide)) ?_
  try dsimp only [OutKeeps]
  with_reducible repeat' first
      | exact h | exact hw.mono (by decide) | apply State.burControl_keeps

theorem execBurCtrlAbort_keeps {W : Nat} (s : State) (hw : Sub 0x8c00be480e4c W) :
    OutKeeps W s (execBurCtrlAbort s) := by
  unfold execBurCtrlAbort
  have h := Keeps.refl W s
  refine OutKeeps.gate (hw.mono (by decide)) ?_
  try dsimp only [OutKeeps]
  with_reducible repeat' first
      | exact h | assumption | exact hw.mono (by decide)
      | refine State.oneCycle_keeps (fun _ _ _ => ?_) (hw.mono (by decide)) ?_ | apply State.burControl_keeps

theorem execBurCtrlEnWrite_keeps {W : Nat} (en : Bool) (s : State) (hw : Sub 0x8c00be480e4c W) :
    OutKeeps W s (execBurCtrlEnWrite en s) := by
  unfold execBurCtrlEnWrite
  have h := Keeps.refl W s
  refine OutKeeps.gate (hw.mono (by decide)) ?_
  try dsimp only [OutKeeps]
  with_reducible repeat' first
      | exact h | assumption | exact hw.mono (by decide)
      | refine State.oneCycle_keeps (fun _ _ _ => ?_) (hw.mono (by decide)) ?_ | apply State.burControl_keeps

theorem execBurRingSizeWrite_keeps {W : Nat} (value : Word) (s : State) (hw : Sub 0x8c00be480e4c W) :
    OutKeeps W s (execBurRingSizeWrite value s) := by
  unfold execBurRingSizeWrite
  have h := Keeps.refl W s
  refine OutKeeps.gate (hw.mono (by decide)) ?_
  try dsimp only [OutKeeps]
  with_reducible repeat' first
      | exact h | exact hw.mono (by decide) | apply State.burControl_keeps

theorem execBurRingLoWrite_keeps {W : Nat} (value : Word) (s : State) (hw : Sub 0x8c00be480e4c W) :
    OutKeeps W s (execBurRingLoWrite value s) := by
  unfold execBurRingLoWrite
  have h := Keeps.refl W s
  refine OutKeeps.gate (hw.mono (by decide)) ?_
  try dsimp only [OutKeeps]
  with_reducible repeat' first
      | exact h | exact hw.mono (by decide) | apply State.burControl_keeps

/-! ### Thermal -/

theorem State.setSensor_keeps {W : Nat} {r s : State} (n : ℕ) (x : Sensor)
    (hw : Sub 0x100 W) (h : Keeps W r s) : Keeps W r (State.setSensor s n x) := by
  unfold State.setSensor
  try dsimp only
  with_reducible repeat' first
      | exact h | exact hw.mono (by decide) | fail_if_no_progress refine Keeps.upd hw ?_

theorem State.askLevel_keeps {W : Nat} {r s : State} (l : ℕ)
    (hw : Sub 0x10 W) (h : Keeps W r s) : Keeps W r (State.askLevel s l) := by
  unfold State.askLevel
  try dsimp only
  with_reducible repeat' first
      | exact h | exact hw.mono (by decide) | fail_if_no_progress refine Keeps.upd hw ?_

theorem State.updateLevel_keeps {W : Nat} {r s : State} 
    (hw : Sub 0x900010000058 W) (h : Keeps W r s) : Keeps W r (State.updateLevel s) := by
  unfold State.updateLevel
  try dsimp only
  with_reducible repeat' first
      | exact h | exact hw.mono (by decide) | apply State.report_keeps | apply State.wrF_keeps
      | apply State.askLevel_keeps | refine Keeps.ite ?_ ?_

theorem State.queueSensorTest_keeps {W : Nat} {r s : State} (n : ℕ) (faulted : Bool)
    (hw : Sub 0x80000c000148 W) (h : Keeps W r s) : Keeps W r (State.queueSensorTest s n faulted) := by
  unfold State.queueSensorTest
  try dsimp only
  with_reducible repeat' first
      | exact h | exact hw.mono (by decide) | apply State.queueTest_keeps | apply State.setSensor_keeps

theorem State.updateDieBand_keeps {W : Nat} {r s : State} 
    (hw : Sub 0x940010000448 W) (h : Keeps W r s) : Keeps W r (State.updateDieBand s) := by
  unfold State.updateDieBand
  try dsimp only
  with_reducible repeat' first
      | exact h | exact hw.mono (by decide) | apply State.wrF_keeps | apply State.wr_keeps
      | apply State.refreshFloors_keeps | apply State.report_keeps | apply State.requestOp_keeps
      | refine Keeps.ite ?_ ?_ | dsimp only | split

theorem State.failSensor_keeps {W : Nat} {r s : State} (n : ℕ) (reason : ℕ)
    (hw : Sub 0x94001c000558 W) (h : Keeps W r s) : Keeps W r (State.failSensor s n reason) := by
  unfold State.failSensor
  try dsimp only
  with_reducible repeat' first
      | exact h | exact hw.mono (by decide) | apply State.bump_keeps | apply State.report_keeps
      | apply State.setSensor_keeps | apply State.wrF_keeps | apply State.updateLevel_keeps
      | apply State.updateDieBand_keeps | fail_if_no_progress refine Keeps.upd hw ?_ | refine Keeps.ite ?_ ?_
      | apply State.queueSensorTest_keeps

theorem State.convServed_keeps {W : Nat} {r s : State} (n : ℕ)
    (hw : Sub 0x100 W) (h : Keeps W r s) : Keeps W r (State.convServed s n) := by
  unfold State.convServed
  try dsimp only
  with_reducible repeat' first
      | exact h | exact hw.mono (by decide) | fail_if_no_progress refine Keeps.upd hw ?_

theorem State.overtemp_keeps {W : Nat} {r s : State} 
    (hw : Sub 0x9040100000c8 W) (h : Keeps W r s) : Keeps W r (State.overtemp s) := by
  unfold State.overtemp
  try dsimp only
  with_reducible repeat' first
      | exact h | exact hw.mono (by decide) | apply State.supplyDown_keeps | apply State.report_keeps
      | apply State.wrF_keeps | refine Keeps.ite ?_ ?_

theorem State.convResult_keeps {W : Nat} {r s : State} (n : ℕ) (temp : ℤ)
    (hw : Sub 0x94401c0005d8 W) (h : Keeps W r s) : Keeps W r (State.convResult s n temp) := by
  unfold State.convResult
  try dsimp only
  with_reducible repeat' first
      | exact h | exact hw.mono (by decide) | apply State.bump_keeps | apply State.convServed_keeps
      | apply State.failSensor_keeps | apply State.setSensor_keeps | apply State.updateDieBand_keeps
      | apply State.report_keeps | apply State.wrF_keeps | apply State.updateLevel_keeps | refine Keeps.ite ?_ ?_
      | dsimp only | split | apply State.overtemp_keeps

theorem State.panelReading_keeps {W : Nat} {r s : State} (driver : ℕ) (temp : ℤ)
    (hw : Sub 0x900010000148 W) (h : Keeps W r s) : Keeps W r (State.panelReading s driver temp) := by
  unfold State.panelReading
  try dsimp only
  with_reducible repeat' first
      | exact h | assumption | exact hw.mono (by decide) | apply State.wr_keeps | apply State.report_keeps
      | apply State.wrF_keeps | refine Keeps.foldl (fun _ _ _ => ?_) _ ?_
      | refine Keeps.foldlPair (fun _ _ _ => ?_) _ ?_ | fail_if_no_progress refine Keeps.upd hw ?_
      | refine Keeps.ite ?_ ?_

theorem execThmConversionResult_keeps {W : Nat} (sensor : Fin 24) (temp : ℤ) (s : State) (hw : Sub 0x94401c0005d8 W) :
    OutKeeps W s (execThmConversionResult sensor temp s) := by
  unfold execThmConversionResult
  have h := Keeps.refl W s
  try dsimp only [OutKeeps]
  with_reducible repeat' first
      | exact h | assumption | exact hw.mono (by decide)
      | refine State.oneCycle_keeps (fun _ _ _ => ?_) (hw.mono (by decide)) ?_ | apply State.convResult_keeps

theorem execThmConversionTimeout_keeps {W : Nat} (sensor : Fin 24) (s : State) (hw : Sub 0x94001c000558 W) :
    OutKeeps W s (execThmConversionTimeout sensor s) := by
  unfold execThmConversionTimeout
  have h := Keeps.refl W s
  try dsimp only [OutKeeps]
  with_reducible repeat' first
      | exact h | assumption | exact hw.mono (by decide) | apply State.bump_keeps | apply State.convServed_keeps
      | refine State.oneCycle_keeps (fun _ _ _ => ?_) (hw.mono (by decide)) ?_ | apply State.failSensor_keeps
      | refine Keeps.ite ?_ ?_

theorem execThmConvReq_keeps {W : Nat} (value : Word) (s : State) (hw : Sub 0x20000100 W) :
    OutKeeps W s (execThmConvReq value s) := by
  unfold execThmConvReq
  have h := Keeps.refl W s
  refine OutKeeps.gate (hw.mono (by decide)) ?_
  try dsimp only [OutKeeps]
  with_reducible repeat' first
      | exact h | exact hw.mono (by decide) | fail_if_no_progress refine Keeps.upd hw ?_

theorem execThmSelftestReq_keeps {W : Nat} (value : Word) (s : State) (hw : Sub 0x80002c000148 W) :
    OutKeeps W s (execThmSelftestReq value s) := by
  unfold execThmSelftestReq
  have h := Keeps.refl W s
  refine OutKeeps.gate (hw.mono (by decide)) ?_
  try dsimp only [OutKeeps]
  with_reducible repeat' first
      | exact h | exact hw.mono (by decide) | refine Keeps.ite ?_ ?_
      | apply State.queueSensorTest_keeps

theorem execThmSelftestDone_keeps {W : Nat} (sensor : Fin 24) (pass : Bool) (reading : Option ℤ) (s : State) (hw : Sub 0x940098000558 W) :
    OutKeeps W s (execThmSelftestDone sensor pass reading s) := by
  unfold execThmSelftestDone
  have h := Keeps.refl W s
  try dsimp only [OutKeeps]
  with_reducible repeat' first
      | exact h | assumption | exact hw.mono (by decide)
      | refine State.oneCycle_keeps (fun _ _ _ => ?_) (hw.mono (by decide)) ?_ | apply State.testResult_keeps
      | apply State.wr_keeps | apply State.setSensor_keeps | apply State.updateLevel_keeps
      | apply State.updateDieBand_keeps | refine Keeps.ite ?_ ?_ | refine Keeps.iteFst ?_ ?_ | dsimp only | split

theorem execThmSensorStale_keeps {W : Nat} (sensor : Fin 24) (s : State) (hw : Sub 0x800010000148 W) :
    OutKeeps W s (execThmSensorStale sensor s) := by
  unfold execThmSensorStale
  have h := Keeps.refl W s
  try dsimp only [OutKeeps]
  with_reducible repeat' first
      | exact h | exact hw.mono (by decide) | apply State.report_keeps | apply State.setSensor_keeps
      | refine Keeps.ite ?_ ?_

theorem execThmLevelRelease_keeps {W : Nat} (s : State) (hw : Sub 0x900010000058 W) :
    OutKeeps W s (execThmLevelRelease s) := by
  unfold execThmLevelRelease
  have h := Keeps.refl W s
  try dsimp only [OutKeeps]
  with_reducible repeat' first
      | exact h | exact hw.mono (by decide) | apply State.askLevel_keeps | apply State.report_keeps
      | apply State.wrF_keeps | refine Keeps.ite ?_ ?_

theorem execThmRateStepEnd_keeps {W : Nat}  (s : State) (hw : Sub 0x100000000000 W) :
    OutKeeps W s (execThmRateStepEnd s) := by
  unfold execThmRateStepEnd
  have h := Keeps.refl W s
  try dsimp only [OutKeeps]
  with_reducible repeat' first
      | exact h | exact hw.mono (by decide) | apply State.wrF_keeps

theorem execThmHoldRelease_keeps {W : Nat}  (s : State) (hw : Sub 0x100000000100 W) :
    OutKeeps W s (execThmHoldRelease s) := by
  unfold execThmHoldRelease
  have h := Keeps.refl W s
  try dsimp only [OutKeeps]
  with_reducible repeat' first
      | exact h | exact hw.mono (by decide) | apply State.wrF_keeps | fail_if_no_progress refine Keeps.upd hw ?_

theorem execThmOvertempClear_keeps {W : Nat} (s : State) (hw : Sub 0x104000000080 W) :
    OutKeeps W s (execThmOvertempClear s) := by
  unfold execThmOvertempClear
  have h := Keeps.refl W s
  try dsimp only [OutKeeps]
  with_reducible repeat' first
      | exact h | exact hw.mono (by decide) | apply State.supplyUp_keeps | apply State.wrF_keeps
      | refine Keeps.ite ?_ ?_ | fail_if_no_progress refine Keeps.upd hw ?_

theorem execThmOpRestore_keeps {W : Nat} (s : State) (hw : Sub 0x840010000448 W) :
    OutKeeps W s (execThmOpRestore s) := by
  unfold execThmOpRestore
  have h := Keeps.refl W s
  try dsimp only [OutKeeps]
  with_reducible repeat' first
      | exact h | exact hw.mono (by decide) | apply State.requestOp_keeps | refine Keeps.ite ?_ ?_

theorem execThmPanelUnknown_keeps {W : Nat} (s : State) (hw : Sub 0x900010000148 W) :
    OutKeeps W s (execThmPanelUnknown s) := by
  unfold execThmPanelUnknown
  have h := Keeps.refl W s
  try dsimp only [OutKeeps]
  with_reducible repeat' first
      | exact h | exact hw.mono (by decide) | apply State.report_keeps | apply State.wrF_keeps
      | fail_if_no_progress refine Keeps.upd hw ?_ | refine Keeps.ite ?_ ?_

end Sys2Proof.Machine
end

