-- ==== Sys2Proof/Laws/KeepsLanes.lean ====
section
/-! SUPPORT. Every operation and meaning of sowing and the lanes (Machine/Sowing.lean and Lanes.lean)
keeps what `Keeps` says. -/

-- One theorem at a time: hundreds of them at once would need more thread stacks than a check may map.
set_option Elab.async false
namespace Sys2Proof.Machine

/-! ### Sowing -/

theorem State.setSowBit_keeps {W : Nat} {r s : State} (b : ℕ) (v : Bool)
    (hw : Sub 0x800000000048 W) (h : Keeps W r s) : Keeps W r (State.setSowBit s b v) := by
  unfold State.setSowBit
  try dsimp only
  with_reducible repeat' first
      | exact h | exact hw.mono (by decide) | apply State.sramWrite_keeps

theorem State.sowClear_keeps {W : Nat} {r s : State} 
    (hw : Sub 0x800000000048 W) (h : Keeps W r s) : Keeps W r (State.sowClear s) := by
  unfold State.sowClear
  try dsimp only
  with_reducible repeat' first
      | exact h | exact hw.mono (by decide) | apply State.sramWrite_keeps

theorem State.sowNew_keeps {W : Nat} {r s : State} (slot : ℕ) (session : ℕ) (m : Bytes)
    (hw : Sub 0x800000000048 W) (h : Keeps W r s) : Keeps W r (State.sowNew s slot session m) := by
  unfold State.sowNew
  try dsimp only
  with_reducible repeat' first
      | exact h | assumption | assumption | exact hw.mono (by decide) | apply State.sowClear_keeps
      | apply State.sramWrite_keeps

theorem State.sowResume_keeps {W : Nat} {r s : State} (session : ℕ)
    (hw : Sub 0x800011800048 W) (h : Keeps W r s) : Keeps W r (State.sowResume s session) := by
  unfold State.sowResume
  try dsimp only
  with_reducible repeat' first
      | exact h | assumption | exact hw.mono (by decide) | apply State.setSowBit_keeps | apply State.eraseSector_keeps
      | apply State.report_keeps | apply State.sramWrite_keeps | refine Keeps.foldl (fun _ _ _ => ?_) _ ?_

theorem State.sowStatus_keeps {W : Nat} {r s : State} (dst : ℕ) (tag : ℕ) (session : ℕ) (gen : ℕ) (reason : ℕ)
    (hw : Sub 0x818010030048 W) (h : Keeps W r s) : Keeps W r (State.sowStatus s dst tag session gen reason) := by
  unfold State.sowStatus
  try dsimp only
  with_reducible repeat' first
      | exact h | exact hw.mono (by decide) | apply State.sendTo_keeps

theorem State.sowSend_keeps {W : Nat} {r s : State} (p : ℕ) (b : ℕ) (data : Bytes)
    (hw : Sub 0x18010130000 W) (h : Keeps W r s) : Keeps W r (State.sowSend s p b data) := by
  unfold State.sowSend
  try dsimp only
  with_reducible repeat' first
      | exact h | exact hw.mono (by decide) | apply State.sendLocal_keeps
      | fail_if_no_progress refine Keeps.upd hw ?_

theorem State.sowFeed_keeps {W : Nat} {r s : State} (p : ℕ)
    (hw : Sub 0x18010130000 W) (h : Keeps W r s) : Keeps W r (State.sowFeed s p) := by
  unfold State.sowFeed
  try dsimp only
  with_reducible repeat' first
      | exact h | assumption | exact hw.mono (by decide) | apply State.sowSend_keeps
      | refine Keeps.foldl (fun _ _ _ => ?_) _ ?_ | refine Keeps.foldlPair (fun _ _ _ => ?_) _ ?_
      | fail_if_no_progress refine Keeps.upd hw ?_ | refine Keeps.ite ?_ ?_

theorem State.sowReply_keeps {W : Nat} {r s : State} (src : Option (ℕ × ℕ)) (p : ℕ) (session : ℕ) (gen : ℕ) (block : ℕ) (lacking : ℕ) (part : Bool)
    (hw : Sub 0x818010030048 W) (h : Keeps W r s) : Keeps W r (State.sowReply s src p session gen block lacking part) := by
  unfold State.sowReply
  try dsimp only
  with_reducible repeat' first
      | exact h | exact hw.mono (by decide) | apply State.sendTo_keeps | dsimp only | split
      | apply State.sendLocal_keeps

theorem State.sowSettle_keeps {W : Nat} {r s : State} 
    (hw : Sub 0x818010130048 W) (h : Keeps W r s) : Keeps W r (State.sowSettle s) := by
  unfold State.sowSettle
  try dsimp only
  with_reducible repeat' first
      | exact h | assumption | exact hw.mono (by decide) | apply State.sowReply_keeps
      | refine Keeps.foldl (fun _ _ _ => ?_) _ ?_ | refine Keeps.foldlPair (fun _ _ _ => ?_) _ ?_
      | fail_if_no_progress refine Keeps.upd hw ?_

theorem State.sowAnswered_keeps {W : Nat} {r s : State} (b : ℕ) (p : ℕ) (lacking : ℕ) (part : Bool)
    (hw : Sub 0x100000 W) (h : Keeps W r s) : Keeps W r (State.sowAnswered s b p lacking part) := by
  unfold State.sowAnswered
  try dsimp only
  with_reducible repeat' first
      | exact h | exact hw.mono (by decide) | fail_if_no_progress refine Keeps.upd hw ?_

theorem State.sowLag_keeps {W : Nat} {r s : State} (p : ℕ)
    (hw : Sub 0xc18010130048 W) (h : Keeps W r s) : Keeps W r (State.sowLag s p) := by
  unfold State.sowLag
  try dsimp only
  with_reducible repeat' first
      | exact h | assumption | exact hw.mono (by decide) | apply State.report_keeps | apply State.orR_keeps
      | apply State.sowSettle_keeps | apply State.sowAnswered_keeps | refine Keeps.foldl (fun _ _ _ => ?_) _ ?_
      | refine Keeps.foldlPair (fun _ _ _ => ?_) _ ?_ | fail_if_no_progress refine Keeps.upd hw ?_
      | refine Keeps.ite ?_ ?_

theorem State.reportManifest_keeps {W : Nat} {r s : State} (m : Bytes)
    (hw : Sub 0x800010000048 W) (h : Keeps W r s) : Keeps W r (State.reportManifest s m).1 := by
  unfold State.reportManifest
  try dsimp only
  with_reducible repeat' first
      | exact h | exact hw.mono (by decide) | apply State.report_keeps | refine Keeps.ite ?_ ?_
      | refine Keeps.iteFst ?_ ?_ | dsimp only | split

theorem State.sowOpen_keeps {W : Nat} {r s : State} (session : ℕ) (m : Bytes)
    (hw : Sub 0xc00011900048 W) (h : Keeps W r s) : Keeps W r (State.sowOpen s session m).1 := by
  unfold State.sowOpen
  try dsimp only
  with_reducible repeat' first
      | exact h | exact hw.mono (by decide) | apply State.sramWrite_keeps | apply State.sowResume_keeps
      | apply State.wrF_keeps | apply State.reportManifest_keeps | apply State.sowNew_keeps | apply State.wr_keeps
      | fail_if_no_progress refine Keeps.upd hw ?_ | refine Keeps.ite ?_ ?_ | refine Keeps.iteFst ?_ ?_

theorem State.sowProgram_keeps {W : Nat} {r s : State} (b : ℕ) (data : Bytes)
    (hw : Sub 0x1900000 W) (h : Keeps W r s) : Keeps W r (State.sowProgram s b data) := by
  unfold State.sowProgram
  try dsimp only
  with_reducible repeat' first
      | exact h | exact hw.mono (by decide) | apply State.eraseSector_keeps | apply State.flashPut_keeps
      | refine Keeps.ite ?_ ?_ | fail_if_no_progress refine Keeps.upd hw ?_

theorem State.sowFromPort_keeps {W : Nat} {r s : State} (p : ℕ)
    (hw : Sub 0x100000 W) (h : Keeps W r s) : Keeps W r (State.sowFromPort s p) := by
  unfold State.sowFromPort
  try dsimp only
  with_reducible repeat' first
      | exact h | exact hw.mono (by decide) | fail_if_no_progress refine Keeps.upd hw ?_

theorem State.sowOwe_keeps {W : Nat} {r s : State} (o : SowOwed)
    (hw : Sub 0x100000 W) (h : Keeps W r s) : Keeps W r (State.sowOwe s o) := by
  unfold State.sowOwe
  try dsimp only
  with_reducible repeat' first
      | exact h | exact hw.mono (by decide) | fail_if_no_progress refine Keeps.upd hw ?_

theorem State.sowOnward_keeps {W : Nat} {r s : State} (b : ℕ) (data : Bytes) (q : ℕ)
    (hw : Sub 0x18010130000 W) (h : Keeps W r s) : Keeps W r (State.sowOnward s b data q) := by
  unfold State.sowOnward
  try dsimp only
  with_reducible repeat' first
      | exact h | exact hw.mono (by decide) | apply State.sowSend_keeps | fail_if_no_progress refine Keeps.upd hw ?_
      | refine Keeps.ite ?_ ?_

theorem State.sowBlock_keeps {W : Nat} {r s : State} (p : ℕ) (msg : Bytes)
    (hw : Sub 0xc18011930048 W) (h : Keeps W r s) : Keeps W r (State.sowBlock s p msg) := by
  unfold State.sowBlock
  try dsimp only
  with_reducible repeat' first
      | exact h | assumption | exact hw.mono (by decide) | apply State.report_keeps | apply State.sowReply_keeps
      | apply State.sowOpen_keeps | apply State.sowProgram_keeps | apply State.sowFromPort_keeps
      | apply State.sowOwe_keeps | apply State.sowSettle_keeps | apply State.sowOnward_keeps
      | refine Keeps.foldl (fun _ _ _ => ?_) _ ?_ | refine Keeps.foldlPair (fun _ _ _ => ?_) _ ?_
      | refine Keeps.ite ?_ ?_ | refine Keeps.iteFst ?_ ?_

theorem State.sowTouched_keeps {W : Nat} {r s : State} (g : ℕ)
    (hw : Sub 0x100000 W) (h : Keeps W r s) : Keeps W r (State.sowTouched s g) := by
  unfold State.sowTouched
  try dsimp only
  with_reducible repeat' first
      | exact h | exact hw.mono (by decide) | fail_if_no_progress refine Keeps.upd hw ?_

theorem State.sowProgrammed_keeps {W : Nat} {r s : State} (b : ℕ) (verified : Bool)
    (hw : Sub 0xc1801193004c W) (h : Keeps W r s) : Keeps W r (State.sowProgrammed s b verified) := by
  unfold State.sowProgrammed
  try dsimp only
  with_reducible repeat' first
      | exact h | exact hw.mono (by decide) | apply State.setSowBit_keeps | apply State.flashFail_keeps
      | apply State.tornFlash_keeps | apply State.report_keeps | apply State.wrF_keeps | apply State.sowSettle_keeps
      | fail_if_no_progress refine Keeps.upd hw ?_ | refine Keeps.ite ?_ ?_ | apply State.sowTouched_keeps

theorem State.sowAckIn_keeps {W : Nat} {r s : State} (p : ℕ) (msg : Bytes)
    (hw : Sub 0x818010130048 W) (h : Keeps W r s) : Keeps W r (State.sowAckIn s p msg) := by
  unfold State.sowAckIn
  try dsimp only
  with_reducible repeat' first
      | exact h | exact hw.mono (by decide) | apply State.sowAnswered_keeps | apply State.sowSettle_keeps
      | apply State.sowFeed_keeps

theorem State.sowResend_keeps {W : Nat} {r s : State} (p : ℕ) (b : ℕ)
    (hw : Sub 0xc18010130048 W) (h : Keeps W r s) : Keeps W r (State.sowResend s p b) := by
  unfold State.sowResend
  try dsimp only
  with_reducible repeat' first
      | exact h | exact hw.mono (by decide) | apply State.sendTo_keeps | apply State.sowLag_keeps
      | fail_if_no_progress refine Keeps.upd hw ?_ | refine Keeps.ite ?_ ?_ | dsimp only | split

theorem State.activate_keeps {W : Nat} {r s : State} 
    (hw : Sub 0x800010100068 W) (h : Keeps W r s) : Keeps W r (State.activate s) := by
  unfold State.activate
  try dsimp only
  with_reducible repeat' first
      | exact h | assumption | exact hw.mono (by decide) | apply State.actPut_keeps | apply State.requestStore_keeps
      | refine Keeps.foldl (fun _ _ _ => ?_) _ ?_ | refine Keeps.foldlPair (fun _ _ _ => ?_) _ ?_
      | fail_if_no_progress refine Keeps.upd hw ?_

theorem State.armChecked_keeps {W : Nat} {r s : State} (session : ℕ) (gen : ℕ) (frame : ℕ)
    (hw : Sub 0x800010000048 W) (h : Keeps W r s) : Keeps W r (State.armChecked s session gen frame).1 := by
  unfold State.armChecked
  try dsimp only
  with_reducible repeat' first
      | exact h | exact hw.mono (by decide) | apply State.reportManifest_keeps | refine Keeps.iteFst ?_ ?_
      | dsimp only | split | refine Keeps.fst (by assumption) ?_

theorem State.sowArm_keeps {W : Nat} {r s : State} (msg : Bytes)
    (hw : Sub 0x818010130068 W) (h : Keeps W r s) : Keeps W r (State.sowArm s msg) := by
  unfold State.sowArm
  try dsimp only
  with_reducible repeat' first
      | exact h | exact hw.mono (by decide) | apply State.armChecked_keeps | apply State.report_keeps
      | apply State.sowStatus_keeps | apply State.actPut_keeps | apply State.activate_keeps
      | apply State.requestStore_keeps | fail_if_no_progress refine Keeps.upd hw ?_ | refine Keeps.ite ?_ ?_
      | dsimp only | split | refine Keeps.fst (by assumption) ?_

theorem State.armDone_keeps {W : Nat} {r s : State} 
    (hw : Sub 0x818010130048 W) (h : Keeps W r s) : Keeps W r (State.armDone s) := by
  unfold State.armDone
  try dsimp only
  with_reducible repeat' first
      | exact h | exact hw.mono (by decide) | apply State.report_keeps | apply State.sowStatus_keeps
      | fail_if_no_progress refine Keeps.upd hw ?_ | dsimp only | split

theorem State.sowCancel_keeps {W : Nat} {r s : State} (msg : Bytes)
    (hw : Sub 0x800010100048 W) (h : Keeps W r s) : Keeps W r (State.sowCancel s msg) := by
  unfold State.sowCancel
  try dsimp only
  with_reducible repeat' first
      | exact h | exact hw.mono (by decide) | apply State.actPut_keeps | apply State.report_keeps
      | fail_if_no_progress refine Keeps.upd hw ?_ | refine Keeps.ite ?_ ?_

theorem State.sowQuery_keeps {W : Nat} {r s : State} (msg : Bytes)
    (hw : Sub 0x818010030048 W) (h : Keeps W r s) : Keeps W r (State.sowQuery s msg) := by
  unfold State.sowQuery
  try dsimp only
  with_reducible repeat' first
      | exact h | exact hw.mono (by decide) | apply State.sowStatus_keeps

theorem State.sowMessage_keeps {W : Nat} {r s : State} (p : ℕ) (msg : Bytes)
    (hw : Sub 0xc18011930068 W) (h : Keeps W r s) : Keeps W r (State.sowMessage s p msg) := by
  unfold State.sowMessage
  try dsimp only
  with_reducible repeat' first
      | exact h | exact hw.mono (by decide) | apply State.sowBlock_keeps | apply State.sowAckIn_keeps
      | apply State.sowQuery_keeps | apply State.sowArm_keeps | apply State.sowCancel_keeps | refine Keeps.ite ?_ ?_

theorem execSowBlockReceive_keeps {W : Nat} (port : Fin 4) (msg : Bytes) (s : State) (hw : Sub 0xc18011930048 W) :
    OutKeeps W s (execSowBlockReceive port msg s) := by
  unfold execSowBlockReceive
  have h := Keeps.refl W s
  try dsimp only [OutKeeps]
  with_reducible repeat' first
      | exact h | assumption | exact hw.mono (by decide)
      | refine State.oneCycle_keeps (fun _ _ _ => ?_) (hw.mono (by decide)) ?_ | apply State.sowBlock_keeps
      | apply State.noteSource_keeps

theorem execSowBlockProgrammed_keeps {W : Nat} (block : Fin 8704) (verified : Bool) (s : State) (hw : Sub 0xc1801193004c W) :
    OutKeeps W s (execSowBlockProgrammed block verified s) := by
  unfold execSowBlockProgrammed
  have h := Keeps.refl W s
  try dsimp only [OutKeeps]
  with_reducible repeat' first
      | exact h | assumption | exact hw.mono (by decide)
      | refine State.oneCycle_keeps (fun _ _ _ => ?_) (hw.mono (by decide)) ?_ | apply State.sowProgrammed_keeps

theorem execSowAckReceive_keeps {W : Nat} (port : Fin 4) (msg : Bytes) (s : State) (hw : Sub 0x818010130048 W) :
    OutKeeps W s (execSowAckReceive port msg s) := by
  unfold execSowAckReceive
  have h := Keeps.refl W s
  try dsimp only [OutKeeps]
  with_reducible repeat' first
      | exact h | exact hw.mono (by decide) | apply State.sowAckIn_keeps | apply State.noteSource_keeps

theorem execSowResendTimer_keeps {W : Nat} (port : Fin 4) (block : Fin 8704) (s : State) (hw : Sub 0xc18010130048 W) :
    OutKeeps W s (execSowResendTimer port block s) := by
  unfold execSowResendTimer
  have h := Keeps.refl W s
  try dsimp only [OutKeeps]
  with_reducible repeat' first
      | exact h | assumption | exact hw.mono (by decide)
      | refine State.oneCycle_keeps (fun _ _ _ => ?_) (hw.mono (by decide)) ?_ | apply State.sowResend_keeps

theorem execSowQueryReceive_keeps {W : Nat} (msg : Bytes) (s : State) (hw : Sub 0x818010030048 W) :
    OutKeeps W s (execSowQueryReceive msg s) := by
  unfold execSowQueryReceive
  have h := Keeps.refl W s
  try dsimp only [OutKeeps]
  with_reducible repeat' first
      | exact h | exact hw.mono (by decide) | apply State.sowQuery_keeps

theorem execSowArmReceive_keeps {W : Nat} (msg : Bytes) (s : State) (hw : Sub 0x818010130068 W) :
    OutKeeps W s (execSowArmReceive msg s) := by
  unfold execSowArmReceive
  have h := Keeps.refl W s
  try dsimp only [OutKeeps]
  with_reducible repeat' first
      | exact h | assumption | exact hw.mono (by decide)
      | refine State.oneCycle_keeps (fun _ _ _ => ?_) (hw.mono (by decide)) ?_ | apply State.sowArm_keeps

theorem execSowCancelReceive_keeps {W : Nat} (msg : Bytes) (s : State) (hw : Sub 0x800010100048 W) :
    OutKeeps W s (execSowCancelReceive msg s) := by
  unfold execSowCancelReceive
  have h := Keeps.refl W s
  try dsimp only [OutKeeps]
  with_reducible repeat' first
      | exact h | exact hw.mono (by decide) | apply State.sowCancel_keeps

/-! ### Lanes -/

theorem State.modLane_keeps {W : Nat} {r s : State} (l : ℕ) (f : Lane → Lane)
    (hw : Sub 0x10000 W) (h : Keeps W r s) : Keeps W r (State.modLane s l f) := by
  unfold State.modLane
  try dsimp only
  with_reducible repeat' first
      | exact h | exact hw.mono (by decide) | fail_if_no_progress refine Keeps.upd hw ?_

theorem State.setLanesBit_keeps {W : Nat} {r s : State} (p : ℕ) (mask : ℕ) (b : ℕ) (v : ℕ)
    (hw : Sub 0x8000000000 W) (h : Keeps W r s) : Keeps W r (State.setLanesBit s p mask b v) := by
  unfold State.setLanesBit
  try dsimp only
  with_reducible repeat' first
      | exact h | assumption | exact hw.mono (by decide)
      | exact hw.mono (by rw [regBit_lane _ _ (by decide)]; decide) | apply State.wrF_keeps
      | refine Keeps.foldl (fun _ _ _ => ?_) _ ?_

theorem State.setPortLanes_keeps {W : Nat} {r s : State} (p : ℕ) (k : ℕ) (v : ℕ)
    (hw : Sub 0x8000000000 W) (h : Keeps W r s) : Keeps W r (State.setPortLanes s p k v) := by
  unfold State.setPortLanes
  try dsimp only
  with_reducible repeat' first
      | exact h | exact hw.mono (by decide) | exact hw.mono (by rw [regBit_port _ _ (by decide)]; decide)
      | apply State.wrF_keeps

theorem State.setLne_keeps {W : Nat} {r s : State} (p : ℕ) (v : ℕ)
    (hw : Sub 0x8000000000 W) (h : Keeps W r s) : Keeps W r (State.setLne s p v) := by
  unfold State.setLne
  try dsimp only
  with_reducible repeat' first
      | exact h | exact hw.mono (by decide) | exact hw.mono (by rw [regBit_port _ _ (by decide)]; decide)
      | apply State.wrF_keeps

theorem State.trainFail_keeps {W : Nat} {r s : State} (p : ℕ)
    (hw : Sub 0x808010010048 W) (h : Keeps W r s) : Keeps W r (State.trainFail s p) := by
  unfold State.trainFail
  try dsimp only
  with_reducible repeat' first
      | exact h | exact hw.mono (by decide) | exact hw.mono (by rw [regBit_port _ _ (by decide)]; decide)
      | apply State.wrF_keeps | apply State.modPort_keeps | apply State.report_keeps | refine Keeps.ite ?_ ?_

theorem State.portClear_keeps {W : Nat} {r s : State} (p : ℕ)
    (hw : Sub 0x8000010000 W) (h : Keeps W r s) : Keeps W r (State.portClear s p) := by
  unfold State.portClear
  try dsimp only
  with_reducible repeat' first
      | exact h | assumption | exact hw.mono (by decide)
      | exact hw.mono (by rw [regBit_port _ _ (by decide)]; decide)
      | exact hw.mono (by rw [regBit_lane _ _ (by decide)]; decide) | apply State.wrF_keeps
      | apply State.setPortLanes_keeps | apply State.modLane_keeps | apply State.modPort_keeps
      | refine Keeps.foldl (fun _ _ _ => ?_) _ ?_

theorem State.enterDetect_keeps {W : Nat} {r s : State} (p : ℕ)
    (hw : Sub 0x8000010000 W) (h : Keeps W r s) : Keeps W r (State.enterDetect s p) := by
  unfold State.enterDetect
  try dsimp only
  with_reducible repeat' first
      | exact h | exact hw.mono (by decide) | apply State.setLne_keeps | apply State.portClear_keeps
      | apply State.modPort_keeps

theorem State.leaveActive_keeps {W : Nat} {r s : State} (p : ℕ) (reason : ℕ)
    (hw : Sub 0xc18010130048 W) (h : Keeps W r s) : Keeps W r (State.leaveActive s p reason) := by
  unfold State.leaveActive
  try dsimp only
  with_reducible repeat' first
      | exact h | exact hw.mono (by decide) | exact hw.mono (by rw [regBit_port _ _ (by decide)]; decide)
      | apply State.bump_keeps | apply State.wr_keeps | apply State.setLne_keeps | apply State.report_keeps
      | apply State.sowLag_keeps | apply State.linkDown_keeps | refine Keeps.ite ?_ ?_

theorem State.portDown_keeps {W : Nat} {r s : State} (p : ℕ) (reason : ℕ)
    (hw : Sub 0xc18010130048 W) (h : Keeps W r s) : Keeps W r (State.portDown s p reason) := by
  unfold State.portDown
  try dsimp only
  with_reducible repeat' first
      | exact h | exact hw.mono (by decide) | apply State.enterDetect_keeps | apply State.leaveActive_keeps

theorem State.portRetrain_keeps {W : Nat} {r s : State} (p : ℕ)
    (hw : Sub 0xc18010130048 W) (h : Keeps W r s) : Keeps W r (State.portRetrain s p) := by
  unfold State.portRetrain
  try dsimp only
  with_reducible repeat' first
      | exact h | exact hw.mono (by decide) | apply State.portDown_keeps | refine Keeps.ite ?_ ?_

theorem State.portSettle_keeps {W : Nat} {r s : State} (p : ℕ)
    (hw : Sub 0xc18010130048 W) (h : Keeps W r s) : Keeps W r (State.portSettle s p) := by
  unfold State.portSettle
  try dsimp only
  with_reducible repeat' first
      | exact h | exact hw.mono (by decide) | apply State.setLne_keeps | apply State.portClear_keeps
      | apply State.leaveActive_keeps | apply State.enterDetect_keeps | refine Keeps.ite ?_ ?_

theorem State.trainLost_keeps {W : Nat} {r s : State} (p : ℕ) (dropped : ℕ)
    (hw : Sub 0x808010010048 W) (h : Keeps W r s) : Keeps W r (State.trainLost s p dropped) := by
  unfold State.trainLost
  try dsimp only
  with_reducible repeat' first
      | exact h | exact hw.mono (by decide) | apply State.enterDetect_keeps | apply State.trainFail_keeps
      | apply State.report_keeps

theorem State.signalFound_keeps {W : Nat} {r s : State} (p : ℕ) (lanes : ℕ)
    (hw : Sub 0x8000010000 W) (h : Keeps W r s) : Keeps W r (State.signalFound s p lanes) := by
  unfold State.signalFound
  try dsimp only
  with_reducible repeat' first
      | exact h | exact hw.mono (by decide) | exact hw.mono (by rw [regBit_port _ _ (by decide)]; decide)
      | apply State.setLanesBit_keeps | apply State.wrF_keeps | apply State.setLne_keeps | apply State.modPort_keeps
      | refine Keeps.ite ?_ ?_

theorem State.attemptEnd_keeps {W : Nat} {r s : State} (p : ℕ)
    (hw : Sub 0x808010010048 W) (h : Keeps W r s) : Keeps W r (State.attemptEnd s p) := by
  unfold State.attemptEnd
  try dsimp only
  with_reducible repeat' first
      | exact h | exact hw.mono (by decide) | apply State.modPort_keeps | apply State.trainFail_keeps
      | refine Keeps.ite ?_ ?_

theorem State.eqSend_keeps {W : Nat} {r s : State} (l : ℕ) (answer : ℕ)
    (hw : Sub 0x10000000 W) (h : Keeps W r s) : Keeps W r (State.eqSend s l answer) := by
  unfold State.eqSend
  try dsimp only
  with_reducible repeat' first
      | exact h | exact hw.mono (by decide) | apply State.put_keeps

theorem State.enterEq_keeps {W : Nat} {r s : State} (p : ℕ) (locked : ℕ)
    (hw : Sub 0x8010010000 W) (h : Keeps W r s) : Keeps W r (State.enterEq s p locked) := by
  unfold State.enterEq
  try dsimp only
  with_reducible repeat' first
      | exact h | assumption | exact hw.mono (by decide) | exact hw.mono (by rw [regBit_lane _ _ (by decide)]; decide)
      | apply State.setLanesBit_keeps | apply State.setLne_keeps | apply State.wr_keeps | apply State.modPort_keeps
      | refine Keeps.foldl (fun _ _ _ => ?_) _ ?_ | apply State.eqSend_keeps

theorem State.eqRequest_keeps {W : Nat} {r s : State} (l : ℕ) (b : Bytes)
    (hw : Sub 0x8010010000 W) (h : Keeps W r s) : Keeps W r (State.eqRequest s l b) := by
  unfold State.eqRequest
  try dsimp only
  with_reducible repeat' first
      | exact h | exact hw.mono (by decide) | exact hw.mono (by rw [regBit_lane _ _ (by decide)]; decide)
      | apply State.wr_keeps | apply State.modLane_keeps | refine Keeps.ite ?_ ?_ | apply State.eqSend_keeps

theorem State.histogram_keeps {W : Nat} {r s : State} (l : ℕ) (h' : List ℕ) (ctle : ℕ) (dfe : ℕ) (taps : List ℕ)
    (hw : Sub 0x8010010000 W) (h : Keeps W r s) : Keeps W r (State.histogram s l h' ctle dfe taps) := by
  unfold State.histogram
  try dsimp only
  with_reducible repeat' first
      | exact h | assumption | assumption | exact hw.mono (by decide)
      | exact hw.mono (by rw [regBit_lane _ _ (by decide)]; decide) | apply State.wrF_keeps | apply State.wr_keeps
      | apply State.modLane_keeps | refine Keeps.ite ?_ ?_ | apply State.eqSend_keeps

theorem State.enterAlign_keeps {W : Nat} {r s : State} (p : ℕ) (keep : ℕ)
    (hw : Sub 0x8000010000 W) (h : Keeps W r s) : Keeps W r (State.enterAlign s p keep) := by
  unfold State.enterAlign
  try dsimp only
  with_reducible repeat' first
      | exact h | assumption | exact hw.mono (by decide)
      | exact hw.mono (by rw [regBit_lane _ _ (by decide)]; decide) | apply State.modPort_keeps
      | apply State.setLne_keeps | apply State.setLanesBit_keeps | apply State.setPortLanes_keeps
      | apply State.wrF_keeps | refine Keeps.foldl (fun _ _ _ => ?_) _ ?_

theorem State.eqDone_keeps {W : Nat} {r s : State} (p : ℕ)
    (hw : Sub 0x8000010000 W) (h : Keeps W r s) : Keeps W r (State.eqDone s p) := by
  unfold State.eqDone
  try dsimp only
  with_reducible repeat' first
      | exact h | exact hw.mono (by decide) | apply State.enterAlign_keeps | refine Keeps.ite ?_ ?_

theorem State.eqTimeout_keeps {W : Nat} {r s : State} (p : ℕ)
    (hw : Sub 0x808010010048 W) (h : Keeps W r s) : Keeps W r (State.eqTimeout s p) := by
  unfold State.eqTimeout
  try dsimp only
  with_reducible repeat' first
      | exact h | exact hw.mono (by decide) | apply State.trainLost_keeps | apply State.enterAlign_keeps
      | apply State.report_keeps | refine Keeps.ite ?_ ?_

theorem State.handshakeOut_keeps {W : Nat} {r s : State} (p : ℕ) (ack : Bool)
    (hw : Sub 0x10010000 W) (h : Keeps W r s) : Keeps W r (State.handshakeOut s p ack) := by
  unfold State.handshakeOut
  try dsimp only
  with_reducible repeat' first
      | exact h | exact hw.mono (by decide) | apply State.put_keeps | apply State.modPort_keeps

theorem State.enterHandshake_keeps {W : Nat} {r s : State} (p : ℕ) (keep : ℕ) (precode : ℕ)
    (hw : Sub 0x8010010000 W) (h : Keeps W r s) : Keeps W r (State.enterHandshake s p keep precode) := by
  unfold State.enterHandshake
  try dsimp only
  with_reducible repeat' first
      | exact h | exact hw.mono (by decide) | apply State.setPortLanes_keeps | apply State.setLne_keeps
      | apply State.setLanesBit_keeps | apply State.modPort_keeps | apply State.handshakeOut_keeps

theorem State.alignDone_keeps {W : Nat} {r s : State} (p : ℕ) (aligned : ℕ) (precode : ℕ)
    (hw : Sub 0x8010010000 W) (h : Keeps W r s) : Keeps W r (State.alignDone s p aligned precode) := by
  unfold State.alignDone
  try dsimp only
  with_reducible repeat' first
      | exact h | exact hw.mono (by decide) | apply State.enterHandshake_keeps | refine Keeps.ite ?_ ?_

theorem State.alignTimeout_keeps {W : Nat} {r s : State} (p : ℕ) (aligned : ℕ) (precode : ℕ)
    (hw : Sub 0x808010010048 W) (h : Keeps W r s) : Keeps W r (State.alignTimeout s p aligned precode) := by
  unfold State.alignTimeout
  try dsimp only
  with_reducible repeat' first
      | exact h | exact hw.mono (by decide) | apply State.trainLost_keeps | apply State.enterHandshake_keeps
      | apply State.report_keeps | refine Keeps.ite ?_ ?_

theorem State.enterActive_keeps {W : Nat} {r s : State} (p : ℕ)
    (hw : Sub 0x818210130248 W) (h : Keeps W r s) : Keeps W r (State.enterActive s p) := by
  unfold State.enterActive
  try dsimp only
  with_reducible repeat' first
      | exact h | assumption | exact hw.mono (by decide) | exact hw.mono (by rw [regBit_port _ _ (by decide)]; decide)
      | exact hw.mono (by rw [regBit_lane _ _ (by decide)]; decide) | apply State.wrF_keeps | apply State.setLne_keeps
      | apply State.setPortLanes_keeps | apply State.wr_keeps | apply State.modPort_keeps | apply State.report_keeps
      | apply State.syncStart_keeps | apply State.modLnk_keeps | refine Keeps.foldl (fun _ _ _ => ?_) _ ?_
      | refine Keeps.foldlPair (fun _ _ _ => ?_) _ ?_ | fail_if_no_progress refine Keeps.upd hw ?_
      | refine Keeps.ite ?_ ?_

theorem State.refusePeer_keeps {W : Nat} {r s : State} (p : ℕ) (reason : ℕ)
    (hw : Sub 0x808010010048 W) (h : Keeps W r s) : Keeps W r (State.refusePeer s p reason) := by
  unfold State.refusePeer
  try dsimp only
  with_reducible repeat' first
      | exact h | exact hw.mono (by decide) | exact hw.mono (by rw [regBit_port _ _ (by decide)]; decide)
      | apply State.report_keeps | apply State.wrF_keeps | apply State.handshakeOut_keeps | refine Keeps.ite ?_ ?_

theorem State.handshake_keeps {W : Nat} {r s : State} (p : ℕ) (b : Bytes)
    (hw : Sub 0x818210130248 W) (h : Keeps W r s) : Keeps W r (State.handshake s p b) := by
  unfold State.handshake
  try dsimp only
  with_reducible repeat' first
      | exact h | exact hw.mono (by decide) | exact hw.mono (by rw [regBit_port _ _ (by decide)]; decide)
      | apply State.handshakeOut_keeps | apply State.setLne_keeps | apply State.wr_keeps
      | apply State.refusePeer_keeps | apply State.wrF_keeps | apply State.modPort_keeps
      | apply State.enterActive_keeps | refine Keeps.ite ?_ ?_

theorem State.handshakeSilence_keeps {W : Nat} {r s : State} (p : ℕ)
    (hw : Sub 0x808010010048 W) (h : Keeps W r s) : Keeps W r (State.handshakeSilence s p) := by
  unfold State.handshakeSilence
  try dsimp only
  with_reducible repeat' first
      | exact h | exact hw.mono (by decide) | exact hw.mono (by rw [regBit_port _ _ (by decide)]; decide)
      | apply State.modPort_keeps | apply State.report_keeps | apply State.wrF_keeps | refine Keeps.ite ?_ ?_

theorem State.silentRetry_keeps {W : Nat} {r s : State} (p : ℕ)
    (hw : Sub 0x8000000000 W) (h : Keeps W r s) : Keeps W r (State.silentRetry s p) := by
  unfold State.silentRetry
  try dsimp only
  with_reducible repeat' first
      | exact h | exact hw.mono (by decide)
      | apply State.setLne_keeps | refine Keeps.ite ?_ ?_

theorem State.failIfTraining_keeps {W : Nat} {r s : State} (p : ℕ)
    (hw : Sub 0x808010010048 W) (h : Keeps W r s) : Keeps W r (State.failIfTraining s p) := by
  unfold State.failIfTraining
  try dsimp only
  with_reducible repeat' first
      | exact h | exact hw.mono (by decide) | apply State.trainFail_keeps | refine Keeps.ite ?_ ?_

theorem State.lossOfSignal_keeps {W : Nat} {r s : State} (p : ℕ) (i : ℕ)
    (hw : Sub 0xc18010130048 W) (h : Keeps W r s) : Keeps W r (State.lossOfSignal s p i) := by
  unfold State.lossOfSignal
  try dsimp only
  with_reducible repeat' first
      | exact h | exact hw.mono (by decide) | apply State.portDown_keeps | apply State.enterDetect_keeps
      | apply State.failIfTraining_keeps | apply State.report_keeps | refine Keeps.ite ?_ ?_

theorem State.modPanel_keeps {W : Nat} {r s : State} (m : ℕ) (f : PanelLane → PanelLane)
    (hw : Sub 0x10000 W) (h : Keeps W r s) : Keeps W r (State.modPanel s m f) := by
  unfold State.modPanel
  try dsimp only
  with_reducible repeat' first
      | exact h | exact hw.mono (by decide) | fail_if_no_progress refine Keeps.upd hw ?_

theorem State.setPl_keeps {W : Nat} {r s : State} (m : ℕ) (v : ℕ)
    (hw : Sub 0x8000000000 W) (h : Keeps W r s) : Keeps W r (State.setPl s m v) := by
  unfold State.setPl
  try dsimp only
  with_reducible repeat' first
      | exact h | exact hw.mono (by decide) | exact hw.mono (by rw [regBit_panel _ _ (by decide)]; decide)
      | apply State.wrF_keeps

theorem State.plStart_keeps {W : Nat} {r s : State} (m : ℕ)
    (hw : Sub 0x8000010000 W) (h : Keeps W r s) : Keeps W r (State.plStart s m) := by
  unfold State.plStart
  try dsimp only
  with_reducible repeat' first
      | exact h | exact hw.mono (by decide) | apply State.modPanel_keeps | apply State.setPl_keeps
      | refine Keeps.ite ?_ ?_

theorem State.plFail_keeps {W : Nat} {r s : State} (m : ℕ) (reason : ℕ)
    (hw : Sub 0x808010010048 W) (h : Keeps W r s) : Keeps W r (State.plFail s m reason) := by
  unfold State.plFail
  try dsimp only
  with_reducible repeat' first
      | exact h | exact hw.mono (by decide) | exact hw.mono (by rw [regBit_panel _ _ (by decide)]; decide)
      | apply State.bump_keeps | apply State.setPl_keeps | apply State.modPanel_keeps | apply State.wrF_keeps
      | apply State.report_keeps | refine Keeps.ite ?_ ?_

theorem State.plLeave_keeps {W : Nat} {r s : State} (m : ℕ) (reason : ℕ)
    (hw : Sub 0x808010010048 W) (h : Keeps W r s) : Keeps W r (State.plLeave s m reason) := by
  unfold State.plLeave
  try dsimp only
  with_reducible repeat' first
      | exact h | exact hw.mono (by decide) | exact hw.mono (by rw [regBit_lane _ _ (by decide)]; decide)
      | exact hw.mono (by rw [regBit_panel _ _ (by decide)]; decide) | apply State.wr_keeps | apply State.bump_keeps
      | apply State.setPl_keeps | apply State.modPanel_keeps | apply State.report_keeps | refine Keeps.ite ?_ ?_

theorem State.plTransmit_keeps {W : Nat} {r s : State} (m : ℕ)
    (hw : Sub 0x8000000000 W) (h : Keeps W r s) : Keeps W r (State.plTransmit s m) := by
  unfold State.plTransmit
  try dsimp only
  with_reducible repeat' first
      | exact h | exact hw.mono (by decide) | exact hw.mono (by rw [regBit_lane _ _ (by decide)]; decide)
      | apply State.wrF_keeps | apply State.wr_keeps

theorem State.plTrainDone_keeps {W : Nat} {r s : State} (m : ℕ)
    (hw : Sub 0x808010010048 W) (h : Keeps W r s) : Keeps W r (State.plTrainDone s m) := by
  unfold State.plTrainDone
  try dsimp only
  with_reducible repeat' first
      | exact h | exact hw.mono (by decide) | exact hw.mono (by rw [regBit_lane _ _ (by decide)]; decide)
      | exact hw.mono (by rw [regBit_panel _ _ (by decide)]; decide) | apply State.plTransmit_keeps
      | apply State.modPanel_keeps | apply State.setPl_keeps | apply State.wr_keeps | apply State.wrF_keeps
      | apply State.report_keeps | refine Keeps.ite ?_ ?_

theorem State.plStatus_keeps {W : Nat} {r s : State} (m : ℕ)
    (hw : Sub 0x8000010000 W) (h : Keeps W r s) : Keeps W r (State.plStatus s m) := by
  unfold State.plStatus
  try dsimp only
  with_reducible repeat' first
      | exact h | exact hw.mono (by decide) | exact hw.mono (by rw [regBit_panel _ _ (by decide)]; decide)
      | apply State.wrF_keeps | apply State.modPanel_keeps | refine Keeps.ite ?_ ?_

theorem State.plTrainTimeout_keeps {W : Nat} {r s : State} (m : ℕ)
    (hw : Sub 0x808010010048 W) (h : Keeps W r s) : Keeps W r (State.plTrainTimeout s m) := by
  unfold State.plTrainTimeout
  try dsimp only
  with_reducible repeat' first
      | exact h | exact hw.mono (by decide) | apply State.plFail_keeps | refine Keeps.ite ?_ ?_

theorem State.panelTests_keeps {W : Nat} {r s : State} 
    (hw : Sub 0x808010010048 W) (h : Keeps W r s) : Keeps W r (State.panelTests s) := by
  unfold State.panelTests
  try dsimp only
  with_reducible repeat' first
      | exact h | assumption | exact hw.mono (by decide) | apply State.plLeave_keeps | apply State.modPanel_keeps
      | apply State.setPl_keeps | refine Keeps.foldl (fun _ _ _ => ?_) _ ?_
      | refine Keeps.foldlPair (fun _ _ _ => ?_) _ ?_ | refine Keeps.ite ?_ ?_

theorem State.markWeak_keeps {W : Nat} {r s : State} (l : ℕ)
    (hw : Sub 0x80800c000048 W) (h : Keeps W r s) : Keeps W r (State.markWeak s l) := by
  unfold State.markWeak
  try dsimp only
  with_reducible repeat' first
      | exact h | exact hw.mono (by decide) | exact hw.mono (by rw [regBit_lane _ _ (by decide)]; decide)
      | apply State.queueTest_keeps | apply State.wrF_keeps

theorem State.fecUncorrectable_keeps {W : Nat} {r s : State} (l : ℕ)
    (hw : Sub 0xc1801c130048 W) (h : Keeps W r s) : Keeps W r (State.fecUncorrectable s l) := by
  unfold State.fecUncorrectable
  try dsimp only
  with_reducible repeat' first
      | exact h | exact hw.mono (by decide) | exact hw.mono (by rw [regBit_lane _ _ (by decide)]; decide)
      | apply State.bump_keeps | apply State.report_keeps | apply State.modLane_keeps | apply State.markWeak_keeps
      | apply State.portDown_keeps | apply State.failIfTraining_keeps | fail_if_no_progress refine Keeps.upd hw ?_
      | refine Keeps.ite ?_ ?_

theorem State.correctedSymbols_keeps {W : Nat} {r s : State} (l : ℕ) (n : ℕ)
    (hw : Sub 0x80801c000048 W) (h : Keeps W r s) : Keeps W r (State.correctedSymbols s l n) := by
  unfold State.correctedSymbols
  try dsimp only
  with_reducible repeat' first
      | exact h | exact hw.mono (by decide) | exact hw.mono (by rw [regBit_lane _ _ (by decide)]; decide)
      | apply State.bumpBy_keeps | apply State.report_keeps | apply State.markWeak_keeps | refine Keeps.ite ?_ ?_

theorem State.laneTestDone_keeps {W : Nat} {r s : State} (l : ℕ) (errors : ℕ)
    (hw : Sub 0x808098010048 W) (h : Keeps W r s) : Keeps W r (State.laneTestDone s l errors) := by
  unfold State.laneTestDone
  try dsimp only
  with_reducible repeat' first
      | exact h | exact hw.mono (by decide) | exact hw.mono (by rw [regBit_lane _ _ (by decide)]; decide)
      | apply State.testResult_keeps | apply State.wr_keeps | apply State.wrF_keeps | apply State.setPortLanes_keeps
      | apply State.modPort_keeps | apply State.plStart_keeps | apply State.modPanel_keeps | refine Keeps.ite ?_ ?_

theorem State.clearExclude_keeps {W : Nat} {r s : State} (p : ℕ)
    (hw : Sub 0x8000000000 W) (h : Keeps W r s) : Keeps W r (State.clearExclude s p) := by
  unfold State.clearExclude
  try dsimp only
  with_reducible repeat' first
      | exact h | exact hw.mono (by decide) | apply State.setPortLanes_keeps | apply State.setLanesBit_keeps

theorem State.laneTestReq_keeps {W : Nat} {r s : State} (v : ℕ)
    (hw : Sub 0x80000c000048 W) (h : Keeps W r s) : Keeps W r (State.laneTestReq s v) := by
  unfold State.laneTestReq
  try dsimp only
  with_reducible repeat' first
      | exact h | exact hw.mono (by decide) | apply State.queueTest_keeps | refine Keeps.ite ?_ ?_

theorem State.setRxPower_keeps {W : Nat} {r s : State} (p : ℕ) (v : ℕ)
    (hw : Sub 0x8000000000 W) (h : Keeps W r s) : Keeps W r (State.setRxPower s p v) := by
  unfold State.setRxPower
  try dsimp only
  with_reducible repeat' first
      | exact h | exact hw.mono (by decide) | exact hw.mono (by rw [regBit_port _ _ (by decide)]; decide)
      | apply State.wrF_keeps

theorem State.quietRequest_keeps {W : Nat} {r s : State} (p : ℕ)
    (hw : Sub 0x10010000 W) (h : Keeps W r s) : Keeps W r (State.quietRequest s p) := by
  unfold State.quietRequest
  try dsimp only
  with_reducible repeat' first
      | exact h | exact hw.mono (by decide) | apply State.modPort_keeps | apply State.put_keeps
      | refine Keeps.ite ?_ ?_

theorem State.sleepRequest_keeps {W : Nat} {r s : State} (p : ℕ)
    (hw : Sub 0x10010000 W) (h : Keeps W r s) : Keeps W r (State.sleepRequest s p) := by
  unfold State.sleepRequest
  try dsimp only
  with_reducible repeat' first
      | exact h | exact hw.mono (by decide) | apply State.modPort_keeps | apply State.put_keeps
      | refine Keeps.ite ?_ ?_

theorem State.txResume_keeps {W : Nat} {r s : State} (p : ℕ)
    (hw : Sub 0x18010030000 W) (h : Keeps W r s) : Keeps W r (State.txResume s p) := by
  unfold State.txResume
  try dsimp only
  with_reducible repeat' first
      | exact h | exact hw.mono (by decide) | exact hw.mono (by rw [regBit_port _ _ (by decide)]; decide)
      | apply State.modPort_keeps | apply State.pump_keeps | apply State.sendDue_keeps | apply State.wrF_keeps

theorem State.wakeRequest_keeps {W : Nat} {r s : State} (p : ℕ)
    (hw : Sub 0x18010030000 W) (h : Keeps W r s) : Keeps W r (State.wakeRequest s p) := by
  unfold State.wakeRequest
  try dsimp only
  with_reducible repeat' first
      | exact h | exact hw.mono (by decide) | apply State.txResume_keeps | apply State.wakeTx_keeps
      | refine Keeps.ite ?_ ?_

theorem State.txEntryDone_keeps {W : Nat} {r s : State} (p : ℕ)
    (hw : Sub 0x18010030000 W) (h : Keeps W r s) : Keeps W r (State.txEntryDone s p) := by
  unfold State.txEntryDone
  try dsimp only
  with_reducible repeat' first
      | exact h | exact hw.mono (by decide) | exact hw.mono (by rw [regBit_port _ _ (by decide)]; decide)
      | apply State.wrF_keeps | apply State.modPort_keeps | apply State.txResume_keeps | refine Keeps.ite ?_ ?_

theorem State.residencyEnd_keeps {W : Nat} {r s : State} (p : ℕ)
    (hw : Sub 0x10000 W) (h : Keeps W r s) : Keeps W r (State.residencyEnd s p) := by
  unfold State.residencyEnd
  try dsimp only
  with_reducible repeat' first
      | exact h | exact hw.mono (by decide) | apply State.modPort_keeps | refine Keeps.ite ?_ ?_

theorem State.livenessWake_keeps {W : Nat} {r s : State} (p : ℕ)
    (hw : Sub 0x8000010000 W) (h : Keeps W r s) : Keeps W r (State.livenessWake s p) := by
  unfold State.livenessWake
  try dsimp only
  with_reducible repeat' first
      | exact h | exact hw.mono (by decide) | apply State.wakeTx_keeps | apply State.modPort_keeps
      | refine Keeps.ite ?_ ?_

theorem State.wakeFail_keeps {W : Nat} {r s : State} (p : ℕ)
    (hw : Sub 0xc18010130048 W) (h : Keeps W r s) : Keeps W r (State.wakeFail s p) := by
  unfold State.wakeFail
  try dsimp only
  with_reducible repeat' first
      | exact h | exact hw.mono (by decide) | apply State.portDown_keeps | apply State.report_keeps

theorem State.prbsUpdate_keeps {W : Nat} {r s : State} (l : ℕ)
    (hw : Sub 0x8000010000 W) (h : Keeps W r s) : Keeps W r (State.prbsUpdate s l) := by
  unfold State.prbsUpdate
  try dsimp only
  with_reducible repeat' first
      | exact h | exact hw.mono (by decide) | exact hw.mono (by rw [regBit_lane _ _ (by decide)]; decide)
      | apply State.wrF_keeps | apply State.modLane_keeps

theorem State.prbsClear_keeps {W : Nat} {r s : State} (l : ℕ)
    (hw : Sub 0x8000010000 W) (h : Keeps W r s) : Keeps W r (State.prbsClear s l) := by
  unfold State.prbsClear
  try dsimp only
  with_reducible repeat' first
      | exact h | exact hw.mono (by decide) | exact hw.mono (by rw [regBit_lane _ _ (by decide)]; decide)
      | apply State.modLane_keeps | apply State.wr_keeps | refine Keeps.ite ?_ ?_

theorem State.prbsInject_keeps {W : Nat} {r s : State} (l : ℕ)
    (hw : Sub 0x8010000000 W) (h : Keeps W r s) : Keeps W r (State.prbsInject s l) := by
  unfold State.prbsInject
  try dsimp only
  with_reducible repeat' first
      | exact h | exact hw.mono (by decide) | exact hw.mono (by rw [regBit_lane _ _ (by decide)]; decide)
      | apply State.put_keeps | apply State.bump_keeps | refine Keeps.ite ?_ ?_

theorem State.prbsCtrl_keeps {W : Nat} {r s : State} (l : ℕ) (v : ℕ)
    (hw : Sub 0x8010010000 W) (h : Keeps W r s) : Keeps W r (State.prbsCtrl s l v) := by
  unfold State.prbsCtrl
  try dsimp only
  with_reducible repeat' first
      | exact h | exact hw.mono (by decide) | exact hw.mono (by rw [regBit_lane _ _ (by decide)]; decide)
      | apply State.prbsUpdate_keeps | apply State.regWrite_keeps | apply State.prbsClear_keeps
      | apply State.prbsInject_keeps | refine Keeps.ite ?_ ?_

theorem State.loopWrite_keeps {W : Nat} {r s : State} (l : ℕ) (v : ℕ)
    (hw : Sub 0x8010010000 W) (h : Keeps W r s) : Keeps W r (State.loopWrite s l v) := by
  unfold State.loopWrite
  try dsimp only
  with_reducible repeat' first
      | exact h | exact hw.mono (by decide) | exact hw.mono (by rw [regBit_lane _ _ (by decide)]; decide)
      | apply State.prbsUpdate_keeps | apply State.wr_keeps | apply State.put_keeps | refine Keeps.ite ?_ ?_

theorem State.modeWrite_keeps {W : Nat} {r s : State} (p : ℕ) (test : Bool)
    (hw : Sub 0xc18010130058 W) (h : Keeps W r s) : Keeps W r (State.modeWrite s p test) := by
  unfold State.modeWrite
  try dsimp only
  with_reducible repeat' first
      | exact h | exact hw.mono (by decide) | exact hw.mono (by rw [regBit_port _ _ (by decide)]; decide)
      | apply State.claim_keeps | apply State.portSettle_keeps | apply State.wrF_keeps | apply State.unclaim_keeps
      | refine Keeps.ite ?_ ?_

theorem State.enableWrite_keeps {W : Nat} {r s : State} (p : ℕ) (v : Bool)
    (hw : Sub 0xc18010130048 W) (h : Keeps W r s) : Keeps W r (State.enableWrite s p v) := by
  unfold State.enableWrite
  try dsimp only
  with_reducible repeat' first
      | exact h | exact hw.mono (by decide) | exact hw.mono (by rw [regBit_port _ _ (by decide)]; decide)
      | apply State.portSettle_keeps | apply State.wrF_keeps | refine Keeps.ite ?_ ?_

theorem State.portCtrl_keeps {W : Nat} {r s : State} (p : ℕ) (v : ℕ)
    (hw : Sub 0xc18010130058 W) (h : Keeps W r s) : Keeps W r (State.portCtrl s p v) := by
  unfold State.portCtrl
  try dsimp only
  with_reducible repeat' first
      | exact h | exact hw.mono (by decide) | exact hw.mono (by rw [regBit_port _ _ (by decide)]; decide)
      | apply State.wrF_keeps | apply State.clearExclude_keeps | apply State.modeWrite_keeps
      | apply State.enableWrite_keeps | apply State.portRetrain_keeps | refine Keeps.ite ?_ ?_

theorem State.feRequest_keeps {W : Nat} {r s : State} (l : ℕ) (b : Bytes)
    (hw : Sub 0x800010010048 W) (h : Keeps W r s) : Keeps W r (State.feRequest s l b) := by
  unfold State.feRequest
  try dsimp only
  with_reducible repeat' first
      | exact h | exact hw.mono (by decide) | apply State.report_keeps | apply State.modLane_keeps
      | refine Keeps.ite ?_ ?_

theorem State.feEnd_keeps {W : Nat} {r s : State} (l : ℕ)
    (hw : Sub 0xc18010130048 W) (h : Keeps W r s) : Keeps W r (State.feEnd s l) := by
  unfold State.feEnd
  try dsimp only
  with_reducible repeat' first
      | exact h | exact hw.mono (by decide) | apply State.modLane_keeps | apply State.portDown_keeps
      | apply State.failIfTraining_keeps | apply State.report_keeps | refine Keeps.ite ?_ ?_

theorem State.plRetrain_keeps {W : Nat} {r s : State} (m : ℕ)
    (hw : Sub 0x808010010048 W) (h : Keeps W r s) : Keeps W r (State.plRetrain s m) := by
  unfold State.plRetrain
  try dsimp only
  with_reducible repeat' first
      | exact h | exact hw.mono (by decide) | apply State.plStart_keeps | apply State.plLeave_keeps
      | refine Keeps.ite ?_ ?_

theorem State.plCtrl_keeps {W : Nat} {r s : State} (m : ℕ) (v : ℕ)
    (hw : Sub 0x808010010048 W) (h : Keeps W r s) : Keeps W r (State.plCtrl s m v) := by
  unfold State.plCtrl
  try dsimp only
  with_reducible repeat' first
      | exact h | exact hw.mono (by decide) | exact hw.mono (by rw [regBit_panel _ _ (by decide)]; decide)
      | apply State.wr_keeps | apply State.setPl_keeps | apply State.plLeave_keeps | apply State.plStart_keeps
      | apply State.plRetrain_keeps | refine Keeps.ite ?_ ?_

theorem execLaneSignalDetect_keeps {W : Nat} (port : Fin 4) (lanes : BitVec 8) (s : State) (hw : Sub 0x8000010000 W) :
    OutKeeps W s (execLaneSignalDetect port lanes s) := by
  unfold execLaneSignalDetect
  have h := Keeps.refl W s
  try dsimp only [OutKeeps]
  with_reducible repeat' first
      | exact h | exact hw.mono (by decide) | apply State.signalFound_keeps

theorem execTrainAttemptEnd_keeps {W : Nat} (port : Fin 4) (s : State) (hw : Sub 0x808010010048 W) :
    OutKeeps W s (execTrainAttemptEnd port s) := by
  unfold execTrainAttemptEnd
  have h := Keeps.refl W s
  try dsimp only [OutKeeps]
  with_reducible repeat' first
      | exact h | exact hw.mono (by decide) | apply State.attemptEnd_keeps

theorem execTrainBackoffEnd_keeps {W : Nat} (port : Fin 4) (s : State) (hw : Sub 0x10000 W) :
    OutKeeps W s (execTrainBackoffEnd port s) := by
  unfold execTrainBackoffEnd
  have h := Keeps.refl W s
  try dsimp only [OutKeeps]
  with_reducible repeat' first
      | exact h | exact hw.mono (by decide) | apply State.modPort_keeps

theorem execWakeLock_keeps {W : Nat} (port : Fin 4) (lanes : BitVec 8) (s : State) (hw : Sub 0x8010010000 W) :
    OutKeeps W s (execWakeLock port lanes s) := by
  unfold execWakeLock
  have h := Keeps.refl W s
  try dsimp only [OutKeeps]
  with_reducible repeat' first
      | exact h | exact hw.mono (by decide) | apply State.enterEq_keeps | refine Keeps.ite ?_ ?_

theorem execWakeTimeout_keeps {W : Nat} (port : Fin 4) (s : State) (hw : Sub 0x808010010048 W) :
    OutKeeps W s (execWakeTimeout port s) := by
  unfold execWakeTimeout
  have h := Keeps.refl W s
  try dsimp only [OutKeeps]
  with_reducible repeat' first
      | exact h | assumption | exact hw.mono (by decide)
      | refine State.oneCycle_keeps (fun _ _ _ => ?_) (hw.mono (by decide)) ?_ | apply State.trainLost_keeps
      | refine Keeps.ite ?_ ?_

theorem execEqRequestReceive_keeps {W : Nat} (lane : Fin 32) (block : Bytes) (s : State) (hw : Sub 0x8010010000 W) :
    OutKeeps W s (execEqRequestReceive lane block s) := by
  unfold execEqRequestReceive
  have h := Keeps.refl W s
  try dsimp only [OutKeeps]
  with_reducible repeat' first
      | exact h | exact hw.mono (by decide) | apply State.eqRequest_keeps

theorem execFomHistogramDone_keeps {W : Nat} (lane : Fin 50) (counts : List ℕ) (ctle : BitVec 4) (dfe : BitVec 8) (taps : List (BitVec 10)) (s : State) (hw : Sub 0x8010010000 W) :
    OutKeeps W s (execFomHistogramDone lane counts ctle dfe taps s) := by
  unfold execFomHistogramDone
  have h := Keeps.refl W s
  try dsimp only [OutKeeps]
  with_reducible repeat' first
      | exact h | exact hw.mono (by decide) | apply State.histogram_keeps

theorem execEqDone_keeps {W : Nat} (port : Fin 4) (s : State) (hw : Sub 0x8000010000 W) :
    OutKeeps W s (execEqDone port s) := by
  unfold execEqDone
  have h := Keeps.refl W s
  try dsimp only [OutKeeps]
  with_reducible repeat' first
      | exact h | exact hw.mono (by decide) | apply State.eqDone_keeps

theorem execEqTimeout_keeps {W : Nat} (port : Fin 4) (s : State) (hw : Sub 0x808010010048 W) :
    OutKeeps W s (execEqTimeout port s) := by
  unfold execEqTimeout
  have h := Keeps.refl W s
  try dsimp only [OutKeeps]
  with_reducible repeat' first
      | exact h | assumption | exact hw.mono (by decide)
      | refine State.oneCycle_keeps (fun _ _ _ => ?_) (hw.mono (by decide)) ?_ | apply State.eqTimeout_keeps

theorem execAlignDone_keeps {W : Nat} (port : Fin 4) (lanes : AlignLanes) (s : State) (hw : Sub 0x8010010000 W) :
    OutKeeps W s (execAlignDone port lanes s) := by
  unfold execAlignDone
  have h := Keeps.refl W s
  try dsimp only [OutKeeps]
  with_reducible repeat' first
      | exact h | exact hw.mono (by decide) | apply State.alignDone_keeps

theorem execAlignTimeout_keeps {W : Nat} (port : Fin 4) (lanes : AlignLanes) (s : State) (hw : Sub 0x808010010048 W) :
    OutKeeps W s (execAlignTimeout port lanes s) := by
  unfold execAlignTimeout
  have h := Keeps.refl W s
  try dsimp only [OutKeeps]
  with_reducible repeat' first
      | exact h | assumption | exact hw.mono (by decide)
      | refine State.oneCycle_keeps (fun _ _ _ => ?_) (hw.mono (by decide)) ?_ | apply State.alignTimeout_keeps

theorem execHandshakeReceive_keeps {W : Nat} (port : Fin 4) (block : Bytes) (s : State) (hw : Sub 0x818210130248 W) :
    OutKeeps W s (execHandshakeReceive port block s) := by
  unfold execHandshakeReceive
  have h := Keeps.refl W s
  try dsimp only [OutKeeps]
  with_reducible repeat' first
      | exact h | assumption | exact hw.mono (by decide)
      | refine State.oneCycle_keeps (fun _ _ _ => ?_) (hw.mono (by decide)) ?_ | apply State.handshake_keeps

theorem execHandshakeSilence_keeps {W : Nat} (port : Fin 4) (s : State) (hw : Sub 0x808010010048 W) :
    OutKeeps W s (execHandshakeSilence port s) := by
  unfold execHandshakeSilence
  have h := Keeps.refl W s
  try dsimp only [OutKeeps]
  with_reducible repeat' first
      | exact h | exact hw.mono (by decide) | apply State.handshakeSilence_keeps

theorem execPeerSilentRetry_keeps {W : Nat} (port : Fin 4) (s : State) (hw : Sub 0x8000000000 W) :
    OutKeeps W s (execPeerSilentRetry port s) := by
  unfold execPeerSilentRetry
  have h := Keeps.refl W s
  try dsimp only [OutKeeps]
  with_reducible repeat' first
      | exact h | exact hw.mono (by decide) | apply State.silentRetry_keeps

theorem execLossOfSignal_keeps {W : Nat} (lane : Fin 50) (s : State) (hw : Sub 0xc18010130048 W) :
    OutKeeps W s (execLossOfSignal lane s) := by
  unfold execLossOfSignal
  have h := Keeps.refl W s
  try dsimp only [OutKeeps]
  with_reducible repeat' first
      | exact h | assumption | exact hw.mono (by decide)
      | refine State.oneCycle_keeps (fun _ _ _ => ?_) (hw.mono (by decide)) ?_ | apply State.lossOfSignal_keeps
      | apply State.plLeave_keeps | refine Keeps.ite ?_ ?_

theorem execFecUncorrectable_keeps {W : Nat} (lane : Fin 50) (s : State) (hw : Sub 0xc1801c130048 W) :
    OutKeeps W s (execFecUncorrectable lane s) := by
  unfold execFecUncorrectable
  have h := Keeps.refl W s
  try dsimp only [OutKeeps]
  with_reducible repeat' first
      | exact h | assumption | exact hw.mono (by decide)
      | refine State.oneCycle_keeps (fun _ _ _ => ?_) (hw.mono (by decide)) ?_ | apply State.fecUncorrectable_keeps

theorem execLaneCorrectedLimit_keeps {W : Nat} (lane : Fin 50) (symbols : ℕ) (s : State) (hw : Sub 0x80801c000048 W) :
    OutKeeps W s (execLaneCorrectedLimit lane symbols s) := by
  unfold execLaneCorrectedLimit
  have h := Keeps.refl W s
  try dsimp only [OutKeeps]
  with_reducible repeat' first
      | exact h | exact hw.mono (by decide) | apply State.correctedSymbols_keeps

theorem execLaneSelftestDone_keeps {W : Nat} (lane : Fin 50) (errors : ℕ) (s : State) (hw : Sub 0x808098010048 W) :
    OutKeeps W s (execLaneSelftestDone lane errors s) := by
  unfold execLaneSelftestDone
  have h := Keeps.refl W s
  try dsimp only [OutKeeps]
  with_reducible repeat' first
      | exact h | exact hw.mono (by decide) | apply State.laneTestDone_keeps

theorem execLnePortRetrain_keeps {W : Nat} (port : Fin 4) (s : State) (hw : Sub 0xc18030130048 W) :
    OutKeeps W s (execLnePortRetrain port s) := by
  unfold execLnePortRetrain
  have h := Keeps.refl W s
  refine OutKeeps.gate (hw.mono (by decide)) ?_
  try dsimp only [OutKeeps]
  with_reducible repeat' first
      | exact h | assumption | exact hw.mono (by decide)
      | refine State.oneCycle_keeps (fun _ _ _ => ?_) (hw.mono (by decide)) ?_ | apply State.portRetrain_keeps

theorem execLnePortClearExclude_keeps {W : Nat} (port : Fin 4) (s : State) (hw : Sub 0x8020000000 W) :
    OutKeeps W s (execLnePortClearExclude port s) := by
  unfold execLnePortClearExclude
  have h := Keeps.refl W s
  refine OutKeeps.gate (hw.mono (by decide)) ?_
  try dsimp only [OutKeeps]
  with_reducible repeat' first
      | exact h | exact hw.mono (by decide) | apply State.clearExclude_keeps

theorem execLnePortEnableWrite_keeps {W : Nat} (port : Fin 4) (enable : Bool) (s : State) (hw : Sub 0xc18030130048 W) :
    OutKeeps W s (execLnePortEnableWrite port enable s) := by
  unfold execLnePortEnableWrite
  have h := Keeps.refl W s
  refine OutKeeps.gate (hw.mono (by decide)) ?_
  try dsimp only [OutKeeps]
  with_reducible repeat' first
      | exact h | assumption | exact hw.mono (by decide)
      | refine State.oneCycle_keeps (fun _ _ _ => ?_) (hw.mono (by decide)) ?_ | apply State.enableWrite_keeps

theorem execLnePortModeWrite_keeps {W : Nat} (port : Fin 4) (test : Bool) (s : State) (hw : Sub 0xc18030130058 W) :
    OutKeeps W s (execLnePortModeWrite port test s) := by
  unfold execLnePortModeWrite
  have h := Keeps.refl W s
  refine OutKeeps.gate (hw.mono (by decide)) ?_
  try dsimp only [OutKeeps]
  with_reducible repeat' first
      | exact h | assumption | exact hw.mono (by decide)
      | refine State.oneCycle_keeps (fun _ _ _ => ?_) (hw.mono (by decide)) ?_ | apply State.modeWrite_keeps

theorem execLneLaneLoopWrite_keeps {W : Nat} (lane : Fin 50) (value : Word) (s : State) (hw : Sub 0x8030010000 W) :
    OutKeeps W s (execLneLaneLoopWrite lane value s) := by
  unfold execLneLaneLoopWrite
  have h := Keeps.refl W s
  refine OutKeeps.gate (hw.mono (by decide)) ?_
  try dsimp only [OutKeeps]
  with_reducible repeat' first
      | exact h | exact hw.mono (by decide) | apply State.loopWrite_keeps

theorem execLnePrbsClear_keeps {W : Nat} (lane : Fin 50) (s : State) (hw : Sub 0x8020010000 W) :
    OutKeeps W s (execLnePrbsClear lane s) := by
  unfold execLnePrbsClear
  have h := Keeps.refl W s
  refine OutKeeps.gate (hw.mono (by decide)) ?_
  try dsimp only [OutKeeps]
  with_reducible repeat' first
      | exact h | exact hw.mono (by decide) | apply State.prbsClear_keeps

theorem execLnePrbsInject_keeps {W : Nat} (lane : Fin 50) (s : State) (hw : Sub 0x8030000000 W) :
    OutKeeps W s (execLnePrbsInject lane s) := by
  unfold execLnePrbsInject
  have h := Keeps.refl W s
  refine OutKeeps.gate (hw.mono (by decide)) ?_
  try dsimp only [OutKeeps]
  with_reducible repeat' first
      | exact h | exact hw.mono (by decide) | apply State.prbsInject_keeps

theorem State.prbsHeard_keeps {W : Nat} {r s : State} (l : ℕ)
    (hw : Sub 0x4 W) (h : Keeps W r s) : Keeps W r (State.prbsHeard s l).2 := by
  unfold State.prbsHeard
  try dsimp only
  with_reducible repeat' first
      | exact h | exact hw.mono (by decide) | apply State.draw_keeps | dsimp only | split

theorem State.prbsErrRead_keeps {W : Nat} {r s : State} (l : ℕ)
    (hw : Sub 0x8020000004 W) (h : Keeps W r s) : Keeps W r (State.prbsErrRead s l) := by
  unfold State.prbsErrRead
  try dsimp only
  with_reducible repeat' first
      | exact h | exact hw.mono (by decide) | exact hw.mono (by rw [regBit_lane _ _ (by decide)]; decide)
      | apply State.wr_keeps | apply State.result_keeps | apply State.prbsHeard_keeps

theorem execLnePrbsErrRead_keeps {W : Nat} (lane : Fin 50) (s : State) (hw : Sub 0x8020000004 W) :
    OutKeeps W s (execLnePrbsErrRead lane s) := by
  unfold execLnePrbsErrRead
  have h := Keeps.refl W s
  refine OutKeeps.gate (hw.mono (by decide)) ?_
  try dsimp only [OutKeeps]
  with_reducible repeat' first
      | exact h | exact hw.mono (by decide) | apply State.prbsErrRead_keeps

theorem State.prbsBitsRead_keeps {W : Nat} {r s : State} (l : ℕ)
    (hw : Sub 0x8020000000 W) (h : Keeps W r s) : Keeps W r (State.prbsBitsRead s l) := by
  unfold State.prbsBitsRead
  try dsimp only
  with_reducible repeat' first
      | exact h | exact hw.mono (by decide) | exact hw.mono (by rw [regBit_lane _ _ (by decide)]; decide)
      | apply State.wr_keeps | apply State.result_keeps

theorem execLnePrbsBitsLoRead_keeps {W : Nat} (lane : Fin 50) (s : State) (hw : Sub 0x8020000000 W) :
    OutKeeps W s (execLnePrbsBitsLoRead lane s) := by
  unfold execLnePrbsBitsLoRead
  have h := Keeps.refl W s
  refine OutKeeps.gate (hw.mono (by decide)) ?_
  try dsimp only [OutKeeps]
  with_reducible repeat' first
      | exact h | exact hw.mono (by decide) | apply State.prbsBitsRead_keeps

theorem execLneSelftestReq_keeps {W : Nat} (value : Word) (s : State) (hw : Sub 0x80002c000048 W) :
    OutKeeps W s (execLneSelftestReq value s) := by
  unfold execLneSelftestReq
  have h := Keeps.refl W s
  refine OutKeeps.gate (hw.mono (by decide)) ?_
  try dsimp only [OutKeeps]
  with_reducible repeat' first
      | exact h | exact hw.mono (by decide) | apply State.laneTestReq_keeps

theorem execDirectionQuietRequest_keeps {W : Nat} (port : Fin 4) (s : State) (hw : Sub 0x10010000 W) :
    OutKeeps W s (execDirectionQuietRequest port s) := by
  unfold execDirectionQuietRequest
  have h := Keeps.refl W s
  try dsimp only [OutKeeps]
  with_reducible repeat' first
      | exact h | exact hw.mono (by decide) | apply State.quietRequest_keeps

theorem execDirectionSleepRequest_keeps {W : Nat} (port : Fin 4) (s : State) (hw : Sub 0x10010000 W) :
    OutKeeps W s (execDirectionSleepRequest port s) := by
  unfold execDirectionSleepRequest
  have h := Keeps.refl W s
  try dsimp only [OutKeeps]
  with_reducible repeat' first
      | exact h | exact hw.mono (by decide) | apply State.sleepRequest_keeps

theorem execDirectionWakeRequest_keeps {W : Nat} (port : Fin 4) (s : State) (hw : Sub 0x18010030000 W) :
    OutKeeps W s (execDirectionWakeRequest port s) := by
  unfold execDirectionWakeRequest
  have h := Keeps.refl W s
  try dsimp only [OutKeeps]
  with_reducible repeat' first
      | exact h | exact hw.mono (by decide) | apply State.wakeRequest_keeps

theorem execSleepLivenessWake_keeps {W : Nat} (port : Fin 4) (s : State) (hw : Sub 0x8000010000 W) :
    OutKeeps W s (execSleepLivenessWake port s) := by
  unfold execSleepLivenessWake
  have h := Keeps.refl W s
  try dsimp only [OutKeeps]
  with_reducible repeat' first
      | exact h | exact hw.mono (by decide) | apply State.livenessWake_keeps

theorem execPowerEntryComplete_keeps {W : Nat} (port : Fin 4) (dir : PowerDir) (s : State) (hw : Sub 0x18010030000 W) :
    OutKeeps W s (execPowerEntryComplete port dir s) := by
  unfold execPowerEntryComplete
  have h := Keeps.refl W s
  try dsimp only [OutKeeps]
  with_reducible repeat' first
      | exact h | exact hw.mono (by decide) | apply State.txEntryDone_keeps | apply State.setRxPower_keeps
      | refine Keeps.ite ?_ ?_ | dsimp only | split

theorem execSleepResidencyEnd_keeps {W : Nat} (port : Fin 4) (s : State) (hw : Sub 0x10000 W) :
    OutKeeps W s (execSleepResidencyEnd port s) := by
  unfold execSleepResidencyEnd
  have h := Keeps.refl W s
  try dsimp only [OutKeeps]
  with_reducible repeat' first
      | exact h | exact hw.mono (by decide) | apply State.residencyEnd_keeps

theorem execWakeRetrainEnd_keeps {W : Nat} (port : Fin 4) (rx : Option Bool) (s : State) (hw : Sub 0xc18010130048 W) :
    OutKeeps W s (execWakeRetrainEnd port rx s) := by
  unfold execWakeRetrainEnd
  have h := Keeps.refl W s
  try dsimp only [OutKeeps]
  with_reducible repeat' first
      | exact h | assumption | exact hw.mono (by decide)
      | refine State.oneCycle_keeps (fun _ _ _ => ?_) (hw.mono (by decide)) ?_ | apply State.txResume_keeps
      | apply State.setRxPower_keeps | apply State.wakeFail_keeps | refine Keeps.ite ?_ ?_ | dsimp only | split

theorem execWakeDetectTimeout_keeps {W : Nat} (port : Fin 4) (s : State) (hw : Sub 0xc18010130048 W) :
    OutKeeps W s (execWakeDetectTimeout port s) := by
  unfold execWakeDetectTimeout
  have h := Keeps.refl W s
  try dsimp only [OutKeeps]
  with_reducible repeat' first
      | exact h | assumption | exact hw.mono (by decide)
      | refine State.oneCycle_keeps (fun _ _ _ => ?_) (hw.mono (by decide)) ?_ | apply State.wakeFail_keeps
      | refine Keeps.ite ?_ ?_

theorem execFeLoopRequest_keeps {W : Nat} (lane : Fin 32) (block : Bytes) (s : State) (hw : Sub 0x800010010048 W) :
    OutKeeps W s (execFeLoopRequest lane block s) := by
  unfold execFeLoopRequest
  have h := Keeps.refl W s
  try dsimp only [OutKeeps]
  with_reducible repeat' first
      | exact h | exact hw.mono (by decide) | apply State.feRequest_keeps

theorem execFeLoopEnd_keeps {W : Nat} (lane : Fin 32) (s : State) (hw : Sub 0xc18010130048 W) :
    OutKeeps W s (execFeLoopEnd lane s) := by
  unfold execFeLoopEnd
  have h := Keeps.refl W s
  try dsimp only [OutKeeps]
  with_reducible repeat' first
      | exact h | exact hw.mono (by decide) | apply State.feEnd_keeps

theorem execPanelLaneTrainTimeout_keeps {W : Nat} (lane : Fin 18) (s : State) (hw : Sub 0x808010010048 W) :
    OutKeeps W s (execPanelLaneTrainTimeout lane s) := by
  unfold execPanelLaneTrainTimeout
  have h := Keeps.refl W s
  try dsimp only [OutKeeps]
  with_reducible repeat' first
      | exact h | exact hw.mono (by decide) | apply State.plTrainTimeout_keeps

theorem execPanelLaneRetry_keeps {W : Nat} (lane : Fin 18) (s : State) (hw : Sub 0x8000010000 W) :
    OutKeeps W s (execPanelLaneRetry lane s) := by
  unfold execPanelLaneRetry
  have h := Keeps.refl W s
  try dsimp only [OutKeeps]
  with_reducible repeat' first
      | exact h | exact hw.mono (by decide) | apply State.plStart_keeps | refine Keeps.ite ?_ ?_

theorem execLnePlRetrain_keeps {W : Nat} (lane : Fin 18) (s : State) (hw : Sub 0x808030010048 W) :
    OutKeeps W s (execLnePlRetrain lane s) := by
  unfold execLnePlRetrain
  have h := Keeps.refl W s
  refine OutKeeps.gate (hw.mono (by decide)) ?_
  try dsimp only [OutKeeps]
  with_reducible repeat' first
      | exact h | exact hw.mono (by decide) | apply State.plRetrain_keeps

end Sys2Proof.Machine
end

