-- ==== Sys2Proof/Laws/KeepsLink.lean ====
section
/-! SUPPORT. Every operation and meaning of the link and the wall (Machine/Link.lean and Wall.lean)
keeps what `Keeps` says. -/

-- One theorem at a time: hundreds of them at once would need more thread stacks than a check may map.
set_option Elab.async false
namespace Sys2Proof.Machine

/-! ### Link -/

theorem State.requestReplay_keeps {W : Nat} {r s : State} (p : ℕ)
    (hw : Sub 0x8010030000 W) (h : Keeps W r s) : Keeps W r (State.requestReplay s p) := by
  unfold State.requestReplay
  try dsimp only
  with_reducible repeat' first
      | exact h | exact hw.mono (by decide) | apply State.nopNow_keeps | apply State.modLnk_keeps
      | refine Keeps.ite ?_ ?_

theorem State.countReplay_keeps {W : Nat} {r s : State} (p : ℕ)
    (hw : Sub 0x810010020048 W) (h : Keeps W r s) : Keeps W r (State.countReplay s p) := by
  unfold State.countReplay
  try dsimp only
  with_reducible repeat' first
      | exact h | exact hw.mono (by decide) | exact hw.mono (by rw [regBit_lnkPort _ _ (by decide)]; decide)
      | apply State.modLnk_keeps | apply State.sayOnce_keeps | apply State.bump_keeps

theorem State.replayFrom_keeps {W : Nat} {r s : State} (p : ℕ) (q : ℕ)
    (hw : Sub 0xc18010130048 W) (h : Keeps W r s) : Keeps W r (State.replayFrom s p q) := by
  unfold State.replayFrom
  try dsimp only
  with_reducible repeat' first
      | exact h | exact hw.mono (by decide) | apply State.portRetrain_keeps | apply State.report_keeps
      | apply State.modLnk_keeps | apply State.runReplay_keeps | apply State.countReplay_keeps
      | refine Keeps.ite ?_ ?_

theorem State.ackFlits_keeps {W : Nat} {r s : State} (p : ℕ) (ack : ℕ)
    (hw : Sub 0x20000 W) (h : Keeps W r s) : Keeps W r (State.ackFlits s p ack) := by
  unfold State.ackFlits
  try dsimp only
  with_reducible repeat' first
      | exact h | exact hw.mono (by decide) | apply State.modLnk_keeps | refine Keeps.ite ?_ ?_

theorem State.takeFreed_keeps {W : Nat} {r s : State} (p : ℕ) (freed : ℕ)
    (hw : Sub 0x20000 W) (h : Keeps W r s) : Keeps W r (State.takeFreed s p freed) := by
  unfold State.takeFreed
  try dsimp only
  with_reducible repeat' first
      | exact h | exact hw.mono (by decide) | apply State.modLnk_keeps

theorem State.flitTells_keeps {W : Nat} {r s : State} (p : ℕ) (flit : Bytes)
    (hw : Sub 0xc18010130048 W) (h : Keeps W r s) : Keeps W r (State.flitTells s p flit) := by
  unfold State.flitTells
  try dsimp only
  with_reducible repeat' first
      | exact h | exact hw.mono (by decide) | apply State.takeFreed_keeps | apply State.ackFlits_keeps
      | apply State.replayFrom_keeps | refine Keeps.ite ?_ ?_

theorem State.endPartial_keeps {W : Nat} {r s : State} (p : ℕ) (v : ℕ)
    (hw : Sub 0x20000 W) (h : Keeps W r s) : Keeps W r (State.endPartial s p v).1 := by
  unfold State.endPartial
  try dsimp only
  with_reducible repeat' first
      | exact h | exact hw.mono (by decide) | apply State.modLnk_keeps | apply State.abortMsg_keeps
      | refine Keeps.ite ?_ ?_ | refine Keeps.iteFst ?_ ?_ | dsimp only | split

theorem State.abortIn_keeps {W : Nat} {r s : State} (p : ℕ) (v : ℕ)
    (hw : Sub 0x810010020048 W) (h : Keeps W r s) : Keeps W r (State.abortIn s p v) := by
  unfold State.abortIn
  try dsimp only
  with_reducible repeat' first
      | exact h | exact hw.mono (by decide) | apply State.endPartial_keeps | apply State.sayOnce_keeps
      | apply State.bump_keeps | refine Keeps.ite ?_ ?_

theorem State.abortPoisoned_keeps {W : Nat} {r s : State} 
    (hw : Sub 0x840210020248 W) (h : Keeps W r s) : Keeps W r (State.abortPoisoned s) := by
  unfold State.abortPoisoned
  try dsimp only
  with_reducible repeat' first
      | exact h | assumption | exact hw.mono (by decide) | apply State.stopForward_keeps | apply State.abortMsg_keeps
      | apply State.consumePoison_keeps | refine Keeps.foldl (fun _ _ _ => ?_) _ ?_
      | refine Keeps.foldlPair (fun _ _ _ => ?_) _ ?_ | refine Keeps.ite ?_ ?_

theorem State.syncCheck_keeps {W : Nat} {r s : State} (p : ℕ)
    (hw : Sub 0x858210030248 W) (h : Keeps W r s) : Keeps W r (State.syncCheck s p) := by
  unfold State.syncCheck
  try dsimp only
  with_reducible repeat' first
      | exact h | exact hw.mono (by decide) | exact hw.mono (by rw [regBit_lnkPort _ _ (by decide)]; decide)
      | apply State.modLnk_keeps | apply State.countReplay_keeps | apply State.pump_keeps | apply State.wrF_keeps
      | refine Keeps.ite ?_ ?_ | apply State.abortPoisoned_keeps

theorem State.applySnapshot_keeps {W : Nat} {r s : State} (p : ℕ) (b : Bytes)
    (hw : Sub 0x810010020048 W) (h : Keeps W r s) : Keeps W r (State.applySnapshot s p b) := by
  unfold State.applySnapshot
  try dsimp only
  with_reducible repeat' first
      | exact h | assumption | exact hw.mono (by decide)
      | exact hw.mono (by rw [regBit_lnkPort _ _ (by decide)]; decide) | apply State.bump_keeps
      | apply State.report_keeps | apply State.modLnk_keeps | refine Keeps.foldl (fun _ _ _ => ?_) _ ?_
      | refine Keeps.foldlPair (fun _ _ _ => ?_) _ ?_ | refine Keeps.ite ?_ ?_

theorem State.applyReset_keeps {W : Nat} {r s : State} (p : ℕ) (b : Bytes)
    (hw : Sub 0x818010030048 W) (h : Keeps W r s) : Keeps W r (State.applyReset s p b) := by
  unfold State.applyReset
  try dsimp only
  with_reducible repeat' first
      | exact h | assumption | exact hw.mono (by decide)
      | exact hw.mono (by rw [regBit_lnkPort _ _ (by decide)]; decide) | apply State.bumpBy_keeps
      | apply State.modLnk_keeps | apply State.abortIn_keeps | apply State.pump_keeps
      | refine Keeps.foldl (fun _ _ _ => ?_) _ ?_ | refine Keeps.foldlPair (fun _ _ _ => ?_) _ ?_
      | refine Keeps.ite ?_ ?_

theorem State.creditSync_keeps {W : Nat} {r s : State} (p : ℕ) (b : Bytes)
    (hw : Sub 0xc58210130248 W) (h : Keeps W r s) : Keeps W r (State.creditSync s p b) := by
  unfold State.creditSync
  try dsimp only
  with_reducible repeat' first
      | exact h | exact hw.mono (by decide) | exact hw.mono (by rw [regBit_lnkPort _ _ (by decide)]; decide)
      | apply State.sendSyncAck_keeps | apply State.report_keeps | apply State.modLnk_keeps
      | apply State.syncStart_keeps | apply State.wrF_keeps | apply State.portRetrain_keeps
      | apply State.applyReset_keeps | apply State.applySnapshot_keeps | apply State.syncCheck_keeps
      | refine Keeps.ite ?_ ?_

theorem State.creditSyncAck_keeps {W : Nat} {r s : State} (p : ℕ) (id : ℕ)
    (hw : Sub 0x858210030248 W) (h : Keeps W r s) : Keeps W r (State.creditSyncAck s p id) := by
  unfold State.creditSyncAck
  try dsimp only
  with_reducible repeat' first
      | exact h | exact hw.mono (by decide) | apply State.syncCheck_keeps | apply State.modLnk_keeps
      | refine Keeps.ite ?_ ?_

theorem State.syncNow_keeps {W : Nat} {r s : State} (p : ℕ)
    (hw : Sub 0x818210030248 W) (h : Keeps W r s) : Keeps W r (State.syncNow s p) := by
  unfold State.syncNow
  try dsimp only
  with_reducible repeat' first
      | exact h | exact hw.mono (by decide) | apply State.syncStart_keeps | refine Keeps.ite ?_ ?_

theorem State.allocReg_keeps {W : Nat} {r s : State} (p : ℕ) (a : ℕ) (v : ℕ)
    (hw : Sub 0x1ffff80020000 W) (h : Keeps W r s) : Keeps W r (State.allocReg s p a v) := by
  unfold State.allocReg
  try dsimp only
  with_reducible repeat' first
      | exact h | exact hw.mono (by decide) | exact hw.any (by decide) | apply State.regWrite_keeps
      | apply State.modLnk_keeps | dsimp only | split | apply State.wr_keeps

theorem State.allocPair_keeps {W : Nat} {r s : State} (p : ℕ) (a : ℕ) (b : ℕ)
    (hw : Sub 0x10000020000 W) (h : Keeps W r s) : Keeps W r (State.allocPair s p a b) := by
  unfold State.allocPair
  try dsimp only
  with_reducible repeat' first
      | exact h | exact hw.mono (by decide) | exact hw.mono (by rw [regBit_lnkPort _ _ (by decide)]; decide)
      | apply State.modLnk_keeps | apply State.regWrite_keeps | dsimp only | split

theorem State.sourceWeights_keeps {W : Nat} {r s : State} 
    (hw : Sub 0x10000020000 W) (h : Keeps W r s) : Keeps W r (State.sourceWeights s) := by
  unfold State.sourceWeights
  try dsimp only
  with_reducible repeat' first
      | exact h | assumption | exact hw.mono (by decide)
      | exact hw.mono (by rw [regBit_lnkPort _ _ (by decide)]; decide) | apply State.modLnk_keeps
      | apply State.wr_keeps | refine Keeps.foldl (fun _ _ _ => ?_) _ ?_

theorem State.originate_keeps {W : Nat} {r s : State} 
    (hw : Sub 0x18010030000 W) (h : Keeps W r s) : Keeps W r (State.originate s) := by
  unfold State.originate
  try dsimp only
  with_reducible repeat' first
      | exact h | exact hw.mono (by decide) | apply State.startEpoch_keeps | apply State.beaconOut_keeps
      | refine Keeps.ite ?_ ?_ | dsimp only | split

theorem State.forwardBeacon_keeps {W : Nat} {r s : State} (b : Beacon)
    (hw : Sub 0x18010030000 W) (h : Keeps W r s) : Keeps W r (State.forwardBeacon s b) := by
  unfold State.forwardBeacon
  try dsimp only
  with_reducible repeat' first
      | exact h | assumption | exact hw.mono (by decide) | apply State.sendDisc_keeps
      | refine Keeps.foldl (fun _ _ _ => ?_) _ ?_

theorem State.beaconIn_keeps {W : Nat} {r s : State} (p : ℕ) (msg : Bytes)
    (hw : Sub 0x18010030000 W) (h : Keeps W r s) : Keeps W r (State.beaconIn s p msg) := by
  unfold State.beaconIn
  try dsimp only
  with_reducible repeat' first
      | exact h | exact hw.mono (by decide) | apply State.forwardBeacon_keeps | apply State.takeBest_keeps
      | apply State.treeLost_keeps | fail_if_no_progress refine Keeps.upd hw ?_ | refine Keeps.ite ?_ ?_
      | dsimp only | split

theorem State.rootChange_keeps {W : Nat} {r s : State} 
    (hw : Sub 0x18010030000 W) (h : Keeps W r s) : Keeps W r (State.rootChange s) := by
  unfold State.rootChange
  try dsimp only
  with_reducible repeat' first
      | exact h | assumption | exact hw.mono (by decide) | apply State.startEpoch_keeps | apply State.treeLost_keeps
      | apply State.wrF_keeps | apply State.forwardBeacon_keeps | apply State.takeBest_keeps
      | refine Keeps.foldl (fun _ _ _ => ?_) _ ?_ | refine Keeps.foldlPair (fun _ _ _ => ?_) _ ?_
      | fail_if_no_progress refine Keeps.upd hw ?_ | refine Keeps.ite ?_ ?_ | dsimp only | split

theorem State.assignStart_keeps {W : Nat} {r s : State} 
    (hw : Sub 0x818010030048 W) (h : Keeps W r s) : Keeps W r (State.assignStart s) := by
  unfold State.assignStart
  try dsimp only
  with_reducible repeat' first
      | exact h | exact hw.mono (by decide) | apply State.offerFrom_keeps | fail_if_no_progress refine Keeps.upd hw ?_
      | refine Keeps.ite ?_ ?_

theorem State.assignIn_keeps {W : Nat} {r s : State} (p : ℕ) (msg : Bytes)
    (hw : Sub 0x818010030048 W) (h : Keeps W r s) : Keeps W r (State.assignIn s p msg) := by
  unfold State.assignIn
  try dsimp only
  with_reducible repeat' first
      | exact h | exact hw.mono (by decide) | exact hw.mono (by rw [regBit_lnkPort _ _ (by decide)]; decide)
      | apply State.setNewPort_keeps | apply State.sendDisc_keeps | apply State.wrF_keeps | apply State.report_keeps
      | apply State.offerFrom_keeps | fail_if_no_progress refine Keeps.upd hw ?_ | refine Keeps.ite ?_ ?_
      | apply State.modLnk_keeps

theorem State.acceptIn_keeps {W : Nat} {r s : State} (p : ℕ) (msg : Bytes)
    (hw : Sub 0x20000 W) (h : Keeps W r s) : Keeps W r (State.acceptIn s p msg) := by
  unfold State.acceptIn
  try dsimp only
  with_reducible repeat' first
      | exact h | exact hw.mono (by decide) | fail_if_no_progress refine Keeps.upd hw ?_ | refine Keeps.ite ?_ ?_
      | dsimp only | split

theorem State.standBy_keeps {W : Nat} {r s : State} (p : ℕ)
    (hw : Sub 0x818010030048 W) (h : Keeps W r s) : Keeps W r (State.standBy s p) := by
  unfold State.standBy
  try dsimp only
  with_reducible repeat' first
      | exact h | exact hw.mono (by decide) | apply State.offerNext_keeps | apply State.setNewPort_keeps

theorem State.refuseIn_keeps {W : Nat} {r s : State} (p : ℕ)
    (hw : Sub 0x818010030048 W) (h : Keeps W r s) : Keeps W r (State.refuseIn s p) := by
  unfold State.refuseIn
  try dsimp only
  with_reducible repeat' first
      | exact h | exact hw.mono (by decide) | apply State.standBy_keeps | refine Keeps.ite ?_ ?_ | dsimp only | split

theorem State.doneIn_keeps {W : Nat} {r s : State} (p : ℕ) (msg : Bytes)
    (hw : Sub 0x818010030048 W) (h : Keeps W r s) : Keeps W r (State.doneIn s p msg) := by
  unfold State.doneIn
  try dsimp only
  with_reducible repeat' first
      | exact h | exact hw.mono (by decide) | apply State.setNewPort_keeps | apply State.offerNext_keeps
      | fail_if_no_progress refine Keeps.upd hw ?_ | refine Keeps.ite ?_ ?_ | dsimp only | split

theorem State.offerAgain_keeps {W : Nat} {r s : State} (o : Offer)
    (hw : Sub 0x818010030048 W) (h : Keeps W r s) : Keeps W r (State.offerAgain s o) := by
  unfold State.offerAgain
  try dsimp only
  with_reducible repeat' first
      | exact h | exact hw.mono (by decide) | apply State.sendDisc_keeps | apply State.standBy_keeps
      | apply State.report_keeps | fail_if_no_progress refine Keeps.upd hw ?_ | refine Keeps.ite ?_ ?_

theorem State.assignTimeout_keeps {W : Nat} {r s : State} 
    (hw : Sub 0x818010030048 W) (h : Keeps W r s) : Keeps W r (State.assignTimeout s) := by
  unfold State.assignTimeout
  try dsimp only
  with_reducible repeat' first
      | exact h | exact hw.mono (by decide) | apply State.offerAgain_keeps | refine Keeps.ite ?_ ?_ | dsimp only
      | split

theorem State.doneTimeout_keeps {W : Nat} {r s : State} 
    (hw : Sub 0x818010030048 W) (h : Keeps W r s) : Keeps W r (State.doneTimeout s) := by
  unfold State.doneTimeout
  try dsimp only
  with_reducible repeat' first
      | exact h | exact hw.mono (by decide) | apply State.offerAgain_keeps | refine Keeps.ite ?_ ?_ | dsimp only
      | split

theorem State.discIn_keeps {W : Nat} {r s : State} (p : ℕ) (msg : Bytes)
    (hw : Sub 0x818010030048 W) (h : Keeps W r s) : Keeps W r (State.discIn s p msg) := by
  unfold State.discIn
  try dsimp only
  with_reducible repeat' first
      | exact h | exact hw.mono (by decide) | apply State.beaconIn_keeps | apply State.assignIn_keeps
      | apply State.acceptIn_keeps | apply State.refuseIn_keeps | apply State.doneIn_keeps
      | apply State.treeLost_keeps | dsimp only | split

theorem execIdleBlockReceive_keeps {W : Nat} (port : Fin 4) (s : State) (hw : Sub 0x20000 W) :
    OutKeeps W s (execIdleBlockReceive port s) := by
  unfold execIdleBlockReceive
  have h := Keeps.refl W s
  try dsimp only [OutKeeps]
  with_reducible repeat' first
      | exact h | exact hw.mono (by decide) | apply State.modLnk_keeps | refine Keeps.ite ?_ ?_

theorem execNakRepeatTimer_keeps {W : Nat} (port : Fin 4) (s : State) (hw : Sub 0x8010030000 W) :
    OutKeeps W s (execNakRepeatTimer port s) := by
  unfold execNakRepeatTimer
  have h := Keeps.refl W s
  try dsimp only [OutKeeps]
  with_reducible repeat' first
      | exact h | exact hw.mono (by decide) | apply State.nopNow_keeps | apply State.modLnk_keeps
      | refine Keeps.ite ?_ ?_

theorem execAckNopTimer_keeps {W : Nat} (port : Fin 4) (s : State) (hw : Sub 0x8010030000 W) :
    OutKeeps W s (execAckNopTimer port s) := by
  unfold execAckNopTimer
  have h := Keeps.refl W s
  try dsimp only [OutKeeps]
  with_reducible repeat' first
      | exact h | exact hw.mono (by decide) | apply State.nopNow_keeps | refine Keeps.ite ?_ ?_

theorem execReplayTimeout_keeps {W : Nat} (port : Fin 4) (s : State) (hw : Sub 0xc18010130048 W) :
    OutKeeps W s (execReplayTimeout port s) := by
  unfold execReplayTimeout
  have h := Keeps.refl W s
  try dsimp only [OutKeeps]
  with_reducible repeat' first
      | exact h | assumption | exact hw.mono (by decide)
      | refine State.oneCycle_keeps (fun _ _ _ => ?_) (hw.mono (by decide)) ?_ | apply State.replayFrom_keeps
      | refine Keeps.ite ?_ ?_ | dsimp only | split

theorem execCreditSyncReceive_keeps {W : Nat} (port : Fin 4) (payload : Bytes) (s : State) (hw : Sub 0xc58210130248 W) :
    OutKeeps W s (execCreditSyncReceive port payload s) := by
  unfold execCreditSyncReceive
  have h := Keeps.refl W s
  try dsimp only [OutKeeps]
  with_reducible repeat' first
      | exact h | assumption | exact hw.mono (by decide)
      | refine State.oneCycle_keeps (fun _ _ _ => ?_) (hw.mono (by decide)) ?_ | apply State.creditSync_keeps

theorem execCreditSyncAckReceive_keeps {W : Nat} (port : Fin 4) (id : Byte) (s : State) (hw : Sub 0x858210030248 W) :
    OutKeeps W s (execCreditSyncAckReceive port id s) := by
  unfold execCreditSyncAckReceive
  have h := Keeps.refl W s
  try dsimp only [OutKeeps]
  with_reducible repeat' first
      | exact h | exact hw.mono (by decide) | apply State.creditSyncAck_keeps

theorem execCreditSyncResend_keeps {W : Nat} (port : Fin 4) (s : State) (hw : Sub 0x8010030000 W) :
    OutKeeps W s (execCreditSyncResend port s) := by
  unfold execCreditSyncResend
  have h := Keeps.refl W s
  try dsimp only [OutKeeps]
  with_reducible repeat' first
      | exact h | exact hw.mono (by decide) | apply State.sendSync_keeps | refine Keeps.ite ?_ ?_

theorem execCreditSyncTimeout_keeps {W : Nat} (port : Fin 4) (s : State) (hw : Sub 0xc18010130048 W) :
    OutKeeps W s (execCreditSyncTimeout port s) := by
  unfold execCreditSyncTimeout
  have h := Keeps.refl W s
  try dsimp only [OutKeeps]
  with_reducible repeat' first
      | exact h | assumption | exact hw.mono (by decide)
      | refine State.oneCycle_keeps (fun _ _ _ => ?_) (hw.mono (by decide)) ?_ | apply State.portRetrain_keeps
      | apply State.report_keeps | refine Keeps.ite ?_ ?_

theorem execLnkPortSyncNow_keeps {W : Nat} (port : Fin 4) (s : State) (hw : Sub 0x818230030248 W) :
    OutKeeps W s (execLnkPortSyncNow port s) := by
  unfold execLnkPortSyncNow
  have h := Keeps.refl W s
  refine OutKeeps.gate (hw.mono (by decide)) ?_
  try dsimp only [OutKeeps]
  with_reducible repeat' first
      | exact h | exact hw.mono (by decide) | apply State.syncNow_keeps

theorem execLnkPortAllocWrite_keeps {W : Nat} (port : Fin 4) (alloc01 : Word) (alloc23 : Word) (s : State) (hw : Sub 0x10020020000 W) :
    OutKeeps W s (execLnkPortAllocWrite port alloc01 alloc23 s) := by
  unfold execLnkPortAllocWrite
  have h := Keeps.refl W s
  refine OutKeeps.gate (hw.mono (by decide)) ?_
  try dsimp only [OutKeeps]
  with_reducible repeat' first
      | exact h | exact hw.mono (by decide) | apply State.allocPair_keeps

theorem execSourceWeightPeriod_keeps {W : Nat}  (s : State) (hw : Sub 0x10000020000 W) :
    OutKeeps W s (execSourceWeightPeriod s) := by
  unfold execSourceWeightPeriod
  have h := Keeps.refl W s
  try dsimp only [OutKeeps]
  with_reducible repeat' first
      | exact h | exact hw.mono (by decide) | apply State.sourceWeights_keeps

theorem execBeaconOriginate_keeps {W : Nat}  (s : State) (hw : Sub 0x18010030000 W) :
    OutKeeps W s (execBeaconOriginate s) := by
  unfold execBeaconOriginate
  have h := Keeps.refl W s
  try dsimp only [OutKeeps]
  with_reducible repeat' first
      | exact h | exact hw.mono (by decide) | apply State.originate_keeps

theorem execBeaconReceive_keeps {W : Nat} (port : Fin 4) (msg : Bytes) (s : State) (hw : Sub 0x18010030000 W) :
    OutKeeps W s (execBeaconReceive port msg s) := by
  unfold execBeaconReceive
  have h := Keeps.refl W s
  try dsimp only [OutKeeps]
  with_reducible repeat' first
      | exact h | exact hw.mono (by decide) | apply State.beaconIn_keeps

theorem execAssignStart_keeps {W : Nat} (s : State) (hw : Sub 0x818010030048 W) :
    OutKeeps W s (execAssignStart s) := by
  unfold execAssignStart
  have h := Keeps.refl W s
  try dsimp only [OutKeeps]
  with_reducible repeat' first
      | exact h | exact hw.mono (by decide) | apply State.assignStart_keeps

theorem execAssignReceive_keeps {W : Nat} (port : Fin 4) (msg : Bytes) (s : State) (hw : Sub 0x818010030048 W) :
    OutKeeps W s (execAssignReceive port msg s) := by
  unfold execAssignReceive
  have h := Keeps.refl W s
  try dsimp only [OutKeeps]
  with_reducible repeat' first
      | exact h | assumption | exact hw.mono (by decide)
      | refine State.oneCycle_keeps (fun _ _ _ => ?_) (hw.mono (by decide)) ?_ | apply State.assignIn_keeps

theorem execAcceptReceive_keeps {W : Nat} (port : Fin 4) (msg : Bytes) (s : State) (hw : Sub 0x20000 W) :
    OutKeeps W s (execAcceptReceive port msg s) := by
  unfold execAcceptReceive
  have h := Keeps.refl W s
  try dsimp only [OutKeeps]
  with_reducible repeat' first
      | exact h | exact hw.mono (by decide) | apply State.acceptIn_keeps

theorem execRefuseReceive_keeps {W : Nat} (port : Fin 4) (s : State) (hw : Sub 0x818010030048 W) :
    OutKeeps W s (execRefuseReceive port s) := by
  unfold execRefuseReceive
  have h := Keeps.refl W s
  try dsimp only [OutKeeps]
  with_reducible repeat' first
      | exact h | exact hw.mono (by decide) | apply State.refuseIn_keeps

theorem execDoneReceive_keeps {W : Nat} (port : Fin 4) (msg : Bytes) (s : State) (hw : Sub 0x818010030048 W) :
    OutKeeps W s (execDoneReceive port msg s) := by
  unfold execDoneReceive
  have h := Keeps.refl W s
  try dsimp only [OutKeeps]
  with_reducible repeat' first
      | exact h | exact hw.mono (by decide) | apply State.doneIn_keeps

theorem execLostReceive_keeps {W : Nat}  (s : State) (hw : Sub 0x18010030000 W) :
    OutKeeps W s (execLostReceive s) := by
  unfold execLostReceive
  have h := Keeps.refl W s
  try dsimp only [OutKeeps]
  with_reducible repeat' first
      | exact h | exact hw.mono (by decide) | apply State.treeLost_keeps

theorem execAssignTimeout_keeps {W : Nat} (s : State) (hw : Sub 0x818010030048 W) :
    OutKeeps W s (execAssignTimeout s) := by
  unfold execAssignTimeout
  have h := Keeps.refl W s
  try dsimp only [OutKeeps]
  with_reducible repeat' first
      | exact h | assumption | exact hw.mono (by decide)
      | refine State.oneCycle_keeps (fun _ _ _ => ?_) (hw.mono (by decide)) ?_ | apply State.assignTimeout_keeps

theorem execDoneTimeout_keeps {W : Nat} (s : State) (hw : Sub 0x818010030048 W) :
    OutKeeps W s (execDoneTimeout s) := by
  unfold execDoneTimeout
  have h := Keeps.refl W s
  try dsimp only [OutKeeps]
  with_reducible repeat' first
      | exact h | assumption | exact hw.mono (by decide)
      | refine State.oneCycle_keeps (fun _ _ _ => ?_) (hw.mono (by decide)) ?_ | apply State.doneTimeout_keeps

theorem execLnkCtrlRediscover_keeps {W : Nat} (s : State) (hw : Sub 0x18030030000 W) :
    OutKeeps W s (execLnkCtrlRediscover s) := by
  unfold execLnkCtrlRediscover
  have h := Keeps.refl W s
  refine OutKeeps.gate (hw.mono (by decide)) ?_
  try dsimp only [OutKeeps]
  with_reducible repeat' first
      | exact h | exact hw.mono (by decide) | apply State.treeLost_keeps

/-! ### Wall -/

theorem State.genlockDrive_keeps {W : Nat} {r s : State} 
    (hw : Sub 0x10040000 W) (h : Keeps W r s) : Keeps W r (State.genlockDrive s) := by
  unfold State.genlockDrive
  try dsimp only
  with_reducible repeat' first
      | exact h | exact hw.mono (by decide) | apply State.put_keeps | fail_if_no_progress refine Keeps.upd hw ?_
      | refine Keeps.ite ?_ ?_

theorem State.flood_keeps {W : Nat} {r s : State} (mtype : ℕ) (except : ℕ) (body : Bytes)
    (hw : Sub 0x18010030000 W) (h : Keeps W r s) : Keeps W r (State.flood s mtype except body) := by
  unfold State.flood
  try dsimp only
  with_reducible repeat' first
      | exact h | assumption | exact hw.mono (by decide) | apply State.sendLocal_keeps
      | refine Keeps.foldl (fun _ _ _ => ?_) _ ?_

theorem State.tokenMismatch_keeps {W : Nat} {r s : State} (own : ℕ) (frame : ℕ)
    (hw : Sub 0x800010000048 W) (h : Keeps W r s) : Keeps W r (State.tokenMismatch s own frame) := by
  unfold State.tokenMismatch
  try dsimp only
  with_reducible repeat' first
      | exact h | exact hw.mono (by decide) | apply State.report_keeps

theorem State.useTick_keeps {W : Nat} {r s : State} (p : ℕ) (b : Bytes)
    (hw : Sub 0x838010070058 W) (h : Keeps W r s) : Keeps W r (State.useTick s p b) := by
  unfold State.useTick
  try dsimp only
  with_reducible repeat' first
      | exact h | exact hw.mono (by decide) | apply State.wrF_keeps | apply State.wr_keeps | apply State.report_keeps
      | apply State.tokenMismatch_keeps | apply State.setFrame_keeps | apply State.flood_keeps
      | fail_if_no_progress refine Keeps.upd hw ?_ | refine Keeps.ite ?_ ?_

theorem State.tickIn_keeps {W : Nat} {r s : State} (p : ℕ) (msg : Bytes)
    (hw : Sub 0x838010070058 W) (h : Keeps W r s) : Keeps W r (State.tickIn s p msg) := by
  unfold State.tickIn
  try dsimp only
  with_reducible repeat' first
      | exact h | exact hw.mono (by decide) | apply State.useTick_keeps | apply State.report_keeps
      | apply State.wrF_keeps | fail_if_no_progress refine Keeps.upd hw ?_ | refine Keeps.ite ?_ ?_ | dsimp only
      | split

theorem State.tickOut_keeps {W : Nat} {r s : State} 
    (hw : Sub 0x18010070000 W) (h : Keeps W r s) : Keeps W r (State.tickOut s) := by
  unfold State.tickOut
  try dsimp only
  with_reducible repeat' first
      | exact h | exact hw.mono (by decide) | apply State.flood_keeps | fail_if_no_progress refine Keeps.upd hw ?_
      | refine Keeps.ite ?_ ?_

theorem State.sourceInForce_keeps {W : Nat} {r s : State} 
    (hw : Sub 0x100000010 W) (h : Keeps W r s) : Keeps W r (State.sourceInForce s) := by
  unfold State.sourceInForce
  try dsimp only
  with_reducible repeat' first
      | exact h | exact hw.mono (by decide) | apply State.wrF_keeps | fail_if_no_progress refine Keeps.upd hw ?_

theorem State.masterClaim_keeps {W : Nat} {r s : State} 
    (hw : Sub 0x838110070058 W) (h : Keeps W r s) : Keeps W r (State.masterClaim s) := by
  unfold State.masterClaim
  try dsimp only
  with_reducible repeat' first
      | exact h | exact hw.mono (by decide) | apply State.setFrame_keeps | apply State.wrF_keeps
      | apply State.wr_keeps | apply State.report_keeps | fail_if_no_progress refine Keeps.upd hw ?_
      | refine Keeps.ite ?_ ?_ | dsimp only | split | apply State.tickOut_keeps | apply State.sourceInForce_keeps

theorem State.tickMissed_keeps {W : Nat} {r s : State} 
    (hw : Sub 0x820010040048 W) (h : Keeps W r s) : Keeps W r (State.tickMissed s) := by
  unfold State.tickMissed
  try dsimp only
  with_reducible repeat' first
      | exact h | exact hw.mono (by decide) | apply State.bump_keeps | apply State.bumpF_keeps
      | apply State.report_keeps | fail_if_no_progress refine Keeps.upd hw ?_ | refine Keeps.ite ?_ ?_

theorem State.badEdge_keeps {W : Nat} {r s : State} 
    (hw : Sub 0x820010040048 W) (h : Keeps W r s) : Keeps W r (State.badEdge s) := by
  unfold State.badEdge
  try dsimp only
  with_reducible repeat' first
      | exact h | exact hw.mono (by decide) | apply State.wrF_keeps | apply State.report_keeps
      | fail_if_no_progress refine Keeps.upd hw ?_ | refine Keeps.ite ?_ ?_

theorem State.goodEdge_keeps {W : Nat} {r s : State} (period : ℕ)
    (hw : Sub 0x820010040048 W) (h : Keeps W r s) : Keeps W r (State.goodEdge s period) := by
  unfold State.goodEdge
  try dsimp only
  with_reducible repeat' first
      | exact h | exact hw.mono (by decide) | apply State.wrF_keeps | apply State.report_keeps
      | fail_if_no_progress refine Keeps.upd hw ?_ | refine Keeps.ite ?_ ?_

theorem State.genlockEdge_keeps {W : Nat} {r s : State} 
    (hw : Sub 0x820010040048 W) (h : Keeps W r s) : Keeps W r (State.genlockEdge s) := by
  unfold State.genlockEdge
  try dsimp only
  with_reducible repeat' first
      | exact h | exact hw.mono (by decide) | apply State.wrF_keeps | apply State.goodEdge_keeps
      | apply State.badEdge_keeps | fail_if_no_progress refine Keeps.upd hw ?_ | refine Keeps.ite ?_ ?_ | dsimp only
      | split

theorem State.noteVote_keeps {W : Nat} {r s : State} (own : Vote) (all : Vote)
    (hw : Sub 0x20000000000 W) (h : Keeps W r s) : Keeps W r (State.noteVote s own all) := by
  unfold State.noteVote
  try dsimp only
  with_reducible repeat' first
      | exact h | exact hw.mono (by decide) | apply State.wr_keeps

theorem State.rootDecide_keeps {W : Nat} {r s : State} 
    (hw : Sub 0x838010070048 W) (h : Keeps W r s) : Keeps W r (State.rootDecide s) := by
  unfold State.rootDecide
  try dsimp only
  with_reducible repeat' first
      | exact h | exact hw.mono (by decide) | apply State.noteVote_keeps | apply State.report_keeps
      | apply State.flood_keeps | fail_if_no_progress refine Keeps.upd hw ?_ | refine Keeps.ite ?_ ?_ | dsimp only
      | split

theorem State.voteSend_keeps {W : Nat} {r s : State} 
    (hw : Sub 0x38010070000 W) (h : Keeps W r s) : Keeps W r (State.voteSend s) := by
  unfold State.voteSend
  try dsimp only
  with_reducible repeat' first
      | exact h | exact hw.mono (by decide) | apply State.noteVote_keeps | apply State.sendLocal_keeps
      | fail_if_no_progress refine Keeps.upd hw ?_ | refine Keeps.ite ?_ ?_ | dsimp only | split

theorem State.voteProgress_keeps {W : Nat} {r s : State} 
    (hw : Sub 0x838010070048 W) (h : Keeps W r s) : Keeps W r (State.voteProgress s) := by
  unfold State.voteProgress
  try dsimp only
  with_reducible repeat' first
      | exact h | exact hw.mono (by decide) | apply State.rootDecide_keeps | apply State.voteSend_keeps
      | refine Keeps.ite ?_ ?_

theorem State.wallCommitPoint_keeps {W : Nat} {r s : State} (ready : Bool)
    (hw : Sub 0x838010070048 W) (h : Keeps W r s) : Keeps W r (State.wallCommitPoint s ready) := by
  unfold State.wallCommitPoint
  try dsimp only
  with_reducible repeat' first
      | exact h | exact hw.mono (by decide) | apply State.tickMissed_keeps | apply State.wrF_keeps
      | apply State.report_keeps | apply State.voteProgress_keeps | fail_if_no_progress refine Keeps.upd hw ?_
      | refine Keeps.ite ?_ ?_

theorem State.sendMember_keeps {W : Nat} {r s : State} (p : ℕ) (st : ℕ)
    (hw : Sub 0x18010030000 W) (h : Keeps W r s) : Keeps W r (State.sendMember s p st) := by
  unfold State.sendMember
  try dsimp only
  with_reducible repeat' first
      | exact h | exact hw.mono (by decide) | apply State.sendLocal_keeps

theorem State.childDeadline_keeps {W : Nat} {r s : State} (p : ℕ) (c : Child)
    (hw : Sub 0x818010030048 W) (h : Keeps W r s) : Keeps W r (State.childDeadline s p c).1 := by
  unfold State.childDeadline
  try dsimp only
  with_reducible repeat' first
      | exact h | exact hw.mono (by decide) | apply State.report_keeps | apply State.sendMember_keeps
      | refine Keeps.ite ?_ ?_ | refine Keeps.iteFst ?_ ?_ | dsimp only | split

theorem State.voteDeadline_keeps {W : Nat} {r s : State} 
    (hw : Sub 0x838010070048 W) (h : Keeps W r s) : Keeps W r (State.voteDeadline s) := by
  unfold State.voteDeadline
  try dsimp only
  with_reducible repeat' first
      | exact h | assumption | exact hw.mono (by decide) | apply State.voteSend_keeps
      | apply State.childDeadline_keeps | refine Keeps.foldl (fun _ _ _ => ?_) _ ?_
      | refine Keeps.foldlPair (fun _ _ _ => ?_) _ ?_ | fail_if_no_progress refine Keeps.upd hw ?_
      | refine Keeps.ite ?_ ?_

theorem State.voteIn_keeps {W : Nat} {r s : State} (p : ℕ) (msg : Bytes)
    (hw : Sub 0x838010070048 W) (h : Keeps W r s) : Keeps W r (State.voteIn s p msg) := by
  unfold State.voteIn
  try dsimp only
  with_reducible repeat' first
      | exact h | exact hw.mono (by decide) | apply State.bump_keeps | apply State.voteProgress_keeps
      | fail_if_no_progress refine Keeps.upd hw ?_ | refine Keeps.ite ?_ ?_

theorem State.memberIn_keeps {W : Nat} {r s : State} (msg : Bytes)
    (hw : Sub 0x20000100000 W) (h : Keeps W r s) : Keeps W r (State.memberIn s msg) := by
  unfold State.memberIn
  try dsimp only
  with_reducible repeat' first
      | exact h | exact hw.mono (by decide) | apply State.wrF_keeps | fail_if_no_progress refine Keeps.upd hw ?_
      | refine Keeps.ite ?_ ?_

theorem State.rootTakeover_keeps {W : Nat} {r s : State} 
    (hw : Sub 0x820010000048 W) (h : Keeps W r s) : Keeps W r (State.rootTakeover s) := by
  unfold State.rootTakeover
  try dsimp only
  with_reducible repeat' first
      | exact h | exact hw.mono (by decide) | apply State.report_keeps | apply State.wrF_keeps
      | refine Keeps.ite ?_ ?_ | dsimp only | split

theorem State.decisionIn_keeps {W : Nat} {r s : State} (p : ℕ) (msg : Bytes)
    (hw : Sub 0x838010070048 W) (h : Keeps W r s) : Keeps W r (State.decisionIn s p msg) := by
  unfold State.decisionIn
  try dsimp only
  with_reducible repeat' first
      | exact h | exact hw.mono (by decide) | apply State.report_keeps | apply State.bump_keeps
      | apply State.flood_keeps | apply State.wrF_keeps | fail_if_no_progress refine Keeps.upd hw ?_
      | refine Keeps.ite ?_ ?_ | dsimp only | split

theorem State.noteDecision_keeps {W : Nat} {r s : State} (kind : ℕ) (loc : Bool) (run : ℕ)
    (hw : Sub 0x20000000000 W) (h : Keeps W r s) : Keeps W r (State.noteDecision s kind loc run) := by
  unfold State.noteDecision
  try dsimp only
  with_reducible repeat' first
      | exact h | exact hw.mono (by decide) | apply State.wr_keeps

theorem State.wallDecide_keeps {W : Nat} {r s : State} 
    (hw : Sub 0x820010040058 W) (h : Keeps W r s) : Keeps W r (State.wallDecide s).1 := by
  unfold State.wallDecide
  try dsimp only
  with_reducible repeat' first
      | exact h | exact hw.mono (by decide) | apply State.tokenMismatch_keeps | apply State.setFrame_keeps
      | apply State.wrF_keeps | apply State.wr_keeps | apply State.bump_keeps | apply State.noteDecision_keeps
      | apply State.bumpF_keeps | apply State.report_keeps | fail_if_no_progress refine Keeps.upd hw ?_
      | refine Keeps.ite ?_ ?_ | refine Keeps.iteFst ?_ ?_ | dsimp only | split

theorem State.wallTick_keeps {W : Nat} {r s : State} 
    (hw : Sub 0x38110070010 W) (h : Keeps W r s) : Keeps W r (State.wallTick s) := by
  unfold State.wallTick
  try dsimp only
  with_reducible repeat' first
      | exact h | exact hw.mono (by decide) | apply State.wrF_keeps | apply State.tickOut_keeps
      | fail_if_no_progress refine Keeps.upd hw ?_ | refine Keeps.ite ?_ ?_ | dsimp only | split
      | apply State.genlockDrive_keeps | apply State.sourceInForce_keeps

theorem State.walGenlock_keeps {W : Nat} {r s : State} (v : ℕ)
    (hw : Sub 0x20010040000 W) (h : Keeps W r s) : Keeps W r (State.walGenlock s v) := by
  unfold State.walGenlock
  try dsimp only
  with_reducible repeat' first
      | exact h | exact hw.mono (by decide) | apply State.genlockDrive_keeps | apply State.regWrite_keeps

theorem State.wallJoin_keeps {W : Nat} {r s : State} 
    (hw : Sub 0x20000040000 W) (h : Keeps W r s) : Keeps W r (State.wallJoin s) := by
  unfold State.wallJoin
  try dsimp only
  with_reducible repeat' first
      | exact h | exact hw.mono (by decide) | apply State.wrF_keeps | fail_if_no_progress refine Keeps.upd hw ?_

theorem State.walCtrl_keeps {W : Nat} {r s : State} (v : ℕ)
    (hw : Sub 0x20000000000 W) (h : Keeps W r s) : Keeps W r (State.walCtrl s v) := by
  unfold State.walCtrl
  try dsimp only
  with_reducible repeat' first
      | exact h | exact hw.mono (by decide) | apply State.regWrite_keeps | apply State.wrF_keeps
      | refine Keeps.ite ?_ ?_

theorem execTickMessageReceive_keeps {W : Nat} (port : Fin 4) (msg : Bytes) (s : State) (hw : Sub 0x838010070058 W) :
    OutKeeps W s (execTickMessageReceive port msg s) := by
  unfold execTickMessageReceive
  have h := Keeps.refl W s
  try dsimp only [OutKeeps]
  with_reducible repeat' first
      | exact h | assumption | exact hw.mono (by decide)
      | refine State.oneCycle_keeps (fun _ _ _ => ?_) (hw.mono (by decide)) ?_ | apply State.tickIn_keeps

theorem execDecisionReceive_keeps {W : Nat} (port : Fin 4) (msg : Bytes) (s : State) (hw : Sub 0x838010070048 W) :
    OutKeeps W s (execDecisionReceive port msg s) := by
  unfold execDecisionReceive
  have h := Keeps.refl W s
  try dsimp only [OutKeeps]
  with_reducible repeat' first
      | exact h | assumption | exact hw.mono (by decide)
      | refine State.oneCycle_keeps (fun _ _ _ => ?_) (hw.mono (by decide)) ?_ | apply State.decisionIn_keeps

theorem execVoteReceive_keeps {W : Nat} (port : Fin 4) (msg : Bytes) (s : State) (hw : Sub 0x838010070048 W) :
    OutKeeps W s (execVoteReceive port msg s) := by
  unfold execVoteReceive
  have h := Keeps.refl W s
  try dsimp only [OutKeeps]
  with_reducible repeat' first
      | exact h | assumption | exact hw.mono (by decide)
      | refine State.oneCycle_keeps (fun _ _ _ => ?_) (hw.mono (by decide)) ?_ | apply State.voteIn_keeps

theorem execMemberReceive_keeps {W : Nat} (msg : Bytes) (s : State) (hw : Sub 0x20000100000 W) :
    OutKeeps W s (execMemberReceive msg s) := by
  unfold execMemberReceive
  have h := Keeps.refl W s
  try dsimp only [OutKeeps]
  with_reducible repeat' first
      | exact h | exact hw.mono (by decide) | apply State.memberIn_keeps

theorem execVoteDeadline_keeps {W : Nat} (s : State) (hw : Sub 0x838010070048 W) :
    OutKeeps W s (execVoteDeadline s) := by
  unfold execVoteDeadline
  have h := Keeps.refl W s
  try dsimp only [OutKeeps]
  with_reducible repeat' first
      | exact h | assumption | exact hw.mono (by decide)
      | refine State.oneCycle_keeps (fun _ _ _ => ?_) (hw.mono (by decide)) ?_ | apply State.voteDeadline_keeps

theorem execRootDecide_keeps {W : Nat} (s : State) (hw : Sub 0x838010070048 W) :
    OutKeeps W s (execRootDecide s) := by
  unfold execRootDecide
  have h := Keeps.refl W s
  try dsimp only [OutKeeps]
  with_reducible repeat' first
      | exact h | assumption | exact hw.mono (by decide)
      | refine State.oneCycle_keeps (fun _ _ _ => ?_) (hw.mono (by decide)) ?_ | apply State.rootDecide_keeps

theorem execMasterClaim_keeps {W : Nat} (s : State) (hw : Sub 0x838110070058 W) :
    OutKeeps W s (execMasterClaim s) := by
  unfold execMasterClaim
  have h := Keeps.refl W s
  try dsimp only [OutKeeps]
  with_reducible repeat' first
      | exact h | exact hw.mono (by decide) | apply State.masterClaim_keeps

theorem execRootTakeover_keeps {W : Nat} (s : State) (hw : Sub 0x820010000048 W) :
    OutKeeps W s (execRootTakeover s) := by
  unfold execRootTakeover
  have h := Keeps.refl W s
  try dsimp only [OutKeeps]
  with_reducible repeat' first
      | exact h | exact hw.mono (by decide) | apply State.rootTakeover_keeps

theorem execGenlockEdge_keeps {W : Nat} (s : State) (hw : Sub 0x820010040048 W) :
    OutKeeps W s (execGenlockEdge s) := by
  unfold execGenlockEdge
  have h := Keeps.refl W s
  try dsimp only [OutKeeps]
  with_reducible repeat' first
      | exact h | assumption | exact hw.mono (by decide)
      | refine State.oneCycle_keeps (fun _ _ _ => ?_) (hw.mono (by decide)) ?_ | apply State.genlockEdge_keeps

theorem execGenlockEdgeMissed_keeps {W : Nat} (s : State) (hw : Sub 0x820010040048 W) :
    OutKeeps W s (execGenlockEdgeMissed s) := by
  unfold execGenlockEdgeMissed
  have h := Keeps.refl W s
  try dsimp only [OutKeeps]
  with_reducible repeat' first
      | exact h | exact hw.mono (by decide) | apply State.badEdge_keeps | refine Keeps.ite ?_ ?_

end Sys2Proof.Machine
end

