-- ==== Sys2Proof/Laws/KeepsEtcher.lean ====
section
/-! SUPPORT. Every operation and meaning of the Etcher and ageing (Machine/Etcher.lean and Ageing.lean)
keeps what `Keeps` says. -/

-- One theorem at a time: hundreds of them at once would need more thread stacks than a check may map.
set_option Elab.async false
namespace Sys2Proof.Machine

/-! ### Etcher -/

theorem State.writeFurrow_keeps {W : Nat} {r s : State} (f : ℕ) (codes : List (List ℕ))
    (hw : Sub 0x8000124000d8 W) (h : Keeps W r s) : Keeps W r (State.writeFurrow s f codes) := by
  unfold State.writeFurrow
  try dsimp only
  with_reducible repeat' first
      | exact h | assumption | exact hw.mono (by decide) | apply State.setPoison_keeps
      | refine Keeps.foldl (fun _ _ _ => ?_) _ ?_ | refine Keeps.foldlPair (fun _ _ _ => ?_) _ ?_
      | fail_if_no_progress refine Keeps.upd hw ?_ | apply State.engineSet_keeps | refine Keeps.ite ?_ ?_

theorem State.codeFurrow_keeps {W : Nat} {r s : State} (f : ℕ) (hs : List HglEntry)
    (hw : Sub 0x84009e400cdc W) (h : Keeps W r s) : Keeps W r (State.codeFurrow s f hs) := by
  unfold State.codeFurrow
  try dsimp only
  with_reducible repeat' first
      | exact h | exact hw.mono (by decide) | apply State.writeFurrow_keeps | apply State.bumpBy_keeps
      | apply State.refuseRange_keeps | refine Keeps.ite ?_ ?_ | apply State.queueRead_keeps

theorem State.codeProof_keeps {W : Nat} {r s : State} (f : ℕ)
    (hw : Sub 0x8000124000d8 W) (h : Keeps W r s) : Keeps W r (State.codeProof s f) := by
  unfold State.codeProof
  try dsimp only
  with_reducible repeat' first
      | exact h | exact hw.mono (by decide) | apply State.writeFurrow_keeps

theorem State.modDriver_keeps {W : Nat} {r s : State} (j : ℕ) (f : Driver → Driver)
    (hw : Sub 0x80 W) (h : Keeps W r s) : Keeps W r (State.modDriver s j f) := by
  unfold State.modDriver
  try dsimp only
  with_reducible repeat' first
      | exact h | exact hw.mono (by decide) | fail_if_no_progress refine Keeps.upd hw ?_

theorem State.sendPanel_keeps {W : Nat} {r s : State} (j : ℕ) (type : ℕ) (furrow : ℕ) (arg : ℕ) (payload : Bytes)
    (hw : Sub 0x10000080 W) (h : Keeps W r s) : Keeps W r (State.sendPanel s j type furrow arg payload) := by
  unfold State.sendPanel
  try dsimp only
  with_reducible repeat' first
      | exact h | exact hw.mono (by decide) | apply State.put_keeps | fail_if_no_progress refine Keeps.upd hw ?_
      | refine Keeps.ite ?_ ?_

theorem State.sendConfig_keeps {W : Nat} {r s : State} (j : ℕ) (set : ℕ)
    (hw : Sub 0x10000080 W) (h : Keeps W r s) : Keeps W r (State.sendConfig s j set) := by
  unfold State.sendConfig
  try dsimp only
  with_reducible repeat' first
      | exact h | exact hw.mono (by decide) | apply State.sendPanel_keeps

theorem State.sendTickPacket_keeps {W : Nat} {r s : State} (j : ℕ)
    (hw : Sub 0x10000080 W) (h : Keeps W r s) : Keeps W r (State.sendTickPacket s j) := by
  unfold State.sendTickPacket
  try dsimp only
  with_reducible repeat' first
      | exact h | exact hw.mono (by decide) | apply State.sendPanel_keeps

theorem State.sendStatusReq_keeps {W : Nat} {r s : State} (j : ℕ) (convert : Bool)
    (hw : Sub 0x10000080 W) (h : Keeps W r s) : Keeps W r (State.sendStatusReq s j convert) := by
  unfold State.sendStatusReq
  try dsimp only
  with_reducible repeat' first
      | exact h | exact hw.mono (by decide) | apply State.sendPanel_keeps

theorem State.toDrivers_keeps {W : Nat} {r s : State} (which : State → ℕ → Bool) (send : State → ℕ → State)
    (hs : ∀ x j, Keeps W r x → Keeps W r (send x j)) (hw : Sub 0x0 W) (h : Keeps W r s) : Keeps W r (State.toDrivers s which send) := by
  unfold State.toDrivers
  try dsimp only
  with_reducible repeat' first
      | exact h | apply hs | assumption | exact hw.mono (by decide) | refine Keeps.foldl (fun _ _ _ => ?_) _ ?_
      | refine Keeps.foldlPair (fun _ _ _ => ?_) _ ?_ | refine Keeps.ite ?_ ?_

theorem State.txFurrow_keeps {W : Nat} {r s : State} (f : ℕ) (cut : List (ℕ × ℕ))
    (hw : Sub 0x8002100002d8 W) (h : Keeps W r s) : Keeps W r (State.txFurrow s f cut) := by
  unfold State.txFurrow
  try dsimp only
  with_reducible repeat' first
      | exact h | assumption | exact hw.mono (by decide) | apply State.poisonConsumed_keeps
      | refine State.toDrivers_keeps _ _ (fun _ _ _ => ?_) (hw.mono (by decide)) ?_ | apply State.sendPanel_keeps
      | refine Keeps.foldl (fun _ _ _ => ?_) _ ?_ | refine Keeps.foldlPair (fun _ _ _ => ?_) _ ?_
      | fail_if_no_progress refine Keeps.upd hw ?_ | refine Keeps.ite ?_ ?_ | apply State.engineRefuse_keeps

theorem State.addStress_keeps {W : Nat} {r s : State} (f : ℕ)
    (hw : Sub 0x84209e408c4c W) (h : Keeps W r s) : Keeps W r (State.addStress s f) := by
  unfold State.addStress
  try dsimp only
  with_reducible repeat' first
      | exact h | assumption | exact hw.mono (by decide) | apply State.refuseRange_keeps | apply State.memSet_keeps
      | apply State.bump_keeps | apply State.report_keeps | refine Keeps.foldl (fun _ _ _ => ?_) _ ?_
      | refine Keeps.foldlPair (fun _ _ _ => ?_) _ ?_ | fail_if_no_progress refine Keeps.upd hw ?_
      | refine Keeps.ite ?_ ?_ | apply State.queueWrite_keeps | apply State.queueRead_keeps

theorem State.sayStale_keeps {W : Nat} {r s : State} 
    (hw : Sub 0x8000100000c8 W) (h : Keeps W r s) : Keeps W r (State.sayStale s) := by
  unfold State.sayStale
  try dsimp only
  with_reducible repeat' first
      | exact h | exact hw.mono (by decide) | apply State.report_keeps | fail_if_no_progress refine Keeps.upd hw ?_
      | refine Keeps.ite ?_ ?_

theorem State.txEnd_keeps {W : Nat} {r s : State} 
    (hw : Sub 0x84209e408ccc W) (h : Keeps W r s) : Keeps W r (State.txEnd s) := by
  unfold State.txEnd
  try dsimp only
  with_reducible repeat' first
      | exact h | exact hw.mono (by decide) | apply State.sayStale_keeps | apply State.addStress_keeps
      | fail_if_no_progress refine Keeps.upd hw ?_ | refine Keeps.ite ?_ ?_

theorem State.rowScan_keeps {W : Nat} {r s : State} (f : ℕ)
    (hw : Sub 0x10000080 W) (h : Keeps W r s) : Keeps W r (State.rowScan s f) := by
  unfold State.rowScan
  try dsimp only
  with_reducible repeat' first
      | exact h | assumption | exact hw.mono (by decide) | apply State.put_keeps | fail_if_no_progress refine Keeps.upd hw ?_
      | refine Keeps.ite ?_ ?_
      | refine Keeps.foldl (fun _ _ _ => ?_) _ ?_

theorem State.carryScan_keeps {W : Nat} {r s : State} 
    (hw : Sub 0x80 W) (h : Keeps W r s) : Keeps W r (State.carryScan s) := by
  unfold State.carryScan
  try dsimp only
  with_reducible repeat' first
      | exact h | exact hw.mono (by decide) | fail_if_no_progress refine Keeps.upd hw ?_ | refine Keeps.ite ?_ ?_

theorem State.polarityCheck_keeps {W : Nat} {r s : State} 
    (hw : Sub 0x8040100000c8 W) (h : Keeps W r s) : Keeps W r (State.polarityCheck s) := by
  unfold State.polarityCheck
  try dsimp only
  with_reducible repeat' first
      | exact h | assumption | exact hw.mono (by decide) | apply State.report_keeps | apply State.bumpBy_keeps
      | refine Keeps.foldl (fun _ _ _ => ?_) _ ?_ | refine Keeps.foldlPair (fun _ _ _ => ?_) _ ?_
      | fail_if_no_progress refine Keeps.upd hw ?_ | refine Keeps.ite ?_ ?_

theorem State.etcCommitPoint_keeps {W : Nat} {r s : State} 
    (hw : Sub 0x4010000080 W) (h : Keeps W r s) : Keeps W r (State.etcCommitPoint s) := by
  unfold State.etcCommitPoint
  try dsimp only
  with_reducible repeat' first
      | exact h | assumption | exact hw.mono (by decide) | refine State.toDrivers_keeps _ _ (fun _ _ _ => ?_) (hw.mono (by decide)) ?_ | apply State.wrF_keeps
      | apply State.sendConfig_keeps

theorem State.waveBoundary_keeps {W : Nat} {r s : State} 
    (hw : Sub 0x8040100000c8 W) (h : Keeps W r s) : Keeps W r (State.waveBoundary s) := by
  unfold State.waveBoundary
  try dsimp only
  with_reducible repeat' first
      | exact h | exact hw.mono (by decide) | apply State.report_keeps | apply State.wrF_keeps
      | refine Keeps.ite ?_ ?_ | assumption | refine State.toDrivers_keeps _ _ (fun _ _ _ => ?_) (hw.mono (by decide)) ?_ | apply State.modDriver_keeps

theorem State.pollDrivers_keeps {W : Nat} {r s : State} (convert : Bool)
    (hw : Sub 0x10010080 W) (h : Keeps W r s) : Keeps W r (State.pollDrivers s convert) := by
  unfold State.pollDrivers
  try dsimp only
  with_reducible repeat' first
      | exact h | assumption | exact hw.mono (by decide) | refine State.toDrivers_keeps _ _ (fun _ _ _ => ?_) (hw.mono (by decide)) ?_ | apply State.modPanel_keeps
      | apply State.sendStatusReq_keeps | refine Keeps.ite ?_ ?_

theorem State.etcTick_keeps {W : Nat} {r s : State} 
    (hw : Sub 0x8040100000c8 W) (h : Keeps W r s) : Keeps W r (State.etcTick s) := by
  unfold State.etcTick
  try dsimp only
  with_reducible repeat' first
      | exact h | exact hw.mono (by decide) | apply State.sayStale_keeps | apply State.wr_keeps
      | fail_if_no_progress refine Keeps.upd hw ?_

theorem State.returnBad_keeps {W : Nat} {r s : State} (check : Bool)
    (hw : Sub 0x8040100000c8 W) (h : Keeps W r s) : Keeps W r (State.returnBad s check) := by
  unfold State.returnBad
  try dsimp only
  with_reducible repeat' first
      | exact h | exact hw.mono (by decide) | apply State.bump_keeps | apply State.report_keeps
      | fail_if_no_progress refine Keeps.upd hw ?_ | refine Keeps.ite ?_ ?_

theorem State.driverStatus_keeps {W : Nat} {r s : State} (j : ℕ) (b : Bytes)
    (hw : Sub 0x90c0100181c8 W) (h : Keeps W r s) : Keeps W r (State.driverStatus s j b) := by
  unfold State.driverStatus
  try dsimp only
  with_reducible repeat' first
      | exact h | exact hw.mono (by decide) | apply State.report_keeps | apply State.wrF_keeps
      | apply State.modDriver_keeps | apply State.bumpBy_keeps | apply State.panelReading_keeps
      | apply State.plStatus_keeps | fail_if_no_progress refine Keeps.upd hw ?_ | refine Keeps.ite ?_ ?_

theorem State.statusIn_keeps {W : Nat} {r s : State} (b : Bytes)
    (hw : Sub 0x90c0100181c8 W) (h : Keeps W r s) : Keeps W r (State.statusIn s b) := by
  unfold State.statusIn
  try dsimp only
  with_reducible repeat' first
      | exact h | exact hw.mono (by decide) | apply State.returnBad_keeps | apply State.driverStatus_keeps
      | refine Keeps.ite ?_ ?_

theorem State.driverLost_keeps {W : Nat} {r s : State} (j : ℕ)
    (hw : Sub 0x8040100000c8 W) (h : Keeps W r s) : Keeps W r (State.driverLost s j) := by
  unfold State.driverLost
  try dsimp only
  with_reducible repeat' first
      | exact h | exact hw.mono (by decide) | apply State.report_keeps | apply State.wrF_keeps
      | apply State.modDriver_keeps | refine Keeps.ite ?_ ?_

theorem State.greetDriver_keeps {W : Nat} {r s : State} (j : ℕ)
    (hw : Sub 0x10000080 W) (h : Keeps W r s) : Keeps W r (State.greetDriver s j) := by
  unfold State.greetDriver
  try dsimp only
  with_reducible repeat' first
      | exact h | exact hw.mono (by decide) | apply State.modDriver_keeps | apply State.sendStatusReq_keeps
      | apply State.sendTickPacket_keeps | apply State.sendConfig_keeps

theorem State.driverEnter_keeps {W : Nat} {r s : State} (m : ℕ)
    (hw : Sub 0x10000080 W) (h : Keeps W r s) : Keeps W r (State.driverEnter s m) := by
  unfold State.driverEnter
  try dsimp only
  with_reducible repeat' first
      | exact h | assumption | exact hw.mono (by decide) | refine State.toDrivers_keeps _ _ (fun _ _ _ => ?_) (hw.mono (by decide)) ?_ | apply State.greetDriver_keeps

theorem State.driverBack_keeps {W : Nat} {r s : State} (j : ℕ)
    (hw : Sub 0x8040100000c8 W) (h : Keeps W r s) : Keeps W r (State.driverBack s j) := by
  unfold State.driverBack
  try dsimp only
  with_reducible repeat' first
      | exact h | exact hw.mono (by decide) | apply State.greetDriver_keeps | apply State.report_keeps
      | apply State.wrF_keeps | refine Keeps.ite ?_ ?_

theorem State.takeSense_keeps {W : Nat} {r : State} (hw : Sub 0x8000 W) : ∀ (n : Nat) {s : State}, Keeps W r s →
    OptKeeps W r ((State.takeSense n s).map (·.2)) := by
  intro n
  induction n with
  | zero => intro s h; exact OptKeeps.none
  | succ n ih =>
    intro s h
    unfold State.takeSense
    dsimp only
    split
    · apply ih
      exact Keeps.upd hw h
    · exact OptKeeps.some (Keeps.upd hw h)

theorem State.takeSenses_keeps {W : Nat} {r : State} (hw : Sub 0x8000 W) : ∀ (n : Nat) {s : State} (l : List SenseReq), Keeps W r s →
    Keeps W r (State.takeSenses n s l).1 := by
  intro n
  induction n with
  | zero => intro s l h; exact h
  | succ n ih =>
    intro s l h
    unfold State.takeSenses
    split
    · exact h
    · rename_i e
      exact ih _ (OptKeeps.getSnd e (takeSense_keeps (hw.mono (by decide)) _ h))

theorem State.seekRow_keeps {W : Nat} {r s : State} (row : ℕ)
    (hw : Sub 0x10000000 W) (h : Keeps W r s) : Keeps W r (State.seekRow s row) := by
  unfold State.seekRow
  try dsimp only
  with_reducible repeat' first
      | exact h | exact hw.mono (by decide) | apply State.put_keeps

theorem State.senseOpen_keeps {W : Nat} {r s : State} (slot : ℕ)
    (hw : Sub 0x8040100080c8 W) (h : Keeps W r s) : Keeps W r (State.senseOpen s slot) := by
  unfold State.senseOpen
  try dsimp only
  with_reducible repeat' first
      | exact h | assumption | exact hw.mono (by decide) | apply State.wrF_keeps | apply State.takeSenses_keeps
      | apply State.report_keeps | refine State.toDrivers_keeps _ _ (fun _ _ _ => ?_) (hw.mono (by decide)) ?_
      | apply State.sendPanel_keeps | apply State.seekRow_keeps | refine Keeps.foldl (fun _ _ _ => ?_) _ ?_
      | refine Keeps.foldlPair (fun _ _ _ => ?_) _ ?_ | fail_if_no_progress refine Keeps.upd hw ?_
      | refine Keeps.ite ?_ ?_

theorem State.senseLast_keeps {W : Nat} {r s : State} (q : SenseReq) (vf : ℕ) (cls : ℕ)
    (hw : Sub 0x2000000000 W) (h : Keeps W r s) : Keeps W r (State.senseLast s q vf cls) := by
  unfold State.senseLast
  try dsimp only
  with_reducible repeat' first
      | exact h | exact hw.mono (by decide) | apply State.wr_keeps

theorem State.senseClose_keeps {W : Nat} {r s : State} 
    (hw : Sub 0x8060100000c8 W) (h : Keeps W r s) : Keeps W r (State.senseClose s) := by
  unfold State.senseClose
  try dsimp only
  with_reducible repeat' first
      | exact h | assumption | exact hw.mono (by decide) | apply State.wrF_keeps | apply State.senseLast_keeps
      | apply State.report_keeps | apply State.bump_keeps | refine Keeps.foldl (fun _ _ _ => ?_) _ ?_
      | refine Keeps.foldlPair (fun _ _ _ => ?_) _ ?_ | fail_if_no_progress refine Keeps.upd hw ?_
      | refine Keeps.ite ?_ ?_

theorem execEtcColRecord_keeps {W : Nat} (slot : Fin 560) (s : State) (hw : Sub 0x84009e400cdc W) :
    OutKeeps W s (execEtcColRecord slot s) := by
  unfold execEtcColRecord
  have h := Keeps.refl W s
  try dsimp only [OutKeeps]
  with_reducible repeat' first
      | exact h | exact hw.mono (by decide) | apply State.finish_keeps | apply State.codeProof_keeps
      | apply State.codeFurrow_keeps | refine Keeps.ite ?_ ?_ | dsimp only | split

theorem execEtcTxRecord_keeps {W : Nat} (slot : Fin 541) (cut : List (Fin 16 × Fin 12)) (s : State) (hw : Sub 0x8002100002d8 W) :
    OutKeeps W s (execEtcTxRecord slot cut s) := by
  unfold execEtcTxRecord
  have h := Keeps.refl W s
  try dsimp only [OutKeeps]
  with_reducible repeat' first
      | exact h | assumption | exact hw.mono (by decide)
      | refine State.toDrivers_keeps _ _ (fun _ _ _ => ?_) (hw.mono (by decide)) ?_ | apply State.sendTickPacket_keeps
      | apply State.txFurrow_keeps | refine Keeps.ite ?_ ?_ | dsimp only | split

theorem execEtcTxRecordEnd_keeps {W : Nat} (s : State) (hw : Sub 0x84209e408cdc W) :
    OutKeeps W s (execEtcTxRecordEnd s) := by
  unfold execEtcTxRecordEnd
  have h := Keeps.refl W s
  try dsimp only [OutKeeps]
  with_reducible repeat' first
      | exact h | assumption | exact hw.mono (by decide)
      | refine State.oneCycle_keeps (fun _ _ _ => ?_) (hw.mono (by decide)) ?_ | apply State.finish_keeps
      | apply State.txEnd_keeps

theorem execEtcRowScan_keeps {W : Nat} (furrow : Fin 540) (s : State) (hw : Sub 0x10000090 W) :
    OutKeeps W s (execEtcRowScan furrow s) := by
  unfold execEtcRowScan
  have h := Keeps.refl W s
  try dsimp only [OutKeeps]
  with_reducible repeat' first
      | exact h | exact hw.mono (by decide) | apply State.finish_keeps | apply State.rowScan_keeps

theorem execStatusPacketReceive_keeps {W : Nat} (_lane : Fin 2) (packet : Bytes) (s : State) (hw : Sub 0x90c0100181c8 W) :
    OutKeeps W s (execStatusPacketReceive _lane packet s) := by
  unfold execStatusPacketReceive
  have h := Keeps.refl W s
  try dsimp only [OutKeeps]
  with_reducible repeat' first
      | exact h | assumption | exact hw.mono (by decide)
      | refine State.oneCycle_keeps (fun _ _ _ => ?_) (hw.mono (by decide)) ?_ | apply State.statusIn_keeps

theorem execPanelLaneTrainDone_keeps {W : Nat} (lane : Fin 18) (s : State) (hw : Sub 0x8080100100c8 W) :
    OutKeeps W s (execPanelLaneTrainDone lane s) := by
  unfold execPanelLaneTrainDone
  have h := Keeps.refl W s
  try dsimp only [OutKeeps]
  with_reducible repeat' first
      | exact h | exact hw.mono (by decide) | apply State.plTrainDone_keeps | apply State.driverEnter_keeps
      | refine Keeps.ite ?_ ?_

theorem execPanelDriverLost_keeps {W : Nat} (driver : Fin 16) (s : State) (hw : Sub 0x8040100000c8 W) :
    OutKeeps W s (execPanelDriverLost driver s) := by
  unfold execPanelDriverLost
  have h := Keeps.refl W s
  try dsimp only [OutKeeps]
  with_reducible repeat' first
      | exact h | exact hw.mono (by decide) | apply State.driverLost_keeps

theorem execPanelDriverRestored_keeps {W : Nat} (driver : Fin 16) (s : State) (hw : Sub 0x8040100000c8 W) :
    OutKeeps W s (execPanelDriverRestored driver s) := by
  unfold execPanelDriverRestored
  have h := Keeps.refl W s
  try dsimp only [OutKeeps]
  with_reducible repeat' first
      | exact h | exact hw.mono (by decide) | apply State.driverBack_keeps

theorem execPanelLaneNoStatus_keeps {W : Nat} (lane : Fin 16) (ret : Fin 2) (s : State) (hw : Sub 0x808010010048 W) :
    OutKeeps W s (execPanelLaneNoStatus lane ret s) := by
  unfold execPanelLaneNoStatus
  have h := Keeps.refl W s
  try dsimp only [OutKeeps]
  with_reducible repeat' first
      | exact h | exact hw.mono (by decide) | apply State.plLeave_keeps | refine Keeps.ite ?_ ?_

theorem execSenseWindow_keeps {W : Nat} (slot : Fin 560) (s : State) (hw : Sub 0x8040100080c8 W) :
    OutKeeps W s (execSenseWindow slot s) := by
  unfold execSenseWindow
  have h := Keeps.refl W s
  try dsimp only [OutKeeps]
  with_reducible repeat' first
      | exact h | exact hw.mono (by decide) | apply State.senseOpen_keeps

theorem execSenseWindowEnd_keeps {W : Nat} (s : State) (hw : Sub 0x8060100000c8 W) :
    OutKeeps W s (execSenseWindowEnd s) := by
  unfold execSenseWindowEnd
  have h := Keeps.refl W s
  try dsimp only [OutKeeps]
  with_reducible repeat' first
      | exact h | exact hw.mono (by decide) | apply State.senseClose_keeps

/-! ### Ageing -/

theorem State.stressMeet_keeps {W : Nat} {r s : State} (off : ℕ) (n : ℕ)
    (hw : Sub 0x800010000048 W) (h : Keeps W r s) : Keeps W r (State.stressMeet s off n) := by
  unfold State.stressMeet
  try dsimp only
  with_reducible repeat' first
      | exact h | exact hw.mono (by decide) | apply State.sramMeet_keeps

theorem State.stressPut_keeps {W : Nat} {r s : State} (off : ℕ) (n : ℕ) (v : ℕ)
    (hw : Sub 0x800000000048 W) (h : Keeps W r s) : Keeps W r (State.stressPut s off n v) := by
  unfold State.stressPut
  try dsimp only
  with_reducible repeat' first
      | exact h | exact hw.mono (by decide) | apply State.sramWrite_keeps

theorem State.stressFlagSet_keeps {W : Nat} {r s : State} (b : ℕ)
    (hw : Sub 0x800000000048 W) (h : Keeps W r s) : Keeps W r (State.stressFlagSet s b) := by
  unfold State.stressFlagSet
  try dsimp only
  with_reducible repeat' first
      | exact h | exact hw.mono (by decide) | apply State.stressPut_keeps

theorem State.setKappa_keeps {W : Nat} {r s : State} (r' : ℕ) (c : ℕ) (v : ℕ)
    (hw : Sub 0x800000000048 W) (h : Keeps W r s) : Keeps W r (State.setKappa s r' c v) := by
  unfold State.setKappa
  try dsimp only
  with_reducible repeat' first
      | exact h | exact hw.mono (by decide) | apply State.stressFlagSet_keeps | apply State.sramWrite_keeps
      | apply State.stressPut_keeps | refine Keeps.ite ?_ ?_

theorem State.stageTable_keeps {W : Nat} {r s : State} (kind : ℕ)
    (hw : Sub 0x802010000048 W) (h : Keeps W r s) : Keeps W r (State.stageTable s kind).1 := by
  unfold State.stageTable
  try dsimp only
  with_reducible repeat' first
      | exact h | assumption | exact hw.mono (by decide) | apply State.report_keeps | apply State.wr_keeps
      | refine Keeps.foldl (fun _ _ _ => ?_) _ ?_ | refine Keeps.foldlPair (fun _ _ _ => ?_) _ ?_
      | refine Keeps.ite ?_ ?_ | refine Keeps.iteFst ?_ ?_

theorem State.putHglRow_keeps {W : Nat} {r s : State} (hy : ℕ) (b : Bytes)
    (hw : Sub 0x2400000 W) (h : Keeps W r s) : Keeps W r (State.putHglRow s hy b) := by
  unfold State.putHglRow
  try dsimp only
  with_reducible repeat' first
      | exact h | exact hw.mono (by decide) | apply State.memSet_keeps | dsimp only | split

theorem State.countDead_keeps {W : Nat} {r s : State} 
    (hw : Sub 0x2000000000 W) (h : Keeps W r s) : Keeps W r (State.countDead s) := by
  unfold State.countDead
  try dsimp only
  with_reducible repeat' first
      | exact h | exact hw.mono (by decide) | apply State.wr_keeps

theorem State.headerInUse_keeps {W : Nat} {r s : State} (r' : Reload)
    (hw : Sub 0x2000008000 W) (h : Keeps W r s) : Keeps W r (State.headerInUse s r') := by
  unfold State.headerInUse
  try dsimp only
  with_reducible repeat' first
      | exact h | exact hw.mono (by decide) | apply State.wr_keeps | fail_if_no_progress refine Keeps.upd hw ?_

theorem State.loadTable_keeps {W : Nat} {r s : State} 
    (hw : Sub 0x802012408048 W) (h : Keeps W r s) : Keeps W r (State.loadTable s).1 := by
  unfold State.loadTable
  try dsimp only
  with_reducible repeat' first
      | exact h | assumption | exact hw.mono (by decide) | apply State.stageTable_keeps | apply State.putHglRow_keeps
      | apply State.wrF_keeps | apply State.countDead_keeps | apply State.headerInUse_keeps
      | refine Keeps.foldl (fun _ _ _ => ?_) _ ?_ | refine Keeps.foldlPair (fun _ _ _ => ?_) _ ?_ | dsimp only | split
      | refine Keeps.fst (by assumption) ?_

theorem State.startReload_keeps {W : Nat} {r s : State} (kind : ℕ)
    (hw : Sub 0x802010008048 W) (h : Keeps W r s) : Keeps W r (State.startReload s kind) := by
  unfold State.startReload
  try dsimp only
  with_reducible repeat' first
      | exact h | exact hw.mono (by decide) | apply State.stageTable_keeps | apply State.wrF_keeps
      | fail_if_no_progress refine Keeps.upd hw ?_ | dsimp only | split | refine Keeps.fst (by assumption) ?_

theorem State.reloadRows_keeps {W : Nat} {r s : State} 
    (hw : Sub 0x802012408048 W) (h : Keeps W r s) : Keeps W r (State.reloadRows s) := by
  unfold State.reloadRows
  try dsimp only
  with_reducible repeat' first
      | exact h | assumption | exact hw.mono (by decide) | apply State.putHglRow_keeps | apply State.wrF_keeps
      | apply State.countDead_keeps | apply State.headerInUse_keeps | apply State.report_keeps
      | refine Keeps.foldl (fun _ _ _ => ?_) _ ?_ | refine Keeps.foldlPair (fun _ _ _ => ?_) _ ?_
      | fail_if_no_progress refine Keeps.upd hw ?_ | refine Keeps.ite ?_ ?_ | dsimp only | split

theorem State.refetchEntries_keeps {W : Nat} {r s : State} 
    (hw : Sub 0x2408000 W) (h : Keeps W r s) : Keeps W r (State.refetchEntries s) := by
  unfold State.refetchEntries
  try dsimp only
  with_reducible repeat' first
      | exact h | assumption | exact hw.mono (by decide) | apply State.memSet_keeps
      | refine Keeps.foldl (fun _ _ _ => ?_) _ ?_ | refine Keeps.foldlPair (fun _ _ _ => ?_) _ ?_
      | fail_if_no_progress refine Keeps.upd hw ?_ | dsimp only | split

theorem State.queueEntry_keeps {W : Nat} {r s : State} (hy : ℕ) (hx : ℕ)
    (hw : Sub 0x8000 W) (h : Keeps W r s) : Keeps W r (State.queueEntry s hy hx) := by
  unfold State.queueEntry
  try dsimp only
  with_reducible repeat' first
      | exact h | exact hw.mono (by decide) | fail_if_no_progress refine Keeps.upd hw ?_

theorem State.rewriteSector_keeps {W : Nat} {r s : State} (fail : Bool)
    (hw : Sub 0x80201180804c W) (h : Keeps W r s) : Keeps W r (State.rewriteSector s fail) := by
  unfold State.rewriteSector
  try dsimp only
  with_reducible repeat' first
      | exact h | exact hw.mono (by decide) | apply State.report_keeps | apply State.tornFlash_keeps
      | apply State.flashFail_keeps | apply State.flashPut_keeps | apply State.eraseSector_keeps
      | apply State.wr_keeps | fail_if_no_progress refine Keeps.upd hw ?_ | refine Keeps.ite ?_ ?_ | dsimp only
      | split

theorem State.putGain_keeps {W : Nat} {r s : State} (i : ℕ) (m : ℕ)
    (hw : Sub 0x2408000 W) (h : Keeps W r s) : Keeps W r (State.putGain s i m) := by
  unfold State.putGain
  try dsimp only
  with_reducible repeat' first
      | exact h | exact hw.mono (by decide) | apply State.memSet_keeps | fail_if_no_progress refine Keeps.upd hw ?_
      | refine Keeps.ite ?_ ?_

theorem State.foldK_keeps {W : Nat} {r s : State} (j : ℕ)
    (hw : Sub 0x800010008048 W) (h : Keeps W r s) : Keeps W r (State.foldK s j).1 := by
  unfold State.foldK
  try dsimp only
  with_reducible repeat' first
      | exact h | exact hw.mono (by decide) | apply State.report_keeps | fail_if_no_progress refine Keeps.upd hw ?_
      | refine Keeps.ite ?_ ?_ | refine Keeps.iteFst ?_ ?_ | dsimp only | split

theorem State.stressPoison_keeps {W : Nat} {r s : State} (a : ℕ) (i : ℕ)
    (hw : Sub 0x840010000048 W) (h : Keeps W r s) : Keeps W r (State.stressPoison s a i) := by
  unfold State.stressPoison
  try dsimp only
  with_reducible repeat' first
      | exact h | exact hw.mono (by decide) | apply State.reportJoined_keeps | apply State.report_keeps
      | apply State.bump_keeps | refine Keeps.ite ?_ ?_

theorem State.foldMaster_keeps {W : Nat} {r s : State} (i : ℕ)
    (hw : Sub 0x840010000048 W) (h : Keeps W r s) : Keeps W r (State.foldMaster s i).1 := by
  unfold State.foldMaster
  try dsimp only
  with_reducible repeat' first
      | exact h | exact hw.mono (by decide) | apply State.stressPoison_keeps | refine Keeps.iteFst ?_ ?_

theorem State.foldAcc_keeps {W : Nat} {r s : State} (i : ℕ)
    (hw : Sub 0x840010000048 W) (h : Keeps W r s) : Keeps W r (State.foldAcc s i).1 := by
  unfold State.foldAcc
  try dsimp only
  with_reducible repeat' first
      | exact h | exact hw.mono (by decide) | apply State.stressPoison_keeps | refine Keeps.iteFst ?_ ?_

theorem State.foldCell_keeps {W : Nat} {r s : State} (i : ℕ)
    (hw : Sub 0x840012408048 W) (h : Keeps W r s) : Keeps W r (State.foldCell s i) := by
  unfold State.foldCell
  try dsimp only
  with_reducible repeat' first
      | exact h | exact hw.mono (by decide) | apply State.foldK_keeps | apply State.foldMaster_keeps
      | apply State.foldAcc_keeps | apply State.report_keeps | apply State.memSet_keeps | apply State.putGain_keeps
      | fail_if_no_progress refine Keeps.upd hw ?_ | refine Keeps.ite ?_ ?_

theorem State.clearPoison_keeps {W : Nat} {r s : State} (a : ℕ) (n : ℕ)
    (hw : Sub 0x2000400 W) (h : Keeps W r s) : Keeps W r (State.clearPoison s a n) := by
  unfold State.clearPoison
  try dsimp only
  with_reducible repeat' first
      | exact h | assumption | exact hw.mono (by decide) | apply State.setPoison_keeps
      | refine Keeps.foldl (fun _ _ _ => ?_) _ ?_ | apply State.lineRenewed_keeps

theorem State.clearGainPoison_keeps {W : Nat} {r s : State} (a : ℕ) (n : ℕ)
    (hw : Sub 0x2000400 W) (h : Keeps W r s) : Keeps W r (State.clearGainPoison s a n) := by
  unfold State.clearGainPoison
  try dsimp only
  with_reducible repeat' first
      | exact h | assumption | exact hw.mono (by decide) | apply State.setPoison_keeps
      | refine Keeps.foldl (fun _ _ _ => ?_) _ ?_ | apply State.lineRenewed_keeps

theorem State.foldDone_keeps {W : Nat} {r s : State} 
    (hw : Sub 0x802010008048 W) (h : Keeps W r s) : Keeps W r (State.foldDone s) := by
  unfold State.foldDone
  try dsimp only
  with_reducible repeat' first
      | exact h | assumption | exact hw.mono (by decide) | apply State.stressPut_keeps
      | apply State.stressFlagSet_keeps | apply State.wr_keeps | apply State.bump_keeps | apply State.report_keeps
      | apply State.wrF_keeps | refine Keeps.foldl (fun _ _ _ => ?_) _ ?_
      | refine Keeps.foldlPair (fun _ _ _ => ?_) _ ?_ | fail_if_no_progress refine Keeps.upd hw ?_
      | refine Keeps.ite ?_ ?_ | apply State.stressMeet_keeps

theorem State.ckptFail_keeps {W : Nat} {r s : State} (reason : ℕ)
    (hw : Sub 0x802010008058 W) (h : Keeps W r s) : Keeps W r (State.ckptFail s reason) := by
  unfold State.ckptFail
  try dsimp only
  with_reducible repeat' first
      | exact h | exact hw.mono (by decide) | apply State.unclaim_keeps | apply State.report_keeps
      | apply State.wrF_keeps | fail_if_no_progress refine Keeps.upd hw ?_ | dsimp only | split

theorem State.ckptStart_keeps {W : Nat} {r s : State} 
    (hw : Sub 0x802010008058 W) (h : Keeps W r s) : Keeps W r (State.ckptStart s) := by
  unfold State.ckptStart
  try dsimp only
  with_reducible repeat' first
      | exact h | exact hw.mono (by decide) | apply State.claim_keeps | apply State.ckptFail_keeps
      | apply State.wrF_keeps | fail_if_no_progress refine Keeps.upd hw ?_ | refine Keeps.ite ?_ ?_
      | refine Keeps.iteFst ?_ ?_ | dsimp only | split | refine Keeps.fst (by assumption) ?_

theorem State.ckptSubmit_keeps {W : Nat} {r s : State} (k : Ckpt) (p : ℕ) (n : ℕ)
    (hw : Sub 0x840a9e409e4c W) (h : Keeps W r s) : Keeps W r (State.ckptSubmit s k p n) := by
  unfold State.ckptSubmit
  try dsimp only
  with_reducible repeat' first
      | exact h | exact hw.mono (by decide) | apply State.jobSubmit_keeps | fail_if_no_progress refine Keeps.upd hw ?_

theorem State.ckptPortion_keeps {W : Nat} {r s : State} (p : ℕ)
    (hw : Sub 0x840a9e409e4c W) (h : Keeps W r s) : Keeps W r (State.ckptPortion s p) := by
  unfold State.ckptPortion
  try dsimp only
  with_reducible repeat' first
      | exact h | exact hw.mono (by decide) | apply State.memSet_keeps | apply State.ckptSubmit_keeps
      | refine Keeps.ite ?_ ?_ | dsimp only | split | apply State.refuseFirst_keeps | apply State.queueWrite_keeps
      | apply State.queueRead_keeps | fail_if_no_progress refine Keeps.upd hw ?_

theorem State.ckptPoll_keeps {W : Nat} {r s : State} 
    (hw : Sub 0x840a9e409e5c W) (h : Keeps W r s) : Keeps W r (State.ckptPoll s) := by
  unfold State.ckptPoll
  try dsimp only
  with_reducible repeat' first
      | exact h | exact hw.mono (by decide) | apply State.unclaim_keeps | apply State.ckptSubmit_keeps
      | fail_if_no_progress refine Keeps.upd hw ?_ | refine Keeps.ite ?_ ?_ | dsimp only | split

theorem State.ringPut_keeps {W : Nat} {r s : State} (off : ℕ) (b : Bytes)
    (hw : Sub 0x1800000 W) (h : Keeps W r s) : Keeps W r (State.ringPut s off b) := by
  unfold State.ringPut
  try dsimp only
  with_reducible repeat' first
      | exact h | assumption | exact hw.mono (by decide) | apply State.eraseSector_keeps
      | apply State.flashPut_keeps | refine Keeps.foldl (fun _ _ _ => ?_) _ ?_

theorem State.ckptProgrammed_keeps {W : Nat} {r s : State} (fail : Option Bool)
    (hw : Sub 0x802011808078 W) (h : Keeps W r s) : Keeps W r (State.ckptProgrammed s fail) := by
  unfold State.ckptProgrammed
  try dsimp only
  with_reducible repeat' first
      | exact h | exact hw.mono (by decide) | apply State.ringPut_keeps | apply State.ckptFail_keeps
      | apply State.flashFail_keeps | apply State.stressFlagSet_keeps | apply State.stressPut_keeps
      | apply State.wr_keeps | apply State.report_keeps | apply State.requestStore_keeps
      | fail_if_no_progress refine Keeps.upd hw ?_ | refine Keeps.ite ?_ ?_ | refine Keeps.iteFst ?_ ?_ | dsimp only
      | split

theorem State.stressTick_keeps {W : Nat} {r s : State} 
    (hw : Sub 0x800010008048 W) (h : Keeps W r s) : Keeps W r (State.stressTick s) := by
  unfold State.stressTick
  try dsimp only
  with_reducible repeat' first
      | exact h | exact hw.mono (by decide) | apply State.stressPut_keeps | fail_if_no_progress refine Keeps.upd hw ?_
      | refine Keeps.ite ?_ ?_ | apply State.stressMeet_keeps

theorem State.windowEnd_keeps {W : Nat} {r s : State} 
    (hw : Sub 0x802010008058 W) (h : Keeps W r s) : Keeps W r (State.windowEnd s) := by
  unfold State.windowEnd
  try dsimp only
  with_reducible repeat' first
      | exact h | exact hw.mono (by decide) | apply State.report_keeps | apply State.wrF_keeps
      | apply State.ckptStart_keeps | fail_if_no_progress refine Keeps.upd hw ?_ | refine Keeps.ite ?_ ?_

theorem State.lateWindow_keeps {W : Nat} {r s : State} 
    (hw : Sub 0x802010008058 W) (h : Keeps W r s) : Keeps W r (State.lateWindow s) := by
  unfold State.lateWindow
  try dsimp only
  with_reducible repeat' first
      | exact h | exact hw.mono (by decide) | apply State.windowEnd_keeps | refine Keeps.ite ?_ ?_

theorem State.foldCells_keeps {W : Nat} {r s : State} (p : ℕ)
    (hw : Sub 0x84009e408c4c W) (h : Keeps W r s) : Keeps W r (State.foldCells s p) := by
  unfold State.foldCells
  try dsimp only
  with_reducible repeat' first
      | exact h | assumption | exact hw.mono (by decide) | apply State.refuseFirst_keeps | apply State.foldCell_keeps
      | apply State.clearPoison_keeps | apply State.clearGainPoison_keeps | refine Keeps.foldl (fun _ _ _ => ?_) _ ?_
      | refine Keeps.ite ?_ ?_ | apply State.queueRead_keeps | apply State.stressMeet_keeps
      | apply State.queueWrite_keeps

theorem State.foldPortion_keeps {W : Nat} {r s : State} 
    (hw : Sub 0x842a9e409e5c W) (h : Keeps W r s) : Keeps W r (State.foldPortion s) := by
  unfold State.foldPortion
  try dsimp only
  with_reducible repeat' first
      | exact h | exact hw.mono (by decide) | apply State.ckptPoll_keeps | apply State.ckptFail_keeps
      | apply State.ckptPortion_keeps | apply State.foldCells_keeps | apply State.foldDone_keeps
      | fail_if_no_progress refine Keeps.upd hw ?_ | refine Keeps.ite ?_ ?_ | dsimp only | split

theorem State.clearBank_keeps {W : Nat} {r s : State} (a : ℕ)
    (hw : Sub 0x84009240044c W) (h : Keeps W r s) : Keeps W r (State.clearBank s a) := by
  unfold State.clearBank
  try dsimp only
  with_reducible repeat' first
      | exact h | exact hw.mono (by decide) | apply State.zeroRange_keeps | apply State.refuseRange_keeps
      | refine Keeps.ite ?_ ?_ | apply State.queueWrite_keeps

theorem State.putMasters_keeps {W : Nat} {r s : State} (ms : List ℕ)
    (hw : Sub 0x84009240044c W) (h : Keeps W r s) : Keeps W r (State.putMasters s ms) := by
  unfold State.putMasters
  try dsimp only
  with_reducible repeat' first
      | exact h | exact hw.mono (by decide) | apply State.memSet_keeps | apply State.refuseRange_keeps
      | refine Keeps.ite ?_ ?_ | apply State.queueWrite_keeps

theorem State.putGains_keeps {W : Nat} {r s : State} (ms : List ℕ)
    (hw : Sub 0x84009240844c W) (h : Keeps W r s) : Keeps W r (State.putGains s ms) := by
  unfold State.putGains
  try dsimp only
  with_reducible repeat' first
      | exact h | assumption | exact hw.mono (by decide) | apply State.putGain_keeps | apply State.refuseRange_keeps
      | refine Keeps.foldl (fun _ _ _ => ?_) _ ?_ | refine Keeps.foldlPair (fun _ _ _ => ?_) _ ?_
      | refine Keeps.ite ?_ ?_ | apply State.queueWrite_keeps

theorem State.reconcile_keeps {W : Nat} {r s : State} 
    (hw : Sub 0x84209240844c W) (h : Keeps W r s) : Keeps W r (State.reconcile s) := by
  unfold State.reconcile
  try dsimp only
  with_reducible repeat' first
      | exact h | exact hw.mono (by decide) | apply State.clearBank_keeps | apply State.putMasters_keeps
      | apply State.stressPut_keeps | apply State.stressFlagSet_keeps | apply State.wr_keeps
      | apply State.putGains_keeps | apply State.report_keeps | apply State.wrF_keeps
      | fail_if_no_progress refine Keeps.upd hw ?_ | refine Keeps.ite ?_ ?_ | dsimp only | split
      | apply State.stressMeet_keeps

theorem State.setCandidate_keeps {W : Nat} {r s : State} (hog : ℕ) (c : ℕ) (n : ℕ)
    (hw : Sub 0x8000 W) (h : Keeps W r s) : Keeps W r (State.setCandidate s hog c n) := by
  unfold State.setCandidate
  try dsimp only
  with_reducible repeat' first
      | exact h | exact hw.mono (by decide) | fail_if_no_progress refine Keeps.upd hw ?_

theorem State.nameDead_keeps {W : Nat} {r s : State} (hx : ℕ) (hy : ℕ) (c : ℕ)
    (hw : Sub 0x802012408048 W) (h : Keeps W r s) : Keeps W r (State.nameDead s hx hy c) := by
  unfold State.nameDead
  try dsimp only
  with_reducible repeat' first
      | exact h | exact hw.mono (by decide) | apply State.bumpF_keeps | apply State.memSet_keeps
      | apply State.queueEntry_keeps | apply State.report_keeps | refine Keeps.ite ?_ ?_ | dsimp only | split
      | fail_if_no_progress refine Keeps.upd hw ?_

theorem State.updateKappa_keeps {W : Nat} {r s : State} (q : SenseReq) (e : HglEntry) (v : ℕ) (vref : ℕ)
    (hw : Sub 0x84009c400c4c W) (h : Keeps W r s) : Keeps W r (State.updateKappa s q e v vref) := by
  unfold State.updateKappa
  try dsimp only
  with_reducible repeat' first
      | exact h | exact hw.mono (by decide) | apply State.setKappa_keeps | refine Keeps.ite ?_ ?_ | dsimp only | split
      | apply State.refuseRange_keeps | apply State.stressMeet_keeps | apply State.queueRead_keeps

theorem State.senseResult_keeps {W : Nat} {r s : State} (q : SenseReq) (v : ℕ)
    (hw : Sub 0x84209e408c4c W) (h : Keeps W r s) : Keeps W r (State.senseResult s q v) := by
  unfold State.senseResult
  try dsimp only
  with_reducible repeat' first
      | exact h | exact hw.mono (by decide) | apply State.senseLast_keeps | apply State.bump_keeps
      | apply State.updateKappa_keeps | apply State.nameDead_keeps | apply State.setCandidate_keeps
      | refine Keeps.ite ?_ ?_

theorem State.senseIn_keeps {W : Nat} {r s : State} (b : Bytes)
    (hw : Sub 0x84609e408ccc W) (h : Keeps W r s) : Keeps W r (State.senseIn s b) := by
  unfold State.senseIn
  try dsimp only
  with_reducible repeat' first
      | exact h | assumption | exact hw.mono (by decide) | apply State.returnBad_keeps | apply State.senseResult_keeps
      | refine Keeps.foldl (fun _ _ _ => ?_) _ ?_ | refine Keeps.foldlPair (fun _ _ _ => ?_) _ ?_
      | fail_if_no_progress refine Keeps.upd hw ?_ | refine Keeps.ite ?_ ?_ | dsimp only | split

theorem State.stressLoRead_keeps {W : Nat} {r s : State} 
    (hw : Sub 0x2000000000 W) (h : Keeps W r s) : Keeps W r (State.stressLoRead s).1 := by
  unfold State.stressLoRead
  try dsimp only
  with_reducible repeat' first
      | exact h | exact hw.mono (by decide) | apply State.wr_keeps

theorem State.curveRead_keeps {W : Nat} {r s : State} 
    (hw : Sub 0x2000000000 W) (h : Keeps W r s) : Keeps W r (State.curveRead s).1 := by
  unfold State.curveRead
  try dsimp only
  with_reducible repeat' first
      | exact h | exact hw.mono (by decide) | apply State.wrF_keeps

theorem execHglCtrlReload_keeps {W : Nat} (s : State) (hw : Sub 0x802030008048 W) :
    OutKeeps W s (execHglCtrlReload s) := by
  unfold execHglCtrlReload
  have h := Keeps.refl W s
  refine OutKeeps.gate (hw.mono (by decide)) ?_
  try dsimp only [OutKeeps]
  with_reducible repeat' first
      | exact h | assumption | exact hw.mono (by decide)
      | refine State.oneCycle_keeps (fun _ _ _ => ?_) (hw.mono (by decide)) ?_ | apply State.startReload_keeps

theorem execHglCtrlReloadFactory_keeps {W : Nat} (s : State) (hw : Sub 0x802030008048 W) :
    OutKeeps W s (execHglCtrlReloadFactory s) := by
  unfold execHglCtrlReloadFactory
  have h := Keeps.refl W s
  refine OutKeeps.gate (hw.mono (by decide)) ?_
  try dsimp only [OutKeeps]
  with_reducible repeat' first
      | exact h | assumption | exact hw.mono (by decide)
      | refine State.oneCycle_keeps (fun _ _ _ => ?_) (hw.mono (by decide)) ?_ | apply State.startReload_keeps

theorem execHglCtrlCkptNow_keeps {W : Nat} (s : State) (hw : Sub 0x20008000 W) :
    OutKeeps W s (execHglCtrlCkptNow s) := by
  unfold execHglCtrlCkptNow
  have h := Keeps.refl W s
  refine OutKeeps.gate (hw.mono (by decide)) ?_
  try dsimp only [OutKeeps]
  with_reducible repeat' first
      | exact h | exact hw.mono (by decide) | fail_if_no_progress refine Keeps.upd hw ?_

theorem execFlashSectorRewrite_keeps {W : Nat} (fail : Bool) (s : State) (hw : Sub 0x80201180804c W) :
    OutKeeps W s (execFlashSectorRewrite fail s) := by
  unfold execFlashSectorRewrite
  have h := Keeps.refl W s
  try dsimp only [OutKeeps]
  with_reducible repeat' first
      | exact h | assumption | exact hw.mono (by decide)
      | refine State.oneCycle_keeps (fun _ _ _ => ?_) (hw.mono (by decide)) ?_ | apply State.rewriteSector_keeps

theorem execFoldWindowEnd_keeps {W : Nat} (s : State) (hw : Sub 0x802010008058 W) :
    OutKeeps W s (execFoldWindowEnd s) := by
  unfold execFoldWindowEnd
  have h := Keeps.refl W s
  try dsimp only [OutKeeps]
  with_reducible repeat' first
      | exact h | assumption | exact hw.mono (by decide)
      | refine State.oneCycle_keeps (fun _ _ _ => ?_) (hw.mono (by decide)) ?_ | apply State.windowEnd_keeps

theorem execFoldPortion_keeps {W : Nat} (s : State) (hw : Sub 0x842a9e409e5c W) :
    OutKeeps W s (execFoldPortion s) := by
  unfold execFoldPortion
  have h := Keeps.refl W s
  try dsimp only [OutKeeps]
  with_reducible repeat' first
      | exact h | assumption | exact hw.mono (by decide)
      | refine State.oneCycle_keeps (fun _ _ _ => ?_) (hw.mono (by decide)) ?_ | apply State.foldPortion_keeps

theorem execCheckpointProgramDone_keeps {W : Nat} (fail : Option Bool) (s : State) (hw : Sub 0x802011808078 W) :
    OutKeeps W s (execCheckpointProgramDone fail s) := by
  unfold execCheckpointProgramDone
  have h := Keeps.refl W s
  try dsimp only [OutKeeps]
  with_reducible repeat' first
      | exact h | assumption | exact hw.mono (by decide)
      | refine State.oneCycle_keeps (fun _ _ _ => ?_) (hw.mono (by decide)) ?_ | apply State.ckptProgrammed_keeps

theorem execSenseResReceive_keeps {W : Nat} (_lane : Fin 2) (packet : Bytes) (s : State) (hw : Sub 0x84609e408ccc W) :
    OutKeeps W s (execSenseResReceive _lane packet s) := by
  unfold execSenseResReceive
  have h := Keeps.refl W s
  try dsimp only [OutKeeps]
  with_reducible repeat' first
      | exact h | assumption | exact hw.mono (by decide)
      | refine State.oneCycle_keeps (fun _ _ _ => ?_) (hw.mono (by decide)) ?_ | apply State.senseIn_keeps

theorem execThrJobBlock_keeps {W : Nat} (pipe : Fin 10) (s : State) (hw : Sub 0x840a9e409e5c W) :
    OutKeeps W s (execThrJobBlock pipe s) := by
  unfold execThrJobBlock
  have h := Keeps.refl W s
  try dsimp only [OutKeeps]
  with_reducible repeat' first
      | exact h | assumption | exact hw.mono (by decide)
      | refine State.oneCycle_keeps (fun _ _ _ => ?_) (hw.mono (by decide)) ?_ | apply State.endJob_keeps
      | apply State.encodeBlock_keeps | apply State.decodeBlock_keeps | apply State.ckptPoll_keeps
      | refine Keeps.ite ?_ ?_ | dsimp only | split

theorem execHglStressFramesLoRead_keeps {W : Nat} (s : State) (hw : Sub 0x2020000000 W) :
    OutKeeps W s (execHglStressFramesLoRead s) := by
  unfold execHglStressFramesLoRead
  have h := Keeps.refl W s
  refine OutKeeps.gate (hw.mono (by decide)) ?_
  try dsimp only [OutKeeps]
  with_reducible repeat' first
      | exact h | exact hw.mono (by decide) | apply State.stressLoRead_keeps | apply State.result_keeps
     

theorem execHglCurveDataRead_keeps {W : Nat} (s : State) (hw : Sub 0x2020000000 W) :
    OutKeeps W s (execHglCurveDataRead s) := by
  unfold execHglCurveDataRead
  have h := Keeps.refl W s
  refine OutKeeps.gate (hw.mono (by decide)) ?_
  try dsimp only [OutKeeps]
  with_reducible repeat' first
      | exact h | exact hw.mono (by decide) | apply State.curveRead_keeps | apply State.result_keeps
     

end Sys2Proof.Machine
end

