-- ==== Sys2Proof/Laws/KeepsSwitch.lean ====
section
/-! SUPPORT. Every operation and meaning of the plan checks, the resets, the plan switch and the host (Machine/PlanCheck.lean, Reset.lean, Switch.lean and Host.lean)
keeps what `Keeps` says. -/

-- One theorem at a time: hundreds of them at once would need more thread stacks than a check may map.
set_option Elab.async false
namespace Sys2Proof.Machine

/-! ### PlanCheck -/

theorem State.loadPlan_keeps {W : Nat} {r s : State} (b : Bytes)
    (hw : Sub 0x800010000048 W) (h : Keeps W r s) : Keeps W r (State.loadPlan s b).1 := by
  unfold State.loadPlan
  try dsimp only
  with_reducible repeat' first
      | exact h | exact hw.mono (by decide) | apply State.orR_keeps | apply State.report_keeps | dsimp only | split

/-! ### Reset -/

/-- Open bytes of a range, those that read 0 left out, are canonical. -/
theorem openCells_wf (f : Nat → Byte) (n : Nat) : ∀ lo : Nat, swfFrom (fun _ => 0#8) lo
    (((List.range' lo n).map (fun i => (i, f i))).filter (fun c => c.2 != 0#8)) = true := by
  induction n with
  | zero => intro lo; rfl
  | succ n ih =>
    intro lo
    have h := ih (lo + 1)
    by_cases hf : f lo = 0#8
    · simpa [List.range', hf] using swfFrom_mono (Nat.le_succ lo) h
    · simpa [List.range', List.filter, hf, swfFrom, bne] using h

theorem openCells_canonical (d n : Nat) : Memory.wf 0#8 (openCells d n) = true := by
  have h := openCells_wf (fun i => Config.tornByte (n * d + i)) n 0
  rw [← List.range_eq_range'] at h
  exact h

theorem State.storeCut_keeps {W : Nat} {r s : State} (hw : Sub 0x64 W) (h : Keeps W r s) : Keeps W r (s.storeCut) := by
  unfold State.storeCut
  split
  · exact h
  · rename_i q _
    have hi : Memory.wf 0#8 (openCells s.freeCtr sramSize) = true := openCells_canonical s.freeCtr sramSize
    dsimp only [State.draw]
    generalize openCells s.freeCtr sramSize = m at hi
    refine Keeps.of hw h rfl rfl rfl rfl (fun hk => ?_) rfl rfl rfl rfl rfl rfl rfl
    have hc := Sbk.wf_setCopy q.copy (c := { s.sbk.copy q.copy with image := m, hdr := none }) hk hi
    rw [Sbk.wf_iff] at hc ⊢
    exact ⟨hc.1, hc.2.1, hc.2.2.1, by simp⟩

theorem State.flashCut_keeps {W : Nat} {r s : State} 
    (hw : Sub 0x1800004 W) (h : Keeps W r s) : Keeps W r (State.flashCut s) := by
  unfold State.flashCut
  try dsimp only
  with_reducible repeat' first
      | exact h | assumption | exact hw.mono (by decide) | apply State.tornFlash_keeps
      | refine Keeps.foldl (fun _ _ _ => ?_) _ ?_ | refine Keeps.foldlPair (fun _ _ _ => ?_) _ ?_
      | refine Keeps.ite ?_ ?_

/-- R404: a reset leaves every invariant standing. -/
theorem State.resetTo_keeps {W : Nat} {r s : State} (kind : Nat) (keepStore : Bool) (hw : Sub 0x1ffffffffffff W) (h : Keeps W r s) :
    Keeps W r (s.resetTo kind keepStore) := by
  have h' : Keeps W r (if keepStore then s else s.storeCut).flashCut :=
    flashCut_keeps (hw.mono (by decide)) (Keeps.ite h (storeCut_keeps (hw.mono (by decide)) h))
  unfold State.resetTo
  dsimp only
  generalize (if keepStore = true then s else s.storeCut).flashCut = x at h'
  refine h'.trans ⟨rfl, fun hm => ?_, fun _ => rfl, fun _ => rfl, fun _ => rfl, fun _ => rfl, fun _ => rfl, fun b hb => ?_⟩
  · simp only [memWf, Bool.and_eq_true, Sbk.wf_iff] at hm ⊢
    exact ⟨⟨⟨rfl, hm.1.1.2⟩, hm.1.2⟩, hm.2⟩
  · rcases b with _ | _ | _ | _ | _ | _ | _ | _ | _ | _ | _ | _ | _ | _ | _ | _ | _ | _ | _ | _ | _ | _ | _ | _ | _ | _ | _ | _ | _ | _ | _ | g
    all_goals first | exact hw.off hb (by decide) | exact rfl | skip
    cases g <;> exact hw.off hb (by decide)

theorem State.requestReset_keeps {W : Nat} {r s : State} (kind : ℕ)
    (hw : Sub 0x4010100080 W) (h : Keeps W r s) : Keeps W r (State.requestReset s kind) := by
  unfold State.requestReset
  try dsimp only
  with_reducible repeat' first
      | exact h | exact hw.mono (by decide) | apply State.supplyDown_keeps
      | fail_if_no_progress refine Keeps.upd hw ?_ | refine Keeps.ite ?_ ?_

theorem State.setMode_keeps {W : Nat} {r s : State} (m : ℕ)
    (hw : Sub 0x400080000000 W) (h : Keeps W r s) : Keeps W r (State.setMode s m) := by
  unfold State.setMode
  try dsimp only
  with_reducible repeat' first
      | exact h | exact hw.mono (by decide) | apply State.wrF_keeps

theorem State.stageReached_keeps {W : Nat} {r s : State} (n : ℕ)
    (hw : Sub 0xc00090000048 W) (h : Keeps W r s) : Keeps W r (State.stageReached s n) := by
  unfold State.stageReached
  try dsimp only
  with_reducible repeat' first
      | exact h | exact hw.mono (by decide) | apply State.wrF_keeps | apply State.wr_keeps | apply State.report_keeps
      | apply State.put_keeps | fail_if_no_progress refine Keeps.upd hw ?_ | refine Keeps.ite ?_ ?_

theorem State.enterRecovery_keeps {W : Nat} {r s : State} (cause : ℕ)
    (hw : Sub 0xc00090000048 W) (h : Keeps W r s) : Keeps W r (State.enterRecovery s cause) := by
  unfold State.enterRecovery
  try dsimp only
  with_reducible repeat' first
      | exact h | exact hw.mono (by decide) | apply State.report_keeps | apply State.setMode_keeps

theorem State.fallBack_keeps {W : Nat} {r s : State} (reason : ℕ) (missing : ℕ)
    (hw : Sub 0x800010100068 W) (h : Keeps W r s) : Keeps W r (State.fallBack s reason missing) := by
  unfold State.fallBack
  try dsimp only
  with_reducible repeat' first
      | exact h | exact hw.mono (by decide) | apply State.actPut_keeps | apply State.requestStore_keeps
      | apply State.bumpLifetime_keeps | fail_if_no_progress refine Keeps.upd hw ?_

theorem State.releaseChecks_keeps {W : Nat} {r s : State} 
    (hw : Sub 0xc00090100068 W) (h : Keeps W r s) : Keeps W r (State.releaseChecks s) := by
  unfold State.releaseChecks
  try dsimp only
  with_reducible repeat' first
      | exact h | exact hw.mono (by decide) | apply State.enterRecovery_keeps | apply State.actPut_keeps
      | apply State.fallBack_keeps | fail_if_no_progress refine Keeps.upd hw ?_ | refine Keeps.ite ?_ ?_
      | apply State.requestStore_keeps

theorem State.release_keeps {W : Nat} {r s : State} (strap : ℕ) (a : CopyRead) (b : CopyRead)
    (hw : Sub 0xc00094100069 W) (h : Keeps W r s) : Keeps W r (State.release s strap a b) := by
  unfold State.release
  try dsimp only
  with_reducible repeat' first
      | exact h | exact hw.mono (by decide) | apply State.recall_keeps | apply State.wr_keeps
      | apply State.setMode_keeps | apply State.report_keeps | apply State.releaseChecks_keeps
      | fail_if_no_progress refine Keeps.upd hw ?_ | refine Keeps.ite ?_ ?_

theorem State.confirm_keeps {W : Nat} {r s : State} 
    (hw : Sub 0x800010000068 W) (h : Keeps W r s) : Keeps W r (State.confirm s) := by
  unfold State.confirm
  try dsimp only
  with_reducible repeat' first
      | exact h | exact hw.mono (by decide) | apply State.actPut_keeps | apply State.report_keeps
      | apply State.requestStore_keeps

theorem State.loadGo_keeps {W : Nat} {r s : State} 
    (hw : Sub 0xc00090100048 W) (h : Keeps W r s) : Keeps W r (State.loadGo s) := by
  unfold State.loadGo
  try dsimp only
  with_reducible repeat' first
      | exact h | exact hw.mono (by decide) | apply State.report_keeps | apply State.enterRecovery_keeps
      | fail_if_no_progress refine Keeps.upd hw ?_ | refine Keeps.ite ?_ ?_ | dsimp only | split
      | apply State.holdStage_keeps | apply State.wrF_keeps

theorem State.actFrameRead_keeps {W : Nat} {r s : State} 
    (hw : Sub 0x400000000000 W) (h : Keeps W r s) : Keeps W r (State.actFrameRead s).1 := by
  unfold State.actFrameRead
  try dsimp only
  with_reducible repeat' first
      | exact h | exact hw.mono (by decide) | apply State.wr_keeps

theorem State.sowAbort_keeps {W : Nat} {r s : State} 
    (hw : Sub 0xc00000100048 W) (h : Keeps W r s) : Keeps W r (State.sowAbort s) := by
  unfold State.sowAbort
  try dsimp only
  with_reducible repeat' first
      | exact h | exact hw.mono (by decide) | apply State.wr_keeps | apply State.sowClear_keeps
      | fail_if_no_progress refine Keeps.upd hw ?_ | refine Keeps.ite ?_ ?_

theorem State.recoveryReq_keeps {W : Nat} {r s : State} 
    (hw : Sub 0x8040101000c8 W) (h : Keeps W r s) : Keeps W r (State.recoveryReq s) := by
  unfold State.recoveryReq
  try dsimp only
  with_reducible repeat' first
      | exact h | exact hw.mono (by decide) | apply State.requestReset_keeps | apply State.actPut_keeps

theorem State.resumeStage_keeps {W : Nat} {r s : State} 
    (hw : Sub 0x400080000200 W) (h : Keeps W r s) : Keeps W r (State.resumeStage s) := by
  unfold State.resumeStage
  try dsimp only
  with_reducible repeat' first
      | exact h | exact hw.mono (by decide) | apply State.wrF_keeps | fail_if_no_progress refine Keeps.upd hw ?_
      | refine Keeps.ite ?_ ?_

theorem State.gblReset_keeps {W : Nat} {r s : State} (v : ℕ)
    (hw : Sub 0x4010100080 W) (h : Keeps W r s) : Keeps W r (State.gblReset s v) := by
  unfold State.gblReset
  try dsimp only
  with_reducible repeat' first
      | exact h | exact hw.mono (by decide) | apply State.requestReset_keeps | refine Keeps.ite ?_ ?_

theorem State.loadWord_keeps {W : Nat} {r s : State} (v : ℕ)
    (hw : Sub 0x100000 W) (h : Keeps W r s) : Keeps W r (State.loadWord s v) := by
  unfold State.loadWord
  try dsimp only
  with_reducible repeat' first
      | exact h | exact hw.mono (by decide) | fail_if_no_progress refine Keeps.upd hw ?_ | refine Keeps.ite ?_ ?_

theorem execPowerOnReset_keeps {W : Nat}  (s : State) (hw : Sub 0x1ffffffffffff W) :
    OutKeeps W s (execPowerOnReset s) := by
  unfold execPowerOnReset
  have h := Keeps.refl W s
  try dsimp only [OutKeeps]
  with_reducible repeat' first
      | exact h | exact hw.mono (by decide) | apply State.resetTo_keeps | fail_if_no_progress refine Keeps.upd hw ?_

theorem execPinReset_keeps {W : Nat} (cool : Bool) (s : State) (hw : Sub 0x1ffffffffffff W) :
    OutKeeps W s (execPinReset cool s) := by
  unfold execPinReset
  have h := Keeps.refl W s
  try dsimp only [OutKeeps]
  with_reducible repeat' first
      | exact h | exact hw.mono (by decide) | apply State.resetTo_keeps | refine Keeps.ite ?_ ?_

theorem execGblReset_keeps {W : Nat} (value : Word) (s : State) (hw : Sub 0x4030100080 W) :
    OutKeeps W s (execGblReset value s) := by
  unfold execGblReset
  have h := Keeps.refl W s
  refine OutKeeps.gate (hw.mono (by decide)) ?_
  try dsimp only [OutKeeps]
  with_reducible repeat' first
      | exact h | exact hw.mono (by decide) | apply State.gblReset_keeps

theorem execWatchdogExpiry_keeps {W : Nat} (s : State) (hw : Sub 0x4010100080 W) :
    OutKeeps W s (execWatchdogExpiry s) := by
  unfold execWatchdogExpiry
  have h := Keeps.refl W s
  try dsimp only [OutKeeps]
  with_reducible repeat' first
      | exact h | exact hw.mono (by decide) | apply State.requestReset_keeps | refine Keeps.ite ?_ ?_

theorem execPfailRestart_keeps {W : Nat}  (s : State) (hw : Sub 0x1ffffffffffff W) :
    OutKeeps W s (execPfailRestart s) := by
  unfold execPfailRestart
  have h := Keeps.refl W s
  try dsimp only [OutKeeps]
  with_reducible repeat' first
      | exact h | exact hw.mono (by decide) | apply State.resetTo_keeps | refine Keeps.ite ?_ ?_

theorem execResetEffect_keeps {W : Nat}  (s : State) (hw : Sub 0x1ffffffffffff W) :
    OutKeeps W s (execResetEffect s) := by
  unfold execResetEffect
  have h := Keeps.refl W s
  try dsimp only [OutKeeps]
  with_reducible repeat' first
      | exact h | exact hw.mono (by decide) | apply State.resetTo_keeps | refine Keeps.ite ?_ ?_ | dsimp only
      | split

theorem execResetRelease_keeps {W : Nat} (strap : Fin 4) (a : CopyRead) (b : CopyRead) (s : State) (hw : Sub 0xc00094100069 W) :
    OutKeeps W s (execResetRelease strap a b s) := by
  unfold execResetRelease
  have h := Keeps.refl W s
  try dsimp only [OutKeeps]
  with_reducible repeat' first
      | exact h | assumption | exact hw.mono (by decide)
      | refine State.oneCycle_keeps (fun _ _ _ => ?_) (hw.mono (by decide)) ?_ | apply State.release_keeps
      | refine Keeps.ite ?_ ?_

theorem execUpdCtrlResumeStage_keeps {W : Nat} (s : State) (hw : Sub 0x4000a0000200 W) :
    OutKeeps W s (execUpdCtrlResumeStage s) := by
  unfold execUpdCtrlResumeStage
  have h := Keeps.refl W s
  refine OutKeeps.gate (hw.mono (by decide)) ?_
  try dsimp only [OutKeeps]
  with_reducible repeat' first
      | exact h | exact hw.mono (by decide) | apply State.resumeStage_keeps

theorem execUpdCtrlRecoveryReq_keeps {W : Nat} (s : State) (hw : Sub 0x8040301000c8 W) :
    OutKeeps W s (execUpdCtrlRecoveryReq s) := by
  unfold execUpdCtrlRecoveryReq
  have h := Keeps.refl W s
  refine OutKeeps.gate (hw.mono (by decide)) ?_
  try dsimp only [OutKeeps]
  with_reducible repeat' first
      | exact h | exact hw.mono (by decide) | apply State.recoveryReq_keeps

theorem execUpdCtrlLoadGo_keeps {W : Nat} (s : State) (hw : Sub 0xc000b0100048 W) :
    OutKeeps W s (execUpdCtrlLoadGo s) := by
  unfold execUpdCtrlLoadGo
  have h := Keeps.refl W s
  refine OutKeeps.gate (hw.mono (by decide)) ?_
  try dsimp only [OutKeeps]
  with_reducible repeat' first
      | exact h | assumption | exact hw.mono (by decide)
      | refine State.oneCycle_keeps (fun _ _ _ => ?_) (hw.mono (by decide)) ?_ | apply State.loadGo_keeps

theorem execUpdCtrlSowAbort_keeps {W : Nat} (s : State) (hw : Sub 0xc00020100048 W) :
    OutKeeps W s (execUpdCtrlSowAbort s) := by
  unfold execUpdCtrlSowAbort
  have h := Keeps.refl W s
  refine OutKeeps.gate (hw.mono (by decide)) ?_
  try dsimp only [OutKeeps]
  with_reducible repeat' first
      | exact h | exact hw.mono (by decide) | apply State.sowAbort_keeps

theorem execUpdLoadDataWrite_keeps {W : Nat} (value : Word) (s : State) (hw : Sub 0x20100000 W) :
    OutKeeps W s (execUpdLoadDataWrite value s) := by
  unfold execUpdLoadDataWrite
  have h := Keeps.refl W s
  refine OutKeeps.gate (hw.mono (by decide)) ?_
  try dsimp only [OutKeeps]
  with_reducible repeat' first
      | exact h | exact hw.mono (by decide) | apply State.loadWord_keeps

theorem execUpdActFrameLoRead_keeps {W : Nat} (s : State) (hw : Sub 0x400020000000 W) :
    OutKeeps W s (execUpdActFrameLoRead s) := by
  unfold execUpdActFrameLoRead
  have h := Keeps.refl W s
  refine OutKeeps.gate (hw.mono (by decide)) ?_
  try dsimp only [OutKeeps]
  with_reducible repeat' first
      | exact h | exact hw.mono (by decide) | apply State.result_keeps | apply State.actFrameRead_keeps
     

theorem execHealthConfirm_keeps {W : Nat}  (s : State) (hw : Sub 0x800010000068 W) :
    OutKeeps W s (execHealthConfirm s) := by
  unfold execHealthConfirm
  have h := Keeps.refl W s
  try dsimp only [OutKeeps]
  with_reducible repeat' first
      | exact h | assumption | exact hw.mono (by decide)
      | refine State.oneCycle_keeps (fun _ _ _ => ?_) (hw.mono (by decide)) ?_ | apply State.confirm_keeps
      | refine Keeps.ite ?_ ?_

theorem execHealthTimeout_keeps {W : Nat}  (s : State) (hw : Sub 0x8040101000e8 W) :
    OutKeeps W s (execHealthTimeout s) := by
  unfold execHealthTimeout
  have h := Keeps.refl W s
  try dsimp only [OutKeeps]
  with_reducible repeat' first
      | exact h | assumption | exact hw.mono (by decide)
      | refine State.oneCycle_keeps (fun _ _ _ => ?_) (hw.mono (by decide)) ?_ | apply State.requestReset_keeps
      | apply State.fallBack_keeps | refine Keeps.ite ?_ ?_

theorem State.tripHold_keeps {W : Nat} {r s : State} 
    (hw : Sub 0x1ffffffffffff W) (h : Keeps W r s) : Keeps W r (State.tripHold s) := by
  unfold State.tripHold
  try dsimp only
  with_reducible repeat' first
      | exact h | exact hw.mono (by decide) | apply State.resetTo_keeps | fail_if_no_progress refine Keeps.upd hw ?_

theorem execThermalTrip_keeps {W : Nat} (sites : BitVec 24) (s : State) (hw : Sub 0x1ffffffffffff W) :
    OutKeeps W s (execThermalTrip sites s) := by
  unfold execThermalTrip
  have h := Keeps.refl W s
  try dsimp only [OutKeeps]
  with_reducible repeat' first
      | exact h | exact hw.mono (by decide) | apply State.tripStore_keeps | fail_if_no_progress refine Keeps.upd hw ?_
      | refine Keeps.ite ?_ ?_ | apply State.tripHold_keeps

theorem execPowerLossSequenceEnd_keeps {W : Nat} (s : State) (hw : Sub 0x1ffffffffffff W) :
    OutKeeps W s (execPowerLossSequenceEnd s) := by
  unfold execPowerLossSequenceEnd
  have h := Keeps.refl W s
  try dsimp only [OutKeeps]
  with_reducible repeat' first
      | exact h | exact hw.mono (by decide) | apply State.dischargeDone_keeps | apply State.setSeq_keeps
      | apply State.wrF_keeps | apply State.setSup_keeps | refine Keeps.ite ?_ ?_ | apply State.tripHold_keeps

/-! ### Switch -/

theorem State.unstage_keeps {W : Nat} {r s : State} 
    (hw : Sub 0x10 W) (h : Keeps W r s) : Keeps W r (State.unstage s) := by
  unfold State.unstage
  try dsimp only
  with_reducible repeat' first
      | exact h | exact hw.mono (by decide) | fail_if_no_progress refine Keeps.upd hw ?_

theorem State.stewardRead_keeps {W : Nat} {r s : State} (a : ℕ) (n : ℕ)
    (hw : Sub 0x84029c400e4c W) (h : Keeps W r s) : Keeps W r (State.stewardRead s a n).1 := by
  unfold State.stewardRead
  try dsimp only
  with_reducible repeat' first
      | exact h | exact hw.mono (by decide) | apply State.refuseRange_keeps | apply State.consumePoison_keeps
      | refine Keeps.iteFst ?_ ?_ | apply State.useRange_keeps

theorem State.stageSource_keeps {W : Nat} {r s : State} 
    (hw : Sub 0x84029c400e4c W) (h : Keeps W r s) : Keeps W r (State.stageSource s).1 := by
  unfold State.stageSource
  try dsimp only
  with_reducible repeat' first
      | exact h | exact hw.mono (by decide) | apply State.stewardRead_keeps | refine Keeps.iteFst ?_ ?_ | dsimp only
      | split | refine Keeps.fst (by assumption) ?_

theorem State.stageRefused_keeps {W : Nat} {r s : State} (ev : ℕ)
    (hw : Sub 0x10 W) (h : Keeps W r s) : Keeps W r (State.stageRefused s ev) := by
  unfold State.stageRefused
  try dsimp only
  with_reducible repeat' first
      | exact h | exact hw.mono (by decide) | fail_if_no_progress refine Keeps.upd hw ?_

theorem State.stageValidate_keeps {W : Nat} {r s : State} (v : ℕ)
    (hw : Sub 0x84039e400e5c W) (h : Keeps W r s) : Keeps W r (State.stageValidate s v) := by
  unfold State.stageValidate
  try dsimp only
  with_reducible repeat' first
      | exact h | exact hw.mono (by decide) | apply State.regWrite_keeps | apply State.unstage_keeps
      | apply State.stageRefused_keeps | apply State.orR_keeps | apply State.report_keeps
      | apply State.stageSource_keeps | fail_if_no_progress refine Keeps.upd hw ?_ | refine Keeps.ite ?_ ?_
      | apply State.memSet_keeps | apply State.queueWrite_keeps

theorem State.stageAbort_keeps {W : Nat} {r s : State} (v : ℕ)
    (hw : Sub 0x100000010 W) (h : Keeps W r s) : Keeps W r (State.stageAbort s v) := by
  unfold State.stageAbort
  try dsimp only
  with_reducible repeat' first
      | exact h | exact hw.mono (by decide) | apply State.regWrite_keeps | apply State.unstage_keeps

theorem State.validationDone_keeps {W : Nat} {r s : State} 
    (hw : Sub 0x800010000058 W) (h : Keeps W r s) : Keeps W r (State.validationDone s) := by
  unfold State.validationDone
  try dsimp only
  with_reducible repeat' first
      | exact h | exact hw.mono (by decide) | apply State.loadPlan_keeps | apply State.stageRefused_keeps
      | apply State.report_keeps | fail_if_no_progress refine Keeps.upd hw ?_ | refine Keeps.ite ?_ ?_
      | refine Keeps.iteFst ?_ ?_ | dsimp only | split | refine Keeps.fst (by assumption) ?_

theorem State.armWith_keeps {W : Nat} {r s : State} (a : Arm)
    (hw : Sub 0x800010000058 W) (h : Keeps W r s) : Keeps W r (State.armWith s a) := by
  unfold State.armWith
  try dsimp only
  with_reducible repeat' first
      | exact h | exact hw.mono (by decide) | apply State.report_keeps | fail_if_no_progress refine Keeps.upd hw ?_
      | refine Keeps.ite ?_ ?_

theorem State.switchArm_keeps {W : Nat} {r s : State} (v : ℕ)
    (hw : Sub 0x800110000058 W) (h : Keeps W r s) : Keeps W r (State.switchArm s v) := by
  unfold State.switchArm
  try dsimp only
  with_reducible repeat' first
      | exact h | exact hw.mono (by decide) | apply State.regWrite_keeps | apply State.report_keeps
      | apply State.armWith_keeps | refine Keeps.ite ?_ ?_

theorem State.switchNext_keeps {W : Nat} {r s : State} (v : ℕ)
    (hw : Sub 0x800110000058 W) (h : Keeps W r s) : Keeps W r (State.switchNext s v) := by
  unfold State.switchNext
  try dsimp only
  with_reducible repeat' first
      | exact h | exact hw.mono (by decide) | apply State.armWith_keeps | apply State.regWrite_keeps

theorem State.switchDisarm_keeps {W : Nat} {r s : State} (v : ℕ)
    (hw : Sub 0x100000010 W) (h : Keeps W r s) : Keeps W r (State.switchDisarm s v) := by
  unfold State.switchDisarm
  try dsimp only
  with_reducible repeat' first
      | exact h | exact hw.mono (by decide) | apply State.regWrite_keeps
      | fail_if_no_progress refine Keeps.upd hw ?_

theorem State.staticChange_keeps {W : Nat} {r s : State} (old : Plan) (new : Plan)
    (hw : Sub 0x200000200 W) (h : Keeps W r s) : Keeps W r (State.staticChange s old new) := by
  unfold State.staticChange
  try dsimp only
  with_reducible repeat' first
      | exact h | assumption | exact hw.mono (by decide) | apply State.allocPlot_keeps | apply State.setPlot_keeps
      | refine Keeps.foldl (fun _ _ _ => ?_) _ ?_ | refine Keeps.foldlPair (fun _ _ _ => ?_) _ ?_
      | fail_if_no_progress refine Keeps.upd hw ?_ | refine Keeps.ite ?_ ?_ | dsimp only | split

theorem State.portsChange_keeps {W : Nat} {r s : State} (roles : List PortRole) (cand : Bool) (prio : ℕ)
    (hw : Sub 0xc18010130048 W) (h : Keeps W r s) : Keeps W r (State.portsChange s roles cand prio) := by
  unfold State.portsChange
  try dsimp only
  with_reducible repeat' first
      | exact h | assumption | exact hw.mono (by decide) | apply State.portSettle_keeps | apply State.wakeBoth_keeps
      | refine Keeps.foldl (fun _ _ _ => ?_) _ ?_ | refine Keeps.foldlPair (fun _ _ _ => ?_) _ ?_
      | refine Keeps.ite ?_ ?_ | apply State.rootChange_keeps

theorem State.basesInForce_keeps {W : Nat} {r s : State} 
    (hw : Sub 0x2000000000 W) (h : Keeps W r s) : Keeps W r (State.basesInForce s) := by
  unfold State.basesInForce
  try dsimp only
  with_reducible repeat' first
      | exact h | exact hw.mono (by decide) | apply State.wr_keeps

theorem State.eventsMove_keeps {W : Nat} {r s : State} 
    (hw : Sub 0x200000208 W) (h : Keeps W r s) : Keeps W r (State.eventsMove s) := by
  unfold State.eventsMove
  try dsimp only
  with_reducible repeat' first
      | exact h | assumption | exact hw.mono (by decide) | apply State.allocPlot_keeps
      | refine Keeps.foldl (fun _ _ _ => ?_) _ ?_ | refine Keeps.foldlPair (fun _ _ _ => ?_) _ ?_
      | fail_if_no_progress refine Keeps.upd hw ?_ | refine Keeps.ite ?_ ?_ | dsimp only | split

theorem State.linksRetake_keeps {W : Nat} {r s : State} 
    (hw : Sub 0x818210030248 W) (h : Keeps W r s) : Keeps W r (State.linksRetake s) := by
  unfold State.linksRetake
  try dsimp only
  with_reducible repeat' first
      | exact h | assumption | exact hw.mono (by decide) | apply State.linkPlots_keeps | apply State.syncNow_keeps
      | refine Keeps.foldl (fun _ _ _ => ?_) _ ?_ | refine Keeps.foldlPair (fun _ _ _ => ?_) _ ?_
      | refine Keeps.ite ?_ ?_

theorem State.pinClaims_keeps {W : Nat} {r s : State} 
    (hw : Sub 0x800010000058 W) (h : Keeps W r s) : Keeps W r (State.pinClaims s) := by
  unfold State.pinClaims
  try dsimp only
  with_reducible repeat' first
      | exact h | assumption | exact hw.mono (by decide) | apply State.claim_keeps | apply State.report_keeps
      | refine Keeps.foldl (fun _ _ _ => ?_) _ ?_ | refine Keeps.foldlPair (fun _ _ _ => ?_) _ ?_
      | refine Keeps.ite ?_ ?_ | dsimp only | split

theorem State.dataPathClear_keeps {W : Nat} {r s : State} 
    (hw : Sub 0xf080 W) (h : Keeps W r s) : Keeps W r (State.dataPathClear s) := by
  unfold State.dataPathClear
  try dsimp only
  with_reducible repeat' first
      | exact h | exact hw.mono (by decide) | fail_if_no_progress refine Keeps.upd hw ?_

theorem State.planFresh_keeps {W : Nat} {r s : State} (p : Plan)
    (hw : Sub 0xc5e69253fedc W) (h : Keeps W r s) : Keeps W r (State.planFresh s p) := by
  unfold State.planFresh
  try dsimp only
  with_reducible repeat' first
      | exact h | exact hw.mono (by decide) | apply State.buildPlotMap_keeps | apply State.dataPathClear_keeps
      | apply State.eventsMove_keeps | apply State.basesInForce_keeps | apply State.windowsInForce_keeps
      | apply State.portsChange_keeps | apply State.linksRetake_keeps | apply State.wrF_keeps
      | apply State.plateSwitch_keeps | fail_if_no_progress refine Keeps.upd hw ?_

theorem State.planWarm_keeps {W : Nat} {r s : State} (q : Plan) (p : Plan)
    (hw : Sub 0xc5c692530edc W) (h : Keeps W r s) : Keeps W r (State.planWarm s q p) := by
  unfold State.planWarm
  try dsimp only
  with_reducible repeat' first
      | exact h | exact hw.mono (by decide) | apply State.portsChange_keeps | apply State.serveWaiting_keeps
      | apply State.staticChange_keeps | apply State.plateSwitch_keeps | apply State.wrF_keeps
      | apply State.dischargeStart_keeps | fail_if_no_progress refine Keeps.upd hw ?_ | refine Keeps.ite ?_ ?_

theorem State.switchBoundary_keeps {W : Nat} {r s : State} 
    (hw : Sub 0xcde69e5bfedc W) (h : Keeps W r s) : Keeps W r (State.switchBoundary s) := by
  unfold State.switchBoundary
  try dsimp only
  with_reducible repeat' first
      | exact h | exact hw.mono (by decide) | apply State.unstage_keeps | apply State.planWarm_keeps
      | apply State.planFresh_keeps | apply State.report_keeps | fail_if_no_progress refine Keeps.upd hw ?_
      | refine Keeps.ite ?_ ?_ | dsimp only | split | apply State.burAbort_keeps

theorem State.frameLoRead_keeps {W : Nat} {r s : State} 
    (hw : Sub 0x100000000 W) (h : Keeps W r s) : Keeps W r (State.frameLoRead s).1 := by
  unfold State.frameLoRead
  try dsimp only
  with_reducible repeat' first
      | exact h | exact hw.mono (by decide) | apply State.wr_keeps

theorem execFplStageValidate_keeps {W : Nat} (value : Word) (s : State) (hw : Sub 0x8403be400e5c W) :
    OutKeeps W s (execFplStageValidate value s) := by
  unfold execFplStageValidate
  have h := Keeps.refl W s
  refine OutKeeps.gate (hw.mono (by decide)) ?_
  try dsimp only [OutKeeps]
  with_reducible repeat' first
      | exact h | assumption | exact hw.mono (by decide)
      | refine State.oneCycle_keeps (fun _ _ _ => ?_) (hw.mono (by decide)) ?_ | apply State.stageValidate_keeps

theorem execFplStageAbort_keeps {W : Nat} (value : Word) (s : State) (hw : Sub 0x120000010 W) :
    OutKeeps W s (execFplStageAbort value s) := by
  unfold execFplStageAbort
  have h := Keeps.refl W s
  refine OutKeeps.gate (hw.mono (by decide)) ?_
  try dsimp only [OutKeeps]
  with_reducible repeat' first
      | exact h | exact hw.mono (by decide) | apply State.stageAbort_keeps

theorem execPlanValidationDone_keeps {W : Nat} (s : State) (hw : Sub 0x800010000058 W) :
    OutKeeps W s (execPlanValidationDone s) := by
  unfold execPlanValidationDone
  have h := Keeps.refl W s
  try dsimp only [OutKeeps]
  with_reducible repeat' first
      | exact h | assumption | exact hw.mono (by decide)
      | refine State.oneCycle_keeps (fun _ _ _ => ?_) (hw.mono (by decide)) ?_ | apply State.validationDone_keeps

theorem execFplSwitchArm_keeps {W : Nat} (value : Word) (s : State) (hw : Sub 0x800130000058 W) :
    OutKeeps W s (execFplSwitchArm value s) := by
  unfold execFplSwitchArm
  have h := Keeps.refl W s
  refine OutKeeps.gate (hw.mono (by decide)) ?_
  try dsimp only [OutKeeps]
  with_reducible repeat' first
      | exact h | assumption | exact hw.mono (by decide)
      | refine State.oneCycle_keeps (fun _ _ _ => ?_) (hw.mono (by decide)) ?_ | apply State.switchArm_keeps

theorem execFplSwitchNext_keeps {W : Nat} (value : Word) (s : State) (hw : Sub 0x800130000058 W) :
    OutKeeps W s (execFplSwitchNext value s) := by
  unfold execFplSwitchNext
  have h := Keeps.refl W s
  refine OutKeeps.gate (hw.mono (by decide)) ?_
  try dsimp only [OutKeeps]
  with_reducible repeat' first
      | exact h | exact hw.mono (by decide) | apply State.switchNext_keeps

theorem execFplSwitchDisarm_keeps {W : Nat} (value : Word) (s : State) (hw : Sub 0x120000010 W) :
    OutKeeps W s (execFplSwitchDisarm value s) := by
  unfold execFplSwitchDisarm
  have h := Keeps.refl W s
  refine OutKeeps.gate (hw.mono (by decide)) ?_
  try dsimp only [OutKeeps]
  with_reducible repeat' first
      | exact h | exact hw.mono (by decide) | apply State.switchDisarm_keeps

theorem execFplFrameLoRead_keeps {W : Nat} (s : State) (hw : Sub 0x120000000 W) :
    OutKeeps W s (execFplFrameLoRead s) := by
  unfold execFplFrameLoRead
  have h := Keeps.refl W s
  refine OutKeeps.gate (hw.mono (by decide)) ?_
  try dsimp only [OutKeeps]
  with_reducible repeat' first
      | exact h | exact hw.mono (by decide) | apply State.result_keeps | apply State.frameLoRead_keeps
     

/-! ### Host -/

theorem State.gpioOwn_keeps {W : Nat} {r s : State} (n : ℕ) (v : ℕ)
    (hw : Sub 0x800030000058 W) (h : Keeps W r s) : Keeps W r (State.gpioOwn s n v) := by
  unfold State.gpioOwn
  try dsimp only
  with_reducible repeat' first
      | exact h | exact hw.mono (by decide) | apply State.claim_keeps | apply State.result_keeps
      | apply State.unclaim_keeps | refine Keeps.ite ?_ ?_

theorem State.gpioWrite_keeps {W : Nat} {r s : State} (a : ℕ) (v : ℕ)
    (hw : Sub 0x1ffff80000000 W) (h : Keeps W r s) : Keeps W r (State.gpioWrite s a v) := by
  unfold State.gpioWrite
  try dsimp only
  with_reducible repeat' first
      | exact h | exact hw.mono (by decide) | exact hw.any (by decide) | apply State.wr_keeps

theorem State.hostLeft_keeps {W : Nat} {r s : State} (n : Nat) (hw : Sub 0x8 W) (h : Keeps W r s) : Keeps W r (s.hostLeft n) := by
  refine h.trans ⟨rfl, id, id, id, fun hr => ?_, id, id, (fun b hb => by cases b <;> first | exact rfl | exact fun _ _ => rfl | exact ⟨rfl, rfl, rfl, rfl⟩ | exact hw.off hb (by decide))⟩
  rw [ringOk_iff] at hr ⊢
  exact ⟨hr.1, (Nat.mod_lt n (by decide)).le, hr.2.2⟩

theorem State.evConsume_keeps {W : Nat} {r s : State} (v : ℕ)
    (hw : Sub 0x800000000008 W) (h : Keeps W r s) : Keeps W r (State.evConsume s v) := by
  unfold State.evConsume
  try dsimp only
  with_reducible repeat' first
      | exact h | exact hw.mono (by decide) | apply State.hostLeft_keeps | apply State.wr_keeps
      | refine Keeps.ite ?_ ?_

theorem State.evLostRead_keeps {W : Nat} {r s : State} 
    (hw : Sub 0x800000000000 W) (h : Keeps W r s) : Keeps W r (State.evLostRead s).1 := by
  unfold State.evLostRead
  try dsimp only
  with_reducible repeat' first
      | exact h | exact hw.mono (by decide) | apply State.wr_keeps

theorem State.sndPass_keeps {W : Nat} {r s : State} (n : Nat) (hw : Sub 0x8 W) (h : Keeps W r s) : Keeps W r (s.sndPass n) := by
  refine h.trans ⟨rfl, id, id, id, fun hr => ?_, id, id, (fun b hb => by cases b <;> first | exact rfl | exact fun _ _ => rfl | exact ⟨rfl, rfl, rfl, rfl⟩ | exact hw.off hb (by decide))⟩
  rw [ringOk_iff] at hr ⊢
  exact ⟨hr.1, hr.2.1, (Nat.sub_le _ _).trans hr.2.2⟩

theorem State.evSend_keeps {W : Nat} {r s : State} 
    (hw : Sub 0x818010030048 W) (h : Keeps W r s) : Keeps W r (State.evSend s) := by
  unfold State.evSend
  try dsimp only
  with_reducible repeat' first
      | exact h | assumption | exact hw.mono (by decide) | apply State.sndPass_keeps | apply State.sendTo_keeps
      | refine Keeps.foldl (fun _ _ _ => ?_) _ ?_ | refine Keeps.foldlPair (fun _ _ _ => ?_) _ ?_
      | fail_if_no_progress refine Keeps.upd hw ?_ | refine Keeps.ite ?_ ?_ | dsimp only | split

theorem State.logPut_keeps {W : Nat} {r s : State} (ty : ℕ) (payload : Bytes) (fail : Bool)
    (hw : Sub 0x80001180004c W) (h : Keeps W r s) : Keeps W r (State.logPut s ty payload fail) := by
  unfold State.logPut
  try dsimp only
  with_reducible repeat' first
      | exact h | exact hw.mono (by decide) | apply State.flashFail_keeps | apply State.tornFlash_keeps
      | apply State.flashPut_keeps | refine Keeps.ite ?_ ?_ | dsimp only | split

theorem State.logWrap_keeps {W : Nat} {r s : State} 
    (hw : Sub 0x80001180004c W) (h : Keeps W r s) : Keeps W r (State.logWrap s) := by
  unfold State.logWrap
  try dsimp only
  with_reducible repeat' first
      | exact h | assumption | exact hw.mono (by decide) | apply State.logPut_keeps | apply State.eraseSector_keeps
      | refine Keeps.foldl (fun _ _ _ => ?_) _ ?_ | refine Keeps.foldlPair (fun _ _ _ => ?_) _ ?_
      | refine Keeps.ite ?_ ?_ | dsimp only | split

theorem State.logAppend_keeps {W : Nat} {r s : State} (fail : Bool)
    (hw : Sub 0x80001180004c W) (h : Keeps W r s) : Keeps W r (State.logAppend s fail) := by
  unfold State.logAppend
  try dsimp only
  with_reducible repeat' first
      | exact h | exact hw.mono (by decide) | apply State.logPut_keeps | apply State.logWrap_keeps
      | fail_if_no_progress refine Keeps.upd hw ?_ | dsimp only | split

theorem State.hostReach_keeps {W : Nat} {r s : State} (a : ℕ)
    (hw : Sub 0x800090000048 W) (h : Keeps W r s) : Keeps W r (State.hostReach s a).1 := by
  unfold State.hostReach
  try dsimp only
  with_reducible repeat' first
      | exact h | exact hw.mono (by decide) | apply State.grnCheck_keeps | apply State.unmapped_keeps
      | refine Keeps.ite ?_ ?_ | refine Keeps.iteFst ?_ ?_

theorem State.hostPoison_keeps {W : Nat} {r s : State} (a : ℕ)
    (hw : Sub 0x840210000248 W) (h : Keeps W r s) : Keeps W r (State.hostPoison s a) := by
  unfold State.hostPoison
  try dsimp only
  with_reducible repeat' first
      | exact h | exact hw.mono (by decide) | apply State.poisonConsumed_keeps | apply State.bump_keeps
      | refine Keeps.ite ?_ ?_

theorem State.hostRead_keeps {W : Nat} {r s : State} (a : ℕ) (line : Bool)
    (hw : Sub 0x84029c400e4c W) (h : Keeps W r s) : Keeps W r (State.hostRead s a line).1 := by
  unfold State.hostRead
  try dsimp only
  with_reducible repeat' first
      | exact h | exact hw.mono (by decide) | apply State.hostReach_keeps | apply State.hostPoison_keeps
      | refine Keeps.ite ?_ ?_ | refine Keeps.iteFst ?_ ?_ | dsimp only | split | refine Keeps.fst (by assumption) ?_
      | apply State.useRange_keeps

theorem State.hostWrite_keeps {W : Nat} {r s : State} (a : ℕ) (v : ℕ) (line : Bool)
    (hw : Sub 0x84009c400e4c W) (h : Keeps W r s) : Keeps W r (State.hostWrite s a v line).1 := by
  unfold State.hostWrite
  try dsimp only
  with_reducible repeat' first
      | exact h | exact hw.mono (by decide) | apply State.hostReach_keeps | apply State.memPut_keeps
      | fail_if_no_progress refine Keeps.upd hw ?_ | refine Keeps.ite ?_ ?_ | refine Keeps.iteFst ?_ ?_ | dsimp only
      | split | refine Keeps.fst (by assumption) ?_ | apply State.useRange_keeps

theorem State.hostReads_keeps {W : Nat} {r : State} (a : Nat) (hw : Sub 0x84029c400e4c W) :
    ∀ (n : Nat) {s : State}, Keeps W r s → Keeps W r (State.hostReads s a n).1 := by
  intro n
  induction n with
  | zero =>
    intro s h
    exact h
  | succ n ih =>
    intro s h
    unfold State.hostReads
    try dsimp only
    with_reducible repeat' first
        | exact h | apply ih | assumption | exact hw.mono (by decide) | exact ha | apply State.hostRead_keeps
        | refine Keeps.foldl (fun _ _ _ => ?_) _ ?_ | refine Keeps.foldlPair (fun _ _ _ => ?_) _ ?_
        | fail_if_no_progress refine Keeps.upd hw ?_ | refine Keeps.ite ?_ ?_ | refine Keeps.iteFst ?_ ?_
        | refine OptKeeps.ite ?_ ?_ | dsimp only | split | refine Keeps.fst (by assumption) ?_

theorem State.hostWrites_keeps {W : Nat} {r : State} (a : Nat) (hw : Sub 0x84009e400e4c W) :
    ∀ (l : List Word) (k : Nat) {s : State}, Keeps W r s → Keeps W r (State.hostWrites s a k l).1 := by
  intro l
  induction l with
  | nil =>
    intro k s h
    exact h
  | cons w l ih =>
    intro k s h
    unfold State.hostWrites
    try dsimp only
    with_reducible repeat' first
        | exact h | apply ih | assumption | exact hw.mono (by decide) | apply State.lineRenewed_keeps | exact ha | apply State.hostWrite_keeps
        | apply State.setPoison_keeps | refine Keeps.foldl (fun _ _ _ => ?_) _ ?_
        | refine Keeps.foldlPair (fun _ _ _ => ?_) _ ?_ | fail_if_no_progress refine Keeps.upd hw ?_
        | refine Keeps.ite ?_ ?_ | refine Keeps.iteFst ?_ ?_ | refine OptKeeps.ite ?_ ?_ | dsimp only | split
        | refine Keeps.fst (by assumption) ?_

theorem execGblGpioOwnWrite_keeps {W : Nat} (pin : Fin 16) (value : Word) (s : State) (hw : Sub 0x800030000058 W) :
    OutKeeps W s (execGblGpioOwnWrite pin value s) := by
  unfold execGblGpioOwnWrite
  have h := Keeps.refl W s
  refine OutKeeps.gate (hw.mono (by decide)) ?_
  try dsimp only [OutKeeps]
  with_reducible repeat' first
      | exact h | assumption | exact hw.mono (by decide)
      | refine State.oneCycle_keeps (fun _ _ _ => ?_) (hw.mono (by decide)) ?_ | apply State.gpioOwn_keeps

theorem execGblEvqRdWrite_keeps {W : Nat} (value : Word) (s : State) (hw : Sub 0x800020000008 W) :
    OutKeeps W s (execGblEvqRdWrite value s) := by
  unfold execGblEvqRdWrite
  have h := Keeps.refl W s
  refine OutKeeps.gate (hw.mono (by decide)) ?_
  try dsimp only [OutKeeps]
  with_reducible repeat' first
      | exact h | exact hw.mono (by decide) | apply State.evConsume_keeps

theorem execGblEvqLostRead_keeps {W : Nat} (s : State) (hw : Sub 0x800020000000 W) :
    OutKeeps W s (execGblEvqLostRead s) := by
  unfold execGblEvqLostRead
  have h := Keeps.refl W s
  refine OutKeeps.gate (hw.mono (by decide)) ?_
  try dsimp only [OutKeeps]
  with_reducible repeat' first
      | exact h | exact hw.mono (by decide) | apply State.result_keeps | apply State.evLostRead_keeps
     

theorem execEventMessageSend_keeps {W : Nat} (s : State) (hw : Sub 0x818010030048 W) :
    OutKeeps W s (execEventMessageSend s) := by
  unfold execEventMessageSend
  have h := Keeps.refl W s
  try dsimp only [OutKeeps]
  with_reducible repeat' first
      | exact h | exact hw.mono (by decide) | apply State.evSend_keeps

theorem execFlashLogAppend_keeps {W : Nat} (fail : Bool) (s : State) (hw : Sub 0x80001180004c W) :
    OutKeeps W s (execFlashLogAppend fail s) := by
  unfold execFlashLogAppend
  have h := Keeps.refl W s
  try dsimp only [OutKeeps]
  with_reducible repeat' first
      | exact h | exact hw.mono (by decide) | apply State.logAppend_keeps | refine Keeps.ite ?_ ?_

end Sys2Proof.Machine
end

