-- ==== Sys2Proof/Laws/KeepsMailbox.lean ====
section
/-! SUPPORT. Every operation and meaning of the mailbox and register access (Machine/Mailbox.lean and Access.lean)
keeps what `Keeps` says. -/

-- One theorem at a time: hundreds of them at once would need more thread stacks than a check may map.
set_option Elab.async false
namespace Sys2Proof.Machine

/-! ### Mailbox -/

theorem State.mbxClaim_keeps {W : Nat} {r s : State} (who : Requester)
    (hw : Sub 0x200000 W) (h : Keeps W r s) : Keeps W r (State.mbxClaim s who) := by
  unfold State.mbxClaim
  try dsimp only
  with_reducible repeat' first
      | exact h | exact hw.mono (by decide) | fail_if_no_progress refine Keeps.upd hw ?_ | refine Keeps.ite ?_ ?_

theorem State.mbxRelease_keeps {W : Nat} {r s : State} (who : Requester)
    (hw : Sub 0x200000 W) (h : Keeps W r s) : Keeps W r (State.mbxRelease s who) := by
  unfold State.mbxRelease
  try dsimp only
  with_reducible repeat' first
      | exact h | exact hw.mono (by decide) | fail_if_no_progress refine Keeps.upd hw ?_ | refine Keeps.ite ?_ ?_

theorem State.mbxPut_keeps {W : Nat} {r s : State} (b : Bytes)
    (hw : Sub 0x200000 W) (h : Keeps W r s) : Keeps W r (State.mbxPut s b) := by
  unfold State.mbxPut
  try dsimp only
  with_reducible repeat' first
      | exact h | exact hw.mono (by decide) | fail_if_no_progress refine Keeps.upd hw ?_

theorem State.mbxEnd_keeps {W : Nat} {r s : State} (op : ℕ) (irq : Bool) (st : ℕ) (len : ℕ)
    (hw : Sub 0xc00010200048 W) (h : Keeps W r s) : Keeps W r (State.mbxEnd s op irq st len) := by
  unfold State.mbxEnd
  try dsimp only
  with_reducible repeat' first
      | exact h | exact hw.mono (by decide) | apply State.wr_keeps | apply State.orR_keeps | apply State.report_keeps
      | fail_if_no_progress refine Keeps.upd hw ?_ | refine Keeps.ite ?_ ?_

theorem State.mbxFail_keeps {W : Nat} {r s : State} (op : ℕ) (irq : Bool) (ev : ℕ)
    (hw : Sub 0xc00010200048 W) (h : Keeps W r s) : Keeps W r (State.mbxFail s op irq ev) := by
  unfold State.mbxFail
  try dsimp only
  with_reducible repeat' first
      | exact h | exact hw.mono (by decide) | apply State.mbxEnd_keeps | apply State.wr_keeps

theorem State.mbxWait_keeps {W : Nat} {r s : State} (op : ℕ) (irq : Bool) (n : ℕ)
    (hw : Sub 0x400000200000 W) (h : Keeps W r s) : Keeps W r (State.mbxWait s op irq n) := by
  unfold State.mbxWait
  try dsimp only
  with_reducible repeat' first
      | exact h | exact hw.mono (by decide) | apply State.wr_keeps | fail_if_no_progress refine Keeps.upd hw ?_

theorem State.mbxStore_keeps {W : Nat} {r s : State} (op : ℕ) (irq : Bool) (kind : ℕ)
    (hw : Sub 0xc00010200068 W) (h : Keeps W r s) : Keeps W r (State.mbxStore s op irq kind) := by
  unfold State.mbxStore
  try dsimp only
  with_reducible repeat' first
      | exact h | exact hw.mono (by decide) | apply State.requestStore_keeps | apply State.mbxWait_keeps
      | apply State.mbxEnd_keeps | refine Keeps.ite ?_ ?_ | refine Keeps.iteFst ?_ ?_ | dsimp only | split
      | refine Keeps.fst (by assumption) ?_

theorem State.mbxIdentify_keeps {W : Nat} {r s : State} (irq : Bool)
    (hw : Sub 0xc00010200048 W) (h : Keeps W r s) : Keeps W r (State.mbxIdentify s irq) := by
  unfold State.mbxIdentify
  try dsimp only
  with_reducible repeat' first
      | exact h | assumption | exact hw.mono (by decide) | exact hw.mono (by rw [regBit_mbxRes]; decide)
      | apply State.mbxEnd_keeps | apply State.wr_keeps | refine Keeps.foldl (fun _ _ _ => ?_) _ ?_

theorem State.mbxShutdown_keeps {W : Nat} {r s : State} (irq : Bool)
    (hw : Sub 0xc040102000e8 W) (h : Keeps W r s) : Keeps W r (State.mbxShutdown s irq) := by
  unfold State.mbxShutdown
  try dsimp only
  with_reducible repeat' first
      | exact h | exact hw.mono (by decide) | apply State.mbxEnd_keeps | apply State.sbkBusy_keeps
      | apply State.mbxStore_keeps | apply State.setSup_keeps | apply State.supplyDownFor_keeps
      | apply State.mbxWait_keeps | fail_if_no_progress refine Keeps.upd hw ?_ | refine Keeps.ite ?_ ?_

theorem State.mbxFlashRead_keeps {W : Nat} {r s : State} (irq : Bool)
    (hw : Sub 0xc00010200048 W) (h : Keeps W r s) : Keeps W r (State.mbxFlashRead s irq) := by
  unfold State.mbxFlashRead
  try dsimp only
  with_reducible repeat' first
      | exact h | exact hw.mono (by decide) | apply State.mbxEnd_keeps | apply State.mbxPut_keeps
      | refine Keeps.ite ?_ ?_

theorem State.mbxPlanWrite_keeps {W : Nat} {r s : State} (irq : Bool) (fail : Bool)
    (hw : Sub 0xc4029de00e4c W) (h : Keeps W r s) : Keeps W r (State.mbxPlanWrite s irq fail) := by
  unfold State.mbxPlanWrite
  try dsimp only
  with_reducible repeat' first
      | exact h | exact hw.mono (by decide) | apply State.mbxEnd_keeps | apply State.stewardRead_keeps
      | apply State.mbxFail_keeps | apply State.flashErase_keeps | apply State.flashFail_keeps
      | apply State.tornFlash_keeps | apply State.flashPut_keeps | refine Keeps.ite ?_ ?_ | dsimp only | split
      | refine Keeps.fst (by assumption) ?_

theorem State.mbxPlanSelect_keeps {W : Nat} {r s : State} (irq : Bool)
    (hw : Sub 0xc00010200068 W) (h : Keeps W r s) : Keeps W r (State.mbxPlanSelect s irq) := by
  unfold State.mbxPlanSelect
  try dsimp only
  with_reducible repeat' first
      | exact h | exact hw.mono (by decide) | apply State.mbxEnd_keeps | apply State.mbxStore_keeps
      | apply State.actPut_keeps | refine Keeps.ite ?_ ?_ | apply State.sramRefuse_keeps

theorem State.featureOff_keeps {W : Nat} {r s : State} (lost : ℕ) (cls : ℕ) (idx : ℕ)
    (hw : Sub 0xc1a010138058 W) (h : Keeps W r s) : Keeps W r (State.featureOff s lost cls idx) := by
  unfold State.featureOff
  try dsimp only
  with_reducible repeat' first
      | exact h | exact hw.mono (by decide) | apply State.modeWrite_keeps | apply State.ckptFail_keeps
      | refine Keeps.ite ?_ ?_

theorem State.claimFor_keeps {W : Nat} {r s : State} (cls : ℕ) (idx : ℕ) (feature : ℕ)
    (hw : Sub 0xc1a010138058 W) (h : Keeps W r s) : Keeps W r (State.claimFor s cls idx feature).1 := by
  unfold State.claimFor
  try dsimp only
  with_reducible repeat' first
      | exact h | exact hw.mono (by decide) | apply State.claim_keeps | apply State.featureOff_keeps

theorem State.mbxEnable_keeps {W : Nat} {r s : State} (irq : Bool)
    (hw : Sub 0xc1a010338058 W) (h : Keeps W r s) : Keeps W r (State.mbxEnable s irq) := by
  unfold State.mbxEnable
  try dsimp only
  with_reducible repeat' first
      | exact h | exact hw.mono (by decide) | apply State.mbxEnd_keeps | apply State.mbxFail_keeps
      | apply State.report_keeps | refine Keeps.ite ?_ ?_ | refine Keeps.iteFst ?_ ?_ | dsimp only | split
      | refine Keeps.fst (by assumption) ?_ | apply State.claimFor_keeps

theorem State.mbxDisable_keeps {W : Nat} {r s : State} (irq : Bool)
    (hw : Sub 0xc00010200058 W) (h : Keeps W r s) : Keeps W r (State.mbxDisable s irq) := by
  unfold State.mbxDisable
  try dsimp only
  with_reducible repeat' first
      | exact h | exact hw.mono (by decide) | apply State.mbxEnd_keeps | apply State.unclaim_keeps
      | refine Keeps.ite ?_ ?_

theorem State.mbxThrJob_keeps {W : Nat} {r s : State} (irq : Bool)
    (hw : Sub 0xc40a9e601e4c W) (h : Keeps W r s) : Keeps W r (State.mbxThrJob s irq) := by
  unfold State.mbxThrJob
  try dsimp only
  with_reducible repeat' first
      | exact h | exact hw.mono (by decide) | apply State.jobSubmit_keeps | apply State.mbxEnd_keeps
      | apply State.wr_keeps | dsimp only | split | refine Keeps.fst (by assumption) ?_

theorem State.mbxSelftest_keeps {W : Nat} {r s : State} (irq : Bool)
    (hw : Sub 0xc4021c200148 W) (h : Keeps W r s) : Keeps W r (State.mbxSelftest s irq) := by
  unfold State.mbxSelftest
  try dsimp only
  with_reducible repeat' first
      | exact h | exact hw.mono (by decide) | apply State.mbxEnd_keeps | apply State.queuePlot_keeps
      | apply State.queueTestLim_keeps | apply State.laneTestReq_keeps | apply State.queueTest_keeps
      | refine Keeps.ite ?_ ?_ | apply State.queueSensorTest_keeps

theorem State.mbxLogRead_keeps {W : Nat} {r s : State} (irq : Bool)
    (hw : Sub 0xc00010200048 W) (h : Keeps W r s) : Keeps W r (State.mbxLogRead s irq) := by
  unfold State.mbxLogRead
  try dsimp only
  with_reducible repeat' first
      | exact h | exact hw.mono (by decide) | apply State.mbxEnd_keeps | apply State.mbxPut_keeps
      | refine Keeps.ite ?_ ?_ | apply State.sramMeet_keeps

theorem State.mbxLogExport_keeps {W : Nat} {r s : State} (irq : Bool)
    (hw : Sub 0xc1a010338058 W) (h : Keeps W r s) : Keeps W r (State.mbxLogExport s irq) := by
  unfold State.mbxLogExport
  try dsimp only
  with_reducible repeat' first
      | exact h | assumption | exact hw.mono (by decide) | apply State.mbxFail_keeps | apply State.sendTo_keeps
      | apply State.mbxEnd_keeps | apply State.wr_keeps | apply State.unclaim_keeps
      | refine Keeps.foldl (fun _ _ _ => ?_) _ ?_ | refine Keeps.foldlPair (fun _ _ _ => ?_) _ ?_ | dsimp only | split
      | refine Keeps.fst (by assumption) ?_ | apply State.claimFor_keeps

theorem State.mbxCapture_keeps {W : Nat} {r s : State} (irq : Bool)
    (hw : Sub 0xc5a09273845c W) (h : Keeps W r s) : Keeps W r (State.mbxCapture s irq) := by
  unfold State.mbxCapture
  try dsimp only
  with_reducible repeat' first
      | exact h | exact hw.mono (by decide) | apply State.mbxEnd_keeps | apply State.mbxFail_keeps
      | apply State.unclaim_keeps | apply State.unmapped_keeps | apply State.wr_keeps | apply State.memSet_keeps
      | refine Keeps.ite ?_ ?_ | refine Keeps.iteFst ?_ ?_ | dsimp only | split | refine Keeps.fst (by assumption) ?_
      | apply State.claimFor_keeps | apply State.queueWrite_keeps

theorem State.calImage_keeps {W : Nat} {r s : State} (irq : Bool) (fail : Bool) (kind : ℕ) (b : Bytes)
    (hw : Sub 0xc00011a0004c W) (h : Keeps W r s) : Keeps W r (State.calImage s irq fail kind b) := by
  unfold State.calImage
  try dsimp only
  with_reducible repeat' first
      | exact h | exact hw.mono (by decide) | apply State.mbxFail_keeps | apply State.flashErase_keeps
      | apply State.flashFail_keeps | apply State.tornFlash_keeps | apply State.mbxEnd_keeps
      | apply State.flashPut_keeps | refine Keeps.ite ?_ ?_

theorem State.mbxCalWrite_keeps {W : Nat} {r s : State} (irq : Bool) (fail : Bool)
    (hw : Sub 0xc4029de00e4c W) (h : Keeps W r s) : Keeps W r (State.mbxCalWrite s irq fail) := by
  unfold State.mbxCalWrite
  try dsimp only
  with_reducible repeat' first
      | exact h | exact hw.mono (by decide) | apply State.mbxEnd_keeps | apply State.stewardRead_keeps
      | apply State.mbxFail_keeps | apply State.calImage_keeps | refine Keeps.ite ?_ ?_ | dsimp only | split
      | refine Keeps.fst (by assumption) ?_

theorem State.mbxClearLog_keeps {W : Nat} {r s : State} (irq : Bool)
    (hw : Sub 0xc00010200048 W) (h : Keeps W r s) : Keeps W r (State.mbxClearLog s irq) := by
  unfold State.mbxClearLog
  try dsimp only
  with_reducible repeat' first
      | exact h | exact hw.mono (by decide) | apply State.mbxEnd_keeps | apply State.sramWrite_keeps
      | refine Keeps.ite ?_ ?_ | apply State.sramRefuse_keeps

theorem State.mbxRun_keeps {W : Nat} {r s : State} (op : ℕ) (irq : Bool) (fail : Bool)
    (hw : Sub 0xc5ea9ff39ffc W) (h : Keeps W r s) : Keeps W r (State.mbxRun s op irq fail) := by
  unfold State.mbxRun
  try dsimp only
  with_reducible repeat' first
      | exact h | exact hw.mono (by decide) | apply State.mbxIdentify_keeps | apply State.mbxShutdown_keeps
      | apply State.mbxStore_keeps | apply State.mbxFlashRead_keeps | apply State.mbxPlanWrite_keeps
      | apply State.mbxPlanSelect_keeps | apply State.mbxEnable_keeps | apply State.mbxDisable_keeps
      | apply State.mbxThrJob_keeps | apply State.mbxSelftest_keeps | apply State.mbxLogRead_keeps
      | apply State.mbxLogExport_keeps | apply State.mbxCapture_keeps | apply State.mbxCalWrite_keeps
      | apply State.mbxClearLog_keeps | refine Keeps.ite ?_ ?_

theorem State.mbxGo_keeps {W : Nat} {r s : State} (who : Requester) (op : ℕ) (irq : Bool) (fail : Bool)
    (hw : Sub 0xc5eabff39ffc W) (h : Keeps W r s) : Keeps W r (State.mbxGo s who op irq fail) := by
  unfold State.mbxGo
  try dsimp only
  with_reducible repeat' first
      | exact h | exact hw.mono (by decide) | apply State.result_keeps | apply State.wrF_keeps | apply State.wr_keeps
      | apply State.mbxEnd_keeps | apply State.mbxRun_keeps | refine Keeps.ite ?_ ?_ | dsimp only | split

theorem State.shutDown_keeps {W : Nat} {r s : State} 
    (hw : Sub 0xc18010170058 W) (h : Keeps W r s) : Keeps W r (State.shutDown s) := by
  unfold State.shutDown
  try dsimp only
  with_reducible repeat' first
      | exact h | assumption | exact hw.mono (by decide) | apply State.setLne_keeps | apply State.portClear_keeps
      | apply State.leaveActive_keeps | apply State.setPl_keeps | refine Keeps.foldl (fun _ _ _ => ?_) _ ?_
      | refine Keeps.foldlPair (fun _ _ _ => ?_) _ ?_ | fail_if_no_progress refine Keeps.upd hw ?_
      | apply State.genlockDrive_keeps
      | apply State.unclaimClass_keeps

theorem State.mbxStoreEnd_keeps {W : Nat} {r s : State} (kind : ℕ) (ok : Bool)
    (hw : Sub 0xc18010370058 W) (h : Keeps W r s) : Keeps W r (State.mbxStoreEnd s kind ok) := by
  unfold State.mbxStoreEnd
  try dsimp only
  with_reducible repeat' first
      | exact h | exact hw.mono (by decide) | apply State.shutDown_keeps | apply State.mbxEnd_keeps
      | apply State.mbxFail_keeps | fail_if_no_progress refine Keeps.upd hw ?_ | refine Keeps.ite ?_ ?_ | dsimp only
      | split

theorem State.storeEndHeld_keeps {W : Nat} {r s : State} (result : StoreEnd) (hw : Sub 0xa0001000006c W) (h : Keeps W r s) : Keeps W r (s.storeEndHeld result) := by
  refine h.trans ⟨rfl, fun hm => ?_, id, id, id, id, id, (fun b hb => by cases b <;> first | exact rfl | exact fun _ _ => rfl | exact ⟨rfl, rfl, rfl, rfl⟩ | exact hw.off hb (by decide))⟩
  have hs := (storeEnd_keeps result (Sub.refl _) (Keeps.refl _ s)).mem hm
  unfold memWf storeEndHeld at *
  rw [Bool.and_eq_true] at hm hs ⊢
  exact ⟨hm.1, hs.2⟩

theorem State.storeComplete_keeps {W : Nat} {r s : State} (result : StoreEnd)
    (hw : Sub 0xe1c0103700fc W) (h : Keeps W r s) : Keeps W r (State.storeComplete s result) := by
  unfold State.storeComplete
  try dsimp only
  with_reducible repeat' first
      | exact h | exact hw.mono (by decide) | apply State.storeEndHeld_keeps | apply State.storeEnd_keeps
      | apply State.armDone_keeps | apply State.mbxStoreEnd_keeps | apply State.requestReset_keeps
      | fail_if_no_progress refine Keeps.upd hw ?_ | refine Keeps.ite ?_ ?_ | dsimp only | split

theorem execSbkStoreComplete_keeps {W : Nat} (result : StoreEnd) (s : State) (hw : Sub 0xe1c0103700fc W) :
    OutKeeps W s (execSbkStoreComplete result s) := by
  unfold execSbkStoreComplete
  have h := Keeps.refl W s
  try dsimp only [OutKeeps]
  with_reducible repeat' first
      | exact h | assumption | exact hw.mono (by decide)
      | refine State.oneCycle_keeps (fun _ _ _ => ?_) (hw.mono (by decide)) ?_ | apply State.storeComplete_keeps

theorem execMbxClaim_keeps {W : Nat} (who : Requester) (s : State) (hw : Sub 0x20200000 W) :
    OutKeeps W s (execMbxClaim who s) := by
  unfold execMbxClaim
  have h := Keeps.refl W s
  refine OutKeeps.gate (hw.mono (by decide)) ?_
  try dsimp only [OutKeeps]
  with_reducible repeat' first
      | exact h | exact hw.mono (by decide) | apply State.result_keeps | apply State.mbxClaim_keeps

theorem execMbxRelease_keeps {W : Nat} (who : Requester) (s : State) (hw : Sub 0x20200000 W) :
    OutKeeps W s (execMbxRelease who s) := by
  unfold execMbxRelease
  have h := Keeps.refl W s
  refine OutKeeps.gate (hw.mono (by decide)) ?_
  try dsimp only [OutKeeps]
  with_reducible repeat' first
      | exact h | exact hw.mono (by decide) | apply State.result_keeps | apply State.mbxRelease_keeps

theorem execMbxIdleRelease_keeps {W : Nat}  (s : State) (hw : Sub 0x200000 W) :
    OutKeeps W s (execMbxIdleRelease s) := by
  unfold execMbxIdleRelease
  have h := Keeps.refl W s
  try dsimp only [OutKeeps]
  with_reducible repeat' first
      | exact h | exact hw.mono (by decide) | fail_if_no_progress refine Keeps.upd hw ?_

theorem execMbxIdentify_keeps {W : Nat} (who : Requester) (irq : Bool) (s : State) (hw : Sub 0xc5eabff39ffc W) :
    OutKeeps W s (execMbxIdentify who irq s) := by
  unfold execMbxIdentify
  have h := Keeps.refl W s
  refine OutKeeps.gate (hw.mono (by decide)) ?_
  try dsimp only [OutKeeps]
  with_reducible repeat' first
      | exact h | assumption | exact hw.mono (by decide)
      | refine State.oneCycle_keeps (fun _ _ _ => ?_) (hw.mono (by decide)) ?_ | apply State.mbxGo_keeps

theorem execMbxShutdown_keeps {W : Nat} (who : Requester) (irq : Bool) (s : State) (hw : Sub 0xc5eabff39ffc W) :
    OutKeeps W s (execMbxShutdown who irq s) := by
  unfold execMbxShutdown
  have h := Keeps.refl W s
  refine OutKeeps.gate (hw.mono (by decide)) ?_
  try dsimp only [OutKeeps]
  with_reducible repeat' first
      | exact h | assumption | exact hw.mono (by decide)
      | refine State.oneCycle_keeps (fun _ _ _ => ?_) (hw.mono (by decide)) ?_ | apply State.mbxGo_keeps

theorem execMbxStore_keeps {W : Nat} (who : Requester) (irq : Bool) (s : State) (hw : Sub 0xc5eabff39ffc W) :
    OutKeeps W s (execMbxStore who irq s) := by
  unfold execMbxStore
  have h := Keeps.refl W s
  refine OutKeeps.gate (hw.mono (by decide)) ?_
  try dsimp only [OutKeeps]
  with_reducible repeat' first
      | exact h | assumption | exact hw.mono (by decide)
      | refine State.oneCycle_keeps (fun _ _ _ => ?_) (hw.mono (by decide)) ?_ | apply State.mbxGo_keeps

theorem execMbxFlashRead_keeps {W : Nat} (who : Requester) (irq : Bool) (s : State) (hw : Sub 0xc5eabff39ffc W) :
    OutKeeps W s (execMbxFlashRead who irq s) := by
  unfold execMbxFlashRead
  have h := Keeps.refl W s
  refine OutKeeps.gate (hw.mono (by decide)) ?_
  try dsimp only [OutKeeps]
  with_reducible repeat' first
      | exact h | assumption | exact hw.mono (by decide)
      | refine State.oneCycle_keeps (fun _ _ _ => ?_) (hw.mono (by decide)) ?_ | apply State.mbxGo_keeps

theorem execMbxPlanWrite_keeps {W : Nat} (who : Requester) (irq : Bool) (fail : Bool) (s : State) (hw : Sub 0xc5eabff39ffc W) :
    OutKeeps W s (execMbxPlanWrite who irq fail s) := by
  unfold execMbxPlanWrite
  have h := Keeps.refl W s
  refine OutKeeps.gate (hw.mono (by decide)) ?_
  try dsimp only [OutKeeps]
  with_reducible repeat' first
      | exact h | assumption | exact hw.mono (by decide)
      | refine State.oneCycle_keeps (fun _ _ _ => ?_) (hw.mono (by decide)) ?_ | apply State.mbxGo_keeps

theorem execMbxPlanSelect_keeps {W : Nat} (who : Requester) (irq : Bool) (s : State) (hw : Sub 0xc5eabff39ffc W) :
    OutKeeps W s (execMbxPlanSelect who irq s) := by
  unfold execMbxPlanSelect
  have h := Keeps.refl W s
  refine OutKeeps.gate (hw.mono (by decide)) ?_
  try dsimp only [OutKeeps]
  with_reducible repeat' first
      | exact h | assumption | exact hw.mono (by decide)
      | refine State.oneCycle_keeps (fun _ _ _ => ?_) (hw.mono (by decide)) ?_ | apply State.mbxGo_keeps

theorem execMbxFeatureEnable_keeps {W : Nat} (who : Requester) (irq : Bool) (s : State) (hw : Sub 0xc5eabff39ffc W) :
    OutKeeps W s (execMbxFeatureEnable who irq s) := by
  unfold execMbxFeatureEnable
  have h := Keeps.refl W s
  refine OutKeeps.gate (hw.mono (by decide)) ?_
  try dsimp only [OutKeeps]
  with_reducible repeat' first
      | exact h | assumption | exact hw.mono (by decide)
      | refine State.oneCycle_keeps (fun _ _ _ => ?_) (hw.mono (by decide)) ?_ | apply State.mbxGo_keeps

theorem execMbxFeatureDisable_keeps {W : Nat} (who : Requester) (irq : Bool) (s : State) (hw : Sub 0xc5eabff39ffc W) :
    OutKeeps W s (execMbxFeatureDisable who irq s) := by
  unfold execMbxFeatureDisable
  have h := Keeps.refl W s
  refine OutKeeps.gate (hw.mono (by decide)) ?_
  try dsimp only [OutKeeps]
  with_reducible repeat' first
      | exact h | assumption | exact hw.mono (by decide)
      | refine State.oneCycle_keeps (fun _ _ _ => ?_) (hw.mono (by decide)) ?_ | apply State.mbxGo_keeps

theorem execMbxThrJob_keeps {W : Nat} (who : Requester) (irq : Bool) (s : State) (hw : Sub 0xc5eabff39ffc W) :
    OutKeeps W s (execMbxThrJob who irq s) := by
  unfold execMbxThrJob
  have h := Keeps.refl W s
  refine OutKeeps.gate (hw.mono (by decide)) ?_
  try dsimp only [OutKeeps]
  with_reducible repeat' first
      | exact h | assumption | exact hw.mono (by decide)
      | refine State.oneCycle_keeps (fun _ _ _ => ?_) (hw.mono (by decide)) ?_ | apply State.mbxGo_keeps

theorem execMbxSelftest_keeps {W : Nat} (who : Requester) (irq : Bool) (s : State) (hw : Sub 0xc5eabff39ffc W) :
    OutKeeps W s (execMbxSelftest who irq s) := by
  unfold execMbxSelftest
  have h := Keeps.refl W s
  refine OutKeeps.gate (hw.mono (by decide)) ?_
  try dsimp only [OutKeeps]
  with_reducible repeat' first
      | exact h | assumption | exact hw.mono (by decide)
      | refine State.oneCycle_keeps (fun _ _ _ => ?_) (hw.mono (by decide)) ?_ | apply State.mbxGo_keeps

theorem execMbxLogRead_keeps {W : Nat} (who : Requester) (irq : Bool) (s : State) (hw : Sub 0xc5eabff39ffc W) :
    OutKeeps W s (execMbxLogRead who irq s) := by
  unfold execMbxLogRead
  have h := Keeps.refl W s
  refine OutKeeps.gate (hw.mono (by decide)) ?_
  try dsimp only [OutKeeps]
  with_reducible repeat' first
      | exact h | assumption | exact hw.mono (by decide)
      | refine State.oneCycle_keeps (fun _ _ _ => ?_) (hw.mono (by decide)) ?_ | apply State.mbxGo_keeps

theorem execMbxLogExport_keeps {W : Nat} (who : Requester) (irq : Bool) (s : State) (hw : Sub 0xc5eabff39ffc W) :
    OutKeeps W s (execMbxLogExport who irq s) := by
  unfold execMbxLogExport
  have h := Keeps.refl W s
  refine OutKeeps.gate (hw.mono (by decide)) ?_
  try dsimp only [OutKeeps]
  with_reducible repeat' first
      | exact h | assumption | exact hw.mono (by decide)
      | refine State.oneCycle_keeps (fun _ _ _ => ?_) (hw.mono (by decide)) ?_ | apply State.mbxGo_keeps

theorem execMbxDiagCapture_keeps {W : Nat} (who : Requester) (irq : Bool) (s : State) (hw : Sub 0xc5eabff39ffc W) :
    OutKeeps W s (execMbxDiagCapture who irq s) := by
  unfold execMbxDiagCapture
  have h := Keeps.refl W s
  refine OutKeeps.gate (hw.mono (by decide)) ?_
  try dsimp only [OutKeeps]
  with_reducible repeat' first
      | exact h | assumption | exact hw.mono (by decide)
      | refine State.oneCycle_keeps (fun _ _ _ => ?_) (hw.mono (by decide)) ?_ | apply State.mbxGo_keeps

theorem execMbxCalWrite_keeps {W : Nat} (who : Requester) (irq : Bool) (fail : Bool) (s : State) (hw : Sub 0xc5eabff39ffc W) :
    OutKeeps W s (execMbxCalWrite who irq fail s) := by
  unfold execMbxCalWrite
  have h := Keeps.refl W s
  refine OutKeeps.gate (hw.mono (by decide)) ?_
  try dsimp only [OutKeeps]
  with_reducible repeat' first
      | exact h | assumption | exact hw.mono (by decide)
      | refine State.oneCycle_keeps (fun _ _ _ => ?_) (hw.mono (by decide)) ?_ | apply State.mbxGo_keeps

theorem execMbxClearLog_keeps {W : Nat} (who : Requester) (irq : Bool) (s : State) (hw : Sub 0xc5eabff39ffc W) :
    OutKeeps W s (execMbxClearLog who irq s) := by
  unfold execMbxClearLog
  have h := Keeps.refl W s
  refine OutKeeps.gate (hw.mono (by decide)) ?_
  try dsimp only [OutKeeps]
  with_reducible repeat' first
      | exact h | assumption | exact hw.mono (by decide)
      | refine State.oneCycle_keeps (fun _ _ _ => ?_) (hw.mono (by decide)) ?_ | apply State.mbxGo_keeps

/-! ### Access -/

theorem after_keeps {W : Nat} {r s : State} {o : Host.Outcome State Fault Refusal} (ho : OutKeeps W s o) (h : Keeps W r s) :
    Keeps W r (after o s) := by
  cases o with
  | next t => exact h.trans ho
  | fault _ => exact h
  | refused _ => exact h

theorem State.readReg_keeps {W : Nat} {r s : State} (a : ℕ)
    (hw : Sub 0xe0b13000426c W) (h : Keeps W r s) : Keeps W r (State.readReg s a) := by
  unfold State.readReg
  try dsimp only
  with_reducible repeat' first
      | exact h | assumption | exact hw.mono (by decide) | apply State.result_keeps | refine after_keeps ?_ ?_
      | apply execGrnClientGrantsRead_keeps | apply execDrlTmDataAccess_keeps | apply execHglStressFramesLoRead_keeps
      | apply execHglCurveDataRead_keeps | apply execFplFrameLoRead_keeps | apply State.sbkData_keeps
      | apply execSbkCntLoRead_keeps | apply execUpdActFrameLoRead_keeps | apply execGblEvqLostRead_keeps
      | apply State.prbsErrRead_keeps | apply State.prbsBitsRead_keeps | refine Keeps.ite ?_ ?_ | dsimp only | split

theorem State.regOutside_keeps {W : Nat} {r s : State} (a : ℕ)
    (hw : Sub 0x800090000048 W) (h : Keeps W r s) : Keeps W r (State.regOutside s a) := by
  unfold State.regOutside
  try dsimp only
  with_reducible repeat' first
      | exact h | exact hw.mono (by decide) | apply State.unmapped_keeps | refine Keeps.ite ?_ ?_

theorem State.regRead_keeps {W : Nat} {r s : State} (a : ℕ)
    (hw : Sub 0xe0b1b000426c W) (h : Keeps W r s) : Keeps W r (State.regRead s a) := by
  unfold State.regRead
  try dsimp only
  with_reducible repeat' first
      | exact h | exact hw.mono (by decide) | apply State.result_keeps | apply State.readReg_keeps | dsimp only
      | split | apply State.regOutside_keeps

theorem onBit_keeps {W : Nat} {r s : State} {v i : Nat} {f : State → State} (hf : ∀ x, Keeps W r x → Keeps W r (f x)) (h : Keeps W r s) :
    Keeps W r (onBit v i f s) := by
  unfold onBit
  exact Keeps.ite (hf s h) h

theorem State.writeFront_keeps {W : Nat} {r s : State} (a : ℕ) (v : ℕ)
    (hw : Sub 0x1ffffbe400e5c W) (h : Keeps W r s) : Keeps W r (State.writeFront s a v) := by
  unfold State.writeFront
  try dsimp only
  with_reducible repeat' first
      | exact h | assumption | exact hw.mono (by decide) | exact hw.any (by decide)
      | refine onBit_keeps (fun _ _ => ?_) ?_ | refine after_keeps ?_ ?_ | apply execFplStageAbort_keeps
      | apply execFplStageValidate_keeps | apply State.regWrite_keeps | apply execFplSwitchDisarm_keeps
      | apply execFplSwitchNext_keeps | apply execFplSwitchArm_keeps | apply execGrnSelftestReq_keeps
      | apply execPltCtrlDropPending_keeps | apply execPltCtrlResync_keeps
      | fail_if_no_progress refine Keeps.upd hw ?_ | refine Keeps.ite ?_ ?_

theorem State.writeMiddle_keeps {W : Nat} {r s : State} (a : ℕ) (v : ℕ)
    (hw : Sub 0x1ffffbe40decc W) (h : Keeps W r s) : Keeps W r (State.writeMiddle s a v) := by
  unfold State.writeMiddle
  try dsimp only
  with_reducible repeat' first
      | exact h | assumption | exact hw.mono (by decide) | exact hw.any (by decide)
      | refine onBit_keeps (fun _ _ => ?_) ?_ | refine after_keeps ?_ ?_ | apply execThrCtrlJobAbort_keeps
      | apply State.jobFetch_keeps | apply State.regWrite_keeps | apply execThrJobRingSizeWrite_keeps
      | apply execThrJobTailWrite_keeps | apply execDrlLaneTest_keeps | apply State.report_keeps
      | apply execDrlTmDisarm_keeps | apply execDrlTmArm_keeps | apply execDrlTmLoad_keeps
      | apply execDrlTmDataAccess_keeps | apply execDrlTmBankWrite_keeps | apply execHglCtrlCkptNow_keeps
      | apply execHglCtrlReloadFactory_keeps | apply execHglCtrlReload_keeps | apply execEtcCtrlBlank_keeps
      | apply execEtcSupplyClearLockout_keeps | apply execEtcSupplyDown_keeps | apply execEtcSupplyUp_keeps
      | refine Keeps.ite ?_ ?_

theorem State.writeFabric_keeps {W : Nat} {r s : State} (a : ℕ) (v : ℕ)
    (hw : Sub 0x1ffffbc170258 W) (h : Keeps W r s) : Keeps W r (State.writeFabric s a v) := by
  unfold State.writeFabric
  try dsimp only
  with_reducible repeat' first
      | exact h | assumption | exact hw.mono (by decide) | exact hw.any (by decide) | apply State.portCtrl_keeps
      | apply State.loopWrite_keeps | apply State.prbsCtrl_keeps | apply State.plCtrl_keeps | refine after_keeps ?_ ?_
      | apply execLneSelftestReq_keeps | apply State.regWrite_keeps | refine onBit_keeps (fun _ _ => ?_) ?_
      | apply execLnkCtrlRediscover_keeps | apply State.wrF_keeps | apply State.syncNow_keeps
      | apply State.allocReg_keeps | apply State.walCtrl_keeps | refine Keeps.foldl (fun _ _ _ => ?_) _ ?_
      | refine Keeps.foldlPair (fun _ _ _ => ?_) _ ?_ | refine Keeps.ite ?_ ?_ | apply State.walGenlock_keeps

theorem State.writeBack_keeps {W : Nat} {r s : State} (a : ℕ) (v : ℕ)
    (hw : Sub 0x1ffffbe480f4c W) (h : Keeps W r s) : Keeps W r (State.writeBack s a v) := by
  unfold State.writeBack
  try dsimp only
  with_reducible repeat' first
      | exact h | assumption | exact hw.mono (by decide) | exact hw.any (by decide)
      | refine onBit_keeps (fun _ _ => ?_) ?_ | refine after_keeps ?_ ?_ | apply State.regWrite_keeps
      | apply State.burControl_keeps | apply State.burTail_keeps | apply execThmConvReq_keeps
      | apply execThmSelftestReq_keeps | refine Keeps.ite ?_ ?_ | apply State.dmcWrite_keeps

theorem State.writeSystem_keeps {W : Nat} {r s : State} (who : Requester) (a : ℕ) (v : ℕ)
    (hw : Sub 0x1ffffbff39ffc W) (h : Keeps W r s) : Keeps W r (State.writeSystem s who a v) := by
  unfold State.writeSystem
  try dsimp only
  with_reducible repeat' first
      | exact h | assumption | exact hw.mono (by decide) | exact hw.any (by decide)
      | refine onBit_keeps (fun _ _ => ?_) ?_ | refine after_keeps ?_ ?_ | apply execSbkCtrlGlean_keeps
      | apply execSbkCtrlStore_keeps | apply State.regWrite_keeps | apply State.sbkData_keeps
      | apply execSbkPwLock_keeps | apply execSbkPwSetW_keeps | apply execSbkPwSetR_keeps
      | apply execSbkPwUnlockW_keeps | apply execSbkPwUnlockR_keeps | apply State.recoveryReq_keeps
      | apply State.sowAbort_keeps | apply State.loadGo_keeps | apply State.resumeStage_keeps
      | apply State.loadWord_keeps | apply State.mbxRelease_keeps | apply State.mbxClaim_keeps
      | apply State.mbxGo_keeps | apply State.result_keeps | apply State.gblReset_keeps | apply State.wr_keeps
      | apply State.evConsume_keeps | apply State.sndPass_keeps | apply State.gpioWrite_keeps
      | apply State.gpioOwn_keeps | fail_if_no_progress refine Keeps.upd hw ?_ | refine Keeps.ite ?_ ?_

theorem State.writeReg_keeps {W : Nat} {r s : State} (who : Requester) (a : ℕ) (v : ℕ)
    (hw : Sub 0x1ffffbfffdffc W) (h : Keeps W r s) : Keeps W r (State.writeReg s who a v) := by
  unfold State.writeReg
  try dsimp only
  with_reducible repeat' first
      | exact h | exact hw.mono (by decide) | apply State.result_keeps | apply State.writeSystem_keeps
      | apply State.writeFront_keeps | apply State.writeMiddle_keeps | apply State.writeFabric_keeps
      | apply State.writeBack_keeps | fail_if_no_progress refine Keeps.upd hw ?_ | refine Keeps.ite ?_ ?_

theorem State.regPut_keeps {W : Nat} {r s : State} (who : Requester) (a : ℕ) (v : ℕ)
    (hw : Sub 0x1ffffbfffdffc W) (h : Keeps W r s) : Keeps W r (State.regPut s who a v) := by
  unfold State.regPut
  try dsimp only
  with_reducible repeat' first
      | exact h | exact hw.mono (by decide) | apply State.result_keeps | apply State.writeReg_keeps | dsimp only
      | split | apply State.regOutside_keeps

theorem State.spiRegPut_keeps {W : Nat} {r : State} (a step : Nat) (hw : Sub 0x1ffffbfffdffc W) :
    ∀ (l : List Word) (k : Nat) {s : State}, Keeps W r s → Keeps W r (State.spiRegPut a step k l s).1 := by
  intro l
  induction l with
  | nil =>
    intro k s h
    exact h
  | cons w l ih =>
    intro k s h
    unfold State.spiRegPut
    try dsimp only
    with_reducible repeat' first
        | exact h | apply ih | assumption | exact hw.mono (by decide) | exact ha | apply State.regPut_keeps
        | refine Keeps.foldl (fun _ _ _ => ?_) _ ?_ | refine Keeps.foldlPair (fun _ _ _ => ?_) _ ?_
        | fail_if_no_progress refine Keeps.upd hw ?_ | refine Keeps.ite ?_ ?_ | refine Keeps.iteFst ?_ ?_

theorem State.spiRegGet_keeps {W : Nat} {r : State} (a step : Nat) (hw : Sub 0xe0b1b000426c W) :
    ∀ (n : Nat) {s : State}, Keeps W r s → Keeps W r (State.spiRegGet a step n s).1 := by
  intro n
  induction n with
  | zero =>
    intro s h
    exact h
  | succ n ih =>
    intro s h
    unfold State.spiRegGet
    try dsimp only
    with_reducible repeat' first
        | exact h | apply ih | assumption | exact hw.mono (by decide) | exact ha | apply State.regRead_keeps
        | refine Keeps.foldl (fun _ _ _ => ?_) _ ?_ | refine Keeps.foldlPair (fun _ _ _ => ?_) _ ?_
        | fail_if_no_progress refine Keeps.upd hw ?_ | refine Keeps.ite ?_ ?_ | refine Keeps.iteFst ?_ ?_
        | refine OptKeeps.ite ?_ ?_ | dsimp only | split | refine Keeps.fst (by assumption) ?_

theorem State.spiEnd_keeps {W : Nat} {r s : State} (st : ℕ) (count : ℕ) (cut : Bool) (words : List Word)
    (hw : Sub 0x30200000 W) (h : Keeps W r s) : Keeps W r (State.spiEnd s st count cut words) := by
  unfold State.spiEnd
  try dsimp only
  with_reducible repeat' first
      | exact h | exact hw.mono (by decide) | apply State.result_keeps | apply State.put_keeps
      | fail_if_no_progress refine Keeps.upd hw ?_

theorem State.spiWrite_keeps {W : Nat} {r s : State} (a : ℕ) (step : ℕ) (words : List Word) (cut : Bool)
    (hw : Sub 0x1ffffbfffdffc W) (h : Keeps W r s) : Keeps W r (State.spiWrite s a step words cut) := by
  unfold State.spiWrite
  try dsimp only
  with_reducible repeat' first
      | exact h | exact hw.mono (by decide) | apply State.spiRegPut_keeps | apply State.spiEnd_keeps
      | refine Keeps.ite ?_ ?_

theorem State.spiRead_keeps {W : Nat} {r s : State} (a : ℕ) (step : ℕ) (n : ℕ) (cut : Bool)
    (hw : Sub 0xe0b1b020426c W) (h : Keeps W r s) : Keeps W r (State.spiRead s a step n cut) := by
  unfold State.spiRead
  try dsimp only
  with_reducible repeat' first
      | exact h | exact hw.mono (by decide) | apply State.spiRegGet_keeps | apply State.spiEnd_keeps
      | refine Keeps.ite ?_ ?_

theorem State.spiMemWrite_keeps {W : Nat} {r s : State} (a : ℕ) (words : List Word) (cut : Bool)
    (hw : Sub 0x8400be600e4c W) (h : Keeps W r s) : Keeps W r (State.spiMemWrite s a words cut) := by
  unfold State.spiMemWrite
  try dsimp only
  with_reducible repeat' first
      | exact h | exact hw.mono (by decide) | apply State.spiEnd_keeps | apply State.hostWrites_keeps
      | refine Keeps.ite ?_ ?_

theorem State.spiMemRead_keeps {W : Nat} {r s : State} (a : ℕ) (n : ℕ) (cut : Bool) (late : Option ℕ)
    (hw : Sub 0x8402bc600e4c W) (h : Keeps W r s) : Keeps W r (State.spiMemRead s a n cut late) := by
  unfold State.spiMemRead
  try dsimp only
  with_reducible repeat' first
      | exact h | exact hw.mono (by decide) | apply State.spiEnd_keeps | apply State.hostReads_keeps
      | refine Keeps.ite ?_ ?_ | refine Keeps.iteFst ?_ ?_ | dsimp only | split

theorem execRegisterWrite_keeps {W : Nat} (who : Requester) (addr : BitVec 32) (value : Word) (s : State) (hw : Sub 0x1ffffbfffdffc W) :
    OutKeeps W s (execRegisterWrite who addr value s) := by
  unfold execRegisterWrite
  have h := Keeps.refl W s
  try dsimp only [OutKeeps]
  with_reducible repeat' first
      | exact h | assumption | exact hw.mono (by decide)
      | refine State.oneCycle_keeps (fun _ _ _ => ?_) (hw.mono (by decide)) ?_ | apply State.regPut_keeps
      | refine Keeps.ite ?_ ?_

theorem execSpiRegWrite_keeps {W : Nat} (addr : BitVec 32) (words : List Word) (cut : Bool) (s : State) (hw : Sub 0x1ffffbfffdffc W) :
    OutKeeps W s (execSpiRegWrite addr words cut s) := by
  unfold execSpiRegWrite
  have h := Keeps.refl W s
  try dsimp only [OutKeeps]
  with_reducible repeat' first
      | exact h | assumption | exact hw.mono (by decide)
      | refine State.oneCycle_keeps (fun _ _ _ => ?_) (hw.mono (by decide)) ?_ | apply State.spiWrite_keeps

theorem execSpiRegRead_keeps {W : Nat} (addr : BitVec 32) (n : ℕ) (cut : Bool) (s : State) (hw : Sub 0xe0b1b020426c W) :
    OutKeeps W s (execSpiRegRead addr n cut s) := by
  unfold execSpiRegRead
  have h := Keeps.refl W s
  try dsimp only [OutKeeps]
  with_reducible repeat' first
      | exact h | assumption | exact hw.mono (by decide)
      | refine State.oneCycle_keeps (fun _ _ _ => ?_) (hw.mono (by decide)) ?_ | apply State.spiRead_keeps

theorem execSpiRegWriteFixed_keeps {W : Nat} (addr : BitVec 32) (words : List Word) (cut : Bool) (s : State) (hw : Sub 0x1ffffbfffdffc W) :
    OutKeeps W s (execSpiRegWriteFixed addr words cut s) := by
  unfold execSpiRegWriteFixed
  have h := Keeps.refl W s
  try dsimp only [OutKeeps]
  with_reducible repeat' first
      | exact h | assumption | exact hw.mono (by decide)
      | refine State.oneCycle_keeps (fun _ _ _ => ?_) (hw.mono (by decide)) ?_ | apply State.spiWrite_keeps

theorem execSpiRegReadFixed_keeps {W : Nat} (addr : BitVec 32) (n : ℕ) (cut : Bool) (s : State) (hw : Sub 0xe0b1b020426c W) :
    OutKeeps W s (execSpiRegReadFixed addr n cut s) := by
  unfold execSpiRegReadFixed
  have h := Keeps.refl W s
  try dsimp only [OutKeeps]
  with_reducible repeat' first
      | exact h | assumption | exact hw.mono (by decide)
      | refine State.oneCycle_keeps (fun _ _ _ => ?_) (hw.mono (by decide)) ?_ | apply State.spiRead_keeps

theorem execSpiMemWrite_keeps {W : Nat} (addr : BitVec 40) (words : List Word) (cut : Bool) (s : State) (hw : Sub 0x8400be600e4c W) :
    OutKeeps W s (execSpiMemWrite addr words cut s) := by
  unfold execSpiMemWrite
  have h := Keeps.refl W s
  try dsimp only [OutKeeps]
  with_reducible repeat' first
      | exact h | assumption | exact hw.mono (by decide)
      | refine State.oneCycle_keeps (fun _ _ _ => ?_) (hw.mono (by decide)) ?_ | apply State.spiMemWrite_keeps

theorem execSpiMemRead_keeps {W : Nat} (addr : BitVec 40) (n : ℕ) (cut : Bool) (late : Option ℕ) (s : State) (hw : Sub 0x8402bc600e4c W) :
    OutKeeps W s (execSpiMemRead addr n cut late s) := by
  unfold execSpiMemRead
  have h := Keeps.refl W s
  try dsimp only [OutKeeps]
  with_reducible repeat' first
      | exact h | assumption | exact hw.mono (by decide)
      | refine State.oneCycle_keeps (fun _ _ _ => ?_) (hw.mono (by decide)) ?_ | apply State.spiMemRead_keeps

theorem execSpiStatus_keeps {W : Nat}  (s : State) (hw : Sub 0x10000000 W) :
    OutKeeps W s (execSpiStatus s) := by
  unfold execSpiStatus
  have h := Keeps.refl W s
  try dsimp only [OutKeeps]
  with_reducible repeat' first
      | exact h | exact hw.mono (by decide) | apply State.put_keeps | refine Keeps.ite ?_ ?_

theorem execSpiUnknownOpcode_keeps {W : Nat} (s : State) (hw : Sub 0x800030200048 W) :
    OutKeeps W s (execSpiUnknownOpcode s) := by
  unfold execSpiUnknownOpcode
  have h := Keeps.refl W s
  try dsimp only [OutKeeps]
  with_reducible repeat' first
      | exact h | exact hw.mono (by decide) | apply State.report_keeps | apply State.spiEnd_keeps
      | refine Keeps.ite ?_ ?_

end Sys2Proof.Machine
end

