-- ==== Sys2Proof/Laws/KeepsTick.lean ====
section
/-! SUPPORT. Every operation and meaning of messages taken, the start and the tick (Machine/Deliver.lean, Start.lean and Tick.lean)
keeps what `Keeps` says. -/

-- One theorem at a time: hundreds of them at once would need more thread stacks than a check may map.
set_option Elab.async false
namespace Sys2Proof.Machine

/-! ### Deliver -/

theorem State.contentPorts_keeps {W : Nat} {r s : State} (arrival : ℕ) (sheaf : Bool) (body : Bytes)
    (hw : Sub 0x810010020048 W) (h : Keeps W r s) : Keeps W r (State.contentPorts s arrival sheaf body).1 := by
  unfold State.contentPorts
  try dsimp only
  with_reducible repeat' first
      | exact h | assumption | exact hw.mono (by decide) | apply State.sayOnce_keeps | apply State.bump_keeps
      | refine Keeps.foldl (fun _ _ _ => ?_) _ ?_ | refine Keeps.foldlPair (fun _ _ _ => ?_) _ ?_
      | refine Keeps.iteFst ?_ ?_

theorem State.msgInvalid_keeps {W : Nat} {r s : State} (p : ℕ)
    (hw : Sub 0x810010020048 W) (h : Keeps W r s) : Keeps W r (State.msgInvalid s p) := by
  unfold State.msgInvalid
  try dsimp only
  with_reducible repeat' first
      | exact h | exact hw.mono (by decide) | apply State.sayOnce_keeps | apply State.bump_keeps

theorem State.routeIn_keeps {W : Nat} {r s : State} (p : ℕ) (vc : ℕ) (m : Bytes)
    (hw : Sub 0x810010020048 W) (h : Keeps W r s) : Keeps W r (State.routeIn s p vc m).1 := by
  unfold State.routeIn
  try dsimp only
  with_reducible repeat' first
      | exact h | exact hw.mono (by decide) | apply State.contentPorts_keeps | apply State.report_keeps
      | refine Keeps.ite ?_ ?_ | refine Keeps.iteFst ?_ ?_ | dsimp only | split

theorem State.ttlGate_keeps {W : Nat} {r s : State} (m : Bytes) (ports : List ℕ)
    (hw : Sub 0x810010000048 W) (h : Keeps W r s) : Keeps W r (State.ttlGate s m ports).1 := by
  unfold State.ttlGate
  try dsimp only
  with_reducible repeat' first
      | exact h | exact hw.mono (by decide) | apply State.report_keeps | apply State.bump_keeps
      | refine Keeps.ite ?_ ?_ | refine Keeps.iteFst ?_ ?_

theorem State.forward_keeps {W : Nat} {r s : State} (p : ℕ) (vc : ℕ) (mid : ℕ) (m : Bytes) (whole : Bool) (ports : List ℕ)
    (hw : Sub 0x18010030000 W) (h : Keeps W r s) : Keeps W r (State.forward s p vc mid m whole ports) := by
  unfold State.forward
  try dsimp only
  with_reducible repeat' first
      | exact h | assumption | exact hw.mono (by decide) | apply State.modLnk_keeps | apply State.pump_keeps
      | apply State.wakeTx_keeps | refine Keeps.foldl (fun _ _ _ => ?_) _ ?_

theorem State.mgmtReply_keeps {W : Nat} {r s : State} (src : ℕ) (tag : ℕ) (op : ℕ) (status : ℕ) (count : ℕ) (data : Bytes)
    (hw : Sub 0x818010030048 W) (h : Keeps W r s) : Keeps W r (State.mgmtReply s src tag op status count data) := by
  unfold State.mgmtReply
  try dsimp only
  with_reducible repeat' first
      | exact h | exact hw.mono (by decide) | apply State.sendTo_keeps | refine Keeps.ite ?_ ?_

theorem State.mgmtIn_keeps {W : Nat} {r s : State} (msg : Bytes)
    (hw : Sub 0x818010030048 W) (h : Keeps W r s) : Keeps W r (State.mgmtIn s msg) := by
  unfold State.mgmtIn
  try dsimp only
  with_reducible repeat' first
      | exact h | exact hw.mono (by decide) | apply State.bump_keeps | apply State.mgmtReply_keeps
      | fail_if_no_progress refine Keeps.upd hw ?_ | refine Keeps.ite ?_ ?_ | apply State.sayOnce_keeps

theorem State.mgmtRegGet_keeps {W : Nat} {r : State} (a : Nat) (hw : Sub 0xe0b1b000426c W) :
    ∀ (n : Nat) {s : State}, Keeps W r s → Keeps W r (State.mgmtRegGet a n s).1 := by
  intro n
  induction n with
  | zero =>
    intro s h
    exact h
  | succ n ih =>
    intro s h
    unfold State.mgmtRegGet
    try dsimp only
    with_reducible repeat' first
        | exact h | apply ih | assumption | exact hw.mono (by decide) | exact ha | apply State.regRead_keeps
        | refine Keeps.foldl (fun _ _ _ => ?_) _ ?_ | refine Keeps.foldlPair (fun _ _ _ => ?_) _ ?_
        | fail_if_no_progress refine Keeps.upd hw ?_ | refine Keeps.ite ?_ ?_ | refine Keeps.iteFst ?_ ?_
        | refine OptKeeps.ite ?_ ?_ | dsimp only | split | refine Keeps.fst (by assumption) ?_

theorem State.mgmtRegPut_keeps {W : Nat} {r : State} (src a : Nat) (hw : Sub 0x1ffffbfffdffc W) :
    ∀ (l : List Word) (k : Nat) {s : State}, Keeps W r s → Keeps W r (State.mgmtRegPut src a k l s).1 := by
  intro l
  induction l with
  | nil =>
    intro k s h
    exact h
  | cons w l ih =>
    intro k s h
    unfold State.mgmtRegPut
    try dsimp only
    with_reducible repeat' first
        | exact h | apply ih | assumption | exact hw.mono (by decide) | exact ha | apply State.regPut_keeps
        | refine Keeps.foldl (fun _ _ _ => ?_) _ ?_ | refine Keeps.foldlPair (fun _ _ _ => ?_) _ ?_
        | fail_if_no_progress refine Keeps.upd hw ?_ | refine Keeps.ite ?_ ?_ | refine Keeps.iteFst ?_ ?_

theorem State.mgmtPerform_keeps {W : Nat} {r s : State} 
    (hw : Sub 0x1ffffbfffdffc W) (h : Keeps W r s) : Keeps W r (State.mgmtPerform s) := by
  unfold State.mgmtPerform
  try dsimp only
  with_reducible repeat' first
      | exact h | exact hw.mono (by decide) | apply State.mgmtReply_keeps | apply State.report_keeps
      | apply State.mgmtRegGet_keeps | apply State.mgmtRegPut_keeps | apply State.hostReads_keeps
      | apply State.hostWrites_keeps | fail_if_no_progress refine Keeps.upd hw ?_ | refine Keeps.ite ?_ ?_
      | refine Keeps.iteFst ?_ ?_ | dsimp only | split

theorem State.contentIn_keeps {W : Nat} {r s : State} (mid : ℕ) (body : Bytes)
    (hw : Sub 0x840492400c4c W) (h : Keeps W r s) : Keeps W r (State.contentIn s mid body) := by
  unfold State.contentIn
  try dsimp only
  with_reducible repeat' first
      | exact h | exact hw.mono (by decide) | apply State.sheafBlockIn_keeps | apply State.updateRecordIn_keeps
      | apply State.frameRecordIn_keeps | refine Keeps.ite ?_ ?_

theorem State.deliver_keeps {W : Nat} {r s : State} (p : ℕ) (mid : ℕ) (msg : Bytes)
    (hw : Sub 0xc78493d70c7c W) (h : Keeps W r s) : Keeps W r (State.deliver s p mid msg) := by
  unfold State.deliver
  try dsimp only
  with_reducible repeat' first
      | exact h | exact hw.mono (by decide) | apply State.tickIn_keeps | apply State.voteIn_keeps
      | apply State.decisionIn_keeps | apply State.memberIn_keeps | apply State.discIn_keeps
      | apply State.mgmtIn_keeps | apply State.contentIn_keeps | apply State.sowMessage_keeps | refine Keeps.ite ?_ ?_

theorem State.feed_keeps {W : Nat} {r s : State} (p : ℕ) (vc : ℕ)
    (hw : Sub 0xc78693d70e7c W) (h : Keeps W r s) : Keeps W r (State.feed s p vc) := by
  unfold State.feed
  try dsimp only
  with_reducible repeat' first
      | exact h | assumption | exact hw.mono (by decide) | apply State.readStaging_keeps | apply State.abortMsg_keeps
      | apply State.modLnk_keeps | apply State.pump_keeps | apply State.deliver_keeps | apply State.freeSlots_keeps
      | refine Keeps.foldl (fun _ _ _ => ?_) _ ?_ | refine Keeps.foldlPair (fun _ _ _ => ?_) _ ?_
      | refine Keeps.ite ?_ ?_ | dsimp only | split | apply State.consumePoison_keeps

theorem State.beginMsg_keeps {W : Nat} {r s : State} (p : ℕ) (vc : ℕ)
    (hw : Sub 0xc78693d70e7c W) (h : Keeps W r s) : Keeps W r (State.beginMsg s p vc) := by
  unfold State.beginMsg
  try dsimp only
  with_reducible repeat' first
      | exact h | exact hw.mono (by decide) | apply State.modLnk_keeps | apply State.msgInvalid_keeps
      | apply State.freeSlots_keeps | apply State.noteSource_keeps | apply State.routeIn_keeps
      | apply State.ttlGate_keeps | apply State.feed_keeps | fail_if_no_progress refine Keeps.upd hw ?_
      | refine Keeps.ite ?_ ?_ | refine Keeps.iteFst ?_ ?_

theorem State.beginForward_keeps {W : Nat} {r s : State} (p : ℕ) (vc : ℕ)
    (hw : Sub 0x18010030000 W) (h : Keeps W r s) : Keeps W r (State.beginForward s p vc) := by
  unfold State.beginForward
  try dsimp only
  with_reducible repeat' first
      | exact h | assumption | exact hw.mono (by decide) | apply State.modLnk_keeps | apply State.forward_keeps
      | apply State.freeSlots_keeps | refine Keeps.foldl (fun _ _ _ => ?_) _ ?_
      | refine Keeps.foldlPair (fun _ _ _ => ?_) _ ?_ | refine Keeps.ite ?_ ?_ | dsimp only | split

theorem State.msgFlit_keeps {W : Nat} {r s : State} (p : ℕ) (flit : Bytes)
    (hw : Sub 0xc78693d70e7c W) (h : Keeps W r s) : Keeps W r (State.msgFlit s p flit) := by
  unfold State.msgFlit
  try dsimp only
  with_reducible repeat' first
      | exact h | exact hw.mono (by decide) | exact hw.mono (by rw [regBit_lnkPort _ _ (by decide)]; decide)
      | apply State.modLnk_keeps | apply State.abortIn_keeps | apply State.fillSlot_keeps | apply State.nopNow_keeps
      | apply State.freeSlots_keeps | apply State.feed_keeps | apply State.requestReplay_keeps
      | apply State.bump_keeps | refine Keeps.ite ?_ ?_

theorem State.flitIn_keeps {W : Nat} {r s : State} (p : ℕ) (flit : Bytes) (bad : Bool)
    (hw : Sub 0xc78693d70e7c W) (h : Keeps W r s) : Keeps W r (State.flitIn s p flit bad) := by
  unfold State.flitIn
  try dsimp only
  with_reducible repeat' first
      | exact h | exact hw.mono (by decide) | apply State.requestReplay_keeps | apply State.modLnk_keeps
      | apply State.setRxPower_keeps | apply State.flitTells_keeps | apply State.creditSync_keeps
      | apply State.msgFlit_keeps | apply State.creditSyncAck_keeps | apply State.pump_keeps | refine Keeps.ite ?_ ?_
      | apply State.abortPoisoned_keeps

theorem execFlitReceive_keeps {W : Nat} (port : Fin 4) (flit : Bytes) (bad : Bool) (s : State) (hw : Sub 0xc78693d70e7c W) :
    OutKeeps W s (execFlitReceive port flit bad s) := by
  unfold execFlitReceive
  have h := Keeps.refl W s
  try dsimp only [OutKeeps]
  with_reducible repeat' first
      | exact h | assumption | exact hw.mono (by decide)
      | refine State.oneCycle_keeps (fun _ _ _ => ?_) (hw.mono (by decide)) ?_ | apply State.flitIn_keeps

theorem execMessageReceive_keeps {W : Nat} (port : Fin 4) (vc : Fin 4) (s : State) (hw : Sub 0xc78693d70e7c W) :
    OutKeeps W s (execMessageReceive port vc s) := by
  unfold execMessageReceive
  have h := Keeps.refl W s
  try dsimp only [OutKeeps]
  with_reducible repeat' first
      | exact h | assumption | exact hw.mono (by decide)
      | refine State.oneCycle_keeps (fun _ _ _ => ?_) (hw.mono (by decide)) ?_ | apply State.beginMsg_keeps

theorem execMessageForwardStart_keeps {W : Nat} (port : Fin 4) (vc : Fin 4) (s : State) (hw : Sub 0x18010030000 W) :
    OutKeeps W s (execMessageForwardStart port vc s) := by
  unfold execMessageForwardStart
  have h := Keeps.refl W s
  try dsimp only [OutKeeps]
  with_reducible repeat' first
      | exact h | exact hw.mono (by decide) | apply State.beginForward_keeps

theorem State.contentMsg_keeps {W : Nat} {r s : State} (p : ℕ) (sheaf : Bool) (msg : Bytes) (take : State → ℕ → Bytes → State)
    (ht : ∀ x q b, Keeps W r x → Keeps W r (take x q b)) (hw : Sub 0x818010030048 W) (h : Keeps W r s) : Keeps W r (State.contentMsg s p sheaf msg take) := by
  unfold State.contentMsg
  try dsimp only
  with_reducible repeat' first
      | exact h | apply ht | exact hw.mono (by decide) | apply State.contentPorts_keeps | apply State.noteSource_keeps
      | apply State.ttlGate_keeps | apply State.forward_keeps | fail_if_no_progress refine Keeps.upd hw ?_

theorem execSheafBlockReceive_keeps {W : Nat} (port : Fin 4) (msg : Bytes) (s : State) (hw : Sub 0x858492430c4c W) :
    OutKeeps W s (execSheafBlockReceive port msg s) := by
  unfold execSheafBlockReceive
  have h := Keeps.refl W s
  try dsimp only [OutKeeps]
  with_reducible repeat' first
      | exact h | assumption | exact hw.mono (by decide)
      | refine State.oneCycle_keeps (fun _ _ _ => ?_) (hw.mono (by decide)) ?_
      | refine State.contentMsg_keeps _ _ _ _ (fun _ _ _ _ => ?_) (hw.mono (by decide)) ?_
      | apply State.sheafBlockIn_keeps

theorem execFrameRecordReceive_keeps {W : Nat} (port : Fin 4) (msg : Bytes) (s : State) (hw : Sub 0x818410030848 W) :
    OutKeeps W s (execFrameRecordReceive port msg s) := by
  unfold execFrameRecordReceive
  have h := Keeps.refl W s
  try dsimp only [OutKeeps]
  with_reducible repeat' first
      | exact h | assumption | exact hw.mono (by decide)
      | refine State.oneCycle_keeps (fun _ _ _ => ?_) (hw.mono (by decide)) ?_
      | refine State.contentMsg_keeps _ _ _ _ (fun _ _ _ _ => ?_) (hw.mono (by decide)) ?_
      | apply State.frameRecordIn_keeps

theorem execUpdateRecordReceive_keeps {W : Nat} (port : Fin 4) (msg : Bytes) (s : State) (hw : Sub 0x858492430c4c W) :
    OutKeeps W s (execUpdateRecordReceive port msg s) := by
  unfold execUpdateRecordReceive
  have h := Keeps.refl W s
  try dsimp only [OutKeeps]
  with_reducible repeat' first
      | exact h | assumption | exact hw.mono (by decide)
      | refine State.oneCycle_keeps (fun _ _ _ => ?_) (hw.mono (by decide)) ?_
      | refine State.contentMsg_keeps _ _ _ _ (fun _ _ _ _ => ?_) (hw.mono (by decide)) ?_
      | apply State.updateRecordIn_keeps

theorem execMgmtReqReceive_keeps {W : Nat} (msg : Bytes) (s : State) (hw : Sub 0x818010030048 W) :
    OutKeeps W s (execMgmtReqReceive msg s) := by
  unfold execMgmtReqReceive
  have h := Keeps.refl W s
  try dsimp only [OutKeeps]
  with_reducible repeat' first
      | exact h | assumption | exact hw.mono (by decide)
      | refine State.oneCycle_keeps (fun _ _ _ => ?_) (hw.mono (by decide)) ?_ | apply State.mgmtIn_keeps

theorem execMgmtReqPerform_keeps {W : Nat} (s : State) (hw : Sub 0x1ffffbfffdffc W) :
    OutKeeps W s (execMgmtReqPerform s) := by
  unfold execMgmtReqPerform
  have h := Keeps.refl W s
  try dsimp only [OutKeeps]
  with_reducible repeat' first
      | exact h | assumption | exact hw.mono (by decide)
      | refine State.oneCycle_keeps (fun _ _ _ => ?_) (hw.mono (by decide)) ?_ | apply State.mgmtPerform_keeps

/-! ### Start -/

theorem State.bootInvalid_keeps {W : Nat} {r s : State} (x : ℕ) (step : ℕ)
    (hw : Sub 0x800010000048 W) (h : Keeps W r s) : Keeps W r (State.bootInvalid s x step) := by
  unfold State.bootInvalid
  try dsimp only
  with_reducible repeat' first
      | exact h | exact hw.mono (by decide) | apply State.report_keeps | dsimp only | split

theorem State.bootOther_keeps {W : Nat} {r s : State} (y : ℕ)
    (hw : Sub 0x800010000048 W) (h : Keeps W r s) : Keeps W r (State.bootOther s y) := by
  unfold State.bootOther
  try dsimp only
  with_reducible repeat' first
      | exact h | exact hw.mono (by decide) | apply State.actPut_keeps | apply State.report_keeps
      | apply State.bumpLifetime_keeps

theorem State.bootSelect_keeps {W : Nat} {r s : State} 
    (hw : Sub 0xc00090100048 W) (h : Keeps W r s) : Keeps W r (State.bootSelect s) := by
  unfold State.bootSelect
  try dsimp only
  with_reducible repeat' first
      | exact h | exact hw.mono (by decide) | apply State.wrF_keeps | apply State.bootInvalid_keeps
      | apply State.bootOther_keeps | apply State.enterRecovery_keeps | fail_if_no_progress refine Keeps.upd hw ?_
      | refine Keeps.ite ?_ ?_ | dsimp only | split

theorem State.tripReport_keeps {W : Nat} {r s : State} 
    (hw : Sub 0x900010000148 W) (h : Keeps W r s) : Keeps W r (State.tripReport s) := by
  unfold State.tripReport
  try dsimp only
  with_reducible repeat' first
      | exact h | exact hw.mono (by decide) | apply State.wrF_keeps | apply State.report_keeps
      | fail_if_no_progress refine Keeps.upd hw ?_ | refine Keeps.ite ?_ ?_

theorem State.toS1_keeps {W : Nat} {r s : State} 
    (hw : Sub 0xd00090100168 W) (h : Keeps W r s) : Keeps W r (State.toS1 s) := by
  unfold State.toS1
  try dsimp only
  with_reducible repeat' first
      | exact h | exact hw.mono (by decide) | apply State.tripReport_keeps | apply State.releaseChecks_keeps
      | apply State.bootSelect_keeps | apply State.stageReached_keeps | fail_if_no_progress refine Keeps.upd hw ?_
      | refine Keeps.ite ?_ ?_ | apply State.holdStage_keeps

theorem State.toS2_keeps {W : Nat} {r s : State} 
    (hw : Sub 0xc18090130048 W) (h : Keeps W r s) : Keeps W r (State.toS2 s) := by
  unfold State.toS2
  try dsimp only
  with_reducible repeat' first
      | exact h | assumption | exact hw.mono (by decide) | apply State.stageReached_keeps
      | apply State.portSettle_keeps | apply State.report_keeps | refine Keeps.foldl (fun _ _ _ => ?_) _ ?_
      | refine Keeps.foldlPair (fun _ _ _ => ?_) _ ?_ | fail_if_no_progress refine Keeps.upd hw ?_
      | refine Keeps.ite ?_ ?_ | dsimp only | split | apply State.holdStage_keeps

theorem State.takeRun_keeps {W : Nat} {r s : State} (c n : ℕ) (hw : Sub 0x200000200 W) (h : Keeps W r s) : OptKeeps W r ((s.takeRun c n).map (·.1)) := by
  intro t e
  unfold State.takeRun at e
  cases hf : s.freeRun n with
  | none => simp [hf] at e
  | some i =>
    simp only [hf, Option.map_some, Option.some.injEq] at e
    subst e
    exact Keeps.foldl (fun _ _ hx => allocPlot_keeps _ _ (hw.mono (by decide)) hx) _ h

theorem State.ringStart_keeps {W : Nat} {r s : State} (base : ℕ)
    (hw : Sub 0x800010000048 W) (h : Keeps W r s) : Keeps W r (State.ringStart s base) := by
  unfold State.ringStart
  try dsimp only
  with_reducible repeat' first
      | exact h | exact hw.mono (by decide) | apply State.report_keeps | fail_if_no_progress refine Keeps.upd hw ?_
      | refine Keeps.ite ?_ ?_

theorem State.toS3_keeps {W : Nat} {r s : State} (t : Training)
    (hw : Sub 0xc5829043064c W) (h : Keeps W r s) : Keeps W r (State.toS3 s t) := by
  unfold State.toS3
  try dsimp only
  with_reducible repeat' first
      | exact h | assumption | exact hw.mono (by decide) | apply State.holdStage_keeps | apply State.trainDone_keeps
      | apply State.takeRun_keeps | apply State.ringStart_keeps | apply State.stageReached_keeps
      | apply State.syncNow_keeps | apply State.plStart_keeps | refine Keeps.foldl (fun _ _ _ => ?_) _ ?_
      | refine Keeps.foldlPair (fun _ _ _ => ?_) _ ?_ | fail_if_no_progress refine Keeps.upd hw ?_
      | refine Keeps.ite ?_ ?_ | refine Keeps.iteFst ?_ ?_ | dsimp only | split | refine Keeps.fst (by assumption) ?_
      | refine OptKeeps.get (by assumption) ?_ | refine OptKeeps.getFst (by assumption) ?_
      | apply State.storeRetired_keeps

theorem State.drawProof_keeps {W : Nat} {r s : State} 
    (hw : Sub 0xc00012500048 W) (h : Keeps W r s) : Keeps W r (State.drawProof s) := by
  unfold State.drawProof
  try dsimp only
  with_reducible repeat' first
      | exact h | assumption | exact hw.mono (by decide) | apply State.wrF_keeps | apply State.report_keeps
      | apply State.memSet_keeps | refine Keeps.foldl (fun _ _ _ => ?_) _ ?_
      | refine Keeps.foldlPair (fun _ _ _ => ?_) _ ?_ | fail_if_no_progress refine Keeps.upd hw ?_
      | refine Keeps.ite ?_ ?_ | dsimp only | split

theorem State.toS4_keeps {W : Nat} {r s : State} 
    (hw : Sub 0xc042925002c8 W) (h : Keeps W r s) : Keeps W r (State.toS4 s) := by
  unfold State.toS4
  try dsimp only
  with_reducible repeat' first
      | exact h | exact hw.mono (by decide) | apply State.holdStage_keeps | apply State.supplyUp_keeps
      | apply State.takeRun_keeps | apply State.drawProof_keeps | apply State.stageReached_keeps
      | apply State.wrF_keeps | fail_if_no_progress refine Keeps.upd hw ?_ | refine Keeps.ite ?_ ?_ | dsimp only
      | split | refine OptKeeps.get (by assumption) ?_ | refine OptKeeps.getFst (by assumption) ?_

theorem State.choosePlan_keeps {W : Nat} {r s : State} 
    (hw : Sub 0x800010100048 W) (h : Keeps W r s) : Keeps W r (State.choosePlan s).1 := by
  unfold State.choosePlan
  try dsimp only
  with_reducible repeat' first
      | exact h | exact hw.mono (by decide) | apply State.loadPlan_keeps | apply State.report_keeps
      | fail_if_no_progress refine Keeps.upd hw ?_ | refine Keeps.ite ?_ ?_ | refine Keeps.iteFst ?_ ?_ | dsimp only
      | split | refine Keeps.fst (by assumption) ?_

theorem State.toS5_keeps {W : Nat} {r s : State} 
    (hw : Sub 0xc02090100048 W) (h : Keeps W r s) : Keeps W r (State.toS5 s) := by
  unfold State.toS5
  try dsimp only
  with_reducible repeat' first
      | exact h | exact hw.mono (by decide) | apply State.choosePlan_keeps | apply State.holdStage_keeps
      | apply State.stageTable_keeps | fail_if_no_progress refine Keeps.upd hw ?_ | refine Keeps.ite ?_ ?_
      | refine Keeps.iteFst ?_ ?_ | dsimp only | split | refine Keeps.fst (by assumption) ?_

theorem State.settingsApply_keeps {W : Nat} {r s : State} 
    (hw : Sub 0x1ffffffffdffc W) (h : Keeps W r s) : Keeps W r (State.settingsApply s) := by
  unfold State.settingsApply
  try dsimp only
  with_reducible repeat' first
      | exact h | assumption | exact hw.mono (by decide) | apply State.report_keeps | apply State.writeReg_keeps
      | refine Keeps.foldl (fun _ _ _ => ?_) _ ?_ | refine Keeps.foldlPair (fun _ _ _ => ?_) _ ?_
      | refine Keeps.ite ?_ ?_ | fail_if_no_progress refine Keeps.upd hw ?_

theorem State.settings_keeps {W : Nat} {r s : State} 
    (hw : Sub 0x1ffffffffdffc W) (h : Keeps W r s) : Keeps W r (State.settings s) := by
  unfold State.settings
  try dsimp only
  with_reducible repeat' first
      | exact h | exact hw.mono (by decide) | apply State.report_keeps | apply State.sramWrite_keeps
      | apply State.settingsApply_keeps | refine Keeps.ite ?_ ?_

theorem execStageAdvance_keeps {W : Nat} (training : Training) (s : State) (hw : Sub 0xd5e2925307ec W) :
    OutKeeps W s (execStageAdvance training s) := by
  unfold execStageAdvance
  have h := Keeps.refl W s
  try dsimp only [OutKeeps]
  with_reducible repeat' first
      | exact h | assumption | exact hw.mono (by decide)
      | refine State.oneCycle_keeps (fun _ _ _ => ?_) (hw.mono (by decide)) ?_ | apply State.toS1_keeps
      | apply State.toS2_keeps | apply State.toS3_keeps | apply State.toS4_keeps | apply State.toS5_keeps
      | refine Keeps.ite ?_ ?_ | dsimp only | split

theorem execProofRedraw_keeps {W : Nat} (s : State) (hw : Sub 0xc00012500048 W) :
    OutKeeps W s (execProofRedraw s) := by
  unfold execProofRedraw
  have h := Keeps.refl W s
  try dsimp only [OutKeeps]
  with_reducible repeat' first
      | exact h | exact hw.mono (by decide) | apply State.drawProof_keeps | refine Keeps.ite ?_ ?_

theorem execThmPeriodicConversion_keeps {W : Nat} (panel : Bool) (s : State) (hw : Sub 0x10010180 W) :
    OutKeeps W s (execThmPeriodicConversion panel s) := by
  unfold execThmPeriodicConversion
  have h := Keeps.refl W s
  try dsimp only [OutKeeps]
  with_reducible repeat' first
      | exact h | exact hw.mono (by decide) | apply State.pollDrivers_keeps
      | fail_if_no_progress refine Keeps.upd hw ?_ | refine Keeps.ite ?_ ?_

/-! ### Tick -/

theorem State.takePipes_keeps {W : Nat} {r s : State} (k : ℕ)
    (hw : Sub 0x84089e401e4c W) (h : Keeps W r s) : Keeps W r (State.takePipes s k) := by
  unfold State.takePipes
  try dsimp only
  with_reducible repeat' first
      | exact h | exact hw.mono (by decide) | apply State.preemptJobs_keeps | refine Keeps.ite ?_ ?_

theorem State.slotStart_keeps {W : Nat} {r s : State} (k : ℕ)
    (hw : Sub 0x84089e401e5c W) (h : Keeps W r s) : Keeps W r (State.slotStart s k) := by
  unfold State.slotStart
  try dsimp only
  with_reducible repeat' first
      | exact h | exact hw.mono (by decide) | fail_if_no_progress refine Keeps.upd hw ?_ | refine Keeps.ite ?_ ?_
      | apply State.takePipes_keeps

theorem State.cutEngine_keeps {W : Nat} {r s : State} (e : ℕ)
    (hw : Sub 0x84309e40fcdc W) (h : Keeps W r s) : Keeps W r (State.cutEngine s e) := by
  unfold State.cutEngine
  try dsimp only
  with_reducible repeat' first
      | exact h | exact hw.mono (by decide) | apply State.thrCut_keeps | apply State.wrF_keeps
      | apply State.txEnd_keeps | fail_if_no_progress refine Keeps.upd hw ?_ | dsimp only | split

theorem State.overrunIn_keeps {W : Nat} {r s : State} (k : ℕ) (e : ℕ) (need : ℕ)
    (hw : Sub 0x84319e40fcdc W) (h : Keeps W r s) : Keeps W r (State.overrunIn s k e need) := by
  unfold State.overrunIn
  try dsimp only
  with_reducible repeat' first
      | exact h | exact hw.mono (by decide) | apply State.cutEngine_keeps | apply State.bump_keeps
      | apply State.report_keeps | fail_if_no_progress refine Keeps.upd hw ?_

theorem State.overrun_keeps {W : Nat} {r s : State} (e : ℕ) (need : ℕ)
    (hw : Sub 0x84319e40fcdc W) (h : Keeps W r s) : Keeps W r (State.overrun s e need) := by
  unfold State.overrun
  try dsimp only
  with_reducible repeat' first
      | exact h | exact hw.mono (by decide) | fail_if_no_progress refine Keeps.upd hw ?_ | apply State.overrunIn_keeps

theorem State.degradeCheck_keeps {W : Nat} {r s : State} 
    (hw : Sub 0x800110000058 W) (h : Keeps W r s) : Keeps W r (State.degradeCheck s) := by
  unfold State.degradeCheck
  try dsimp only
  with_reducible repeat' first
      | exact h | exact hw.mono (by decide) | apply State.wrF_keeps | apply State.report_keeps
      | fail_if_no_progress refine Keeps.upd hw ?_ | refine Keeps.ite ?_ ?_

theorem State.overrunOf_keeps {W : Nat} {r s : State} (needs : List (ℕ × ℕ)) (e : ℕ)
    (hw : Sub 0x84319e40fcdc W) (h : Keeps W r s) : Keeps W r (State.overrunOf s needs e) := by
  unfold State.overrunOf
  try dsimp only
  with_reducible repeat' first
      | exact h | exact hw.mono (by decide) | apply State.overrun_keeps | apply State.draw_keeps | dsimp only | split

theorem State.slotEnd_keeps {W : Nat} {r s : State} (needs : List (ℕ × ℕ))
    (hw : Sub 0x84319e40fcdc W) (h : Keeps W r s) : Keeps W r (State.slotEnd s needs) := by
  unfold State.slotEnd
  try dsimp only
  with_reducible repeat' first
      | exact h | assumption | exact hw.mono (by decide) | apply State.overrunOf_keeps
      | apply State.degradeCheck_keeps | refine Keeps.foldl (fun _ _ _ => ?_) _ ?_
      | refine Keeps.foldlPair (fun _ _ _ => ?_) _ ?_ | fail_if_no_progress refine Keeps.upd hw ?_
      | refine Keeps.ite ?_ ?_

theorem State.thermalTask_keeps {W : Nat} {r s : State} (arg : ℕ) (mr4 : List (ℕ × Mr4))
    (hw : Sub 0x80001000054c W) (h : Keeps W r s) : Keeps W r (State.thermalTask s arg mr4) := by
  unfold State.thermalTask
  try dsimp only
  with_reducible repeat' first
      | exact h | assumption | exact hw.mono (by decide) | apply State.mr4Read_keeps
      | refine Keeps.foldl (fun _ _ _ => ?_) _ ?_ | refine Keeps.foldlPair (fun _ _ _ => ?_) _ ?_
      | fail_if_no_progress refine Keeps.upd hw ?_ | refine Keeps.ite ?_ ?_ | apply State.draw_keeps

theorem State.gleanStage_keeps {W : Nat} {r s : State} (i : ℕ) (n : ℕ)
    (hw : Sub 0x84009e400e4c W) (h : Keeps W r s) : Keeps W r (State.gleanStage s i n) := by
  unfold State.gleanStage
  try dsimp only
  with_reducible repeat' first
      | exact h | assumption | exact hw.mono (by decide) | apply State.memSet_keeps | apply State.useRange_keeps
      | apply State.refuseRange_keeps | refine Keeps.foldl (fun _ _ _ => ?_) _ ?_
      | refine Keeps.foldlPair (fun _ _ _ => ?_) _ ?_ | refine Keeps.ite ?_ ?_ | dsimp only | split

theorem State.gleanOn_keeps {W : Nat} {r s : State} (n : ℕ)
    (hw : Sub 0x84009e400e6c W) (h : Keeps W r s) : Keeps W r (State.gleanOn s n) := by
  unfold State.gleanOn
  try dsimp only
  with_reducible repeat' first
      | exact h | exact hw.mono (by decide) | apply State.gleanStage_keeps
      | fail_if_no_progress refine Keeps.upd hw ?_

theorem State.gleanTask_keeps {W : Nat} {r s : State} (arg : Nat) (hw : Sub 0x84009e400e6c W) (h : Keeps W r s) :
    Keeps W r (s.gleanTask arg) := by
  unfold State.gleanTask
  try dsimp only
  with_reducible repeat' first
      | exact h | exact hw.mono (by decide) | apply State.gleanOn_keeps | fail_if_no_progress refine Keeps.upd hw ?_
      | refine Keeps.ite ?_ ?_

theorem State.gleanHeadland_keeps {W : Nat} {r s : State} 
    (hw : Sub 0x84009e400e6c W) (h : Keeps W r s) : Keeps W r (State.gleanHeadland s) := by
  unfold State.gleanHeadland
  try dsimp only
  with_reducible repeat' first
      | exact h | exact hw.mono (by decide) | apply State.draw_keeps | apply State.gleanOn_keeps
      | refine Keeps.ite ?_ ?_

theorem State.considerTask_keeps {W : Nat} {r s : State} (mr4 : List (ℕ × Mr4)) (i : ℕ)
    (hw : Sub 0x84019e400f7c W) (h : Keeps W r s) : Keeps W r (State.considerTask s mr4 i) := by
  unfold State.considerTask
  try dsimp only
  with_reducible repeat' first
      | exact h | exact hw.mono (by decide) | apply State.thermalTask_keeps | apply State.gleanTask_keeps
      | apply State.bump_keeps | fail_if_no_progress refine Keeps.upd hw ?_ | refine Keeps.ite ?_ ?_

theorem State.headlandStart_keeps {W : Nat} {r s : State} (mr4 : List (ℕ × Mr4))
    (hw : Sub 0x84b19e41fffc W) (h : Keeps W r s) : Keeps W r (State.headlandStart s mr4) := by
  unfold State.headlandStart
  try dsimp only
  with_reducible repeat' first
      | exact h | assumption | exact hw.mono (by decide) | apply State.slotEnd_keeps | apply State.considerTask_keeps
      | apply State.panelTests_keeps | apply State.pollDrivers_keeps | apply State.refetchEntries_keeps
      | apply State.reloadRows_keeps | refine Keeps.foldl (fun _ _ _ => ?_) _ ?_
      | refine Keeps.foldlPair (fun _ _ _ => ?_) _ ?_ | fail_if_no_progress refine Keeps.upd hw ?_
      | refine Keeps.ite ?_ ?_ | apply State.gleanHeadland_keeps

theorem State.abortTask_keeps {W : Nat} {r s : State} (i : ℕ)
    (hw : Sub 0x84089e401e5c W) (h : Keeps W r s) : Keeps W r (State.abortTask s i) := by
  unfold State.abortTask
  try dsimp only
  with_reducible repeat' first
      | exact h | exact hw.mono (by decide) | apply State.report_keeps | apply State.preemptJobs_keeps
      | fail_if_no_progress refine Keeps.upd hw ?_ | refine Keeps.ite ?_ ?_

theorem State.headlandAbort_keeps {W : Nat} {r s : State} (running : List ℕ)
    (hw : Sub 0x840a9e409e5c W) (h : Keeps W r s) : Keeps W r (State.headlandAbort s running) := by
  unfold State.headlandAbort
  try dsimp only
  with_reducible repeat' first
      | exact h | assumption | exact hw.mono (by decide) | apply State.ckptPoll_keeps | apply State.abortTask_keeps
      | apply State.preemptJobs_keeps | refine Keeps.foldl (fun _ _ _ => ?_) _ ?_
      | refine Keeps.foldlPair (fun _ _ _ => ?_) _ ?_ | refine Keeps.ite ?_ ?_

theorem State.tasksAtBoundary_keeps {W : Nat} {r s : State} (running : List ℕ)
    (hw : Sub 0x84089e401e5c W) (h : Keeps W r s) : Keeps W r (State.tasksAtBoundary s running) := by
  unfold State.tasksAtBoundary
  try dsimp only
  with_reducible repeat' first
      | exact h | assumption | exact hw.mono (by decide) | apply State.abortTask_keeps | apply State.report_keeps
      | refine Keeps.foldl (fun _ _ _ => ?_) _ ?_ | refine Keeps.foldlPair (fun _ _ _ => ?_) _ ?_
      | fail_if_no_progress refine Keeps.upd hw ?_ | refine Keeps.ite ?_ ?_

theorem State.enterS5_keeps {W : Nat} {r s : State} 
    (hw : Sub 0xc64090040048 W) (h : Keeps W r s) : Keeps W r (State.enterS5 s) := by
  unfold State.enterS5
  try dsimp only
  with_reducible repeat' first
      | exact h | exact hw.mono (by decide) | apply State.wallJoin_keeps | apply State.stageReached_keeps
      | apply State.wrF_keeps | refine Keeps.ite ?_ ?_

theorem State.commitPoint_keeps {W : Nat} {r s : State} 
    (hw : Sub 0xc7de9e47fedc W) (h : Keeps W r s) : Keeps W r (State.commitPoint s) := by
  unfold State.commitPoint
  try dsimp only
  with_reducible repeat' first
      | exact h | exact hw.mono (by decide) | apply State.enterS5_keeps | apply State.plateCommitPoint_keeps
      | apply State.wallCommitPoint_keeps | apply State.bandRestart_keeps | apply State.ckptPoll_keeps
      | apply State.preemptJobs_keeps | apply State.etcCommitPoint_keeps | apply State.tmSelect_keeps
      | fail_if_no_progress refine Keeps.upd hw ?_ | refine Keeps.ite ?_ ?_

theorem State.tickEarly_keeps {W : Nat} {r s : State} 
    (hw : Sub 0x8000100070d8 W) (h : Keeps W r s) : Keeps W r (State.tickEarly s) := by
  unfold State.tickEarly
  try dsimp only
  with_reducible repeat' first
      | exact h | exact hw.mono (by decide) | apply State.carryScan_keeps | apply State.thrCut_keeps
      | apply State.report_keeps | fail_if_no_progress refine Keeps.upd hw ?_

theorem State.headlandEnd_keeps {W : Nat} {r s : State} 
    (hw : Sub 0x84319e40fcdc W) (h : Keeps W r s) : Keeps W r (State.headlandEnd s) := by
  unfold State.headlandEnd
  try dsimp only
  with_reducible repeat' first
      | exact h | assumption | exact hw.mono (by decide) | apply State.degradeCheck_keeps | apply State.draw_keeps
      | apply State.overrunIn_keeps | apply State.thrCut_keeps | refine Keeps.foldl (fun _ _ _ => ?_) _ ?_
      | refine Keeps.foldlPair (fun _ _ _ => ?_) _ ?_ | fail_if_no_progress refine Keeps.upd hw ?_
      | refine Keeps.ite ?_ ?_

theorem State.tickAccount_keeps {W : Nat} {r s : State} (start : ℕ) (whole : Bool)
    (hw : Sub 0x84319e40fcdc W) (h : Keeps W r s) : Keeps W r (State.tickAccount s start whole) := by
  unfold State.tickAccount
  try dsimp only
  with_reducible repeat' first
      | exact h | assumption | exact hw.mono (by decide) | apply State.wr_keeps | apply State.tickEarly_keeps
      | apply State.report_keeps | apply State.wrF_keeps | apply State.bump_keeps | apply State.queueTest_keeps
      | refine Keeps.foldl (fun _ _ _ => ?_) _ ?_ | refine Keeps.foldlPair (fun _ _ _ => ?_) _ ?_
      | fail_if_no_progress refine Keeps.upd hw ?_ | refine Keeps.ite ?_ ?_ | dsimp only | split
      | apply State.headlandEnd_keeps

theorem State.tonemapDefault_keeps {W : Nat} {r s : State} 
    (hw : Sub 0x4000 W) (h : Keeps W r s) : Keeps W r (State.tonemapDefault s) := by
  unfold State.tonemapDefault
  try dsimp only
  with_reducible repeat' first
      | exact h | exact hw.mono (by decide) | fail_if_no_progress refine Keeps.upd hw ?_ | refine Keeps.ite ?_ ?_
      | dsimp only | split

theorem State.reloadRest_keeps {W : Nat} {r s : State} 
    (hw : Sub 0x1ffffffffdffc W) (h : Keeps W r s) : Keeps W r (State.reloadRest s) := by
  unfold State.reloadRest
  try dsimp only
  with_reducible repeat' first
      | exact h | exact hw.mono (by decide) | apply State.pinClaims_keeps | apply State.settings_keeps
      | apply State.reconcile_keeps

theorem State.enterPlan_keeps {W : Nat} {r s : State} 
    (hw : Sub 0x1fffffffffffc W) (h : Keeps W r s) : Keeps W r (State.enterPlan s) := by
  unfold State.enterPlan
  try dsimp only
  with_reducible repeat' first
      | exact h | assumption | exact hw.mono (by decide) | apply State.wrF_keeps | apply State.planFresh_keeps
      | apply State.putHglRow_keeps | apply State.countDead_keeps | apply State.headerInUse_keeps
      | apply State.tonemapDefault_keeps | apply State.reloadRest_keeps | refine Keeps.foldl (fun _ _ _ => ?_) _ ?_
      | refine Keeps.foldlPair (fun _ _ _ => ?_) _ ?_ | fail_if_no_progress refine Keeps.upd hw ?_ | dsimp only
      | split

theorem State.switchAtBoundary_keeps {W : Nat} {r s : State} 
    (hw : Sub 0xcfe69e5bfedc W) (h : Keeps W r s) : Keeps W r (State.switchAtBoundary s) := by
  unfold State.switchAtBoundary
  try dsimp only
  with_reducible repeat' first
      | exact h | exact hw.mono (by decide) | apply State.switchBoundary_keeps | apply State.wrF_keeps
      | refine Keeps.ite ?_ ?_

theorem State.levelAtBoundary_keeps {W : Nat} {r s : State} 
    (hw : Sub 0x800010004058 W) (h : Keeps W r s) : Keeps W r (State.levelAtBoundary s) := by
  unfold State.levelAtBoundary
  try dsimp only
  with_reducible repeat' first
      | exact h | exact hw.mono (by decide) | apply State.report_keeps | fail_if_no_progress refine Keeps.upd hw ?_
      | refine Keeps.ite ?_ ?_

theorem State.scalerSplit_keeps {W : Nat} {r s : State} 
    (hw : Sub 0x1000000000 W) (h : Keeps W r s) : Keeps W r (State.scalerSplit s) := by
  unfold State.scalerSplit
  try dsimp only
  with_reducible repeat' first
      | exact h | exact hw.mono (by decide) | apply State.wr_keeps

theorem State.startTick_keeps {W : Nat} {r s : State} (commit : Bool)
    (hw : Sub 0x1000007010 W) (h : Keeps W r s) : Keeps W r (State.startTick s commit) := by
  unfold State.startTick
  try dsimp only
  with_reducible repeat' first
      | exact h | exact hw.mono (by decide) | apply State.thrCut_keeps | apply State.wrF_keeps
      | apply State.bandRestart_keeps | apply State.scalerSplit_keeps | fail_if_no_progress refine Keeps.upd hw ?_
      | refine Keeps.ite ?_ ?_

theorem State.onceAgain_keeps {W : Nat} {r s : State} 
    (hw : Sub 0x38e68 W) (h : Keeps W r s) : Keeps W r (State.onceAgain s) := by
  unfold State.onceAgain
  try dsimp only
  with_reducible repeat' first
      | exact h | exact hw.mono (by decide) | fail_if_no_progress refine Keeps.upd hw ?_

theorem State.boundary_keeps {W : Nat} {r s : State} (running : List ℕ)
    (hw : Sub 0x1fffffffffffe W) (h : Keeps W r s) : Keeps W r (State.boundary s running) := by
  unfold State.boundary
  try dsimp only
  with_reducible repeat' first
      | exact h | assumption | exact hw.mono (by decide) | apply State.onceAgain_keeps | apply State.setFrame_keeps
      | apply State.tickAccount_keeps | apply State.tasksAtBoundary_keeps | apply State.lateWindow_keeps
      | apply State.stressTick_keeps | apply State.drlTick_keeps | apply State.thrTick_keeps
      | apply State.polarityCheck_keeps | apply State.etcTick_keeps | apply State.burTick_keeps
      | apply State.waveBoundary_keeps | apply State.wallDecide_keeps | apply State.plateBoundary_keeps
      | apply State.dropPoisonedWaiting_keeps | apply State.freeSlots_keeps | apply State.tmCommit_keeps
      | apply State.laneBoundary_keeps | apply State.switchAtBoundary_keeps | apply State.enterPlan_keeps
      | apply State.startTick_keeps | apply State.levelAtBoundary_keeps | apply State.blankAtTick_keeps
      | apply State.emitAtTick_keeps | apply State.wallTick_keeps | apply State.activate_keeps
      | apply State.restamp_keeps | apply State.slotStart_keeps | refine Keeps.foldl (fun _ _ _ => ?_) _ ?_
      | refine Keeps.foldlPair (fun _ _ _ => ?_) _ ?_ | fail_if_no_progress refine Keeps.upd hw ?_
      | refine Keeps.ite ?_ ?_ | apply State.blankEnd_keeps

theorem State.idle_keeps {W : Nat} {r s : State} 
    (hw : Sub 0x840010040649 W) (h : Keeps W r s) : Keeps W r (State.idle s) := by
  unfold State.idle
  try dsimp only
  with_reducible repeat' first
      | exact h | exact hw.mono (by decide) | apply State.dmcCycle_keeps | fail_if_no_progress refine Keeps.upd hw ?_
      | refine Keeps.ite ?_ ?_ | apply State.genlockDrive_keeps

theorem execTickBoundary_keeps {W : Nat} (running : List (Fin 64)) (s : State) (hw : Sub 0x1fffffffffffe W) :
    OutKeeps W s (execTickBoundary running s) := by
  unfold execTickBoundary
  have h := Keeps.refl W s
  try dsimp only [OutKeeps]
  with_reducible repeat' first
      | exact h | assumption | exact hw.mono (by decide)
      | refine State.oneCycle_keeps (fun _ _ _ => ?_) (hw.mono (by decide)) ?_ | apply State.boundary_keeps
      | refine Keeps.ite ?_ ?_

theorem execFurrowSlotStart_keeps {W : Nat} (slot : Fin 560) (s : State) (hw : Sub 0x84089e401e5c W) :
    OutKeeps W s (execFurrowSlotStart slot s) := by
  unfold execFurrowSlotStart
  have h := Keeps.refl W s
  try dsimp only [OutKeeps]
  with_reducible repeat' first
      | exact h | exact hw.mono (by decide) | apply State.slotStart_keeps | refine Keeps.ite ?_ ?_

theorem execFurrowSlotEnd_keeps {W : Nat} (needs : List (Fin 8 × ℕ)) (s : State) (hw : Sub 0x84319e40fcdc W) :
    OutKeeps W s (execFurrowSlotEnd needs s) := by
  unfold execFurrowSlotEnd
  have h := Keeps.refl W s
  try dsimp only [OutKeeps]
  with_reducible repeat' first
      | exact h | assumption | exact hw.mono (by decide)
      | refine State.oneCycle_keeps (fun _ _ _ => ?_) (hw.mono (by decide)) ?_ | apply State.slotEnd_keeps
      | refine Keeps.ite ?_ ?_

theorem execHeadlandStart_keeps {W : Nat} (mr4 : List (Fin 16 × Mr4)) (s : State) (hw : Sub 0x84b19e41fffc W) :
    OutKeeps W s (execHeadlandStart mr4 s) := by
  unfold execHeadlandStart
  have h := Keeps.refl W s
  try dsimp only [OutKeeps]
  with_reducible repeat' first
      | exact h | assumption | exact hw.mono (by decide)
      | refine State.oneCycle_keeps (fun _ _ _ => ?_) (hw.mono (by decide)) ?_ | apply State.headlandStart_keeps
      | refine Keeps.ite ?_ ?_

theorem execHeadlandTaskAbort_keeps {W : Nat} (running : List (Fin 64)) (s : State) (hw : Sub 0x840a9e409e5c W) :
    OutKeeps W s (execHeadlandTaskAbort running s) := by
  unfold execHeadlandTaskAbort
  have h := Keeps.refl W s
  try dsimp only [OutKeeps]
  with_reducible repeat' first
      | exact h | assumption | exact hw.mono (by decide)
      | refine State.oneCycle_keeps (fun _ _ _ => ?_) (hw.mono (by decide)) ?_ | apply State.headlandAbort_keeps
      | refine Keeps.ite ?_ ?_

theorem execCommitPoint_keeps {W : Nat} (s : State) (hw : Sub 0xc7de9e47fedc W) :
    OutKeeps W s (execCommitPoint s) := by
  unfold execCommitPoint
  have h := Keeps.refl W s
  try dsimp only [OutKeeps]
  with_reducible repeat' first
      | exact h | assumption | exact hw.mono (by decide)
      | refine State.oneCycle_keeps (fun _ _ _ => ?_) (hw.mono (by decide)) ?_ | apply State.commitPoint_keeps
      | refine Keeps.ite ?_ ?_

theorem State.coldEnd_keeps {W : Nat} {r s : State} (hw : Sub 0x10 W) (h : Keeps W r s) : Keeps W r s.coldEnd := by
  unfold State.coldEnd
  exact Keeps.upd hw h

theorem execColdSwitchDone_keeps {W : Nat} (s : State) (hw : Sub 0x1ffffffffdffc W) :
    OutKeeps W s (execColdSwitchDone s) := by
  unfold execColdSwitchDone
  have h := Keeps.refl W s
  try dsimp only [OutKeeps]
  with_reducible repeat' first
      | exact h | assumption | exact hw.mono (by decide)
      | refine State.oneCycle_keeps (fun _ _ _ => ?_) (hw.mono (by decide)) ?_ | apply State.loadTable_keeps
      | apply State.coldEnd_keeps | apply State.reloadRest_keeps | refine Keeps.ite ?_ ?_

end Sys2Proof.Machine
end

