-- ==== Sys2Proof/Laws/Frame.lean ====
section
/-! SUPPORT. What a command and a step keep, over all commands: the invariants, and every part outside `writes`. -/

-- One theorem at a time: hundreds of them at once would need more thread stacks than a check may map.
set_option Elab.async false
namespace Sys2Proof.Machine

/-- A list of parts as a set. -/
def maskOf (l : List Block) : Nat := l.foldl (fun m b => m ||| 1 <<< b.idx) 0

theorem RegGroup.idx_inj {g k : RegGroup} (h : g.idx = k.idx) : g = k := by
  cases g <;> cases k <;> first | rfl | exact absurd h (by decide)

theorem Block.idx_inj {a b : Block} (h : a.idx = b.idx) : a = b := by
  cases a <;> cases b <;> first
    | rfl
    | exact absurd h (by decide)
    | exact congrArg Block.reg (RegGroup.idx_inj (Nat.add_left_cancel h))
    | (simp only [Block.idx] at h; omega)

theorem testBit_maskOf {b : Block} {l : List Block} (hb : b ∉ l) : (maskOf l).testBit b.idx = false := by
  have key : ∀ (l : List Block) (m : Nat), m.testBit b.idx = false → b ∉ l →
      (l.foldl (fun m b => m ||| 1 <<< b.idx) m).testBit b.idx = false := by
    intro l
    induction l with
    | nil => exact fun m h _ => h
    | cons a l ih =>
      intro m h hb
      simp only [List.mem_cons, not_or] at hb
      refine ih _ ?_ hb.2
      rw [Nat.testBit_or, h, Bool.false_or, Nat.one_shiftLeft, Nat.testBit_two_pow, decide_eq_false_iff_not]
      exact fun e => hb.1 (Block.idx_inj e).symm
  exact key l 0 (Nat.zero_testBit _) hb

/-- Every command keeps the queue and each invariant, and leaves every part outside `writes` as it is. -/
theorem exec_keeps (c : Instr) (s : State) : OutKeeps (maskOf (writes c)) s (exec c s) := by
  cases c with
  | registerWrite a0 a1 a2 =>
    refine execRegisterWrite_keeps a0 a1 a2 s (Sub.mono (Sub.refl _) ?_)
    simp only [writes]; decide
  | tickBoundary a0 =>
    refine execTickBoundary_keeps a0 s (Sub.mono (Sub.refl _) ?_)
    simp only [writes]; decide
  | furrowSlotStart a0 =>
    refine execFurrowSlotStart_keeps a0 s (Sub.mono (Sub.refl _) ?_)
    simp only [writes]; decide
  | furrowSlotEnd a0 =>
    refine execFurrowSlotEnd_keeps a0 s (Sub.mono (Sub.refl _) ?_)
    simp only [writes]; decide
  | headlandStart a0 =>
    refine execHeadlandStart_keeps a0 s (Sub.mono (Sub.refl _) ?_)
    simp only [writes]; decide
  | headlandTaskAbort a0 =>
    refine execHeadlandTaskAbort_keeps a0 s (Sub.mono (Sub.refl _) ?_)
    simp only [writes]; decide
  | commitPoint =>
    refine execCommitPoint_keeps  s (Sub.mono (Sub.refl _) ?_)
    simp only [writes]; decide
  | fplStageValidate a0 =>
    refine execFplStageValidate_keeps a0 s (Sub.mono (Sub.refl _) ?_)
    simp only [writes]; decide
  | fplStageAbort a0 =>
    refine execFplStageAbort_keeps a0 s (Sub.mono (Sub.refl _) ?_)
    simp only [writes]; decide
  | planValidationDone =>
    refine execPlanValidationDone_keeps  s (Sub.mono (Sub.refl _) ?_)
    simp only [writes]; decide
  | fplSwitchArm a0 =>
    refine execFplSwitchArm_keeps a0 s (Sub.mono (Sub.refl _) ?_)
    simp only [writes]; decide
  | fplSwitchNext a0 =>
    refine execFplSwitchNext_keeps a0 s (Sub.mono (Sub.refl _) ?_)
    simp only [writes]; decide
  | fplSwitchDisarm a0 =>
    refine execFplSwitchDisarm_keeps a0 s (Sub.mono (Sub.refl _) ?_)
    simp only [writes]; decide
  | coldSwitchDone =>
    refine execColdSwitchDone_keeps  s (Sub.mono (Sub.refl _) ?_)
    simp only [writes]; decide
  | plotRequest a0 =>
    refine execPlotRequest_keeps a0 s (Sub.mono (Sub.refl _) ?_)
    simp only [writes]; decide
  | plotRelease a0 a1 a2 a3 =>
    refine execPlotRelease_keeps a0 a1 a2 a3 s (Sub.mono (Sub.refl _) ?_)
    simp only [writes]; decide
  | plotAccessComplete a0 =>
    refine execPlotAccessComplete_keeps a0 s (Sub.mono (Sub.refl _) ?_)
    simp only [writes]; decide
  | plotHandoverAccept a0 a1 =>
    refine execPlotHandoverAccept_keeps a0 a1 s (Sub.mono (Sub.refl _) ?_)
    simp only [writes]; decide
  | plotHandoverTimeout a0 =>
    refine execPlotHandoverTimeout_keeps a0 s (Sub.mono (Sub.refl _) ?_)
    simp only [writes]; decide
  | grnAllocStall a0 =>
    refine execGrnAllocStall_keeps a0 s (Sub.mono (Sub.refl _) ?_)
    simp only [writes]; decide
  | granaryAccess a0 a1 a2 a3 a4 a5 a6 a7 a8 =>
    refine execGranaryAccess_keeps a0 a1 a2 a3 a4 a5 a6 a7 a8 s (Sub.mono (Sub.refl _) ?_)
    simp only [writes]; decide
  | eccWriteback =>
    refine execEccWriteback_keeps  s (Sub.mono (Sub.refl _) ?_)
    simp only [writes]; decide
  | granaryBist a0 =>
    refine execGranaryBist_keeps a0 s (Sub.mono (Sub.refl _) ?_)
    simp only [writes]; decide
  | plotAudit =>
    refine execPlotAudit_keeps  s (Sub.mono (Sub.refl _) ?_)
    simp only [writes]; decide
  | grnSelftestReq a0 =>
    refine execGrnSelftestReq_keeps a0 s (Sub.mono (Sub.refl _) ?_)
    simp only [writes]; decide
  | plotSelftest a0 =>
    refine execPlotSelftest_keeps a0 s (Sub.mono (Sub.refl _) ?_)
    simp only [writes]; decide
  | plotSelftestDone a0 a1 =>
    refine execPlotSelftestDone_keeps a0 a1 s (Sub.mono (Sub.refl _) ?_)
    simp only [writes]; decide
  | grnClientGrantsRead =>
    refine execGrnClientGrantsRead_keeps  s (Sub.mono (Sub.refl _) ?_)
    simp only [writes]; decide
  | sheafBlockReceive a0 a1 =>
    refine execSheafBlockReceive_keeps a0 a1 s (Sub.mono (Sub.refl _) ?_)
    simp only [writes]; decide
  | frameRecordReceive a0 a1 =>
    refine execFrameRecordReceive_keeps a0 a1 s (Sub.mono (Sub.refl _) ?_)
    simp only [writes]; decide
  | updateRecordReceive a0 a1 =>
    refine execUpdateRecordReceive_keeps a0 a1 s (Sub.mono (Sub.refl _) ?_)
    simp only [writes]; decide
  | updateComplete a0 =>
    refine execUpdateComplete_keeps a0 s (Sub.mono (Sub.refl _) ?_)
    simp only [writes]; decide
  | mapCopyDone a0 =>
    refine execMapCopyDone_keeps a0 s (Sub.mono (Sub.refl _) ?_)
    simp only [writes]; decide
  | pltCtrlResync =>
    refine execPltCtrlResync_keeps  s (Sub.mono (Sub.refl _) ?_)
    simp only [writes]; decide
  | pltCtrlDropPending =>
    refine execPltCtrlDropPending_keeps  s (Sub.mono (Sub.refl _) ?_)
    simp only [writes]; decide
  | dmcStreamRecord a0 a1 a2 =>
    refine execDmcStreamRecord_keeps a0 a1 a2 s (Sub.mono (Sub.refl _) ?_)
    simp only [writes]; decide
  | streamRowStaged a0 a1 =>
    refine execStreamRowStaged_keeps a0 a1 s (Sub.mono (Sub.refl _) ?_)
    simp only [writes]; decide
  | thrDecRecord a0 =>
    refine execThrDecRecord_keeps a0 s (Sub.mono (Sub.refl _) ?_)
    simp only [writes]; decide
  | thrBlockDecode a0 a1 =>
    refine execThrBlockDecode_keeps a0 a1 s (Sub.mono (Sub.refl _) ?_)
    simp only [writes]; decide
  | thrJobTailWrite a0 =>
    refine execThrJobTailWrite_keeps a0 s (Sub.mono (Sub.refl _) ?_)
    simp only [writes]; decide
  | thrJobStart a0 =>
    refine execThrJobStart_keeps a0 s (Sub.mono (Sub.refl _) ?_)
    simp only [writes]; decide
  | thrJobBlock a0 =>
    refine execThrJobBlock_keeps a0 s (Sub.mono (Sub.refl _) ?_)
    simp only [writes]; decide
  | thrCtrlJobAbort =>
    refine execThrCtrlJobAbort_keeps  s (Sub.mono (Sub.refl _) ?_)
    simp only [writes]; decide
  | thrJobRingSizeWrite a0 =>
    refine execThrJobRingSizeWrite_keeps a0 s (Sub.mono (Sub.refl _) ?_)
    simp only [writes]; decide
  | pltBwRecord a0 =>
    refine execPltBwRecord_keeps a0 s (Sub.mono (Sub.refl _) ?_)
    simp only [writes]; decide
  | bandWriteBlock =>
    refine execBandWriteBlock_keeps  s (Sub.mono (Sub.refl _) ?_)
    simp only [writes]; decide
  | drillRecord a0 =>
    refine execDrillRecord_keeps a0 s (Sub.mono (Sub.refl _) ?_)
    simp only [writes]; decide
  | drillReachLoad a0 a1 =>
    refine execDrillReachLoad_keeps a0 a1 s (Sub.mono (Sub.refl _) ?_)
    simp only [writes]; decide
  | drillRayComplete a0 a1 a2 a3 a4 a5 =>
    refine execDrillRayComplete_keeps a0 a1 a2 a3 a4 a5 s (Sub.mono (Sub.refl _) ?_)
    simp only [writes]; decide
  | drlLaneTest a0 =>
    refine execDrlLaneTest_keeps a0 s (Sub.mono (Sub.refl _) ?_)
    simp only [writes]; decide
  | drillLaneTestDone a0 a1 a2 =>
    refine execDrillLaneTestDone_keeps a0 a1 a2 s (Sub.mono (Sub.refl _) ?_)
    simp only [writes]; decide
  | drlTmArm a0 =>
    refine execDrlTmArm_keeps a0 s (Sub.mono (Sub.refl _) ?_)
    simp only [writes]; decide
  | drlTmDisarm a0 =>
    refine execDrlTmDisarm_keeps a0 s (Sub.mono (Sub.refl _) ?_)
    simp only [writes]; decide
  | drlTmLoad a0 =>
    refine execDrlTmLoad_keeps a0 s (Sub.mono (Sub.refl _) ?_)
    simp only [writes]; decide
  | drlTmLoadDone =>
    refine execDrlTmLoadDone_keeps  s (Sub.mono (Sub.refl _) ?_)
    simp only [writes]; decide
  | drlTmDataAccess a0 =>
    refine execDrlTmDataAccess_keeps a0 s (Sub.mono (Sub.refl _) ?_)
    simp only [writes]; decide
  | drlTmBankWrite a0 a1 =>
    refine execDrlTmBankWrite_keeps a0 a1 s (Sub.mono (Sub.refl _) ?_)
    simp only [writes]; decide
  | hglCtrlReload =>
    refine execHglCtrlReload_keeps  s (Sub.mono (Sub.refl _) ?_)
    simp only [writes]; decide
  | hglCtrlReloadFactory =>
    refine execHglCtrlReloadFactory_keeps  s (Sub.mono (Sub.refl _) ?_)
    simp only [writes]; decide
  | hglCtrlCkptNow =>
    refine execHglCtrlCkptNow_keeps  s (Sub.mono (Sub.refl _) ?_)
    simp only [writes]; decide
  | hglPrefetchRecord a0 =>
    refine execHglPrefetchRecord_keeps a0 s (Sub.mono (Sub.refl _) ?_)
    simp only [writes]; decide
  | flashSectorRewrite a0 =>
    refine execFlashSectorRewrite_keeps a0 s (Sub.mono (Sub.refl _) ?_)
    simp only [writes]; decide
  | foldWindowEnd =>
    refine execFoldWindowEnd_keeps  s (Sub.mono (Sub.refl _) ?_)
    simp only [writes]; decide
  | foldPortion =>
    refine execFoldPortion_keeps  s (Sub.mono (Sub.refl _) ?_)
    simp only [writes]; decide
  | checkpointProgramDone a0 =>
    refine execCheckpointProgramDone_keeps a0 s (Sub.mono (Sub.refl _) ?_)
    simp only [writes]; decide
  | etcColRecord a0 =>
    refine execEtcColRecord_keeps a0 s (Sub.mono (Sub.refl _) ?_)
    simp only [writes]; decide
  | etcTxRecord a0 a1 =>
    refine execEtcTxRecord_keeps a0 a1 s (Sub.mono (Sub.refl _) ?_)
    simp only [writes]; decide
  | etcTxRecordEnd =>
    refine execEtcTxRecordEnd_keeps  s (Sub.mono (Sub.refl _) ?_)
    simp only [writes]; decide
  | etcRowScan a0 =>
    refine execEtcRowScan_keeps a0 s (Sub.mono (Sub.refl _) ?_)
    simp only [writes]; decide
  | statusPacketReceive a0 a1 =>
    refine execStatusPacketReceive_keeps a0 a1 s (Sub.mono (Sub.refl _) ?_)
    simp only [writes]; decide
  | panelDriverLost a0 =>
    refine execPanelDriverLost_keeps a0 s (Sub.mono (Sub.refl _) ?_)
    simp only [writes]; decide
  | panelDriverRestored a0 =>
    refine execPanelDriverRestored_keeps a0 s (Sub.mono (Sub.refl _) ?_)
    simp only [writes]; decide
  | senseWindow a0 =>
    refine execSenseWindow_keeps a0 s (Sub.mono (Sub.refl _) ?_)
    simp only [writes]; decide
  | senseWindowEnd =>
    refine execSenseWindowEnd_keeps  s (Sub.mono (Sub.refl _) ?_)
    simp only [writes]; decide
  | senseResReceive a0 a1 =>
    refine execSenseResReceive_keeps a0 a1 s (Sub.mono (Sub.refl _) ?_)
    simp only [writes]; decide
  | etcSupplyUp =>
    refine execEtcSupplyUp_keeps  s (Sub.mono (Sub.refl _) ?_)
    simp only [writes]; decide
  | etcSupplyDown =>
    refine execEtcSupplyDown_keeps  s (Sub.mono (Sub.refl _) ?_)
    simp only [writes]; decide
  | etcSupplyClearLockout =>
    refine execEtcSupplyClearLockout_keeps  s (Sub.mono (Sub.refl _) ?_)
    simp only [writes]; decide
  | supplyPgoodRise a0 =>
    refine execSupplyPgoodRise_keeps a0 s (Sub.mono (Sub.refl _) ?_)
    simp only [writes]; decide
  | supplySeqDelayEnd =>
    refine execSupplySeqDelayEnd_keeps  s (Sub.mono (Sub.refl _) ?_)
    simp only [writes]; decide
  | supplyPgoodTimeout =>
    refine execSupplyPgoodTimeout_keeps  s (Sub.mono (Sub.refl _) ?_)
    simp only [writes]; decide
  | supplyPgoodFault a0 =>
    refine execSupplyPgoodFault_keeps a0 s (Sub.mono (Sub.refl _) ?_)
    simp only [writes]; decide
  | supplyRetryTimer =>
    refine execSupplyRetryTimer_keeps  s (Sub.mono (Sub.refl _) ?_)
    simp only [writes]; decide
  | dischargeAllOpenEnd =>
    refine execDischargeAllOpenEnd_keeps  s (Sub.mono (Sub.refl _) ?_)
    simp only [writes]; decide
  | etcCtrlBlank a0 =>
    refine execEtcCtrlBlank_keeps a0 s (Sub.mono (Sub.refl _) ?_)
    simp only [writes]; decide
  | powerLossTrigger =>
    refine execPowerLossTrigger_keeps  s (Sub.mono (Sub.refl _) ?_)
    simp only [writes]; decide
  | powerLossSequenceEnd =>
    refine execPowerLossSequenceEnd_keeps  s (Sub.mono (Sub.refl _) ?_)
    simp only [writes]; decide
  | laneSignalDetect a0 a1 =>
    refine execLaneSignalDetect_keeps a0 a1 s (Sub.mono (Sub.refl _) ?_)
    simp only [writes]; decide
  | trainAttemptEnd a0 =>
    refine execTrainAttemptEnd_keeps a0 s (Sub.mono (Sub.refl _) ?_)
    simp only [writes]; decide
  | trainBackoffEnd a0 =>
    refine execTrainBackoffEnd_keeps a0 s (Sub.mono (Sub.refl _) ?_)
    simp only [writes]; decide
  | wakeLock a0 a1 =>
    refine execWakeLock_keeps a0 a1 s (Sub.mono (Sub.refl _) ?_)
    simp only [writes]; decide
  | wakeTimeout a0 =>
    refine execWakeTimeout_keeps a0 s (Sub.mono (Sub.refl _) ?_)
    simp only [writes]; decide
  | eqRequestReceive a0 a1 =>
    refine execEqRequestReceive_keeps a0 a1 s (Sub.mono (Sub.refl _) ?_)
    simp only [writes]; decide
  | fomHistogramDone a0 a1 a2 a3 a4 =>
    refine execFomHistogramDone_keeps a0 a1 a2 a3 a4 s (Sub.mono (Sub.refl _) ?_)
    simp only [writes]; decide
  | eqDone a0 =>
    refine execEqDone_keeps a0 s (Sub.mono (Sub.refl _) ?_)
    simp only [writes]; decide
  | eqTimeout a0 =>
    refine execEqTimeout_keeps a0 s (Sub.mono (Sub.refl _) ?_)
    simp only [writes]; decide
  | alignDone a0 a1 =>
    refine execAlignDone_keeps a0 a1 s (Sub.mono (Sub.refl _) ?_)
    simp only [writes]; decide
  | alignTimeout a0 a1 =>
    refine execAlignTimeout_keeps a0 a1 s (Sub.mono (Sub.refl _) ?_)
    simp only [writes]; decide
  | handshakeReceive a0 a1 =>
    refine execHandshakeReceive_keeps a0 a1 s (Sub.mono (Sub.refl _) ?_)
    simp only [writes]; decide
  | handshakeSilence a0 =>
    refine execHandshakeSilence_keeps a0 s (Sub.mono (Sub.refl _) ?_)
    simp only [writes]; decide
  | peerSilentRetry a0 =>
    refine execPeerSilentRetry_keeps a0 s (Sub.mono (Sub.refl _) ?_)
    simp only [writes]; decide
  | lossOfSignal a0 =>
    refine execLossOfSignal_keeps a0 s (Sub.mono (Sub.refl _) ?_)
    simp only [writes]; decide
  | fecUncorrectable a0 =>
    refine execFecUncorrectable_keeps a0 s (Sub.mono (Sub.refl _) ?_)
    simp only [writes]; decide
  | laneCorrectedLimit a0 a1 =>
    refine execLaneCorrectedLimit_keeps a0 a1 s (Sub.mono (Sub.refl _) ?_)
    simp only [writes]; decide
  | laneSelftestDone a0 a1 =>
    refine execLaneSelftestDone_keeps a0 a1 s (Sub.mono (Sub.refl _) ?_)
    simp only [writes]; decide
  | lnePortRetrain a0 =>
    refine execLnePortRetrain_keeps a0 s (Sub.mono (Sub.refl _) ?_)
    simp only [writes]; decide
  | lnePortClearExclude a0 =>
    refine execLnePortClearExclude_keeps a0 s (Sub.mono (Sub.refl _) ?_)
    simp only [writes]; decide
  | lnePortEnableWrite a0 a1 =>
    refine execLnePortEnableWrite_keeps a0 a1 s (Sub.mono (Sub.refl _) ?_)
    simp only [writes]; decide
  | lnePortModeWrite a0 a1 =>
    refine execLnePortModeWrite_keeps a0 a1 s (Sub.mono (Sub.refl _) ?_)
    simp only [writes]; decide
  | lneLaneLoopWrite a0 a1 =>
    refine execLneLaneLoopWrite_keeps a0 a1 s (Sub.mono (Sub.refl _) ?_)
    simp only [writes]; decide
  | lnePrbsClear a0 =>
    refine execLnePrbsClear_keeps a0 s (Sub.mono (Sub.refl _) ?_)
    simp only [writes]; decide
  | lnePrbsInject a0 =>
    refine execLnePrbsInject_keeps a0 s (Sub.mono (Sub.refl _) ?_)
    simp only [writes]; decide
  | lnePrbsErrRead a0 =>
    refine execLnePrbsErrRead_keeps a0 s (Sub.mono (Sub.refl _) ?_)
    simp only [writes]; decide
  | lnePrbsBitsLoRead a0 =>
    refine execLnePrbsBitsLoRead_keeps a0 s (Sub.mono (Sub.refl _) ?_)
    simp only [writes]; decide
  | lneSelftestReq a0 =>
    refine execLneSelftestReq_keeps a0 s (Sub.mono (Sub.refl _) ?_)
    simp only [writes]; decide
  | directionQuietRequest a0 =>
    refine execDirectionQuietRequest_keeps a0 s (Sub.mono (Sub.refl _) ?_)
    simp only [writes]; decide
  | directionSleepRequest a0 =>
    refine execDirectionSleepRequest_keeps a0 s (Sub.mono (Sub.refl _) ?_)
    simp only [writes]; decide
  | directionWakeRequest a0 =>
    refine execDirectionWakeRequest_keeps a0 s (Sub.mono (Sub.refl _) ?_)
    simp only [writes]; decide
  | sleepLivenessWake a0 =>
    refine execSleepLivenessWake_keeps a0 s (Sub.mono (Sub.refl _) ?_)
    simp only [writes]; decide
  | powerEntryComplete a0 a1 =>
    refine execPowerEntryComplete_keeps a0 a1 s (Sub.mono (Sub.refl _) ?_)
    simp only [writes]; decide
  | sleepResidencyEnd a0 =>
    refine execSleepResidencyEnd_keeps a0 s (Sub.mono (Sub.refl _) ?_)
    simp only [writes]; decide
  | wakeRetrainEnd a0 a1 =>
    refine execWakeRetrainEnd_keeps a0 a1 s (Sub.mono (Sub.refl _) ?_)
    simp only [writes]; decide
  | feLoopRequest a0 a1 =>
    refine execFeLoopRequest_keeps a0 a1 s (Sub.mono (Sub.refl _) ?_)
    simp only [writes]; decide
  | feLoopEnd a0 =>
    refine execFeLoopEnd_keeps a0 s (Sub.mono (Sub.refl _) ?_)
    simp only [writes]; decide
  | panelLaneTrainDone a0 =>
    refine execPanelLaneTrainDone_keeps a0 s (Sub.mono (Sub.refl _) ?_)
    simp only [writes]; decide
  | panelLaneNoStatus a0 a1 =>
    refine execPanelLaneNoStatus_keeps a0 a1 s (Sub.mono (Sub.refl _) ?_)
    simp only [writes]; decide
  | panelLaneRetry a0 =>
    refine execPanelLaneRetry_keeps a0 s (Sub.mono (Sub.refl _) ?_)
    simp only [writes]; decide
  | lnePlRetrain a0 =>
    refine execLnePlRetrain_keeps a0 s (Sub.mono (Sub.refl _) ?_)
    simp only [writes]; decide
  | flitReceive a0 a1 a2 =>
    refine execFlitReceive_keeps a0 a1 a2 s (Sub.mono (Sub.refl _) ?_)
    simp only [writes]; decide
  | nakRepeatTimer a0 =>
    refine execNakRepeatTimer_keeps a0 s (Sub.mono (Sub.refl _) ?_)
    simp only [writes]; decide
  | ackNopTimer a0 =>
    refine execAckNopTimer_keeps a0 s (Sub.mono (Sub.refl _) ?_)
    simp only [writes]; decide
  | replayTimeout a0 =>
    refine execReplayTimeout_keeps a0 s (Sub.mono (Sub.refl _) ?_)
    simp only [writes]; decide
  | creditSyncReceive a0 a1 =>
    refine execCreditSyncReceive_keeps a0 a1 s (Sub.mono (Sub.refl _) ?_)
    simp only [writes]; decide
  | creditSyncAckReceive a0 a1 =>
    refine execCreditSyncAckReceive_keeps a0 a1 s (Sub.mono (Sub.refl _) ?_)
    simp only [writes]; decide
  | creditSyncResend a0 =>
    refine execCreditSyncResend_keeps a0 s (Sub.mono (Sub.refl _) ?_)
    simp only [writes]; decide
  | creditSyncTimeout a0 =>
    refine execCreditSyncTimeout_keeps a0 s (Sub.mono (Sub.refl _) ?_)
    simp only [writes]; decide
  | lnkPortSyncNow a0 =>
    refine execLnkPortSyncNow_keeps a0 s (Sub.mono (Sub.refl _) ?_)
    simp only [writes]; decide
  | lnkPortAllocWrite a0 a1 a2 =>
    refine execLnkPortAllocWrite_keeps a0 a1 a2 s (Sub.mono (Sub.refl _) ?_)
    simp only [writes]; decide
  | messageReceive a0 a1 =>
    refine execMessageReceive_keeps a0 a1 s (Sub.mono (Sub.refl _) ?_)
    simp only [writes]; decide
  | messageForwardStart a0 a1 =>
    refine execMessageForwardStart_keeps a0 a1 s (Sub.mono (Sub.refl _) ?_)
    simp only [writes]; decide
  | sourceWeightPeriod =>
    refine execSourceWeightPeriod_keeps  s (Sub.mono (Sub.refl _) ?_)
    simp only [writes]; decide
  | beaconOriginate =>
    refine execBeaconOriginate_keeps  s (Sub.mono (Sub.refl _) ?_)
    simp only [writes]; decide
  | beaconReceive a0 a1 =>
    refine execBeaconReceive_keeps a0 a1 s (Sub.mono (Sub.refl _) ?_)
    simp only [writes]; decide
  | assignStart =>
    refine execAssignStart_keeps  s (Sub.mono (Sub.refl _) ?_)
    simp only [writes]; decide
  | assignReceive a0 a1 =>
    refine execAssignReceive_keeps a0 a1 s (Sub.mono (Sub.refl _) ?_)
    simp only [writes]; decide
  | acceptReceive a0 a1 =>
    refine execAcceptReceive_keeps a0 a1 s (Sub.mono (Sub.refl _) ?_)
    simp only [writes]; decide
  | refuseReceive a0 =>
    refine execRefuseReceive_keeps a0 s (Sub.mono (Sub.refl _) ?_)
    simp only [writes]; decide
  | doneReceive a0 a1 =>
    refine execDoneReceive_keeps a0 a1 s (Sub.mono (Sub.refl _) ?_)
    simp only [writes]; decide
  | lostReceive =>
    refine execLostReceive_keeps  s (Sub.mono (Sub.refl _) ?_)
    simp only [writes]; decide
  | assignTimeout =>
    refine execAssignTimeout_keeps  s (Sub.mono (Sub.refl _) ?_)
    simp only [writes]; decide
  | doneTimeout =>
    refine execDoneTimeout_keeps  s (Sub.mono (Sub.refl _) ?_)
    simp only [writes]; decide
  | lnkCtrlRediscover =>
    refine execLnkCtrlRediscover_keeps  s (Sub.mono (Sub.refl _) ?_)
    simp only [writes]; decide
  | mgmtReqReceive a0 =>
    refine execMgmtReqReceive_keeps a0 s (Sub.mono (Sub.refl _) ?_)
    simp only [writes]; decide
  | mgmtReqPerform =>
    refine execMgmtReqPerform_keeps  s (Sub.mono (Sub.refl _) ?_)
    simp only [writes]; decide
  | tickMessageReceive a0 a1 =>
    refine execTickMessageReceive_keeps a0 a1 s (Sub.mono (Sub.refl _) ?_)
    simp only [writes]; decide
  | decisionReceive a0 a1 =>
    refine execDecisionReceive_keeps a0 a1 s (Sub.mono (Sub.refl _) ?_)
    simp only [writes]; decide
  | voteReceive a0 a1 =>
    refine execVoteReceive_keeps a0 a1 s (Sub.mono (Sub.refl _) ?_)
    simp only [writes]; decide
  | memberReceive a0 =>
    refine execMemberReceive_keeps a0 s (Sub.mono (Sub.refl _) ?_)
    simp only [writes]; decide
  | voteDeadline =>
    refine execVoteDeadline_keeps  s (Sub.mono (Sub.refl _) ?_)
    simp only [writes]; decide
  | rootDecide =>
    refine execRootDecide_keeps  s (Sub.mono (Sub.refl _) ?_)
    simp only [writes]; decide
  | masterClaim =>
    refine execMasterClaim_keeps  s (Sub.mono (Sub.refl _) ?_)
    simp only [writes]; decide
  | rootTakeover =>
    refine execRootTakeover_keeps  s (Sub.mono (Sub.refl _) ?_)
    simp only [writes]; decide
  | genlockEdge =>
    refine execGenlockEdge_keeps  s (Sub.mono (Sub.refl _) ?_)
    simp only [writes]; decide
  | genlockEdgeMissed =>
    refine execGenlockEdgeMissed_keeps  s (Sub.mono (Sub.refl _) ?_)
    simp only [writes]; decide
  | dramRequest a0 a1 a2 a3 a4 a5 a6 =>
    refine execDramRequest_keeps a0 a1 a2 a3 a4 a5 a6 s (Sub.mono (Sub.refl _) ?_)
    simp only [writes]; decide
  | dramReadResponse a0 a1 =>
    refine execDramReadResponse_keeps a0 a1 s (Sub.mono (Sub.refl _) ?_)
    simp only [writes]; decide
  | refreshInterval a0 =>
    refine execRefreshInterval_keeps a0 s (Sub.mono (Sub.refl _) ?_)
    simp only [writes]; decide
  | mr4Stale a0 =>
    refine execMr4Stale_keeps a0 s (Sub.mono (Sub.refl _) ?_)
    simp only [writes]; decide
  | pageIdleTimer a0 a1 =>
    refine execPageIdleTimer_keeps a0 a1 s (Sub.mono (Sub.refl _) ?_)
    simp only [writes]; decide
  | selfRefreshIdle =>
    refine execSelfRefreshIdle_keeps  s (Sub.mono (Sub.refl _) ?_)
    simp only [writes]; decide
  | selfRefreshExit =>
    refine execSelfRefreshExit_keeps  s (Sub.mono (Sub.refl _) ?_)
    simp only [writes]; decide
  | dmcFreqReq a0 =>
    refine execDmcFreqReq_keeps a0 s (Sub.mono (Sub.refl _) ?_)
    simp only [writes]; decide
  | freqChangeEntry =>
    refine execFreqChangeEntry_keeps  s (Sub.mono (Sub.refl _) ?_)
    simp only [writes]; decide
  | freqChangeDone =>
    refine execFreqChangeDone_keeps  s (Sub.mono (Sub.refl _) ?_)
    simp only [writes]; decide
  | freqWindowClose =>
    refine execFreqWindowClose_keeps  s (Sub.mono (Sub.refl _) ?_)
    simp only [writes]; decide
  | dmcSelftestReq a0 =>
    refine execDmcSelftestReq_keeps a0 s (Sub.mono (Sub.refl _) ?_)
    simp only [writes]; decide
  | dramRowTestDone a0 a1 a2 a3 =>
    refine execDramRowTestDone_keeps a0 a1 a2 a3 s (Sub.mono (Sub.refl _) ?_)
    simp only [writes]; decide
  | burTailWrite a0 =>
    refine execBurTailWrite_keeps a0 s (Sub.mono (Sub.refl _) ?_)
    simp only [writes]; decide
  | burNop =>
    refine execBurNop_keeps  s (Sub.mono (Sub.refl _) ?_)
    simp only [writes]; decide
  | burFill a0 =>
    refine execBurFill_keeps a0 s (Sub.mono (Sub.refl _) ?_)
    simp only [writes]; decide
  | burCopy a0 =>
    refine execBurCopy_keeps a0 s (Sub.mono (Sub.refl _) ?_)
    simp only [writes]; decide
  | burStipple a0 =>
    refine execBurStipple_keeps a0 s (Sub.mono (Sub.refl _) ?_)
    simp only [writes]; decide
  | burCtrlResume =>
    refine execBurCtrlResume_keeps  s (Sub.mono (Sub.refl _) ?_)
    simp only [writes]; decide
  | burCtrlAbort =>
    refine execBurCtrlAbort_keeps  s (Sub.mono (Sub.refl _) ?_)
    simp only [writes]; decide
  | burCtrlEnWrite a0 =>
    refine execBurCtrlEnWrite_keeps a0 s (Sub.mono (Sub.refl _) ?_)
    simp only [writes]; decide
  | burRingSizeWrite a0 =>
    refine execBurRingSizeWrite_keeps a0 s (Sub.mono (Sub.refl _) ?_)
    simp only [writes]; decide
  | burRingLoWrite a0 =>
    refine execBurRingLoWrite_keeps a0 s (Sub.mono (Sub.refl _) ?_)
    simp only [writes]; decide
  | thmConversionResult a0 a1 =>
    refine execThmConversionResult_keeps a0 a1 s (Sub.mono (Sub.refl _) ?_)
    simp only [writes]; decide
  | thmConversionTimeout a0 =>
    refine execThmConversionTimeout_keeps a0 s (Sub.mono (Sub.refl _) ?_)
    simp only [writes]; decide
  | thmPeriodicConversion a0 =>
    refine execThmPeriodicConversion_keeps a0 s (Sub.mono (Sub.refl _) ?_)
    simp only [writes]; decide
  | thmConvReq a0 =>
    refine execThmConvReq_keeps a0 s (Sub.mono (Sub.refl _) ?_)
    simp only [writes]; decide
  | thmSelftestReq a0 =>
    refine execThmSelftestReq_keeps a0 s (Sub.mono (Sub.refl _) ?_)
    simp only [writes]; decide
  | thmSelftestDone a0 a1 a2 =>
    refine execThmSelftestDone_keeps a0 a1 a2 s (Sub.mono (Sub.refl _) ?_)
    simp only [writes]; decide
  | thmSensorStale a0 =>
    refine execThmSensorStale_keeps a0 s (Sub.mono (Sub.refl _) ?_)
    simp only [writes]; decide
  | thmLevelRelease =>
    refine execThmLevelRelease_keeps  s (Sub.mono (Sub.refl _) ?_)
    simp only [writes]; decide
  | thmRateStepEnd =>
    refine execThmRateStepEnd_keeps  s (Sub.mono (Sub.refl _) ?_)
    simp only [writes]; decide
  | thmHoldRelease =>
    refine execThmHoldRelease_keeps  s (Sub.mono (Sub.refl _) ?_)
    simp only [writes]; decide
  | thmOvertempClear =>
    refine execThmOvertempClear_keeps  s (Sub.mono (Sub.refl _) ?_)
    simp only [writes]; decide
  | thmOpRestore =>
    refine execThmOpRestore_keeps  s (Sub.mono (Sub.refl _) ?_)
    simp only [writes]; decide
  | thmPanelUnknown =>
    refine execThmPanelUnknown_keeps  s (Sub.mono (Sub.refl _) ?_)
    simp only [writes]; decide
  | thermalTrip a0 =>
    refine execThermalTrip_keeps a0 s (Sub.mono (Sub.refl _) ?_)
    simp only [writes]; decide
  | sbkCtrlStore =>
    refine execSbkCtrlStore_keeps  s (Sub.mono (Sub.refl _) ?_)
    simp only [writes]; decide
  | sbkCtrlGlean =>
    refine execSbkCtrlGlean_keeps  s (Sub.mono (Sub.refl _) ?_)
    simp only [writes]; decide
  | sbkStoreComplete a0 =>
    refine execSbkStoreComplete_keeps a0 s (Sub.mono (Sub.refl _) ?_)
    simp only [writes]; decide
  | sbkRecall a0 a1 =>
    refine execSbkRecall_keeps a0 a1 s (Sub.mono (Sub.refl _) ?_)
    simp only [writes]; decide
  | sbkDataAccess a0 a1 a2 =>
    refine execSbkDataAccess_keeps a0 a1 a2 s (Sub.mono (Sub.refl _) ?_)
    simp only [writes]; decide
  | sbkPwUnlockR =>
    refine execSbkPwUnlockR_keeps  s (Sub.mono (Sub.refl _) ?_)
    simp only [writes]; decide
  | sbkPwUnlockW =>
    refine execSbkPwUnlockW_keeps  s (Sub.mono (Sub.refl _) ?_)
    simp only [writes]; decide
  | sbkPwSetR =>
    refine execSbkPwSetR_keeps  s (Sub.mono (Sub.refl _) ?_)
    simp only [writes]; decide
  | sbkPwSetW =>
    refine execSbkPwSetW_keeps  s (Sub.mono (Sub.refl _) ?_)
    simp only [writes]; decide
  | sbkPwLock =>
    refine execSbkPwLock_keeps  s (Sub.mono (Sub.refl _) ?_)
    simp only [writes]; decide
  | sbkCntLoRead =>
    refine execSbkCntLoRead_keeps  s (Sub.mono (Sub.refl _) ?_)
    simp only [writes]; decide
  | operatingSecond =>
    refine execOperatingSecond_keeps  s (Sub.mono (Sub.refl _) ?_)
    simp only [writes]; decide
  | gleanPassDone a0 a1 =>
    refine execGleanPassDone_keeps a0 a1 s (Sub.mono (Sub.refl _) ?_)
    simp only [writes]; decide
  | powerOnReset =>
    refine execPowerOnReset_keeps  s (Sub.mono (Sub.refl _) ?_)
    simp only [writes]; decide
  | pinReset a0 =>
    refine execPinReset_keeps a0 s (Sub.mono (Sub.refl _) ?_)
    simp only [writes]; decide
  | gblReset a0 =>
    refine execGblReset_keeps a0 s (Sub.mono (Sub.refl _) ?_)
    simp only [writes]; decide
  | watchdogExpiry =>
    refine execWatchdogExpiry_keeps  s (Sub.mono (Sub.refl _) ?_)
    simp only [writes]; decide
  | pfailRestart =>
    refine execPfailRestart_keeps  s (Sub.mono (Sub.refl _) ?_)
    simp only [writes]; decide
  | resetEffect =>
    refine execResetEffect_keeps  s (Sub.mono (Sub.refl _) ?_)
    simp only [writes]; decide
  | resetRelease a0 a1 a2 =>
    refine execResetRelease_keeps a0 a1 a2 s (Sub.mono (Sub.refl _) ?_)
    simp only [writes]; decide
  | stageAdvance a0 =>
    refine execStageAdvance_keeps a0 s (Sub.mono (Sub.refl _) ?_)
    simp only [writes]; decide
  | updCtrlResumeStage =>
    refine execUpdCtrlResumeStage_keeps  s (Sub.mono (Sub.refl _) ?_)
    simp only [writes]; decide
  | updCtrlRecoveryReq =>
    refine execUpdCtrlRecoveryReq_keeps  s (Sub.mono (Sub.refl _) ?_)
    simp only [writes]; decide
  | updCtrlLoadGo =>
    refine execUpdCtrlLoadGo_keeps  s (Sub.mono (Sub.refl _) ?_)
    simp only [writes]; decide
  | updCtrlSowAbort =>
    refine execUpdCtrlSowAbort_keeps  s (Sub.mono (Sub.refl _) ?_)
    simp only [writes]; decide
  | updLoadDataWrite a0 =>
    refine execUpdLoadDataWrite_keeps a0 s (Sub.mono (Sub.refl _) ?_)
    simp only [writes]; decide
  | updActFrameLoRead =>
    refine execUpdActFrameLoRead_keeps  s (Sub.mono (Sub.refl _) ?_)
    simp only [writes]; decide
  | sowBlockReceive a0 a1 =>
    refine execSowBlockReceive_keeps a0 a1 s (Sub.mono (Sub.refl _) ?_)
    simp only [writes]; decide
  | sowBlockProgrammed a0 a1 =>
    refine execSowBlockProgrammed_keeps a0 a1 s (Sub.mono (Sub.refl _) ?_)
    simp only [writes]; decide
  | sowAckReceive a0 a1 =>
    refine execSowAckReceive_keeps a0 a1 s (Sub.mono (Sub.refl _) ?_)
    simp only [writes]; decide
  | sowResendTimer a0 a1 =>
    refine execSowResendTimer_keeps a0 a1 s (Sub.mono (Sub.refl _) ?_)
    simp only [writes]; decide
  | sowQueryReceive a0 =>
    refine execSowQueryReceive_keeps a0 s (Sub.mono (Sub.refl _) ?_)
    simp only [writes]; decide
  | sowArmReceive a0 =>
    refine execSowArmReceive_keeps a0 s (Sub.mono (Sub.refl _) ?_)
    simp only [writes]; decide
  | sowCancelReceive a0 =>
    refine execSowCancelReceive_keeps a0 s (Sub.mono (Sub.refl _) ?_)
    simp only [writes]; decide
  | healthConfirm =>
    refine execHealthConfirm_keeps  s (Sub.mono (Sub.refl _) ?_)
    simp only [writes]; decide
  | healthTimeout =>
    refine execHealthTimeout_keeps  s (Sub.mono (Sub.refl _) ?_)
    simp only [writes]; decide
  | proofRedraw =>
    refine execProofRedraw_keeps  s (Sub.mono (Sub.refl _) ?_)
    simp only [writes]; decide
  | spiRegWrite a0 a1 a2 =>
    refine execSpiRegWrite_keeps a0 a1 a2 s (Sub.mono (Sub.refl _) ?_)
    simp only [writes]; decide
  | spiRegRead a0 a1 a2 =>
    refine execSpiRegRead_keeps a0 a1 a2 s (Sub.mono (Sub.refl _) ?_)
    simp only [writes]; decide
  | spiRegWriteFixed a0 a1 a2 =>
    refine execSpiRegWriteFixed_keeps a0 a1 a2 s (Sub.mono (Sub.refl _) ?_)
    simp only [writes]; decide
  | spiRegReadFixed a0 a1 a2 =>
    refine execSpiRegReadFixed_keeps a0 a1 a2 s (Sub.mono (Sub.refl _) ?_)
    simp only [writes]; decide
  | spiMemWrite a0 a1 a2 =>
    refine execSpiMemWrite_keeps a0 a1 a2 s (Sub.mono (Sub.refl _) ?_)
    simp only [writes]; decide
  | spiMemRead a0 a1 a2 a3 =>
    refine execSpiMemRead_keeps a0 a1 a2 a3 s (Sub.mono (Sub.refl _) ?_)
    simp only [writes]; decide
  | spiStatus =>
    refine execSpiStatus_keeps  s (Sub.mono (Sub.refl _) ?_)
    simp only [writes]; decide
  | spiUnknownOpcode =>
    refine execSpiUnknownOpcode_keeps  s (Sub.mono (Sub.refl _) ?_)
    simp only [writes]; decide
  | mbxClaim a0 =>
    refine execMbxClaim_keeps a0 s (Sub.mono (Sub.refl _) ?_)
    simp only [writes]; decide
  | mbxRelease a0 =>
    refine execMbxRelease_keeps a0 s (Sub.mono (Sub.refl _) ?_)
    simp only [writes]; decide
  | mbxIdleRelease =>
    refine execMbxIdleRelease_keeps  s (Sub.mono (Sub.refl _) ?_)
    simp only [writes]; decide
  | mbxIdentify a0 a1 =>
    refine execMbxIdentify_keeps a0 a1 s (Sub.mono (Sub.refl _) ?_)
    simp only [writes]; decide
  | mbxShutdown a0 a1 =>
    refine execMbxShutdown_keeps a0 a1 s (Sub.mono (Sub.refl _) ?_)
    simp only [writes]; decide
  | mbxStore a0 a1 =>
    refine execMbxStore_keeps a0 a1 s (Sub.mono (Sub.refl _) ?_)
    simp only [writes]; decide
  | mbxFlashRead a0 a1 =>
    refine execMbxFlashRead_keeps a0 a1 s (Sub.mono (Sub.refl _) ?_)
    simp only [writes]; decide
  | mbxPlanWrite a0 a1 a2 =>
    refine execMbxPlanWrite_keeps a0 a1 a2 s (Sub.mono (Sub.refl _) ?_)
    simp only [writes]; decide
  | mbxPlanSelect a0 a1 =>
    refine execMbxPlanSelect_keeps a0 a1 s (Sub.mono (Sub.refl _) ?_)
    simp only [writes]; decide
  | mbxFeatureEnable a0 a1 =>
    refine execMbxFeatureEnable_keeps a0 a1 s (Sub.mono (Sub.refl _) ?_)
    simp only [writes]; decide
  | mbxFeatureDisable a0 a1 =>
    refine execMbxFeatureDisable_keeps a0 a1 s (Sub.mono (Sub.refl _) ?_)
    simp only [writes]; decide
  | mbxThrJob a0 a1 =>
    refine execMbxThrJob_keeps a0 a1 s (Sub.mono (Sub.refl _) ?_)
    simp only [writes]; decide
  | mbxSelftest a0 a1 =>
    refine execMbxSelftest_keeps a0 a1 s (Sub.mono (Sub.refl _) ?_)
    simp only [writes]; decide
  | mbxLogRead a0 a1 =>
    refine execMbxLogRead_keeps a0 a1 s (Sub.mono (Sub.refl _) ?_)
    simp only [writes]; decide
  | mbxLogExport a0 a1 =>
    refine execMbxLogExport_keeps a0 a1 s (Sub.mono (Sub.refl _) ?_)
    simp only [writes]; decide
  | mbxDiagCapture a0 a1 =>
    refine execMbxDiagCapture_keeps a0 a1 s (Sub.mono (Sub.refl _) ?_)
    simp only [writes]; decide
  | mbxCalWrite a0 a1 a2 =>
    refine execMbxCalWrite_keeps a0 a1 a2 s (Sub.mono (Sub.refl _) ?_)
    simp only [writes]; decide
  | mbxClearLog a0 a1 =>
    refine execMbxClearLog_keeps a0 a1 s (Sub.mono (Sub.refl _) ?_)
    simp only [writes]; decide
  | gblGpioOwnWrite a0 a1 =>
    refine execGblGpioOwnWrite_keeps a0 a1 s (Sub.mono (Sub.refl _) ?_)
    simp only [writes]; decide
  | gblEvqRdWrite a0 =>
    refine execGblEvqRdWrite_keeps a0 s (Sub.mono (Sub.refl _) ?_)
    simp only [writes]; decide
  | gblEvqLostRead =>
    refine execGblEvqLostRead_keeps  s (Sub.mono (Sub.refl _) ?_)
    simp only [writes]; decide
  | eventMessageSend =>
    refine execEventMessageSend_keeps  s (Sub.mono (Sub.refl _) ?_)
    simp only [writes]; decide
  | flashLogAppend a0 =>
    refine execFlashLogAppend_keeps a0 s (Sub.mono (Sub.refl _) ?_)
    simp only [writes]; decide
  | fplFrameLoRead =>
    refine execFplFrameLoRead_keeps  s (Sub.mono (Sub.refl _) ?_)
    simp only [writes]; decide
  | hglStressFramesLoRead =>
    refine execHglStressFramesLoRead_keeps  s (Sub.mono (Sub.refl _) ?_)
    simp only [writes]; decide
  | hglCurveDataRead =>
    refine execHglCurveDataRead_keeps  s (Sub.mono (Sub.refl _) ?_)
    simp only [writes]; decide
  | idleBlockReceive a0 =>
    refine execIdleBlockReceive_keeps a0 s (Sub.mono (Sub.refl _) ?_)
    simp only [writes]; decide
  | vddNvmLoss a0 =>
    refine execVddNvmLoss_keeps a0 s (Sub.mono (Sub.refl _) ?_)
    simp only [writes]; decide
  | wakeDetectTimeout a0 =>
    refine execWakeDetectTimeout_keeps a0 s (Sub.mono (Sub.refl _) ?_)
    simp only [writes]; decide
  | panelLaneTrainTimeout a0 =>
    refine execPanelLaneTrainTimeout_keeps a0 s (Sub.mono (Sub.refl _) ?_)
    simp only [writes]; decide

/-- What a step keeps of the state it takes the command from. -/
theorem step_keeps {s t : State} (h : step s = .next t) :
    (s.pending = [] ∧ ∃ m, Keeps m s t) ∨
      ∃ c rest, s.pending = c :: rest ∧ Keeps (maskOf (writes c)) { s with pending := rest } t := by
  unfold step at h
  split at h
  · rename_i hp
    obtain rfl := (by simpa using h : s.idle = t)
    exact .inl ⟨hp, _, State.idle_keeps (Sub.refl _) (Keeps.refl _ s)⟩
  · rename_i c rest hp
    have hk := exec_keeps c { s with pending := rest }
    rw [h] at hk
    exact .inr ⟨c, rest, hp, hk⟩

end Sys2Proof.Machine
end

