-- ==== Sys2Proof/WellFormed.lean ====
section
/-! DEFINITION. Which commands the outside can send: operands whose lengths and counts are those of the interface that
carries them. What such operands say (a bad CRC, a wrong header, a reserved value) is for the meanings to judge. -/
namespace Sys2Proof

/-- Distinct numbers. -/
def once : List Nat → Bool
  | [] => true
  | a :: t => !t.contains a && once t

/-- A Granary access stays within its 64-byte line and writes as many bytes as it says (R72). -/
def granaryOk (off len : Nat) (write : Option Bytes) : Bool :=
  decide (1 ≤ len) && decide (off + len ≤ 64) && (match write with
    | some b => b.length == len
    | none => true)

/-- A message is at least its 16-byte header (R273). -/
def msgOk (msg : Bytes) : Bool := decide (16 ≤ msg.length)

/-- A control block of the lane layer is 32 bytes (R237). -/
def blockOk (b : Bytes) : Bool := b.length == 32

/-- A packet of the panel is at least its 16-byte header (R213). -/
def packetOk (b : Bytes) : Bool := decide (16 ≤ b.length)

/-- A service-port transaction moves 1 to 65,535 words, or it is cut before the first is whole (R440). -/
def wordsOk (n : Nat) (cut : Bool) : Bool := decide (n ≤ 65535) && (decide (1 ≤ n) || cut)

/-- A command that the outside can send. -/
def Instr.wf : Instr → Bool
  | .furrowSlotEnd needs => once (needs.map (fun n => n.1.val)) && needs.all (fun n => decide (1 ≤ n.2))
  | .headlandStart mr4 => once (mr4.map (fun m => m.1.val))
  | .tickBoundary running => once (running.map (·.val))
  | .headlandTaskAbort running => once (running.map (·.val))
  | .granaryAccess _ _ _ off len write _ _ _ => granaryOk off.val len write
  | .granaryBist fails => once (fails.map (·.val))
  | .sheafBlockReceive _ m | .frameRecordReceive _ m | .updateRecordReceive _ m | .beaconReceive _ m | .assignReceive _ m
  | .acceptReceive _ m | .doneReceive _ m | .tickMessageReceive _ m | .decisionReceive _ m | .voteReceive _ m
  | .sowBlockReceive _ m | .sowAckReceive _ m => msgOk m
  | .mgmtReqReceive m | .memberReceive m | .sowQueryReceive m | .sowArmReceive m | .sowCancelReceive m => msgOk m
  | .eqRequestReceive _ b | .handshakeReceive _ b | .feLoopRequest _ b => blockOk b
  | .fomHistogramDone _ counts _ _ taps => counts.length == 1024 && taps.length == 12
  | .statusPacketReceive _ p | .senseResReceive _ p => packetOk p
  | .flitReceive _ flit _ => flit.length == 256
  | .creditSyncReceive _ payload => payload.length == 240
  | .dramRequest _ _ addr write _ _ _ => addr.toNat % 64 == 0 && (match write with
    | some b => b.length == 64
    | none => true)
  | .sbkStoreComplete (.rowFail row _) => decide (row ≤ 512)
  | .vddNvmLoss rows => decide (rows ≤ 512)
  | .gleanPassDone weakA weakB => decide (weakA ≤ 513) && decide (weakB ≤ 513)
  | .spiRegWrite _ ws cut | .spiRegWriteFixed _ ws cut | .spiMemWrite _ ws cut => wordsOk ws.length cut
  | .spiRegRead _ n cut | .spiRegReadFixed _ n cut | .spiMemRead _ n cut _ => wordsOk n cut
  | _ => true

end Sys2Proof
end

