-- ==== Sys2Proof/Tests/Slice0.lean ====
section
/-! SUPPORT. The author's tests: ill-formed commands that `Instr.wf` refuses, and for every statement with hypotheses states
and operands that meet all of them, one for each of its clauses. -/

-- One theorem at a time: many at once would need more thread stacks than a check may map.
set_option Elab.async false
set_option maxRecDepth 4000
set_option linter.unusedVariables false
namespace Sys2Proof.Tests
open Sys2Proof Sys2Proof.Machine

/-! ### Well-formedness: one refused command for each check -/

theorem test_wf_furrowSlotEnd : (Instr.furrowSlotEnd [(2, 5), (2, 7)]).wf = false ∧
    (Instr.furrowSlotEnd [(2, 0)]).wf = false ∧ (Instr.furrowSlotEnd [(2, 5), (3, 7)]).wf = true := by decide

theorem test_wf_repeated : (Instr.tickBoundary [3, 3]).wf = false ∧ (Instr.headlandTaskAbort [3, 3]).wf = false ∧
    (Instr.granaryBist [7, 7]).wf = false ∧ (Instr.tickBoundary [3, 4]).wf = true := by decide

theorem test_wf_headlandStart (m : Mr4) : (Instr.headlandStart [(2, m), (2, m)]).wf = false := rfl

theorem test_wf_granaryAccess : (Instr.granaryAccess .mgmt 0 0 60 8 none false .clean []).wf = false ∧
    (Instr.granaryAccess .mgmt 0 0 0 0 none false .clean []).wf = false ∧
    (Instr.granaryAccess .mgmt 0 0 0 2 (some [1#8]) false .clean []).wf = false ∧
    (Instr.granaryAccess .mgmt 0 0 56 8 none false .clean []).wf = true := by decide

theorem test_wf_message : (Instr.sheafBlockReceive 0 (List.replicate 15 0#8)).wf = false ∧
    (Instr.voteReceive 0 []).wf = false ∧ (Instr.sowBlockReceive 0 []).wf = false ∧
    (Instr.mgmtReqReceive (List.replicate 15 0#8)).wf = false ∧ (Instr.sowArmReceive []).wf = false ∧
    (Instr.mgmtReqReceive (List.replicate 16 0#8)).wf = true := by decide

theorem test_wf_block : (Instr.handshakeReceive 0 (List.replicate 31 0#8)).wf = false ∧
    (Instr.handshakeReceive 0 (List.replicate 32 0#8)).wf = true := by decide

theorem test_wf_histogram : (Instr.fomHistogramDone 0 [1] 0 0 (List.replicate 12 0)).wf = false := by decide

theorem test_wf_packet : (Instr.statusPacketReceive 0 (List.replicate 15 0#8)).wf = false ∧
    (Instr.senseResReceive 0 []).wf = false := by decide

theorem test_wf_flit : (Instr.flitReceive 0 [0#8] false).wf = false ∧ (Instr.creditSyncReceive 0 [0#8]).wf = false := by
  decide

theorem test_wf_dramRequest : (Instr.dramRequest 3 false 0x20 none 0 false .clean).wf = false ∧
    (Instr.dramRequest 3 false 0x40 (some [1#8]) 0 false .clean).wf = false ∧
    (Instr.dramRequest 3 false 0x40 none 0 false .clean).wf = true := by decide

theorem test_wf_rows : (Instr.sbkStoreComplete (.rowFail 513 0)).wf = false ∧ (Instr.vddNvmLoss 513).wf = false ∧
    (Instr.gleanPassDone 514 0).wf = false ∧ (Instr.gleanPassDone 0 514).wf = false ∧
    (Instr.vddNvmLoss 512).wf = true := by decide

theorem test_wf_words : (Instr.spiRegWrite 0 [] false).wf = false ∧ (Instr.spiRegRead 0 65536 true).wf = false ∧
    (Instr.spiMemRead 0 0 false none).wf = false ∧ (Instr.spiRegRead 0 0 true).wf = true := by decide


/-! The service port's wire (R439, Table 17.1): every byte most significant bit first. -/
def wWire (b : List Nat) : List Bool := b.flatMap (fun v => (List.range 8).map (fun k => v.testBit (7 - k)))

theorem test_wire_write : decodeSpi (wWire [0x01, 0, 0, 0x01, 0x28, 0x04, 0x03, 0x02, 0x81]) =
    some (.spiRegWrite 0x128 [0x81020304] false) ∧
    decodeSpi (wWire [0x11, 0x12, 0, 0, 0, 0x40, 1, 0, 0, 0, 7, 0]) = some (.spiMemWrite 0x1200000040 [1] true) := by
  decide +kernel

theorem test_wire_read : decodeSpi (wWire ([0x07, 0, 0, 0, 0x40] ++ List.replicate 16 0)) =
    some (.spiRegReadFixed 0x40 2 false) ∧ decodeSpi (wWire [0x05, 0, 0, 0]) = some .spiStatus ∧
    decodeSpi (wWire [0x02]) = some .spiUnknownOpcode ∧ decodeSpi (wWire [0x03, 0]) = none := by decide +kernel

/-! ### The witnesses -/

def wUp : State := State.wr { State.reset with boot := { Boot.init with inReset := false } } GBL_STATE 2
def wGrn : State := ((wUp.wr GBL_STATE 3).wr GRN_STATUS 1).wr GRN_COUNT_FREE 16384
def wPlot (p : Plot) : State := { wGrn with grn := { Grn.init with plots := [(5, p)], held := [(3, 5)] } }
def wFullList : State := { wUp.wr GBL_STATE 2 with
  sbk := { Sbk.init with sram := (List.range 64).flatMap (fun i => [(0x200 + 2 * i, BitVec.ofNat 8 (i + 10)), (0x201 + 2 * i, 0x80#8)]) } }
theorem wTableCount (s : State) (st : Nat) (h : s.grn.plots = []) : s.tableCount st = if st = 0 then 16384 else 0 := by
  have e : ∀ n, s.plot n = Plot.free := fun n => by simp [State.plot, h]
  rcases Nat.eq_zero_or_pos st with h0 | h0
  · simp [State.tableCount, e, Plot.free, h0]
  · simp [State.tableCount, e, Plot.free, Nat.ne_of_gt h0, (Nat.ne_of_gt h0).symm]
theorem wAudit (s : State) (h : s.grn.plots = []) (n : Nat)
    (c : [s.rd GRN_COUNT_FREE, s.rd GRN_COUNT_ALLOCATED, s.rd GRN_COUNT_IN_FLIGHT, s.rd GRN_COUNT_RETIRED] = [n, 0, 0, 0]) :
    s.auditPasses = (n == 16384) := by
  have e : ∀ n, s.plot n = Plot.free := fun n => by simp [State.plot, h]
  have t : (List.range 4).map s.tableCount = [16384, 0, 0, 0] := by
    simp [List.range, List.range.loop, wTableCount s _ h]
  by_cases hn : n = 16384 <;> simp [State.auditPasses, t, c, e, Plot.free, hn]
def wPlan (l : List (Nat × Nat × Bytes)) : Plan := ⟨1, 1, 0, false, l⟩
def wRun (l : List (Nat × Nat × Bytes)) : State := { wUp with fpl := { wUp.fpl with plan := some (wPlan l) } }
def wBytes (l : List Nat) : Bytes := l.map (BitVec.ofNat 8)
def wPlateTable : Nat × Nat × Bytes :=
  (0x06, 0, wBytes ([7, 1, 0, 2, 255, 255, 255, 255, 0, 0, 0, 0, 0, 0, 0, 0, 0x10, 0, 0, 0x10, 0, 0x10, 1] ++ List.replicate 9 0))
def wRunPlate : State := wRun [wPlateTable]
def wHead : Bytes := List.replicate 16 0#8
def wFrameRec : Bytes := wHead ++ let b := wBytes ([0x46, 0x52, 1, 0, 9] ++ List.replicate 27 0); putBytes b 28 (toLe 4 (crc32c b))
def wUpdRec : Bytes := wHead ++ let b := wBytes ([0x55, 0x50, 1, 7, 9, 0, 1, 0, 0, 0, 0, 0, 1, 0, 1] ++ List.replicate 15 0); b ++ toLe 2 (crc16 b)
def wBlock : Bytes := wHead ++ (let b := wBytes ([0x53, 0x48, 1, 7, 9, 0, 1, 0, 0, 0, 0, 0, 1, 0, 4, 0, 0, 4] ++ List.replicate 12 0); b ++ toLe 2 (crc16 b)) ++ wBytes [1, 2, 3, 4]
def wUpd : Upd := ⟨1, 9, 0, ⟨0, 0, 1, 1⟩, ⟨0, 0, 0, 0⟩, ⟨0, 0, 1, 1⟩, ⟨0, 0, 0, 0⟩, []⟩
def wSlots : Nat × Nat × Bytes :=
  (0x05, 0, wBytes ((List.replicate 8 [1, 0, 3, 0, 0, 0, 0, 0, 0, 0, 1, 0, 0, 0, 0, 0]).flatten))
def wRunSlots : State := wRun [wPlateTable, wSlots]
def wEntry : FrEntry := ⟨false, false, 0, 1, 1, 0xFFFF, 0xFFFF, 0, 0, ⟨-4, -4, 4, 4⟩⟩
def wRec : PlateRec := plateRec wPlateTable.2.2 0
def wSlotRec : SlotRec := ⟨1, false, 3, 0, 0, 1, 0, 0⟩

/-! Witnesses for the statements about every step. -/
def wQueue : State := { State.reset with pending := [.mbxIdleRelease, .commitPoint] }
theorem wQueue_step : step wQueue = .next { State.reset with pending := [.commitPoint] } := rfl
theorem StepRunsFront.witness : ∃ (s : State) (c : Instr) (rest : List Instr), s.pending = c :: rest :=
  ⟨wQueue, .mbxIdleRelease, [.commitPoint], rfl⟩
theorem StepIdle.witness : ∃ s : State, s.pending = [] := ⟨State.reset, rfl⟩
theorem StepTakesFront.witness : ∃ (s t : State) (c : Instr) (rest : List Instr), s.pending = c :: rest ∧ step s = .next t :=
  ⟨wQueue, _, .mbxIdleRelease, [.commitPoint], rfl, wQueue_step⟩
theorem CommandFrame.witness : ∃ (c : Instr) (s t : State) (b : Block), exec c s = .next t ∧ b ∉ writes c :=
  ⟨.mbxIdleRelease, State.reset, State.reset, .mem, rfl, by decide⟩
theorem StepKeepsMemory.witness : ∃ s t : State, s.memWf = true ∧ step s = .next t := ⟨wQueue, _, by decide +kernel, wQueue_step⟩
theorem StepKeepsRegisters.witness : ∃ s t : State, s.regsWf = true ∧ step s = .next t :=
  ⟨wQueue, _, by decide +kernel, wQueue_step⟩
theorem StepKeepsClaims.witness : ∃ s t : State, s.claimsOk = true ∧ step s = .next t :=
  ⟨wQueue, _, by decide +kernel, wQueue_step⟩
theorem StepKeepsRing.witness : ∃ s t : State, s.ringOk = true ∧ step s = .next t :=
  ⟨wQueue, _, by decide +kernel, wQueue_step⟩
theorem StepKeepsFrame.witness : ∃ s t : State, s.frameOk = true ∧ step s = .next t :=
  ⟨wQueue, _, by decide +kernel, wQueue_step⟩
theorem StepKeepsQuiet.witness : ∃ s t : State, s.quiet = true ∧ step s = .next t := ⟨wQueue, _, rfl, wQueue_step⟩



/-! Witnesses for PlotCommands. -/
namespace PlotCommands
theorem witnesses_1 :
    (∃ (c : Fin 32) (n : Nat) (s : State), s.grnReady = true ∧ s.plotFor c = some n) ∧
    (∃ (c : Fin 32) (s : State), s.grnReady = true ∧ s.plotFor c = none) ∧
    (∃ (c : Fin 32) (s : State), s.grnReady = false) ∧
    (∃ (c : Fin 32) (p : Fin 16384) (k : Nat) (r : Option (Fin 32)) (s : State), (s.plot p).state = 1 ∧ (s.plot p).owner = c ∧ s.inStatic p = false) ∧
    (∃ (c : Fin 32) (p : Fin 16384) (k : Nat) (r : Option (Fin 32)) (s : State), s.inStatic p = true) ∧
    (∃ (p : Fin 16384) (s : State), (s.plot p).state = 2 ∧ (s.plot p).outstanding = 1 ∧ (s.plot p).handTo = 0) ∧
    (∃ (p : Fin 16384) (s : State), (s.plot p).state = 2 ∧ (s.plot p).outstanding ≠ 0 ∧ (((s.plot p).outstanding ≠ 1 ∨ (s.plot p).handTo ≠ 0))) ∧
    (∃ (c : Fin 32) (p : Fin 16384) (s : State), (s.plot p).state = 2 ∧ (s.plot p).handTo = c ∧ c ≠ 0) :=
  ⟨⟨3, 0, wGrn, by decide +kernel⟩,
   ⟨3, { wGrn with fpl := { wGrn.fpl with plan := some ⟨1, 1, 0, false, []⟩ } }, by decide +kernel⟩,
   ⟨3, wUp, by decide +kernel⟩,
   ⟨3, 5, 0, none, wPlot ⟨1, 3, 0, 0⟩, by decide +kernel⟩,
   ⟨3, 5, 0, none, { wPlot ⟨1, 3, 0, 0⟩ with fpl := { wGrn.fpl with plan := some ⟨1, 1, 0, false, [(3, 0, wBytes [1, 0, 0, 0, 0, 0, 0, 0, 0, 0, 0, 0, 0, 0, 0, 0, 1, 1, 0, 0, 0, 64, 1, 0])]⟩ } }, by decide +kernel⟩,
   ⟨5, wPlot ⟨2, 3, 1, 0⟩, by decide +kernel⟩,
   ⟨5, wPlot ⟨2, 3, 2, 0⟩, by decide +kernel⟩,
   ⟨4, 5, wPlot ⟨2, 3, 0, 4⟩, by decide +kernel⟩⟩
theorem witnesses_2 :
    (∃ (p : Fin 16384) (s : State), (s.plot p).state = 2 ∧ (s.plot p).handTo ≠ 0) ∧
    (∃ (s : State), s.grn.waiting = []) ∧
    (∃ (c : Nat) (n : Nat) (s : State), s.grn.waiting = [c] ∧ s.plotFor c = some n) :=
  ⟨⟨5, wPlot ⟨2, 3, 1, 4⟩, by decide +kernel⟩,
   ⟨wGrn, by decide +kernel⟩,
   ⟨3, 0, { wGrn with grn := { wGrn.grn with waiting := [3] } }, by decide +kernel⟩⟩
end PlotCommands

/-! Witnesses for GranaryServiceCommands. -/
namespace GranaryServiceCommands
def wBist : State := { (wUp.wr GBL_STATE 2).sramPut 0x200 (toLe 2 0x8007) with mem := [(0x10000005, 3#8), (0x1000000000, 4#8)], poison := [(0x400001, true)] }

theorem witnesses_1 :
    (∃ (c : Fin 32) (s : State), c.val ∈ s.grn.waiting) ∧
    (∃ (c : Fin 32) (s : State), c.val ∉ s.grn.waiting) ∧
    (∃ (v : Word) (s : State), s.shut .service GRN_SELFTEST_REQ = false ∧ ((∀ q ∈ s.tests, q.kind = 1 → q.idx ≠ s.physOf (v.toNat % 2 ^ 14))) ∧ (s.tests.filter (fun q => q.kind == 1)).length < 32) ∧
    (∃ (v : Word) (s : State), s.shut .service GRN_SELFTEST_REQ = false ∧ ((∀ q ∈ s.tests, q.kind = 1 → q.idx ≠ s.physOf (v.toNat % 2 ^ 14))) ∧ 32 ≤ (s.tests.filter (fun q => q.kind == 1)).length) ∧
    (∃ (v : Word) (q : TestReq) (s : State), s.shut .service GRN_SELFTEST_REQ = false ∧ q ∈ s.tests ∧ q.kind = 1 ∧ q.idx = s.physOf (v.toNat % 2 ^ 14)) ∧
    (∃ (b : Fin 32) (i : Nat) (w : Nat × Nat × Nat) (s : State), s.grn.writeBacks.find? (fun w => w.1 % 32 == b.val) = some w ∧ i < 64 ∧ s.wheelAt b i = 15 ∧ ((∀ c, c < 32 → (s.writeBackOf c).isSome = true → ∀ j, j < i + 1 → s.wheelAt c j = 15 → j = i ∧ b.val ≤ c))) ∧
    (∃ (s : State), s.grn.writeBacks = []) ∧
    (∃ (s : State), s.shut .service GRN_CLIENT_GRANTS = false) :=
  ⟨⟨3, { wGrn with grn := { Grn.init with waiting := [3] } }, by decide +kernel⟩,
   ⟨4, { wGrn with grn := { Grn.init with waiting := [3] } }, by decide +kernel⟩,
   ⟨7#32, { wGrn with tests := [⟨1, 8, true⟩, ⟨2, 7, false⟩] }, by decide +kernel⟩,
   ⟨7#32, { wGrn with tests := (List.range 32).map (fun i => ⟨1, 100 + i, false⟩) }, by decide +kernel⟩,
   ⟨7#32, ⟨1, 7, true⟩, { wGrn with tests := [⟨1, 7, true⟩] }, by decide +kernel⟩,
   ⟨1, 0, (33, 2, 3), { wGrn with grn := { Grn.init with writeBacks := [(3, 4, 5), (33, 2, 3), (1, 2, 3)] } }, by decide +kernel⟩,
   ⟨wGrn, by decide +kernel⟩,
   ⟨{ wGrn with grn := { Grn.init with grants := [(0, 9), (2, 5)] } }, by decide +kernel⟩⟩
theorem witnesses_2 :
    (∃ (fails : List (Fin 16384)) (s : State), s.stageNow = 2 ∧ s.grnReady = false ∧ fails.Nodup ∧ s.retireList.length + (fails.filter (fun f => !s.retireList.contains f.val)).length ≤ 64) ∧
    (∃ (f : Fin 16384) (s : State), s.stageNow = 2 ∧ s.grnReady = false ∧ s.sramFree = true ∧ s.retireList.length < 64) ∧
    (∃ (fails : List (Fin 16384)) (s : State), s.stageNow = 2 ∧ s.grnReady = false ∧ fails.Nodup ∧ 64 < s.retireList.length + (fails.filter (fun f => !s.retireList.contains f.val)).length) ∧
    (∃ (s : State), s.grnReady = true ∧ s.auditPasses = true) ∧
    (∃ (s : State), s.grnReady = true ∧ s.auditPasses = false) ∧
    (∃ (q : TestReq) (sp : Nat) (s : State), s.grnReady = true ∧ s.grn.test = none ∧ s.tests.find? (fun t => t.kind == 1) = some q ∧ (s.plot (s.logicalOf q.idx)).state ≠ 3 ∧ s.spareFor (s.logicalOf q.idx) = some sp ∧ sp ≠ s.logicalOf q.idx) ∧
    (∃ (bad : List (Fin 64 × Fin 8)) (q : TestReq) (s : State), s.grnReady = true ∧ s.grn.test = none ∧ s.tests.find? (fun t => t.kind == 1) = some q ∧ (s.plot (s.logicalOf q.idx)).state ≠ 3 ∧ s.spareFor (s.logicalOf q.idx) = none) ∧
    (∃ (v : Word) (q : PlotTest) (s : State), s.grn.test = some q) :=
  ⟨⟨[7, 9], wBist, by decide +kernel⟩,
   ⟨9, { wBist with sbk := { wBist.sbk with ready := true } }, by decide +kernel⟩,
   ⟨[7], wFullList, by decide +kernel⟩,
   ⟨wGrn, ⟨by decide, by rw [wAudit _ rfl 16384 (by decide)]; rfl⟩⟩,
   ⟨wUp.wr GRN_STATUS 1, ⟨by decide, by rw [wAudit _ rfl 0 (by decide)]; rfl⟩⟩,
   ⟨⟨1, 7, true⟩, 0, { wGrn with tests := [⟨1, 7, true⟩], mem := [(0x10007003, 5#8), (0x10000009, 6#8)], poison := [(0x4001C0, true), (0x400001, true)] }, by decide +kernel⟩,
   ⟨[], ⟨1, 7, true⟩, { wGrn with tests := [⟨1, 7, true⟩], fpl := { wGrn.fpl with plan := some ⟨1, 1, 0, false, [(3, 0, wBytes [1, 0, 0, 0, 0, 0, 0, 0, 0, 0, 0, 0, 0, 0, 0, 0, 1, 1, 0, 0, 0, 64, 0, 0])]⟩ } }, by decide +kernel⟩,
   ⟨5#32, ⟨4, 7, 0, false⟩, { wGrn with grn := { Grn.init with plots := [(0, ⟨2, 0, 0, 0⟩)], test := some ⟨4, 7, 0, false⟩ } }, by decide +kernel⟩⟩
theorem witnesses_3 : ∃ (v : Word) (q : PlotTest) (s : State), s.grn.test = some q := ⟨5#32, ⟨4, 7, 0, false⟩, { wGrn with grn := { Grn.init with plots := [(0, ⟨2, 0, 0, 0⟩)], test := some ⟨4, 7, 0, false⟩ } }, by decide +kernel⟩
end GranaryServiceCommands

/-! Witnesses for GranaryAccess. -/
namespace GranaryAccess
theorem witnesses :
    (∃ (req : GrnReq) (p : Fin 16384) (l : Fin 64) (o : Fin 64) (n : Nat) (d : Bytes) (e : GrnErr) (rivals : List GrnReq) (s : State), s.grnOpen = true ∧ (s.plot p).state ≠ 3 ∧ s.mayAccess req p = true ∧ s.bankServes req (s.physOf p % 32) = true ∧ o + d.length ≤ 64) ∧
    (∃ (req : GrnReq) (p : Fin 16384) (l : Fin 64) (o : Fin 64) (n : Nat) (w : Bool) (rivals : List GrnReq) (s : State), s.grnOpen = true ∧ (s.plot p).state ≠ 3 ∧ s.mayAccess req p = true ∧ s.bankServes req (s.physOf p % 32) = true ∧ s.poisoned (grnBase + p * 4096 + l * 64 + o) = false) ∧
    (∃ (req : GrnReq) (p : Fin 16384) (l : Fin 64) (o : Fin 64) (n : Nat) (w : Bool) (rivals : List GrnReq) (s : State), s.grnOpen = true ∧ (s.plot p).state ≠ 3 ∧ s.mayAccess req p = true ∧ s.bankServes req (s.physOf p % 32) = true ∧ s.poisoned (grnBase + p * 4096 + l * 64 + o) = true) ∧
    (∃ (req : GrnReq) (p : Fin 16384) (l : Fin 64) (o : Fin 64) (n : Nat) (d : Option Bytes) (w : Bool) (e : GrnErr) (rivals : List GrnReq) (s : State), s.grnOpen = true ∧ (s.plot p).state ≠ 3 ∧ s.mayAccess req p = false ∧ s.bankServes req (s.physOf p % 32) = true) ∧
    (∃ (g : Fin 8) (p : Fin 16384) (l : Fin 64) (o : Fin 64) (n : Nat) (d : Option Bytes) (w : Bool) (e : GrnErr) (rivals : List GrnReq) (s : State), s.grnOpen = true ∧ s.engineReaches g (s.physOf p % 32) = false) ∧
    (∃ (req : GrnReq) (p : Fin 16384) (l : Fin 64) (o : Fin 64) (n : Nat) (d : Option Bytes) (w : Bool) (e : GrnErr) (rivals : List GrnReq) (s : State), s.grnOpen = false) :=
  ⟨⟨.engine 4, 5, 2, 8, 3, [1#8, 2#8, 3#8], .corrected 1, [.burin], { wPlot ⟨1, 8, 0, 0⟩ with poison := [((0x10000000 + 5 * 4096) / 64 + 2, true)] }, by decide +kernel⟩,
   ⟨.linkRx 2, 5, 2, 8, 80, false, [], { wPlot ⟨1, 3, 0, 0⟩ with mem := [(0x10005088, 7#8)] }, by decide +kernel⟩,
   ⟨.mgmt, 5, 2, 8, 80, false, [.burin], { wPlot ⟨1, 3, 0, 0⟩ with mem := [(0x10005088, 7#8)], poison := [((0x10000000 + 5 * 4096) / 64 + 2, true)] }, by decide +kernel⟩,
   ⟨.burin, 5, 2, 8, 4, none, false, .clean, [], wPlot ⟨1, 3, 0, 0⟩, by decide +kernel⟩,
   ⟨1, 5, 2, 8, 4, none, false, .clean, [], { wGrn with fpl := { wGrn.fpl with plan := some ⟨1, 1, 0, false, []⟩ } }, by decide +kernel⟩,
   ⟨.mgmt, 5, 2, 8, 4, none, false, .clean, [], wGrn.wr GBL_STATE 2, by decide +kernel⟩⟩
end GranaryAccess

/-! Witnesses for TickCommands. -/
namespace TickCommands
def wTaskPlan : Plan := ⟨1, 1, 0, false, [(0x0B, 0, List.replicate 26 0#8 ++ [1#8] ++ List.replicate 5 0#8)]⟩

theorem witnesses :
    (∃ (l : List (Fin 64)) (s : State), s.ticking = true) ∧
    (∃ (k : Fin 560) (s : State), s.ticking = true ∧ k.val ≤ 540 ∧ s.fpl.slot ≠ slotHeadland ∧ s.fpl.slot ≤ k) ∧
    (∃ (k : Fin 560) (s : State), s.ticking = true ∧ 540 < k.val ∧ s.fpl.slot = slotHeadland) ∧
    (∃ (l : List (Fin 8 × Nat)) (s : State), s.ticking = true ∧ s.fpl.slot ≠ slotHeadland) ∧
    (∃ (m : List (Fin 16 × Mr4)) (s : State), s.ticking = true ∧ s.fpl.slot = 540) ∧
    (∃ (i : Fin 64) (s : State), s.ticking = true ∧ s.fpl.slot = slotHeadland ∧ ⟨i.val, true⟩ ∈ s.fpl.tasks ∧ (s.taskOf i).claimsScheduled = true) ∧
    (∃ (s : State), s.ticking = true ∧ s.fpl.committed = false) ∧
    (∃ (s : State), s.fpl.committed = true) :=
  ⟨⟨[1, 2], { wUp with fpl := { wUp.fpl with slot := 0x3FF, ticked := true, overSlots := [3], committed := true }, now := 5000 }, by decide +kernel⟩,
   ⟨7, { wUp with fpl := { wUp.fpl with slot := 6, running := [4] }, now := 5000 }, by decide +kernel⟩,
   ⟨550, { wUp with fpl := { wUp.fpl with slot := 0x3FF, running := [4] }, now := 5000 }, by decide +kernel⟩,
   ⟨[(5, 9), (2, 70000), (3, 1)], { wUp with fpl := { wUp.fpl with slot := 6, running := [2, 5] } }, by decide +kernel⟩,
   ⟨[(3, ⟨7, 2, false⟩)], { wUp with fpl := { wUp.fpl with slot := 540, running := [4], tasks := [⟨1, false⟩] }, now := 77 }, by decide +kernel⟩,
   ⟨1, { wUp with fpl := { wUp.fpl with slot := 0x3FF, tasks := [⟨1, true⟩], plan := some wTaskPlan } }, by decide +kernel⟩,
   ⟨{ wUp with bnd := { Bnd.init with done := [(0, 3)] }, thr := { Thr.init with rows := [⟨4, true, true, []⟩] } }, by decide +kernel⟩,
   ⟨{ wUp with fpl := { wUp.fpl with committed := true } }, by decide +kernel⟩⟩
end TickCommands

/-! Witnesses for StagingCommands. -/
namespace StagingCommands
theorem witnesses_1 :
    (∃ (v : Word) (s : State), s.shut .service FPL_STAGE_CTRL = false ∧ fld v.toNat 5 4 ≤ 1) ∧
    (∃ (v : Word) (s : State), s.shut .service FPL_STAGE_CTRL = false ∧ 1 < fld v.toNat 5 4) ∧
    (∃ (v : Word) (s : State), s.shut .service FPL_STAGE_CTRL = false) ∧
    (∃ (s : State), s.fpl.stage = .validating) ∧
    (∃ (v : Word) (s : State), s.shut .service FPL_SWITCH_CTRL = false ∧ s.fpl.frame < s.switchAt ∧ s.fpl.stage = .validating) ∧
    (∃ (v : Word) (s : State), s.shut .service FPL_SWITCH_CTRL = false ∧ s.switchAt ≤ s.fpl.frame) ∧
    (∃ (v : Word) (s : State), s.shut .service FPL_SWITCH_CTRL = false ∧ s.fpl.stage = .validating) ∧
    (∃ (v : Word) (s : State), s.shut .service FPL_SWITCH_CTRL = false ∧ s.fpl.stage = .valid ∧ ((s.fpl.stageCold = true → bit v.toNat 3 = 1))) :=
  ⟨⟨0x11#32, wUp, by decide +kernel⟩,
   ⟨0x21#32, wUp, by decide +kernel⟩,
   ⟨2#32, wUp, by decide +kernel⟩,
   ⟨{ wUp with fpl := { wUp.fpl with stage := .validating, stageBytes := List.replicate 64 0#8 } }, by decide +kernel⟩,
   ⟨1#32, { wUp.wr FPL_SWITCH_AT_LO 1 with fpl := { wUp.fpl with stage := .validating } }, by decide +kernel⟩,
   ⟨1#32, wUp, by decide +kernel⟩,
   ⟨2#32, { wUp with fpl := { wUp.fpl with stage := .validating } }, by decide +kernel⟩,
   ⟨0xA#32, { wUp with fpl := { wUp.fpl with stage := .valid, stageCold := true } }, by decide +kernel⟩⟩
theorem witnesses_2 :
    (∃ (v : Word) (s : State), s.shut .service FPL_SWITCH_CTRL = false) ∧
    (∃ (s : State), s.fpl.coldBusy = true) ∧
    (∃ (s : State), s.shut .service FPL_FRAME_LO = false) :=
  ⟨⟨4#32, wUp, by decide +kernel⟩,
   ⟨{ wUp with fpl := { wUp.fpl with coldBusy := true } }, by decide +kernel⟩,
   ⟨{ wUp with fpl := { wUp.fpl with frame := 2^40 + 5 } }, by decide +kernel⟩⟩
end StagingCommands

/-! Witnesses for SheafCommands. -/
namespace SheafCommands
theorem witnesses :
    (∃ (p : Fin 4) (m : Bytes) (s : State), s.fpl.plan.isSome = true ∧ frameRecordOk (m.drop 16) = true ∧ ((∀ c, s.plt.cand = some c → (frameRecord (m.drop 16)).resync = true ∨ s.rdF PLT_STATUS 4 4 = 1 ∨ newer 16 (frameRecord (m.drop 16)).tag c.tag = true))) ∧
    (∃ (p : Fin 4) (m : Bytes) (k : Nat) (r : PlateRec) (s : State), s.fpl.plan.isSome = true ∧ updateRecordOk (m.drop 16) = true ∧ byteAt (m.drop 16) 24 < 3 ∧ s.plt.cand = none ∧ s.plateOfId (byteAt (m.drop 16) 3) = some k ∧ s.plateRec k = some r ∧ newer 16 (leAt (m.drop 16) 6 2) (s.plateSt k).applied = true ∧ (s.plateSt k).gone = [] ∧ ((∀ u ∈ (s.plateSt k).upds, u.seq ≠ leAt (m.drop 16) 6 2))) ∧
    (∃ (p : Fin 4) (m : Bytes) (k : Nat) (r : PlateRec) (s : State), s.fpl.plan.isSome = true ∧ updateRecordOk (m.drop 16) = true ∧ s.quiet = true ∧ s.plateOfId (byteAt (m.drop 16) 3) = some k ∧ s.plateRec k = some r ∧ newer 16 (leAt (m.drop 16) 6 2) (s.plateSt k).applied = false) ∧
    (∃ (p : Fin 4) (m : Bytes) (k : Nat) (i : Nat) (r : PlateRec) (u : Upd) (s : State), s.fpl.plan.isSome = true ∧ sheafHeaderOk (m.drop 16) = true ∧ s.blockNeeded (m.drop 16) = true ∧ s.plt.cand = none ∧ s.plateOfId (byteAt (m.drop 16) 3) = some k ∧ s.plateRec k = some r ∧ newer 16 (leAt (m.drop 16) 6 2) (s.plateSt k).applied = true ∧ (s.plateSt k).upds.find? (fun v => v.seq == leAt (m.drop 16) 6 2) = some u ∧ u.tag = leAt (m.drop 16) 4 2 ∧ formatMatches r (m.drop 16) = true ∧ u.got = [] ∧ (if byteAt (m.drop 16) 12 = 2 then u.expQ else u.expT).has (toS 16 (leAt (m.drop 16) 8 2)) (toS 16 (leAt (m.drop 16) 10 2)) = true ∧ s.freeSlot k r = some i) ∧
    (∃ (p : Fin 4) (m : Bytes) (s : State), s.fpl.plan.isSome = true ∧ sheafHeaderOk (m.drop 16) = false ∧ s.quiet = true) ∧
    (∃ (s : State), s.shut .service PLT_CTRL = false) ∧
    (∃ (s : State), s.shut .service PLT_CTRL = false) :=
  ⟨⟨1, wFrameRec, wRunPlate, ⟨by decide, by decide +kernel, fun _ h => by cases h⟩⟩,
   ⟨1, wUpdRec, 0, plateRec wPlateTable.2.2 0, wRunPlate, by decide +kernel⟩,
   ⟨1, wUpdRec, 0, plateRec wPlateTable.2.2 0, wRunPlate.setPlate 0 { PlateSt.init with applied := 1 }, by decide +kernel⟩,
   ⟨1, wBlock, 0, 0, plateRec wPlateTable.2.2 0, wUpd, wRunPlate.setPlate 0 { PlateSt.init with upds := [wUpd] }, by decide +kernel⟩,
   ⟨1, wHead, wRunPlate, by decide +kernel⟩,
   ⟨wUp, by decide +kernel⟩,
   ⟨wUp, by decide +kernel⟩⟩
end SheafCommands

/-! Witnesses for PublicationCommands. -/
namespace PublicationCommands
theorem witnesses :
    (∃ (k : Fin 32) (r : PlateRec) (e : FrEntry) (u : Upd) (s : State), s.plateRec k = some r ∧ s.plt.cand.isSome = true ∧ (s.plateSt k).entry = some e ∧ (s.plateSt k).copying = false ∧ s.frozen = false ∧ (s.plateSt k).gone = [] ∧ (s.plateSt k).upds = [u] ∧ u.seq = succW 16 (s.plateSt k).applied ∧ u.complete = true ∧ later 16 u.seq e.last = false) ∧
    (∃ (k : Fin 32) (s : State), ((∀ v ∈ (s.plateSt k).upds, v.complete = false)) ∧ (s.plateSt k).gone = []) ∧
    (∃ (k : Fin 32) (s : State), (s.plateSt k).copying = true ∧ (s.plateSt k).gone = [] ∧ ((∀ v ∈ (s.plateSt k).upds, v.complete = false))) :=
  ⟨⟨0, wRec, wEntry, { wUpd with kind := 1, expT := ⟨0, 0, 0, 0⟩ }, { wRunPlate with plt := { Plt.init with cand := some ⟨9, 0, 0, 0, false, [(7, wEntry)]⟩, plates := [(0, { PlateSt.init with entry := some wEntry, upds := [{ wUpd with kind := 1, expT := ⟨0, 0, 0, 0⟩ }] })] } }, by decide +kernel⟩,
   ⟨0, wRunPlate.setPlate 0 { PlateSt.init with upds := [wUpd] }, ⟨fun _ h => by rw [List.mem_singleton.mp h]; decide, rfl⟩⟩,
   ⟨0, wRunPlate.setPlate 0 { PlateSt.init with upds := [wUpd], copying := true }, ⟨rfl, rfl, fun _ h => by rw [List.mem_singleton.mp h]; decide⟩⟩⟩
end PublicationCommands

/-! Witnesses for FurrowDataCommands. -/
namespace FurrowDataCommands
def wSlots2 : Nat × Nat × Bytes :=
  (0x05, 0, wBytes ((List.replicate 8 [1, 0, 2, 0, 0, 0, 0, 0, 0, 0, 1, 0, 0, 0, 0, 0]).flatten))
def wRunSlots2 : State := wRun [wPlateTable, wSlots2]
def wSlotRec2 : SlotRec := ⟨1, false, 2, 0, 0, 1, 0, 0⟩

theorem witnesses :
    (∃ (k : Fin 560) (l : Nat) (ch : List (Nat × DramCheck)) (r : SlotRec) (s : State), s.liveRecord k 6 = some r) ∧
    (∃ (n : Nat) (f : Bool) (s : State), s.thr.rows.any (fun x => x.row == n && x.fill == f) = true) ∧
    (∃ (k : Fin 560) (r : SlotRec) (i : Nat) (x : StagedRow) (s : State), s.liveRecord k 0 = some r ∧ s.thr.reqs = [] ∧ (setBits 32 r.plates).find? (fun j => bit (s.livePlates (r.op == opFill) r.target) j == 1) = some i ∧ s.thr.rows.find? (fun y => y.offers ⟨r.target, r.op == opFill, r.plates, r.wait⟩ i) = some x) ∧
    (∃ (k : Fin 560) (r : SlotRec) (i : Nat) (s : State), s.liveRecord k 0 = some r ∧ s.thr.reqs = [] ∧ (setBits 32 r.plates).find? (fun j => bit (s.livePlates (r.op == opFill) r.target) j == 1) = some i ∧ ((∀ y ∈ s.thr.rows, y.offers ⟨r.target, r.op == opFill, r.plates, r.wait⟩ i = false))) ∧
    (∃ (k : Fin 560) (r : SlotRec) (s : State), s.liveRecord k 0 = some r ∧ s.thr.reqs = [] ∧ (setBits 32 r.plates).find? (fun j => bit (s.livePlates (r.op == opFill) r.target) j == 1) = none) ∧
    (∃ (p : Fin 8) (q : Nat) (n : Nat) (w : Nat) (f : Bool) (b : StagedBlk) (r : PlateRec) (s : State), s.thr.pipes.find? (fun x => x.1 == p.val) = some (q, f, b, w) ∧ s.plateRecFor f b.plate = some r) ∧
    (∃ (k : Fin 560) (r : SlotRec) (s : State), s.liveRecord k 1 = some r ∧ s.bnd.reqs = [] ∧ ((∀ e ∈ s.bwPlates (r.op == opFill) r.plates, e.2.1.scaled = false))) ∧
    (∃ (b : RouteBlk) (l : List RouteBlk) (s : State), s.thr.route = b :: l) :=
  ⟨⟨0, 5, [(0x1000000000, .corrected false)], wSlotRec, { wRunSlots with thr := { Thr.init with rows := [⟨3, false, true, [⟨0, false, 0, 0, 1, 0, 0, 0⟩, ⟨5, false, 0, 0, 1, 0, 0, 0⟩]⟩, ⟨4, false, true, []⟩] } }, by decide +kernel⟩,
   ⟨3, false, { wRunSlots with thr := { Thr.init with rows := [⟨3, false, false, []⟩] }, fpl := { wRunSlots.fpl with running := [6, 0] } }, by decide +kernel⟩,
   ⟨0, wSlotRec2, 0, ⟨2, false, false, [⟨0, false, 0, 0, 1, 0, 0, 0⟩, ⟨5, false, 0, 0, 1, 0, 0, 0⟩]⟩, { wRunSlots2 with thr := { Thr.init with rows := [⟨2, false, false, [⟨0, false, 0, 0, 1, 0, 0, 0⟩, ⟨5, false, 0, 0, 1, 0, 0, 0⟩]⟩] } }, by decide +kernel⟩,
   ⟨0, wSlotRec2, 0, { wRunSlots2 with thr := { Thr.init with rows := [⟨2, true, true, [⟨0, false, 0, 0, 1, 0, 0, 0⟩]⟩] } }, by decide +kernel⟩,
   ⟨0, wSlotRec, wRun [wSlots], by decide +kernel⟩,
   ⟨2, 2, 40, 0, false, ⟨0, false, 0, 0, 1, 0, 0, 0⟩, wRec, { wRunSlots with thr := { Thr.init with pipes := [(2, false, ⟨0, false, 0, 0, 1, 0, 0, 0⟩, 0)] } }, by decide +kernel⟩,
   ⟨0, wSlotRec, wRun [(0x06, 0, modAt wPlateTable.2.2 3 (fun _ => 0#8)), wSlots], by decide +kernel⟩,
   ⟨⟨0, false, 0, 0, false, List.replicate 1024 0#8⟩, [], { wRunSlots with thr := { Thr.init with route := [⟨0, false, 0, 0, false, List.replicate 1024 0#8⟩] } }, by decide +kernel⟩⟩
end FurrowDataCommands

/-! Witnesses for JobCommands. -/
namespace JobCommands
def wJobDesc : Bytes := modAt (modAt (modAt (List.replicate 64 0#8) 0 (fun _ => 1#8)) 24 (fun _ => 1#8)) 26 (fun _ => 1#8)
def wEncDesc : Bytes := wBytes ([1, 4, 15, 0, 0, 0, 0, 0, 0, 0, 0, 16, 0, 0, 0, 0, 0, 16, 0, 16, 0, 0, 0, 0, 3] ++ List.replicate 8 0 ++ [16] ++ List.replicate 30 0)
def wDecDesc : Bytes := wBytes ([2, 0, 15, 0, 0, 0, 0, 0, 0, 0, 0, 16, 0, 0, 0, 0, 0, 16, 0, 16, 0, 0, 0, 0, 64] ++ List.replicate 8 0 ++ [16] ++ List.replicate 30 0)
def wJob : State := { (((((wGrn.wr THR_CTRL 1).wr THR_JOB_RING_SIZE 8).wr THR_JOB_TAIL 1).wr THR_JOB_RING_LO 0x10000000).wr GRN_STATUS 1) with mem := [(0x10000000, 1#8), (0x10000018, 1#8), (0x1000001A, 1#8)], fpl := { wUp.fpl with claims := [⟨2, 8, 3⟩] } }

theorem witnesses :
    (∃ (v : Word) (s : State), s.shut .service THR_JOB_TAIL = false) ∧
    (∃ (p : Fin 10) (i : Nat) (d : Bytes) (s : State), s.jobWaiting = some (i, d) ∧ jobOk d = true ∧ s.rangeMay s.jobClient (s.jobRing + 64 * i) 64 = true ∧ s.rangePoisoned (s.jobRing + 64 * i) 64 = false ∧ decide (8 ≤ p.val) = (byteAt d 0 == 1) ∧ s.pipeFor i p = true ∧ s.thr.pipeFree p = true ∧ (i + 1) % s.jobRingSize = s.rdF THR_JOB_TAIL 9 0) ∧
    (∃ (p : Fin 10) (j : ThrJob) (s : State), s.thr.jobs = [j] ∧ j.pipe = p ∧ j.abort = true ∧ s.quiet = true ∧ s.thr.ended = [] ∧ s.hgl.ckpt = none ∧ s.rangeMay s.jobClient (s.jobRing + 64 * j.idx + 40) 12 = true) ∧
    (∃ (p : Fin 10) (j : ThrJob) (s : State), s.thr.jobs.find? (fun k => k.pipe == p.val) = some j ∧ j.abort = false ∧ byteAt j.desc 0 = 2 ∧ s.hgl.ckpt = none ∧ j.src < leAt j.desc 24 4 ∧ s.rangeMay s.jobClient (s.jobSpan j).1 (s.jobSpan j).2 = true ∧ s.rangePoisoned (s.jobSpan j).1 (s.jobSpan j).2 = false ∧ (s.jobDecoded j).fail = none ∧ j.out + (s.jobDecoded j).out.length ≤ leAt j.desc 32 4 ∧ s.rangeMay s.jobClient j.dst (s.jobDecoded j).out.length = true) ∧
    (∃ (p : Fin 10) (j : ThrJob) (s : State), s.thr.jobs.find? (fun k => k.pipe == p.val) = some j ∧ j.abort = false ∧ byteAt j.desc 0 = 1 ∧ s.hgl.ckpt = none ∧ j.blocks < jobBlocks j.desc ∧ ((∀ q ∈ jobSource j.desc j.blocks, s.rangeMay s.jobClient q.1 q.2 = true ∧ s.rangePoisoned q.1 q.2 = false)) ∧ j.out + (encodeSheaf j.desc j.blocks (s.jobChunk j)).length ≤ leAt j.desc 32 4 ∧ s.rangeMay s.jobClient j.dst (encodeSheaf j.desc j.blocks (s.jobChunk j)).length = true) ∧
    (∃ (s : State), s.shut .service THR_CTRL = false) ∧
    (∃ (v : Word) (s : State), s.shut .service THR_JOB_RING_SIZE = false) :=
  ⟨⟨0x7FF#32, wUp, by decide +kernel⟩,
   ⟨8, 0, wJobDesc, wJob, by decide +kernel⟩,
   ⟨8, ⟨0, wBytes [1] ++ List.replicate 63 0#8, 8, 2, 0, 64, true⟩, { ((wGrn.wr THR_JOB_RING_LO 0x10000000).wr GRN_STATUS 1) with thr := { Thr.init with jobs := [⟨0, wBytes [1] ++ List.replicate 63 0#8, 8, 2, 0, 64, true⟩] } }, by decide +kernel⟩,
   ⟨2, ⟨0, wDecDesc, 2, 0, 0, 0, false⟩, { wJob with thr := { Thr.init with jobs := [⟨0, wDecDesc, 2, 0, 0, 0, false⟩] }, mem := (encodeSheaf wEncDesc 0 [1#8, 2#8, 3#8]).mapIdx (fun i b => (0x10000000 + i, b)) |>.filter (fun c => c.2 != 0#8) }, by decide +kernel⟩,
   ⟨8, ⟨0, wEncDesc, 8, 0, 0, 0, false⟩, { wJob with thr := { Thr.init with jobs := [⟨0, wEncDesc, 8, 0, 0, 0, false⟩] } }, by decide +kernel⟩,
   ⟨wUp, by decide +kernel⟩,
   ⟨0x10#32, wUp, by decide +kernel⟩⟩
end JobCommands

/-! Witnesses for DrillCommands. -/
namespace DrillCommands
def wHeadRow : Bytes := wBytes ((List.replicate 8 [2, 0, 3, 0, 0, 0, 0, 0, 0, 0, 1, 0, 0, 0, 0, 0]).flatten)
def wHeadRec : SlotRec := ⟨2, false, 3, 0, 0, 1, 0, 0⟩
def wHeadRun : State := wRun [(0x05, 0, List.replicate (128 * 541) 0#8 ++ wHeadRow)]
theorem wByte (l : Bytes) (n k : Nat) : byteAt (List.replicate n 0#8 ++ l) (n + k) = byteAt l k := by
  rw [byteAt, byteAt, List.getD_append_right _ _ _ _ (by simp), List.length_replicate, Nat.add_sub_cancel_left]
theorem wLe (l : Bytes) (n k m : Nat) : leAt (List.replicate n 0#8 ++ l) (n + k) m = leAt l k m := by
  have h : (List.replicate n 0#8 ++ l).drop (n + k) = l.drop k := by
    simp [List.drop_append]
  rw [leAt, leAt, sub, sub, h]
theorem wSlotRec_at (l : Bytes) (n e : Nat) : slotRec (List.replicate (128 * n) 0#8 ++ l) n e = slotRec l 0 e := by
  simp only [slotRec, Nat.add_assoc, wByte, wLe, Nat.mul_zero, Nat.zero_add]
theorem wHead_live : wHeadRun.liveRecord (541 : Fin 560) 2 = some wHeadRec := by
  have h : wHeadRun.slotRecord (541 : Fin 560) 2 = wHeadRec :=
    (wSlotRec_at wHeadRow 541 2).trans (by decide +kernel)
  rw [State.liveRecord, h]
  rfl
def wCols : Nat × Nat × Bytes := (0x02, 0, wBytes ((List.range 24).flatMap (fun d => [40 * d % 256, 40 * d / 256, 40, 0])))
def wReach : State := { (wRun [wPlateTable, wSlots, wCols]) with
  drl := { Drl.init with furrow := some 3, set := 1, laneRay := [(5, 1017)], reach := (List.range 34).map (fun i => (reachKey 0 0 (6 + i), (6 + i, [0, 0]))) }
  fpl := { (wRun [wPlateTable, wSlots, wCols]).fpl with slot := 0 }
  hgl := { Hgl.init with pref := [(3, [HglEntry.neutral])] } }

theorem witnesses_1 :
    (∃ (k : Fin 560) (r : SlotRec) (s : State), s.liveRecord k 2 = some r ∧ k.val < 541) ∧
    (∃ (k : Fin 560) (r : SlotRec) (s : State), s.liveRecord k 2 = some r ∧ 541 ≤ k.val) ∧
    (∃ (d : Fin 24) (k : Fin 560) (s : State), k.val < 539 ∧ s.fpl.rep = false) ∧
    (∃ (d : Fin 24) (k : Fin 560) (s : State), 541 ≤ k.val ∧ s.drl.priming = true) ∧
    (∃ (hx : Fin 960) (dir : Fin 144) (l : Fin 9) (sp : Bool) (n : Nat) (f : Nat) (d : Nat) (hs : List HglEntry) (s : State), s.drl.furrow = some f ∧ s.drillOf hx = some d ∧ s.hglOf f = some hs ∧ s.reachHas d s.furrowPlates f = true ∧ s.reliefHas s.furrowPlates f = true ∧ s.rayOf d l = some (144 * (hx - (s.drillCols d).1) + dir)) ∧
    (∃ (hx : Fin 960) (dir : Fin 144) (l : Fin 9) (sp : Bool) (n : Nat) (f : Nat) (d : Nat) (hs : List HglEntry) (s : State), s.drl.furrow = some f ∧ s.drillOf hx = some d ∧ s.hglOf f = some hs ∧ s.reachHas d s.furrowPlates f = true ∧ s.reliefHas s.furrowPlates f = true ∧ s.rayOf d l = some (144 * (hx - (s.drillCols d).1) + dir)) ∧
    (∃ (v : Word) (s : State), s.shut .service DRL_LANE_TEST = false ∧ fld v.toNat 3 0 < 9 ∧ s.rdF DRL_LANE_SEL 4 0 < 24 ∧ ((∀ q ∈ s.tests, q.kind = 4 → q.idx ≠ 9 * s.rdF DRL_LANE_SEL 4 0 + fld v.toNat 3 0))) ∧
    (∃ (i : Fin 216) (v : Word) (q : TestReq) (s : State), s.tests.find? (fun t => t.kind == 4 && t.idx == i.val) = some q ∧ bit (s.lanesOf (i / 9)).failed (i % 9) = 0) :=
  ⟨⟨0, wSlotRec, wRunSlots, by decide +kernel⟩,
   ⟨541, wHeadRec, wHeadRun, wHead_live, by decide⟩,
   ⟨0, 3, wRunSlots, by decide +kernel⟩,
   ⟨0, 541, { wRunSlots with drl := { Drl.init with priming := true } }, by decide +kernel⟩,
   ⟨7, 9, 5, false, 100, 3, 0, [HglEntry.neutral], wReach, by decide +kernel⟩,
   ⟨7, 9, 5, false, 100, 3, 0, [HglEntry.neutral], wReach, by decide +kernel⟩,
   ⟨0x8#32, wUp, by decide +kernel⟩,
   ⟨9, 5#32, ⟨4, 9, false⟩, { wUp with tests := [⟨4, 9, false⟩] }, by decide +kernel⟩⟩
theorem witnesses_2 : ∃ (i : Fin 216) (v : Word) (q : TestReq) (s : State), s.tests.find? (fun t => t.kind == 4 && t.idx == i.val) = some q := ⟨215, 5#32, ⟨4, 215, true⟩, { wUp with tests := [⟨4, 215, true⟩] }, by decide +kernel⟩
end DrillCommands

/-! Witnesses for ToneMapCommands. -/
namespace ToneMapCommands
theorem witnesses_1 :
    (∃ (v : Word) (s : State), s.shut .service DRL_TM_ARM = false) ∧
    (∃ (v : Word) (s : State), s.shut .service DRL_TM_ARM = false) ∧
    (∃ (v : Word) (s : State), s.shut .service DRL_TM_LOAD_HI = false ∧ s.tmLocked = false) ∧
    (∃ (v : Word) (s : State), s.shut .service DRL_TM_LOAD_HI = false ∧ s.tmLocked = true ∧ s.quiet = true) ∧
    (∃ (s : State), s.rdF DRL_TM_STATUS 2 2 = 1 ∧ s.quiet = true) ∧
    (∃ (s : State), s.shut .service DRL_TM_DATA = false) ∧
    (∃ (v : Word) (s : State), s.shut .service DRL_TM_DATA = false ∧ s.tmLocked = false) ∧
    (∃ (g : Fin 7) (v : Word) (b : TmBank) (s : State), s.shut .service (tmBankRegs.getD g.val 0) = false ∧ s.tmLocked = false ∧ s.tmInactive.write (tmBankRegs.getD g 0) v.toNat = some b) :=
  ⟨⟨0xFFFF8001#32, wUp, by decide +kernel⟩,
   ⟨0x4#32, wUp.wr DRL_TM_STATUS 0xA, by decide +kernel⟩,
   ⟨0x1#32, wUp, by decide +kernel⟩,
   ⟨0x1#32, wUp.wr DRL_TM_STATUS 4, by decide +kernel⟩,
   ⟨wUp.wr DRL_TM_STATUS 4, by decide +kernel⟩,
   ⟨wUp, by decide +kernel⟩,
   ⟨0x80010001#32, wUp.wr DRL_TM_ADDR 1022, by decide +kernel⟩,
   ⟨1, 0x3C00#32, { (wUp.tmInactive) with white := 0x3C00 }, wUp, by decide +kernel⟩⟩
theorem witnesses_2 : ∃ (g : Fin 7) (v : Word) (s : State), s.shut .service (tmBankRegs.getD g.val 0) = false ∧ s.tmLocked = true ∧ s.quiet = true := ⟨6, 0#32, wUp.wr DRL_TM_STATUS 2, by decide +kernel⟩
end ToneMapCommands

/-! Witnesses for HogelTableCommands. -/
namespace HogelTableCommands
def wFactory : State :=
  { wUp with flash0 := (toLe 8 Config.fusedId.toNat).mapIdx (fun i b => (hglFactoryAt + 8 + i, b)) }
theorem wLe_toLe (n v : Nat) : le (toLe n v) = v % 256 ^ n := by
  induction n generalizing v with
  | zero => rw [toLe, le, Nat.pow_zero, Nat.mod_one]
  | succ n ih => rw [toLe, le, ih, BitVec.toNat_ofNat, show 256 ^ (n + 1) = 256 * 256 ^ n from Nat.pow_succ', Nat.mod_mul]
theorem wHeader (s : State) (h : s.flash0 = wFactory.flash0) : leAt (s.imageHeader kindFactory) 8 8 = Config.fusedId.toNat := by
  have e : sub (s.imageHeader kindFactory) 8 8 = toLe 8 Config.fusedId.toNat := by
    have g : ∀ m : List Host.Cell, sub ((List.range 8192).map (fun i => sget 0xFF#8 m (hglFactoryAt + i))) 8 8 =
        (List.range 8).map (fun i => sget 0xFF#8 m (hglFactoryAt + 8 + i)) := by
      intro m
      apply List.ext_getElem
      · simp [sub]
      · intro i h1 h2
        simp [sub, Nat.add_assoc]
    rw [State.imageHeader, State.flashGet]
    simp only [imageAt, if_pos]
    rw [g, h]
    rfl
  rw [leAt, e, wLe_toLe]
  exact Nat.mod_eq_of_lt Config.fusedId.isLt
theorem wStage (s : State) (h : s.flash0 = wFactory.flash0) : ∃ r, (s.stageTable kindFactory).2 = some r := by
  unfold State.stageTable
  simp only [decide_true, Bool.true_or, if_true]
  rw [if_neg (by rw [wHeader s h]; exact fun c => c rfl)]
  exact ⟨_, rfl⟩
theorem wStageCurrent (s : State) (h : s.flash0 = wFactory.flash0) (g : headerGood (s.imageHeader kindCurrent) kindCurrent = false) :
    ∃ r, (s.stageTable kindCurrent).2 = some r := by
  have hr : (s.report Ev.HGL_ROW_FROM_FACTORY [0x3FF]).flash0 = wFactory.flash0 := by rw [State.report_flash0, h]
  unfold State.stageTable
  rw [g]
  simp only [show (kindCurrent = kindFactory) = False from by decide, decide_false, Bool.false_or, Bool.false_eq_true, if_false]
  rw [if_neg (by rw [wHeader _ hr]; exact fun c => c rfl)]
  exact ⟨_, rfl⟩

theorem witnesses :
    (∃ (r : Reload) (s : State), s.shut .service HGL_CTRL = false ∧ (s.opened.stageTable kindCurrent).2 = some r) ∧
    (∃ (r : Reload) (s : State), s.shut .service HGL_CTRL = false ∧ (s.opened.stageTable kindFactory).2 = some r) ∧
    (∃ (k : Fin 560) (r : SlotRec) (s : State), s.liveRecord k 7 = some r) ∧
    (∃ (k : Nat) (n : Nat) (l : List (Nat × Nat)) (s : State), s.hgl.rewrite = (k, n) :: l) ∧
    (∃ (k : Nat) (n : Nat) (l : List (Nat × Nat)) (s : State), s.hgl.rewrite = (k, n) :: l ∧ s.quiet = true) ∧
    (∃ (s : State), s.shut .service HGL_STRESS_FRAMES_LO = false) ∧
    (∃ (s : State), s.shut .service HGL_CURVE_DATA = false ∧ s.rdF HGL_CURVE_ADDR 11 10 < 3) :=
  ⟨(wStageCurrent wFactory.opened rfl (by decide +kernel)).elim fun r h => ⟨r, wFactory, by decide +kernel, h⟩,
   (wStage wFactory.opened rfl).elim fun r h => ⟨r, wFactory, by decide +kernel, h⟩,
   ⟨0, wSlotRec, wRunSlots, by decide +kernel⟩,
   ⟨3, 0, [(0, 0)], { wUp with hgl := { Hgl.init with rewrite := [(3, 0), (0, 0)], dirty := [7] } }, by decide +kernel⟩,
   ⟨3, 1, [(0, 0)], { wUp with hgl := { Hgl.init with rewrite := [(3, 1), (0, 0)] } }, by decide +kernel⟩,
   ⟨wUp, by decide +kernel⟩,
   ⟨wUp.wr HGL_CURVE_ADDR 0xBFF, by decide +kernel⟩⟩
end HogelTableCommands

/-! Witnesses for AgeingCommands. -/
namespace AgeingCommands
def wCkpt : Ckpt := ⟨0xFFFFFFFF, 0x30000, 7, 8, [], 256, none, none⟩
def wSenseRes : Bytes := panelPacket 8 2 0 0 0 1 (wBytes [5, 0xFF, 0x0F, 0])
def wSenseReq : SenseReq := ⟨130, 7, 1, 5, false⟩

theorem witnesses :
    (∃ (s : State), 256 ≤ s.hgl.win.f ∧ s.hgl.folding = false) ∧
    (∃ (s : State), 256 ≤ s.hgl.win.f ∧ s.hgl.folding = true ∧ s.hgl.lateSaid = false ∧ s.quiet = true) ∧
    (∃ (s : State), s.hgl.folding = true ∧ s.rdF HGL_CTRL 3 3 = 1) ∧
    (∃ (s : State), s.shut .service HGL_CTRL = false) ∧
    (∃ (k : Ckpt) (s : State), s.hgl.ckpt = some k ∧ 256 ≤ k.portions) ∧
    (∃ (k : Ckpt) (e : Bool) (s : State), s.hgl.ckpt = some k ∧ 256 ≤ k.portions ∧ s.quiet = true) ∧
    (∃ (l : Fin 2) (b : Bytes) (q : SenseReq) (s : State), returnOk b = true ∧ byteAt b 0 % 16 = 8 ∧ byteAt b 10 = 1 ∧ leAt b 4 2 = 4 ∧ s.etc.sense.find? (fun q => q.tag == byteAt b 16 && !q.done && q.hx / 60 == byteAt b 1 % 16) = some q) :=
  ⟨⟨{ wUp with hgl := { Hgl.init with win := { FoldWin.init with f := 256 } } }, by decide +kernel⟩,
   ⟨{ wUp with hgl := { Hgl.init with win := { FoldWin.init with f := 65535 }, folding := true } }, by decide +kernel⟩,
   ⟨{ (wUp.wr HGL_CTRL 0x28) with hgl := { Hgl.init with folding := true, foldNext := 255 } }, by decide +kernel⟩,
   ⟨wUp, by decide +kernel⟩,
   ⟨wCkpt, { wUp with hgl := { Hgl.init with ckpt := some wCkpt } }, by decide +kernel⟩,
   ⟨wCkpt, true, { wUp with hgl := { Hgl.init with ckpt := some wCkpt } }, by decide +kernel⟩,
   ⟨1, wSenseRes, wSenseReq, { wUp with etc := { Etc.init with sense := [wSenseReq] } }, by decide +kernel⟩⟩
end AgeingCommands

/-! Witnesses for SupplySequence. -/
namespace SupplySequence
def wSup (v : Nat) (q : SupSeq) : State := { (wUp.wrF ETC_SUPPLY_STATUS 2 0 v) with etc := { Etc.init with seq := q } }
def wDrv (s : State) : State := (List.range 16).foldl (fun s m => s.wr (LNE_PL_CTRL m) 0) s

theorem witnesses_1 :
    (∃ (s : State), s.shut .service ETC_SUPPLY_CTRL = false ∧ (s.supState = supOff ∨ s.supState = supRetry) ∧ s.panelLost = false ∧ s.driversReady = true) ∧
    (∃ (s : State), s.shut .service ETC_SUPPLY_CTRL = false ∧ (s.supState = supLockout ∨ s.driversReady = false)) ∧
    (∃ (s : State), s.supState = supRetry ∧ s.panelLost = false ∧ s.driversReady = true) ∧
    (∃ (s : State), s.shut .service ETC_SUPPLY_CTRL = false ∧ s.supState ≠ supLockout ∧ s.supState ≠ supDown ∧ s.panelLost = false) ∧
    (∃ (s : State), s.shut .service ETC_SUPPLY_CTRL = false ∧ s.supState = supLockout) ∧
    (∃ (g : Fin 4) (s : State), s.etc.seq = .waitPgood g) ∧
    (∃ (g : Nat) (s : State), s.etc.seq = .waitSeq g ∧ g < 3) ∧
    (∃ (s : State), s.etc.seq = .waitSeq 3) :=
  ⟨⟨wDrv (wSup 0 .idle), by decide +kernel⟩,
   ⟨wSup 5 .idle, by decide +kernel⟩,
   ⟨wDrv (wSup 4 .idle), by decide +kernel⟩,
   ⟨wSup 2 .idle, by decide +kernel⟩,
   ⟨wSup 5 .idle, by decide +kernel⟩,
   ⟨3, wSup 1 (.waitPgood 3), by decide +kernel⟩,
   ⟨2, wSup 1 (.waitSeq 2), by decide +kernel⟩,
   ⟨wSup 1 (.waitSeq 3), by decide +kernel⟩⟩
theorem witnesses_2 :
    (∃ (g : Nat) (s : State), s.etc.seq = .downSeq g ∧ 0 < g ∧ g < 4) ∧
    (∃ (s : State), s.etc.seq = .downSeq 0 ∧ s.etc.after ≠ .up) ∧
    (∃ (s : State), s.etc.seq = .downSeq 0 ∧ s.etc.after = .up ∧ s.panelLost = false ∧ s.driversReady = true) :=
  ⟨⟨2, wSup 3 (.downSeq 2), by decide +kernel⟩,
   ⟨{ (wSup 3 (.downSeq 0)) with etc := { Etc.init with seq := .downSeq 0, after := .retry } }, by decide +kernel⟩,
   ⟨{ wDrv (wSup 3 (.downSeq 0)) with etc := { Etc.init with seq := .downSeq 0, after := .up } }, by decide +kernel⟩⟩
end SupplySequence

/-! Witnesses for SupplyFailures. -/
namespace SupplyFailures
def wSup (v : Nat) (q : SupSeq) : State := { (wUp.wrF ETC_SUPPLY_STATUS 2 0 v) with etc := { Etc.init with seq := q } }

theorem witnesses_1 :
    (∃ (g : Nat) (s : State), s.etc.seq = .waitPgood g ∧ g < 4 ∧ s.supState ≠ supDown ∧ s.panelLost = false ∧ s.quiet = true) ∧
    (∃ (g : Fin 4) (s : State), s.rdF ETC_SUPPLY_STATUS (4 + g) (4 + g) = 1 ∧ s.rdF ETC_SUPPLY_STATUS (8 + g) (8 + g) = 1 ∧ s.supState ≠ supDown ∧ s.panelLost = false ∧ s.quiet = true) ∧
    (∃ (g : Fin 4) (s : State), s.rdF ETC_SUPPLY_STATUS (4 + g) (4 + g) = 1 ∧ s.rdF ETC_SUPPLY_STATUS (8 + g) (8 + g) = 1 ∧ s.supState = supDown ∧ s.panelLost = false ∧ s.quiet = true) ∧
    (∃ (s : State), s.etc.seq = .upAllOpen ∧ s.blanked = false) ∧
    (∃ (s : State), s.etc.seq = .upAllOpen ∧ s.blanked = true) ∧
    (∃ (c : Nat) (s : State), s.etc.seq = .disch c ∧ s.quiet = true) ∧
    (∃ (v : Word) (s : State), s.shut .service ETC_CTRL = false) ∧
    (∃ (s : State), s.panelLost = false ∧ s.thm.tripped = false) :=
  ⟨⟨3, { (wSup 1 (.waitPgood 3)) with etc := { Etc.init with seq := .waitPgood 3, failTimes := [0, 0] } }, by decide +kernel⟩,
   ⟨2, (wSup 2 .idle).wrF ETC_SUPPLY_STATUS 11 4 0xFF, by decide +kernel⟩,
   ⟨2, (wSup 3 (.disch 5)).wrF ETC_SUPPLY_STATUS 11 4 0xFF, by decide +kernel⟩,
   ⟨wSup 1 .upAllOpen, by decide +kernel⟩,
   ⟨(wSup 1 .upAllOpen).wr ETC_STATUS 0x16, by decide +kernel⟩,
   ⟨5, wSup 3 (.disch 5), by decide +kernel⟩,
   ⟨0x1#32, wUp, by decide +kernel⟩,
   ⟨wSup 2 .idle, by decide +kernel⟩⟩
theorem witnesses_2 :
    (∃ (s : State), ((s.panelLost = true ∨ s.thm.tripped = true))) ∧
    (∃ (s : State), s.etc.seq = .pfail ∧ s.thm.tripped = true) ∧
    (∃ (s : State), s.etc.seq = .pfail ∧ s.thm.tripped = false ∧ s.quiet = true) :=
  ⟨⟨wSup 2 .pfail, by decide +kernel⟩,
   ⟨{ (wSup 2 .pfail) with thm := { wUp.thm with tripped := true } }, by decide +kernel⟩,
   ⟨wSup 2 .pfail, by decide +kernel⟩⟩
end SupplyFailures

/-! Witnesses for EtcherRecords. -/
namespace EtcherRecords
def wColoured : State := { wRunSlots with drl := { Drl.init with furrow := some 3 }, hgl := { Hgl.init with pref := [(3, [])] }, etc := { Etc.init with rays := List.replicate 138240 (0, ⟨0, 0, 0⟩) } }
theorem wColoured_rays : wColoured.etc.rays.length = 138240 := List.length_replicate

theorem witnesses :
    (∃ (k : Fin 560) (r : SlotRec) (hs : List HglEntry) (s : State), s.fpl.plan.isSome = true ∧ s.liveRecord k 3 = some r ∧ s.drl.furrow = some (r.target % 540) ∧ s.etc.rays.length = 138240 ∧ s.hglOf (r.target % 540) = some hs) ∧
    (∃ (k : Fin 560) (s : State), s.fpl.plan = none ∧ 4 ≤ s.stageNow ∧ k.val < 540) ∧
    (∃ (cut : List (Fin 16 × Fin 12)) (s : State), s.panelLost = false) ∧
    (∃ (k : Fin 541) (cut : List (Fin 16 × Fin 12)) (f : Nat) (s : State), 0 < k.val ∧ s.txTarget k = some f) ∧
    (∃ (f : Fin 540) (s : State), s.dark = false ∧ s.etc.carry ≠ some f.val) ∧
    (∃ (f : Fin 540) (s : State), s.dark = false ∧ s.etc.carry = some f.val) ∧
    (∃ (f : Fin 540) (s : State), s.dark = true) :=
  ⟨⟨0, wSlotRec, [], wColoured, by decide +kernel, by decide +kernel, by decide +kernel, wColoured_rays, by decide +kernel⟩,
   ⟨539, wUp.wr GBL_STATE 4, by decide +kernel⟩,
   ⟨[], wUp.wrF ETC_STATUS 31 16 0x0108, by decide +kernel⟩,
   ⟨4, [(3, 4)], 3, wUp.wr GBL_STATE 4, by decide +kernel⟩,
   ⟨539, wUp.wr ETC_STATUS 1, by decide +kernel⟩,
   ⟨3, { (wUp.wr ETC_STATUS 1) with etc := { Etc.init with carry := some 3 } }, by decide +kernel⟩,
   ⟨0, wUp, by decide +kernel⟩⟩
end EtcherRecords

/-! Witnesses for PanelCommands. -/
namespace PanelCommands
def wStatus (id : Nat) : Bytes := panelPacket 9 3 0 0 0 0 (wBytes [id, 2, 5, 0, 7, 0, 0, 30, 1, 0, 0, 0, 0, 0, 0, 0])

theorem witnesses :
    (∃ (l : Fin 2) (b : Bytes) (s : State), returnOk b = true ∧ byteAt b 0 % 16 = 9 ∧ leAt b 4 2 = 16 ∧ byteAt b 16 % 16 = byteAt b 1 % 16 ∧ (s.driver (byteAt b 1 % 16)).counts = none) ∧
    (∃ (l : Fin 2) (b : Bytes) (s : State), returnOk b = true ∧ byteAt b 0 % 16 = 9 ∧ leAt b 4 2 = 16 ∧ byteAt b 16 % 16 ≠ byteAt b 1 % 16 ∧ s.quiet = true ∧ (s.driver (byteAt b 1 % 16)).mapFault = false) ∧
    (∃ (l : Fin 2) (b : Bytes) (s : State), returnOk b = false) ∧
    (∃ (j : Fin 16) (s : State), s.driverActive j = true ∧ s.plTrained (s.laneMap j) = false ∧ s.quiet = true) ∧
    (∃ (j : Fin 16) (s : State), s.driverActive j = false ∧ s.plTrained (s.laneMap j) = true ∧ (s.driver j).mapFault = false ∧ s.panelLost = false) ∧
    (∃ (k : Fin 560) (s : State), (s.slotRecord k 5).op = opSense ∧ s.stageNow = 5 ∧ s.rdF ETC_STATUS 3 3 = 0 ∧ s.panelLost = false) ∧
    (∃ (k : Fin 560) (s : State), s.panelLost = true) ∧
    (∃ (s : State), s.rdF ETC_STATUS 3 3 = 1) :=
  ⟨⟨0, wStatus 3, wUp, by decide +kernel⟩,
   ⟨1, wStatus 4, wUp, by decide +kernel⟩,
   ⟨0, [0#8], wUp, by decide +kernel⟩,
   ⟨15, wUp.wrF ETC_STATUS 31 31 1, by decide +kernel⟩,
   ⟨15, wUp.wr (LNE_PL_STATUS 15) 5, by decide +kernel⟩,
   ⟨0, (wRun [(0x05, 0, wBytes ((List.replicate 8 [4, 0, 3, 0, 0, 0, 0, 0, 0, 0, 1, 0, 0, 0, 0, 0]).flatten))]).wr GBL_STATE 5, by decide +kernel⟩,
   ⟨5, { wUp.wr ETC_STATUS 0x20 with etc := { wUp.etc with seq := .idle } }, by decide +kernel⟩,
   ⟨{ (wUp.wr ETC_STATUS 8) with etc := { Etc.init with sense := [⟨130, 7, 1, 5, false⟩] } }, by decide +kernel⟩⟩
end PanelCommands

/-! Witnesses for ThermalConversions. -/
namespace ThermalConversions
theorem witnesses :
    (∃ (n : Fin 24) (v : Int) (s : State), s.convAsked n = false) ∧
    (∃ (n : Fin 24) (v : Int) (s : State), s.convAsked n = true ∧ (s.sensor n).failed = false ∧ -40 * 256 ≤ v ∧ v ≤ 150 * 256 ∧ (((s.sensor n).has = false ∨ (v - (s.sensor n).temp) * (cyclesPerMs : Int) ≤ (20 * 256 : Int) * ((max cyclesPerMs (s.now - (s.sensor n).time) : Nat) : Int)))) ∧
    (∃ (n : Fin 24) (v : Int) (s : State), s.convAsked n = true ∧ (s.sensor n).failed = false ∧ (v < -40 * 256 ∨ 150 * 256 < v) ∧ s.quiet = true) ∧
    (∃ (n : Fin 24) (s : State), s.convAsked n = true ∧ (s.sensor n).failed = false ∧ s.quiet = true) ∧
    (∃ (p : Bool) (s : State), s.fpl.plan = none ∧ s.stageNow ≠ 0 ∧ s.boot.inReset = false) ∧
    (∃ (v : Word) (s : State), s.shut .service THM_CONV_REQ = false) :=
  ⟨⟨7, 115 * 256, wRun [], by decide +kernel⟩,
   ⟨7, 115 * 256, { (wUp.wrF ETC_SUPPLY_STATUS 2 0 2) with etc := { wUp.etc with seq := .idle } }, by decide +kernel⟩,
   ⟨7, 151 * 256, wUp, by decide +kernel⟩,
   ⟨7, wUp, by decide +kernel⟩,
   ⟨true, wUp.wr GBL_STATE 2, by decide +kernel⟩,
   ⟨0x01000005, wUp, by decide +kernel⟩⟩
end ThermalConversions

/-! Witnesses for ThermalTests. -/
namespace ThermalTests
def wTh : State := { wUp with tests := [⟨5, 7, true⟩] }
def wDrv (s : State) : State := (List.range 16).foldl (fun s m => s.wr (LNE_PL_CTRL m) 0) s

theorem witnesses :
    (∃ (v : Word) (s : State), s.shut .service THM_SELFTEST_REQ = false ∧ fld v.toNat 4 0 < 24 ∧ ((∀ q ∈ s.tests, q.kind = 5 → q.idx ≠ fld v.toNat 4 0))) ∧
    (∃ (n : Fin 24) (p : Bool) (r : Option Int) (q : TestReq) (s : State), s.tests.find? (fun t => t.kind == 5 && t.idx == n.val) = some q ∧ (p = false ∨ r = none)) ∧
    (∃ (n : Fin 24) (v : Int) (q : TestReq) (s : State), s.tests.find? (fun t => t.kind == 5 && t.idx == n.val) = some q) ∧
    (∃ (s : State), s.levelTarget < s.rdF THM_STATUS 7 6 ∧ s.quiet = true) ∧
    (∃ (s : State), s.rdF THM_STATUS 10 10 = 1 ∧ s.supState = supOff ∧ s.panelLost = false ∧ s.driversReady = true) ∧
    (∃ (s : State), s.rdF THM_STATUS 10 10 = 1 ∧ s.supState = supDown ∧ s.etc.after = .off ∧ s.boot.request = none) ∧
    (∃ (s : State), s.rdF THM_STATUS 2 0 ≤ 3 ∧ s.opMax < 3 ∧ s.opMax ≤ s.opFloor ∧ s.opMax ≠ s.rdF DMC_OP 1 0 ∧ s.dmcStopped = false) ∧
    (∃ (s : State), s.thm.panelUnknown = false ∧ s.quiet = true) :=
  ⟨⟨9, wTh, by decide +kernel⟩,
   ⟨7, true, none, ⟨5, 7, true⟩, wTh, by decide +kernel⟩,
   ⟨7, 25 * 256, ⟨5, 7, true⟩, wTh, by decide +kernel⟩,
   ⟨wUp.wr THM_STATUS (9 + 2 * 64), by decide +kernel⟩,
   ⟨wDrv (wUp.wr THM_STATUS 0x409), by decide +kernel⟩,
   ⟨(wUp.wr THM_STATUS 0x409).wrF ETC_SUPPLY_STATUS 2 0 3, by decide +kernel⟩,
   ⟨wUp.wr DMC_OP 0x302, by decide +kernel⟩,
   ⟨wUp, by decide +kernel⟩⟩
end ThermalTests

/-! Witnesses for SeedbankStores. -/
namespace SeedbankStores
def wRun1 : StoreRun := { copy := 1, gen := 5, kind := 1, image := [(3, 7#8)], poison := [], hist := [], frame := 9, band := 1 }
def wSb (f : Sbk → Sbk) : State := { wUp with sbk := f { Sbk.init with ready := true } }

theorem witnesses :
    (∃ (s : State), s.shut .service SBK_CTRL = false ∧ s.sbk.ready = true ∧ s.sbk.recalling = false ∧ s.sbk.final = false ∧ s.sbk.tripped = false ∧ s.sbk.store = none) ∧
    (∃ (r : StoreRun) (s : State), s.shut .service SBK_CTRL = false ∧ s.sbk.ready = true ∧ s.sbk.recalling = false ∧ s.sbk.final = false ∧ s.sbk.tripped = false ∧ s.sbk.store = some r) ∧
    (∃ (s : State), s.shut .service SBK_CTRL = false ∧ s.sbk.ready = false ∧ s.quiet = true) ∧
    (∃ (r : StoreRun) (s : State), s.sbk.store = some r ∧ r.copy < 2 ∧ s.boot.inReset = false ∧ s.boot.activating = false ∧ s.hst.running = none ∧ (cellGet r.image 0x103).toNat ≠ actArmed ∧ s.quiet = true) ∧
    (∃ (r : StoreRun) (n : Nat) (x : Nat) (s : State), s.sbk.store = some r ∧ r.copy < 2 ∧ s.boot.inReset = false ∧ s.hst.running = none ∧ s.quiet = true) ∧
    (∃ (s : State), s.shut .service SBK_CTRL = false ∧ s.sbk.gleanRun = false ∧ s.sbk.tripped = false ∧ s.sbk.pfRefuse = false) ∧
    (∃ (a : Nat) (b : Nat) (s : State), s.sbk.gleanRun = true) :=
  ⟨⟨wSb (fun b => { b with newest := some 0 }), by decide +kernel⟩,
   ⟨wRun1, wSb (fun b => { b with store := some wRun1, queued := some 4 }), by decide +kernel⟩,
   ⟨wUp, by decide +kernel⟩,
   ⟨wRun1, wSb (fun b => { b with store := some wRun1 }), by decide +kernel⟩,
   ⟨wRun1, 512, 3, wSb (fun b => { b with store := some wRun1 }), by decide +kernel⟩,
   ⟨wSb id, by decide +kernel⟩,
   ⟨2, 1, wSb (fun b => { b with gleanRun := true, newest := some 1 }), by decide +kernel⟩⟩
end SeedbankStores

/-! Witnesses for SeedbankAccess. -/
namespace SeedbankAccess
def wSb (a : Nat) (f : Sbk → Sbk) : State := { wUp.wr SBK_ADDR a with sbk := f { Sbk.init with ready := true } }

theorem witnesses_1 :
    (∃ (q : Requester) (s : State), s.shut q SBK_DATA = false ∧ s.sbk.ready = true ∧ s.sbk.recalling = false ∧ sramHostRead s.readOpen (s.rd SBK_ADDR / 4 * 4 % 2 ^ 16) = true ∧ (s.rd SBK_ADDR / 4 * 4 % 2 ^ 16) / 8 ∉ s.sbk.poison) ∧
    (∃ (q : Requester) (v : Word) (s : State), s.shut q SBK_DATA = false ∧ s.sbk.ready = true ∧ s.sbk.recalling = false ∧ sramHostWrite s.writeOpen (s.rd SBK_ADDR / 4 * 4 % 2 ^ 16) = true ∧ s.sbk.final = false ∧ s.sbk.pfRefuse = false ∧ s.sbk.store = none) ∧
    (∃ (q : Requester) (v : Word) (u : Bool) (s : State), s.shut q SBK_DATA = false ∧ s.sbk.ready = true ∧ s.sbk.recalling = false ∧ sramHostWrite s.writeOpen (s.rd SBK_ADDR / 4 * 4 % 2 ^ 16) = false ∧ s.quiet = true ∧ s.sbk.deniedTick = false) ∧
    (∃ (s : State), s.shut .service SBK_PW_CTRL = false ∧ s.sbk.ready = true ∧ s.sbk.recalling = false ∧ s.sbk.locked = false ∧ s.sbk.pwCand = s.sramLe 0x80 8) ∧
    (∃ (s : State), s.shut .service SBK_PW_CTRL = false ∧ s.sbk.ready = true ∧ s.sbk.recalling = false ∧ s.sbk.locked = false ∧ s.sbk.pwCand ≠ s.sramLe 0x80 8 ∧ s.quiet = true) ∧
    (∃ (s : State), s.shut .service SBK_PW_CTRL = false ∧ s.sbk.ready = true ∧ s.sbk.recalling = false ∧ s.sbk.locked = false ∧ s.sbk.pwCand = s.sramLe 0x88 8) ∧
    (∃ (s : State), s.shut .service SBK_PW_CTRL = false ∧ s.sbk.ready = true ∧ s.sbk.recalling = false ∧ s.sbk.final = false ∧ s.sbk.pfRefuse = false ∧ s.sbk.store = none ∧ s.writeOpen = true ∧ s.sbk.pwCand < 2 ^ 64) ∧
    (∃ (s : State), s.shut .service SBK_PW_CTRL = false) :=
  ⟨⟨.fabric 5, wSb 0xFFFC (fun b => { b with sram := [(0xFFFC, 9#8)] }), by decide +kernel⟩,
   ⟨.service, 0xA1B2C3D4, wSb 0x1400 id, by decide +kernel⟩,
   ⟨.service, 7, true, wSb 0x13FC id, by decide +kernel⟩,
   ⟨wSb 0 (fun b => { b with sram := [(0x80, 9#8)], pwCand := 9, fails := 3 }), by decide +kernel⟩,
   ⟨wSb 0 (fun b => { b with sram := [(0x80, 9#8)], pwCand := 8, fails := 7 }), by decide +kernel⟩,
   ⟨wSb 0 (fun b => { b with sram := [(0x88, 9#8)], pwCand := 9 }), by decide +kernel⟩,
   ⟨wSb 0 (fun b => { b with pwCand := 77 }), by decide +kernel⟩,
   ⟨wUp, by decide +kernel⟩⟩
theorem witnesses_2 :
    (∃ (s : State), s.shut .service SBK_CNT_LO = false) ∧
    (∃ (s : State), s.rdF GBL_STATE 2 0 ≠ 0 ∧ s.sbk.ready = true ∧ s.sbk.recalling = false ∧ s.sbk.final = false ∧ s.sbk.pfRefuse = false ∧ s.sbk.store = none ∧ s.lifetime 0 < 2 ^ 64 - 1) :=
  ⟨⟨wSb 0 (fun b => { b with sram := [(0x44, 9#8)] }), by decide +kernel⟩,
   ⟨(wSb 0 (fun b => { b with sram := [(0x40, 255#8), (0x41, 255#8)] })).wr GBL_STATE 1, by decide +kernel⟩⟩
end SeedbankAccess

/-! Witnesses for DramRequests. -/
namespace DramRequests
def wDram : State := (((wUp.wr DMC_CONFIG 0x0801).wr DMC_STATUS 1).wr DMC_OP 0x302)
def wReq (a : Nat) : DramReq := ⟨true, false, a, 0, 16352, 3, List.replicate 64 7#8, false, 0, none, false⟩
def wIss : State := wDram.setChan 2 { Chan.init with issued := [wReq 0x11FF000080] }

theorem witnesses :
    (∃ (c : Fin 32) (st : Bool) (a : BitVec 40) (m : BitVec 64) (p : Bool) (k : DramCheck) (s : State), s.dramUsable (a.toNat / 64 * 64) = true ∧ s.dmc.sr = .off) ∧
    (∃ (c : Fin 32) (st : Bool) (a : BitVec 40) (d : Bytes) (k : DramCheck) (s : State), s.dramUsable (a.toNat / 64 * 64) = true) ∧
    (∃ (c : Fin 32) (st : Bool) (a : BitVec 40) (w : Option Bytes) (m : BitVec 64) (p : Bool) (k : DramCheck) (s : State), s.dramUsable (a.toNat / 64 * 64) = false) ∧
    (∃ (c : Fin 16) (k : DramCheck) (r : DramReq) (s : State), s.dmcServing = true ∧ (s.chan c).issued = [r]) ∧
    (∃ (c : Fin 16) (b : Bool) (r : DramReq) (s : State), s.dmcServing = true ∧ (s.chan c).issued = [r] ∧ r.poison = false ∧ s.protectedLine r.addr = true ∧ s.quiet = true) ∧
    (∃ (c : Fin 16) (k : DramCheck) (s : State), s.dmcServing = false) :=
  ⟨⟨3, true, 0x11FF000040, 0, false, .clean, wDram, by decide +kernel⟩,
   ⟨3, false, 0x11FF000040, [1, 2, 3], .clean, wDram, by decide +kernel⟩,
   ⟨3, false, 0x11FFFFFFFF, some [1], 5, true, .clean, wDram, by decide +kernel⟩,
   ⟨2, .uncorrectable false, wReq 0x11FF000080, wIss, by decide +kernel⟩,
   ⟨2, true, wReq 0x11FF000080, wIss, by decide +kernel⟩,
   ⟨2, .clean, { wIss with dmc := { wIss.dmc with sr := .inside } }, by decide +kernel⟩⟩
end DramRequests

/-! Witnesses for DramRefresh. -/
namespace DramRefresh
def wDram : State := (((wUp.wr DMC_CONFIG 0x0801).wr DMC_STATUS 1).wr DMC_OP 0x302)
def wSr (r : SelfRef) (f : Option Nat) (e : Bool) : State := { wDram with dmc := { Dmc.init with sr := r, freq := f, freqEntry := e } }

def w3_c : Fin 16 := 5
def w3_b : Fin 16 := 3
def w3_r : Nat := 77
def w3_s : State := wDram.setChan 5 { Chan.init with openRow := [(3, some 77)] }
theorem witnesses_1 :
    (∃ (c : Fin 16) (s : State), s.dramOn = true ∧ s.dmcServing = true) ∧
    (∃ (c : Fin 16) (n : Nat) (s : State), (s.chan c).urgent = some n) ∧
    (∃ (c : Fin 16) (s : State), s.stageNow = 5) ∧
    (∃ (c : Fin 16) (b : Fin 16) (r : Nat) (s : State), (s.chan c).openOf b = some r ∧ ((∀ st q, s.eligibleIn (s.chan c) b st = some q → q.row ≠ r)) ∧ s.panelLost = false) ∧
    (∃ (s : State), s.dramOn = true ∧ s.rdF DMC_SR_CTRL 0 0 = 1 ∧ s.dmc.sr = .off ∧ s.dmcEmpty = true ∧ ((∀ c, c < 16 → (s.chan c).debt < 8 ∧ (s.chan c).topRefresh = false ∧ (s.chan c).urgent = none))) ∧
    (∃ (s : State), s.dmc.sr = .inside ∧ s.dmc.freqEntry = false ∧ s.panelLost = false) ∧
    (∃ (s : State), s.dmc.sr = .inside ∧ s.panelLost = true ∧ s.dmcEmpty = false) ∧
    (∃ (v : Word) (s : State), s.shut .service DMC_FREQ_CTRL = false ∧ v.toNat % 4 < 3 ∧ v.toNat % 4 ≤ s.opFloor ∧ s.opMax ≤ v.toNat % 4 ∧ v.toNat % 4 ≠ s.rdF DMC_OP 1 0 ∧ s.dmcStopped = false) :=
  ⟨⟨5, wDram.setChan 5 { Chan.init with debt := 8 }, by decide +kernel⟩,
   ⟨5, 3, wDram.setChan 5 { Chan.init with debt := 1, urgent := some 3 }, by decide +kernel⟩,
   ⟨5, wUp.wr GBL_STATE 5, by decide +kernel⟩,
   ⟨w3_c, w3_b, w3_r, w3_s, by decide +kernel, fun st q h => absurd (h.symm.trans (show w3_s.eligibleIn (w3_s.chan w3_c) w3_b st = none by cases st <;> decide +kernel)) (by simp), by decide +kernel⟩,
   ⟨(wDram.wr DMC_SR_CTRL 1), by decide +kernel, by decide +kernel, by decide +kernel, by decide +kernel, by decide +kernel⟩,
   ⟨wSr .inside none false, by decide +kernel⟩,
   ⟨{ wSr .inside none false with etc := { wDram.etc with seq := .pfail } }.wr ETC_STATUS 0x20 |>.setChan 2 { Chan.init with issued := [⟨true, false, 0x11FF000080, 0, 16352, 3, List.replicate 64 7#8, false, 0, none, false⟩] }, by decide +kernel⟩,
   ⟨0, wDram, by decide +kernel⟩⟩
theorem witnesses_2 :
    (∃ (v : Word) (s : State), s.shut .service DMC_FREQ_CTRL = false ∧ (v.toNat % 4 = 3 ∨ s.opFloor < v.toNat % 4 ∨ v.toNat % 4 < s.opMax) ∧ s.quiet = true ∧ s.dmcStopped = false) ∧
    (∃ (v : Word) (s : State), s.shut .service DMC_FREQ_CTRL = false ∧ s.dmcStopped = true) ∧
    (∃ (s : State), s.changeWindow = true ∧ s.dmc.freq.isSome = true ∧ s.dmcEmpty = true ∧ s.dmc.sr = .off) ∧
    (∃ (p : Nat) (s : State), s.dmc.freq = some p ∧ p < 3 ∧ s.dmc.freqEntry = true ∧ s.dmc.sr = .inside ∧ s.panelLost = false ∧ s.dmc.held = []) ∧
    (∃ (s : State), s.dmc.freq.isSome = true ∧ s.dmc.freqEntry = true ∧ s.dmc.sr = .inside ∧ s.panelLost = false) ∧
    (∃ (p : Nat) (s : State), s.dmc.freq = some p ∧ s.dmc.freqEntry = true ∧ s.dmc.sr = .entering ∧ s.quiet = true) :=
  ⟨⟨3, wDram, by decide +kernel⟩,
   ⟨1, wDram.wr DMC_STATUS 0x11, by decide +kernel⟩,
   ⟨{ wSr .off (some 1) false with fpl := { wDram.fpl with slot := 0x3FF, committed := false }, wal := { wDram.wal with next := 10 ^ 9 } }, by decide +kernel⟩,
   ⟨1, wSr .inside (some 1) true, by decide +kernel⟩,
   ⟨{ wSr .inside (some 1) true with dmc := { (wSr .inside (some 1) true).dmc with held := [(DMC_TIMER, 0x01000020)] } }, by decide +kernel⟩,
   ⟨1, wSr .entering (some 1) true, by decide +kernel⟩⟩
end DramRefresh

/-! Witnesses for DramRowTests. -/
namespace DramRowTests
def wDram : State := (((wUp.wr DMC_CONFIG 0x0801).wr DMC_STATUS 1).wr DMC_OP 0x302)
def wTest (q : TestReq) : State := { wDram with tests := [q] }

theorem witnesses :
    (∃ (v : Word) (c : Nat) (b : Nat) (r : Nat) (s : State), s.shut .service DMC_SELFTEST_REQ = false ∧ (s.windowOf (v.toNat * 256)).isSome = true ∧ (s.tests.filter (fun q => q.kind == 2)).length < 16 ∧ s.dramLoc (v.toNat * 256) = (c, b, r) ∧ s.dmcStopped = false ∧ ((∀ q ∈ s.tests, q.kind = 2 → q.idx ≠ rowIdx c b r))) ∧
    (∃ (c : Fin 16) (b : Fin 16) (r : Fin 131072) (q : TestReq) (s : State), s.tests.find? (fun t => t.kind == 2 && t.idx == rowIdx c b r) = some q) ∧
    (∃ (c : Fin 16) (b : Fin 16) (r : Fin 131072) (f : Fin 5) (q : TestReq) (s : State), s.tests.find? (fun t => t.kind == 2 && t.idx == rowIdx c b r) = some q ∧ r.val ≠ s.dramRows - 1 ∧ ((∀ e ∈ s.dmc.remap, e.1 = c → e.2.1 = b → e.2.2.1 ≠ r)) ∧ s.spareFree c b = true ∧ s.dmc.remap.length < 64) :=
  ⟨⟨0x11FF0001, 4, 0, 16352, wDram, by decide +kernel⟩,
   ⟨4, 1, 77, ⟨2, rowIdx 4 1 77, true⟩, wTest ⟨2, rowIdx 4 1 77, true⟩, by decide +kernel⟩,
   ⟨4, 1, 77, 2, ⟨2, rowIdx 4 1 77, true⟩, wTest ⟨2, rowIdx 4 1 77, true⟩, by decide +kernel⟩⟩
end DramRowTests

/-! Witnesses for Resets. -/
namespace Resets
def wTrip : State := { wUp with thm := { Thm.init with tripped := true, tripLatch := 5 } }

theorem witnesses_1 :
    (∃ (c : Bool) (s : State), ((s.thm.tripped = true → c = true))) ∧
    (∃ (s : State), s.thm.tripped = true) ∧
    (∃ (s : State), s.thm.tripped = true) ∧
    (∃ (s : State), s.rdF ETC_STATUS 5 5 = 1 ∧ s.thm.tripped = false) ∧
    (∃ (k : Nat) (s : State), s.boot.request = some k ∧ s.downEnded = true) ∧
    (∃ (s : State), s.downEnded = false) ∧
    (∃ (n : BitVec 24) (s : State), s.etc.seq ≠ .pfail ∧ s.thm.tripped = false) ∧
    (∃ (n : BitVec 24) (s : State), s.etc.seq = .pfail ∧ s.thm.tripped = false) :=
  ⟨⟨true, wTrip, by decide +kernel⟩,
   ⟨wTrip, by decide +kernel⟩,
   ⟨{ wUp.wr ETC_STATUS 0x20 with thm := { wUp.thm with tripped := true } }, by decide +kernel⟩,
   ⟨wUp.wr ETC_STATUS 0x20, by decide +kernel⟩,
   ⟨3, { wUp with boot := { wUp.boot with request := some 3 }, etc := { wUp.etc with seq := .idle } }, by decide +kernel⟩,
   ⟨wUp.wrF ETC_SUPPLY_STATUS 2 0 2, by decide +kernel⟩,
   ⟨0x0000A1, wUp, by decide +kernel⟩,
   ⟨0x11, { wUp with etc := { wUp.etc with seq := .pfail } }, by decide +kernel⟩⟩
theorem witnesses_2 : ∃ (n : BitVec 24) (s : State), s.thm.tripped = true := ⟨0x12, wTrip, by decide +kernel⟩
end Resets

/-! Witnesses for ResetRequests. -/
namespace ResetRequests
def wOn (n : Nat) : State := let s := (wUp.wr GBL_STATE n).wrF ETC_SUPPLY_STATUS 2 0 2; { s with etc := { s.etc with seq := .idle } }

theorem witnesses :
    (∃ (v : Word) (s : State), s.shut .service GBL_RESET = false ∧ v.toNat % 2 ^ 16 = 0x7440 ∧ bit v.toNat 16 = 1 ∧ s.stageNow ≠ 0 ∧ s.resetFree = true) ∧
    (∃ (v : Word) (s : State), s.shut .service GBL_RESET = false ∧ v.toNat % 2 ^ 16 ≠ 0x7440) ∧
    (∃ (s : State), 2 ≤ s.stageNow ∧ s.resetFree = true) ∧
    (∃ (p : Fin 4) (a : CopyRead) (b : CopyRead) (s : State), s.boot.inReset = true ∧ s.thm.tripped = false) ∧
    (∃ (p : Fin 4) (a : CopyRead) (b : CopyRead) (s : State), s.thm.tripped = true) ∧
    (∃ (s : State), s.shut .service UPD_CTRL = false ∧ s.resetFree = true ∧ s.sramFree = true ∧ s.actOk = true) :=
  ⟨⟨0x00017440, wOn 1, by decide +kernel⟩,
   ⟨0x00017441, wOn 1, by decide +kernel⟩,
   ⟨wOn 2, by decide +kernel⟩,
   ⟨2, .good, .noHeader, State.reset, by decide +kernel⟩,
   ⟨1, .good, .good, { State.reset with thm := { Thm.init with tripped := true } }, by decide +kernel⟩,
   ⟨{ wOn 5 with sbk := { Sbk.init with ready := true, sram := [(0x100, 0x41#8), (0x101, 0x52#8), (0x102, 1#8)] } }, by decide +kernel⟩⟩
end ResetRequests

/-! Witnesses for StageCommands. -/
namespace StageCommands
def wTr : Training := ⟨.pass 1 2 3, 2, true⟩
def wStage (n : Nat) : State := { wUp.wr GBL_STATE n with sbk := { Sbk.init with ready := true } }
def wLanes : State := (List.range 18).foldl (fun s m => s.wr (LNE_PL_STATUS m) 5) ((wStage 3).wrF ETC_SUPPLY_STATUS 2 0 2)
def wAbsent : State := (List.range 18).foldl (fun s m => s.wr (LNE_PL_STATUS m) 0x38) (wStage 3)
theorem wAlloc_plot (s : State) (c k j : Nat) (h : j ≠ k) : (s.allocPlot c k).plot j = s.plot j := by
  show sget Plot.free (sset Plot.free s.grn.plots k ⟨1, c, 0, 0⟩) j = sget Plot.free s.grn.plots j
  exact sget_sset_of_ne Plot.free Plot.free s.grn.plots _ h
theorem wAllocs_plot (c j : Nat) (l : List Nat) : ∀ s : State, j ∉ l → (l.foldl (fun s k => s.allocPlot c k) s).plot j = s.plot j := by
  induction l with
  | nil => intro s _; rfl
  | cons k l ih =>
    intro s h
    rw [List.foldl_cons, ih _ (fun hj => h (List.mem_cons_of_mem _ hj)), wAlloc_plot _ _ _ _ (fun e => h (by rw [e]; exact List.mem_cons_self))]
theorem wTake_some (s : State) (c n i : Nat) (hi : i < 16384 + 1 - n) (h : ∀ k ∈ List.range' i n, (s.plot k).state = 0) :
    ∃ j t, s.takeRun c n = some (t, grnBase + 4096 * j) ∧ t = (List.range' j n).foldl (fun s k => s.allocPlot c k) s ∧ j ≤ i := by
  have hp : (List.range' i n).all (fun k => (s.plot k).state == 0) = true := by
    rw [List.all_eq_true]
    exact fun k hk => beq_iff_eq.mpr (h k hk)
  cases hf : s.freeRun n with
  | none =>
    have := List.find?_eq_none.mp hf i (List.mem_range.mpr hi)
    exact absurd hp this
  | some j =>
    refine ⟨j, _, by rw [State.takeRun, hf]; rfl, rfl, ?_⟩
    rcases Nat.lt_or_ge i j with hij | hij
    · have hl := List.find?_eq_some_iff_append.mp hf
      obtain ⟨-, a, b, e, hn⟩ := hl
      have hx : i ∈ a := by
        have hr : (List.range (16384 + 1 - n))[i]? = some i := by simp [hi]
        rw [e] at hr
        have hla : a.length = j := by
          have hj : (a ++ j :: b)[a.length]? = some j := by simp
          rw [← e] at hj
          obtain ⟨_, h2⟩ := List.getElem?_eq_some_iff.mp hj
          rw [List.getElem_range] at h2
          exact h2
        rw [List.getElem?_append_left (hla ▸ hij)] at hr
        exact List.mem_of_getElem? hr
      have h3 : (!((List.range' i n).all (fun k => (s.plot k).state == 0))) = true := hn i hx
      rw [hp] at h3
      exact absurd h3 (by decide)
    · exact hij
theorem wTakes : ∃ (a b : Nat) (s1 s2 : State), wLanes.takeRun clFurrow 456 = some (s1, a) ∧ s1.takeRun clBurin 507 = some (s2, b) := by
  obtain ⟨j, t, ht, e, hj⟩ := wTake_some wLanes clFurrow 456 0 (by decide) (fun k _ => by
    rw [show wLanes.plot k = Plot.free from rfl]; rfl)
  obtain rfl := Nat.le_zero.mp hj
  obtain ⟨j2, t2, ht2, -, -⟩ := wTake_some t clBurin 507 456 (by decide) (fun k hk => by
    rw [e, wAllocs_plot _ _ _ _ (fun hk' => by
      have h1 := List.mem_range'_1.mp hk
      have h2 := List.mem_range'_1.mp hk'
      omega), show wLanes.plot k = Plot.free from rfl]
    rfl)
  exact ⟨_, _, _, _, ht, ht2⟩

def w5_tr : Training := wTr
def w5_a : Nat := 0
def w5_b : Nat := 0
def w5_s : State := wLanes
def w5_s1 : State := wLanes
def w5_s2 : State := wLanes
theorem witnesses_1 :
    (∃ (tr : Training) (s : State), s.advances = true ∧ s.stageNow = 0 ∧ s.sbk.ready = true) ∧
    (∃ (tr : Training) (s : State), s.advances = true ∧ s.stageNow = 1 ∧ s.boot.waitLoad = false) ∧
    (∃ (tr : Training) (s : State), s.advances = true ∧ s.stageNow = 2 ∧ s.grn.bistFailed = true) ∧
    (∃ (tr : Training) (m : Fin 3) (c : Fin 16) (n : Fin 5) (i : Nat) (s : State), s.advances = true ∧ s.stageNow = 2 ∧ s.grn.bistFailed = false ∧ s.grnReady = true ∧ tr.out = .pass m c n ∧ 1 ≤ tr.density.val ∧ ¬ (tr.twoRanks = true ∧ tr.density.val = 1) ∧ s.freeRun 32 = some i) ∧
    (∃ (tr : Training) (s : State), s.advances = true ∧ s.stageNow = 3 ∧ s.panelLanesOn.all s.plAbsent = true) ∧
    (∃ (tr : Training) (a : Nat) (b : Nat) (s : State) (s1 : State) (s2 : State), s.advances = true ∧ s.stageNow = 3 ∧ s.panelLanesOn.all s.plAbsent = false ∧ s.panelLanesOn.all (fun m => s.plTrained m || s.plAbsent m) = true ∧ s.supState = supOn ∧ s.takeRun clFurrow 456 = some (s1, a) ∧ s1.takeRun clBurin 507 = some (s2, b)) ∧
    (∃ (tr : Training) (s : State), s.advances = true ∧ s.stageNow = 4 ∧ s.mode = modeNormal ∧ s.boot.entering = none) ∧
    (∃ (s : State), s.shut .service UPD_CTRL = false ∧ s.isHeld = true) :=
  ⟨⟨wTr, wStage 0, by decide +kernel⟩,
   ⟨wTr, wStage 1, by decide +kernel⟩,
   ⟨wTr, { wStage 2 with grn := { Grn.init with bistFailed := true } }, by decide +kernel⟩,
   ⟨wTr, 1, 2, 3, 0, (wStage 2).wr GRN_STATUS 1, by decide +kernel, by decide +kernel, by decide +kernel, by decide +kernel, rfl, by decide, by decide, by decide +kernel⟩,
   ⟨wTr, wAbsent, by decide +kernel⟩,
   by
  obtain ⟨a, b, s1, s2, h1, h2⟩ := wTakes
  exact ⟨w5_tr, a, b, w5_s, s1, s2, by decide +kernel, by decide +kernel, by decide +kernel, by decide +kernel, by decide +kernel, h1, h2⟩,
   ⟨wTr, wStage 4, by decide +kernel⟩,
   ⟨(wStage 2).wr UPD_BOOT_STATUS 0xA, by decide +kernel⟩⟩
theorem witnesses_2 : ∃ (s : State), 4 ≤ s.stageNow ∧ s.fpl.plan = none := ⟨wStage 4, by decide +kernel⟩
end StageCommands

/-! Witnesses for LoadCommands. -/
namespace LoadCommands
def wAct (st : Nat) : List Host.Cell := [(0x100, 0x41#8), (0x101, 0x52#8), (0x102, 1#8), (0x103, BitVec.ofNat 8 st), (0x105, 1#8)]
def wTrial (f : Boot → Boot) : State := { wUp.wr GBL_STATE 5 with boot := f wUp.boot, sbk := { Sbk.init with ready := true, sram := wAct 3 }, etc := { wUp.etc with seq := .idle } }

theorem witnesses :
    (∃ (v : Word) (s : State), s.shut .service UPD_LOAD_DATA = false ∧ s.boot.waitLoad = true) ∧
    (∃ (v : Word) (s : State), s.shut .service UPD_LOAD_DATA = false ∧ s.boot.waitLoad = false) ∧
    (∃ (s : State), s.shut .service UPD_CTRL = false ∧ s.boot.waitLoad = true) ∧
    (∃ (s : State), s.shut .service UPD_ACT_FRAME_LO = false) ∧
    (∃ (s : State), s.actState = actTrial ∧ s.healthMet = 7 ∧ s.boot.inReset = false ∧ s.boot.activating = false ∧ s.sramFree = true ∧ s.sbk.tripped = false ∧ s.quiet = true) ∧
    (∃ (s : State), s.boot.activating = true) ∧
    (∃ (s : State), s.actState = actTrial ∧ s.sramFree = true ∧ s.resetFree = true) :=
  ⟨⟨0x12345678, wTrial (fun b => { b with waitLoad := true }), by decide +kernel⟩,
   ⟨0x12345678, wUp, by decide +kernel⟩,
   ⟨wTrial (fun b => { b with waitLoad := true, load := [1, 2, 3] }), by decide +kernel⟩,
   ⟨wTrial id, by decide +kernel⟩,
   ⟨wTrial (fun b => { b with member := true }), by decide +kernel⟩,
   ⟨wTrial (fun b => { b with member := true, activating := true }), by decide +kernel⟩,
   ⟨wTrial id, by decide +kernel⟩⟩
end LoadCommands

/-! Witnesses for SowingBlocks. -/
namespace SowingBlocks
def wSowHead (n : Nat) : List Host.Cell := [(0xC00, 0x53#8), (0xC01, 0x57#8), (0xC02, 1#8), (0xC03, BitVec.ofNat 8 n), (0xC04, 7#8)]
def wSow (f : Boot → Boot) : State :=
  { wUp.wr GBL_STATE 5 with boot := f { wUp.boot with opened := true }, sbk := { Sbk.init with ready := true, sram := wSowHead 1 }
                            grn := { Grn.init with held := [(clSowing, 3)] } }
def wBlockMsg (b loc : Nat) (data : Bytes) : Bytes :=
  toLe 7 0 ++ toLe 1 loc ++ toLe 8 0 ++ sowBody sopBlock 0 0 7 0 b (crc32c data) data
theorem wLe_toLe (n v : Nat) : le (toLe n v) = v % 256 ^ n := by
  induction n generalizing v with
  | zero => rw [toLe, le, Nat.pow_zero, Nat.mod_one]
  | succ n ih => rw [toLe, le, ih, BitVec.toNat_ofNat, show 256 ^ (n + 1) = 256 * 256 ^ n from Nat.pow_succ', Nat.mod_mul]
theorem wCrc_lt (l : Bytes) : crc32c l < 2 ^ 32 := by
  have step : ∀ (n : List Nat) (c : Nat), c < 2 ^ 32 →
      n.foldl (fun c _ => if c % 2 = 1 then (c / 2) ^^^ 0x82F63B78 else c / 2) c < 2 ^ 32 := by
    intro n
    induction n with
    | nil => exact fun c h => h
    | cons a n ih =>
      intro c h
      rw [List.foldl_cons]
      apply ih
      split
      · exact Nat.xor_lt_two_pow (by omega) (by decide)
      · omega
  have all : ∀ (l : Bytes) (c : Nat), c < 2 ^ 32 → l.foldl (crcByte 0x82F63B78) c < 2 ^ 32 := by
    intro l
    induction l with
    | nil => exact fun c h => h
    | cons b l ih =>
      intro c h
      rw [List.foldl_cons]
      exact ih _ (step _ _ (Nat.xor_lt_two_pow h (by have := b.isLt; omega)))
  exact Nat.xor_lt_two_pow (all l _ (by decide)) (by decide)
theorem wBlockMsg_data (b loc : Nat) (data : Bytes) : (wBlockMsg b loc data).drop 48 = data := by
  have e : ∃ x : Bytes, wBlockMsg b loc data = x ++ data ∧ x.length = 48 := ⟨_, by
    rw [wBlockMsg, sowBody, ← List.append_assoc], rfl⟩
  obtain ⟨x, hx, hl⟩ := e
  rw [hx, ← hl, List.drop_left]
theorem wBlockMsg_length (b loc : Nat) (data : Bytes) : (wBlockMsg b loc data).length = 48 + data.length := by
  have e : ∃ x : Bytes, wBlockMsg b loc data = x ++ data ∧ x.length = 48 := ⟨_, by
    rw [wBlockMsg, sowBody, ← List.append_assoc], rfl⟩
  obtain ⟨x, hx, hl⟩ := e
  rw [hx, List.length_append, hl]
theorem wBlockMsg_crc (b loc : Nat) (data : Bytes) : leAt (wBlockMsg b loc data) 32 4 = crc32c data := by
  have e : ∃ x y : Bytes, wBlockMsg b loc data = x ++ (toLe 4 (crc32c data) ++ y) ∧ x.length = 32 :=
    ⟨toLe 7 0 ++ toLe 1 loc ++ toLe 8 0 ++ (toLe 1 sopBlock ++ toLe 1 0 ++ toLe 1 0 ++ toLe 1 0 ++ toLe 4 7 ++ toLe 4 0 ++ toLe 4 b),
      toLe 6 0 ++ toLe 6 0 ++ data, by simp only [wBlockMsg, sowBody, List.append_assoc], rfl⟩
  obtain ⟨x, y, hx, hl⟩ := e
  rw [leAt, sub, hx, ← hl, List.drop_left, List.take_left' (show (toLe 4 (crc32c data)).length = 4 from rfl), wLe_toLe]
  exact Nat.mod_eq_of_lt (wCrc_lt data)
def wArmMsg (frame : Nat) : Bytes := toLe 16 0 ++ toLe 1 5 ++ toLe 3 0 ++ toLe 4 7 ++ toLe 4 0 ++ toLe 8 0 ++ toLe 6 frame ++ toLe 6 0
def wArmed : State := { wUp with boot := { wUp.boot with armPrev := 1 }
                                 sbk := { Sbk.init with ready := true, sram := [(0x100, 0x41#8), (0x101, 0x52#8), (0x102, 1#8), (0x103, 2#8), (0x118, 7#8)] } }

theorem witnesses_1 :
    (∃ (p : Fin 4) (m : Bytes) (s : State), (m.length ≠ 4144 ∨ crc32c (m.drop 48) ≠ leAt m 32 4) ∧ (bit (byteAt m 7) 0 = 0 ∨ s.parentPort = some p.val) ∧ s.quiet = true) ∧
    (∃ (p : Fin 4) (m : Bytes) (s : State), m.length = 4144 ∧ crc32c (m.drop 48) = leAt m 32 4 ∧ 0 < leAt m 28 4 ∧ leAt m 28 4 < imageBlocks ∧ bit (byteAt m 7) 0 = 0 ∧ s.sowRefuses = false ∧ s.sowOk = true ∧ s.boot.opened = true ∧ leAt m 20 4 = s.sow 4 4) ∧
    (∃ (p : Fin 4) (m : Bytes) (s : State), m.length = 4144 ∧ crc32c (m.drop 48) = leAt m 32 4 ∧ 0 < leAt m 28 4 ∧ leAt m 28 4 < imageBlocks ∧ bit (byteAt m 7) 0 = 1 ∧ s.parentPort = some p.val ∧ s.sowRefuses = false ∧ s.sowOk = true ∧ s.boot.opened = true ∧ leAt m 20 4 = s.sow 4 4) ∧
    (∃ (p : Fin 4) (m : Bytes) (s : State), bit (byteAt m 7) 0 = 1 ∧ s.parentPort ≠ some p.val) ∧
    (∃ (b : Fin 8704) (s : State), s.sowOk = true ∧ s.boot.opened = true ∧ s.sramFree = true) ∧
    (∃ (b : Fin 8704) (s : State), s.sowOk = true ∧ s.boot.opened = true ∧ s.quiet = true) ∧
    (∃ (p : Fin 4) (m : Bytes) (s : State), ((∀ q ∈ s.boot.queued, q.2 ≠ p.val))) ∧
    (∃ (p : Fin 4) (b : Fin 8704) (e : SowSent) (s : State), s.boot.sent.find? (fun e => e.port == p.val && e.block == b.val) = some e ∧ e.tries < 3) :=
  ⟨⟨2, [1, 2, 3], wSow id, by decide +kernel⟩,
   ⟨2, wBlockMsg 33 0 (List.replicate 4096 0#8), wSow id, (wBlockMsg_length _ _ _).trans (by rw [List.length_replicate]), (congrArg crc32c (wBlockMsg_data _ _ _)).trans (wBlockMsg_crc _ _ _).symm, by decide +kernel, by decide +kernel, by decide +kernel, by decide +kernel, by decide +kernel, by decide +kernel, by decide +kernel⟩,
   ⟨2, wBlockMsg 33 1 (List.replicate 4096 0#8), ((wSow id).wr LNK_TREE 0x60000).wr (LNK_PORT_STATUS 1) 2, (wBlockMsg_length _ _ _).trans (by rw [List.length_replicate]), (congrArg crc32c (wBlockMsg_data _ _ _)).trans (wBlockMsg_crc _ _ _).symm, by decide +kernel, by decide +kernel, by decide +kernel, by decide +kernel, by decide +kernel, by decide +kernel, by decide +kernel, by decide +kernel⟩,
   ⟨2, wBlockMsg 33 1 [], wSow id, by decide +kernel⟩,
   ⟨33, wSow id, by decide +kernel⟩,
   ⟨33, wSow id, by decide +kernel⟩,
   ⟨1, wBlockMsg 5 0 [], wSow (fun b => { b with sent := [⟨5, 1, 0⟩, ⟨6, 1, 0⟩], queued := [(8, 2)] }), by decide +kernel⟩,
   ⟨1, 5, ⟨5, 1, 2⟩, wSow (fun b => { b with sent := [⟨5, 1, 2⟩, ⟨6, 1, 0⟩] }), by decide +kernel⟩⟩
theorem witnesses_2 :
    (∃ (p : Fin 4) (b : Fin 8704) (e : SowSent) (s : State), s.boot.sent.find? (fun e => e.port == p.val && e.block == b.val) = some e ∧ 3 ≤ e.tries ∧ s.rdF UPD_SOW_STATUS 0 0 = 1 ∧ s.treeOf p = 2 ∧ s.lagging p = false ∧ s.quiet = true) ∧
    (∃ (s : State), s.shut .service UPD_CTRL = false ∧ s.actState ≠ actArmed ∧ s.sramFree = true) ∧
    (∃ (m : Bytes) (s : State), s.sramFree = true ∧ s.sbk.tripped = false) ∧
    (∃ (m : Bytes) (r : Nat) (s : State), (s.armChecked (leAt m 20 4) (leAt m 24 4) (leAt m 36 6)).2 = some r ∧ s.quiet = true) ∧
    (∃ (m : Bytes) (s : State), s.actState = actArmed ∧ s.act 24 4 = leAt m 20 4 ∧ s.sramFree = true) :=
  ⟨⟨1, 5, ⟨5, 1, 3⟩, ((wSow (fun b => { b with sent := [⟨5, 1, 3⟩, ⟨6, 1, 0⟩] })).wr UPD_SOW_STATUS 1).wr (LNK_PORT_STATUS 1) 2, by decide +kernel⟩,
   ⟨wSow id, by decide +kernel⟩,
   ⟨wArmMsg 9, wSow id, by decide +kernel⟩,
   ⟨wArmMsg 9, 1, wUp, by decide +kernel⟩,
   ⟨wArmMsg 9, wArmed, by decide +kernel⟩⟩
end SowingBlocks

/-! Witnesses for PortTraining. -/
namespace PortTraining
def wPort (p v : Nat) (x : PortSt) : State := { (wUp.wr (LNE_PORT_STATUS p) v) with lne := { Lne.init with ports := [(p, x)] } }
def wEqBlock : Bytes := ctlBlock (wBytes [0x78, 1, 3, 4, 0x12, 0, 0x30, 99])
def wPortL (p v : Nat) (x : PortSt) (l : List (Nat × Lane)) : State := { (wUp.wr (LNE_PORT_STATUS p) v) with lne := { Lne.init with ports := [(p, x)], lanes := l } }

theorem witnesses_1 :
    (∃ (p : Fin 4) (l : BitVec 8) (s : State), s.lneState p = lneDetect ∧ (s.portSt p).testing = 0 ∧ l.toNat &&& (0xFF ^^^ s.excluded p) ≠ 0 ∧ s.portHeld p = false) ∧
    (∃ (p : Fin 4) (l : BitVec 8) (s : State), s.lneState p = lneWake) ∧
    (∃ (p : Fin 4) (l : BitVec 8) (s : State), s.lneState p = lneDetect ∧ l.toNat &&& (0xFF ^^^ s.excluded p) = 0) ∧
    (∃ (p : Fin 4) (s : State), s.lneState p = lneDetect ∧ (s.portSt p).testing = 0 ∧ (s.portSt p).waiting = false ∧ s.portHeld p = false) ∧
    (∃ (p : Fin 4) (l : BitVec 8) (s : State), s.lneState p = lneWake ∧ l.toNat &&& (0xFF ^^^ s.excluded p) ≠ 0 ∧ s.portHeld p = false) ∧
    (∃ (p : Fin 4) (s : State), s.lneState p = lneWake ∧ s.portHeld p = false ∧ s.quiet = true) ∧
    (∃ (l : Fin 32) (b : Bytes) (s : State), ctlGood b = true ∧ byteAt b 0 = 0x78 ∧ byteAt b 1 = 1 ∧ byteAt b 5 = 0 ∧ s.lneState (l / 8) = lneEq) ∧
    (∃ (p : Fin 4) (s : State), s.lneState p = lneEq ∧ s.readyLanes p = (s.portSt p).remain ∧ (s.portSt p).remain ≠ 0 ∧ s.portHeld p = false) :=
  ⟨⟨3, 0x81#8, wPort 3 1 { PortSt.init with waiting := true }, by decide +kernel⟩,
   ⟨3, 0x81#8, wPort 3 2 PortSt.init, by decide +kernel⟩,
   ⟨3, 0x01#8, (wPort 3 1 PortSt.init).wr (LNE_LANE_STATUS 24) 0x800, by decide +kernel⟩,
   ⟨0, wPort 0 1 { PortSt.init with fails := 2 }, by decide +kernel⟩,
   ⟨2, 0x1F#8, wPort 2 2 PortSt.init, by decide +kernel⟩,
   ⟨1, wPort 1 2 { PortSt.init with fails := 2 }, by decide +kernel⟩,
   ⟨31, wEqBlock, wPort 3 3 PortSt.init, by decide +kernel⟩,
   ⟨0, ((wPortL 0 3 { PortSt.init with remain := 3 } [(0, { Lane.init with peerReady := true }), (1, { Lane.init with peerReady := true })]).wr (LNE_LANE_STATUS 0) 0x600002).wr (LNE_LANE_STATUS 1) 0xFF0002, by decide +kernel⟩⟩
theorem witnesses_2 :
    (∃ (p : Fin 4) (s : State), s.lneState p = lneEq ∧ s.portHeld p = false ∧ s.quiet = true) ∧
    (∃ (p : Fin 4) (l : AlignLanes) (s : State), s.lneState p = lneAlign ∧ (s.portSt p).remain ≠ 0 ∧ (s.portSt p).remain &&& l.lock.toNat = (s.portSt p).remain ∧ s.portHeld p = false) ∧
    (∃ (p : Fin 4) (l : AlignLanes) (s : State), s.lneState p = lneAlign ∧ s.portHeld p = false ∧ s.quiet = true) :=
  ⟨⟨0, (wPortL 0 3 { PortSt.init with remain := 3 } [(0, { Lane.init with peerReady := true }), (1, { Lane.init with peerReady := true })]).wr (LNE_LANE_STATUS 0) 0x600002, by decide +kernel⟩,
   ⟨3, ⟨0x7F#8, 0x05#8⟩, wPort 3 4 { PortSt.init with remain := 0x0F }, by decide +kernel⟩,
   ⟨3, ⟨0x70#8, 0x50#8⟩, wPort 3 4 { PortSt.init with remain := 0x1F }, by decide +kernel⟩⟩
end PortTraining

/-! Witnesses for HandshakeCommands. -/
namespace HandshakeCommands
def wPort (p v : Nat) (x : PortSt) : State := { (wUp.wr (LNE_PORT_STATUS p) v) with lne := { Lne.init with ports := [(p, x)] } }
def wHello (id : Nat) : Bytes := ctlBlock (toLe 1 0x78 ++ toLe 1 2 ++ toLe 8 id ++ wBytes [1, 8, 255, 3, 1, 1, 9, 0, 0, 0, 7])
theorem wHello_other : leAt (wHello 0) 2 8 ≠ fusedId ∨ leAt (wHello 1) 2 8 ≠ fusedId := by
  have h0 : leAt (wHello 0) 2 8 = 0 := by decide +kernel
  have h1 : leAt (wHello 1) 2 8 = 1 := by decide +kernel
  omega
theorem wCrc_lt (l : Bytes) : crc16 l < 65536 := by
  have step : ∀ (n : List Nat) (c : Nat), c < 65536 →
      n.foldl (fun c _ => if 0x8000 ≤ c then (2 * c % 0x10000) ^^^ 0x1021 else 2 * c % 0x10000) c < 65536 := by
    intro n
    induction n with
    | nil => exact fun c h => h
    | cons a n ih =>
      intro c h
      rw [List.foldl_cons]
      apply ih
      split
      · exact Nat.xor_lt_two_pow (n := 16) (by omega) (by decide)
      · omega
  have all : ∀ (l : Bytes) (c : Nat), c < 65536 → (l.foldl (fun c b => (List.range 8).foldl (fun c _ =>
      if 0x8000 ≤ c then (2 * c % 0x10000) ^^^ 0x1021 else 2 * c % 0x10000) (c ^^^ (b.toNat * 256))) c) < 65536 := by
    intro l
    induction l with
    | nil => exact fun c h => h
    | cons b l ih =>
      intro c h
      rw [List.foldl_cons]
      exact ih _ (step _ _ (Nat.xor_lt_two_pow (n := 16) (by omega) (by have := b.isLt; omega)))
  exact all l _ (by decide)
theorem wHello_good (id : Nat) : ctlGood (wHello id) = true := by
  have e : ∃ x : Bytes, wHello id = x ++ toLe 2 (crc16 x) ∧ x.length = 30 := ⟨_, rfl, rfl⟩
  obtain ⟨x, hx, hl⟩ := e
  have hs : sub (x ++ toLe 2 (crc16 x)) 0 30 = x := by rw [sub, List.drop_zero, ← hl, List.take_left]
  have ht : leAt (x ++ toLe 2 (crc16 x)) 30 2 = crc16 x := by
    have h := wCrc_lt x
    rw [leAt, sub, ← hl, List.drop_left]
    simp only [toLe, List.take, le, BitVec.toNat_ofNat]
    omega
  have hn : (x ++ toLe 2 (crc16 x)).length = 32 := by rw [List.length_append, hl]; rfl
  rw [hx, ctlGood, hs, ht, hn]
  simp
theorem wLe_toLe (n v : Nat) : le (toLe n v) = v % 256 ^ n := by
  induction n generalizing v with
  | zero => rw [toLe, le, Nat.pow_zero, Nat.mod_one]
  | succ n ih => rw [toLe, le, ih, BitVec.toNat_ofNat, show 256 ^ (n + 1) = 256 * 256 ^ n from Nat.pow_succ', Nat.mod_mul]
theorem wHello_field (a b c d e f : Bytes) (ha : a.length = 1) (hb : b.length = 1) (hc : c.length = 8) :
    leAt ((((a ++ b) ++ c) ++ d ++ e) ++ f) 2 8 = le c := by
  have h : (a ++ b).length = 2 := by simp [ha, hb]
  rw [leAt, sub, List.append_assoc, List.append_assoc, List.append_assoc (a ++ b), ← h, List.drop_left, ← hc, List.take_left]
theorem wHello_id : leAt (wHello fusedId) 2 8 = fusedId := by
  have h : fusedId < 2 ^ 64 := Config.fusedId.isLt
  have e : leAt (wHello fusedId) 2 8 = le (toLe 8 fusedId) := by
    unfold wHello ctlBlock
    rw [padTo]
    exact wHello_field _ _ _ _ _ _ rfl rfl rfl
  rw [e, wLe_toLe]
  exact Nat.mod_eq_of_lt h

def w2_p : Fin 4 := 2
def w2_b : Bytes := wHello 1
def w2_s : State := wPort 2 5 PortSt.init
def w3_p : Fin 4 := 2
def w3_b : Bytes := wHello 1
def w3_s : State := wPort 2 5 { PortSt.init with ackSent := 15, ackGot := true, samples := List.replicate 16 300 }
theorem witnesses_1 :
    (∃ (p : Fin 4) (b : Bytes) (s : State), ctlGood b = true ∧ byteAt b 0 = 0x78 ∧ byteAt b 1 = 2 ∧ s.shaking p = true ∧ s.rdF (LNE_PORT_STATUS p) 6 6 = 0 ∧ ((leAt b 2 8 = fusedId ∨ byteAt b 14 ≠ 1))) ∧
    (∃ (p : Fin 4) (b : Bytes) (s : State), ctlGood b = true ∧ byteAt b 0 = 0x78 ∧ byteAt b 1 = 2 ∧ s.shaking p = true ∧ s.rdF (LNE_PORT_STATUS p) 6 6 = 1) ∧
    (∃ (p : Fin 4) (b : Bytes) (s : State), ctlGood b = true ∧ byteAt b 0 = 0x78 ∧ byteAt b 1 = 2 ∧ s.shaking p = true ∧ s.rdF (LNE_PORT_STATUS p) 6 6 = 0 ∧ leAt b 2 8 ≠ fusedId ∧ byteAt b 14 = 1 ∧ (s.portSt p).ackSent < 15) ∧
    (∃ (p : Fin 4) (b : Bytes) (s : State), ctlGood b = true ∧ byteAt b 0 = 0x78 ∧ byteAt b 1 = 2 ∧ s.shaking p = true ∧ s.rdF (LNE_PORT_STATUS p) 6 6 = 0 ∧ leAt b 2 8 ≠ fusedId ∧ byteAt b 14 = 1 ∧ 15 ≤ (s.portSt p).ackSent ∧ (s.portSt p).ackGot = true ∧ (s.portSt p).samples.length = 16) ∧
    (∃ (p : Fin 4) (s : State), s.lneState p = lneHandshake ∧ s.rdF (LNE_PORT_STATUS p) 6 6 = 0) ∧
    (∃ (p : Fin 4) (s : State), s.lneState p = lneHandshake ∧ s.rdF (LNE_PORT_STATUS p) 5 5 = 1 ∧ s.rdF (LNE_PORT_STATUS p) 6 6 = 0) ∧
    (∃ (p : Fin 4) (s : State), s.rdF (LNE_PORT_STATUS p) 6 6 = 1) ∧
    (∃ (l : Fin 50) (s : State), l.val < 32 ∧ s.lneState (l / 8) = lneActive ∧ bit (s.rdF (LNE_PORT_LANES (l / 8)) 15 8) (l % 8) = 1 ∧ s.rdF (LNE_PORT_STATUS (l / 8)) 19 18 ≠ 2 ∧ s.quiet = true) :=
  ⟨⟨2, wHello fusedId, wPort 2 5 PortSt.init, wHello_good _, rfl, rfl, by decide +kernel, by decide +kernel, Or.inl wHello_id⟩,
   ⟨2, wHello 1, wPort 2 0x45 PortSt.init, wHello_good 1, rfl, rfl, by decide +kernel, by decide +kernel⟩,
   by
  rcases wHello_other with h | h
  · exact ⟨w2_p, wHello 0, w2_s, wHello_good 0, rfl, rfl, by decide +kernel, by decide +kernel, h, by decide +kernel, by decide +kernel⟩
  · exact ⟨w2_p, wHello 1, w2_s, wHello_good 1, rfl, rfl, by decide +kernel, by decide +kernel, h, by decide +kernel, by decide +kernel⟩,
   by
  rcases wHello_other with h | h
  · exact ⟨w3_p, wHello 0, w3_s, wHello_good 0, rfl, rfl, by decide +kernel, by decide +kernel, h, by decide +kernel, by decide +kernel, by decide +kernel, by decide +kernel⟩
  · exact ⟨w3_p, wHello 1, w3_s, wHello_good 1, rfl, rfl, by decide +kernel, by decide +kernel, h, by decide +kernel, by decide +kernel, by decide +kernel, by decide +kernel⟩,
   ⟨2, wPort 2 5 { PortSt.init with silent := 2 }, by decide +kernel⟩,
   ⟨2, wPort 2 0x25 { PortSt.init with silent := 3 }, by decide +kernel⟩,
   ⟨2, wPort 2 0x65 { PortSt.init with silent := 3 }, by decide +kernel⟩,
   ⟨23, (wPort 2 6 PortSt.init).wr (LNE_PORT_LANES 2) 0xFFFF, by decide +kernel⟩⟩
theorem witnesses_2 : ∃ (l : Fin 50) (s : State), 48 ≤ l.val ∧ s.plState (l - 32) = plActive ∧ s.quiet = true := ⟨49, wUp.wr (LNE_PL_STATUS 17) 5, by decide +kernel⟩
end HandshakeCommands

/-! Witnesses for LaneCommands. -/
namespace LaneCommands
def wPort (p v : Nat) (x : PortSt) : State := { (wUp.wr (LNE_PORT_STATUS p) v) with lne := { Lne.init with ports := [(p, x)] } }

theorem witnesses_1 :
    (∃ (l : Fin 50) (s : State), 32 ≤ l.val) ∧
    (∃ (l : Fin 50) (s : State), l.val < 32 ∧ s.lneState (l / 8) ≠ lneDisabled ∧ s.lneState (l / 8) ≠ lneTest ∧ 15 ≤ ((s.lane l).uncorr.filter (fun t => decide (s.now - t < 1600000))).length) ∧
    (∃ (l : Fin 50) (n : Nat) (s : State), 2 ^ 20 < n ∧ s.quiet = true) ∧
    (∃ (l : Fin 50) (n : Nat) (s : State), l.val < 32 ∧ bit (s.portSt (l / 8)).testing (l % 8) = 1) ∧
    (∃ (v : Word) (s : State), s.shut .service LNE_SELFTEST_REQ = false ∧ v.toNat % 64 < 50 ∧ ((∀ q ∈ s.tests, q.kind = 3 → q.idx ≠ v.toNat % 64))) ∧
    (∃ (p : Fin 4) (s : State), s.shut .service (LNE_PORT_CTRL p.val) = false ∧ s.lneState p ≠ lneDisabled ∧ s.lneState p ≠ lneTest) ∧
    (∃ (p : Fin 4) (s : State), s.shut .service (LNE_PORT_CTRL p.val) = false) ∧
    (∃ (p : Fin 4) (s : State), s.shut .service (LNE_PORT_CTRL p.val) = false ∧ s.rdF (LNE_PORT_CTRL p) 0 0 = 1) :=
  ⟨⟨49, wUp, by decide +kernel⟩,
   ⟨31, { (wPort 3 6 PortSt.init) with lne := { Lne.init with lanes := [(31, { Lane.init with uncorr := List.replicate 15 0 })] } }, by decide +kernel⟩,
   ⟨49, 1048577, wUp, by decide +kernel⟩,
   ⟨31, 5, wPort 3 1 { PortSt.init with testing := 0x80 }, by decide +kernel⟩,
   ⟨0x31#32, { wUp with tests := [⟨3, 1, true⟩] }, by decide +kernel⟩,
   ⟨0, wPort 0 6 PortSt.init, by decide +kernel⟩,
   ⟨3, wUp, by decide +kernel⟩,
   ⟨3, wUp.wr (LNE_PORT_STATUS 3) 6, by decide +kernel⟩⟩
theorem witnesses_2 :
    (∃ (p : Fin 4) (s : State), s.shut .service (LNE_PORT_CTRL p.val) = false ∧ s.rdF (LNE_PORT_CTRL p) 0 0 = 0 ∧ s.lneState p = lneDisabled ∧ 2 ≤ s.stageNow ∧ (s.portRole p).role ≠ 0 ∧ s.rdF (LNE_PORT_CTRL p) 1 1 = 0) ∧
    (∃ (p : Fin 4) (s : State), s.shut .service (LNE_PORT_CTRL p.val) = false ∧ s.rdF (LNE_PORT_CTRL p) 1 1 = 0 ∧ (s.claim 5 p 0x0100).2 = true) ∧
    (∃ (p : Fin 4) (s : State), s.shut .service (LNE_PORT_CTRL p.val) = false ∧ s.rdF (LNE_PORT_CTRL p) 1 1 = 1 ∧ ((s.lneState p = lneTest ∨ s.lneState p = lneDisabled))) :=
  ⟨⟨3, (wUp.wr (LNE_PORT_CTRL 3) 0x1800).wr GBL_STATE 2, by decide +kernel⟩,
   ⟨3, wUp.wr (LNE_PORT_STATUS 3) 6, by decide +kernel⟩,
   ⟨3, ((wUp.wr (LNE_PORT_STATUS 3) 7).wr (LNE_PORT_CTRL 3) 0x1803).wr GBL_STATE 2, by decide +kernel⟩⟩
end LaneCommands

/-! Witnesses for LaneTestCommands. -/
namespace LaneTestCommands
def wTestPort : State := wUp.wr (LNE_PORT_CTRL 3) 0x1803

theorem witnesses :
    (∃ (l : Fin 50) (v : Word) (s : State), s.shut .service (LNE_LANE_LOOP l.val) = false ∧ s.testable l = true) ∧
    (∃ (l : Fin 50) (v : Word) (s : State), s.shut .service (LNE_LANE_LOOP l.val) = false ∧ s.testable l = false) ∧
    (∃ (l : Fin 50) (s : State), s.shut .service (LNE_LANE_PRBS_CTRL l.val) = false ∧ s.testable l = true) ∧
    (∃ (l : Fin 50) (s : State), s.shut .service (LNE_LANE_PRBS_CTRL l.val) = false ∧ s.testable l = true ∧ bit (s.rd (LNE_LANE_PRBS_CTRL l)) 0 = 1) ∧
    (∃ (l : Fin 50) (s : State), s.shut .service (LNE_LANE_PRBS_ERR l.val) = false) ∧
    (∃ (l : Fin 50) (s : State), s.shut .service (LNE_LANE_PRBS_BITS_LO l.val) = false) ∧
    (∃ (l : Fin 32) (b : Bytes) (s : State), ctlGood b = true ∧ byteAt b 0 = 0x78 ∧ byteAt b 1 = 3 ∧ bit (byteAt b 2) 0 = 1 ∧ s.rdF (LNE_PORT_CTRL (l / 8)) 3 3 = 1 ∧ lneDetect ≤ s.lneState (l / 8) ∧ s.lneState (l / 8) ≤ lneAlign ∧ (s.lane l).feHeld = false) ∧
    (∃ (l : Fin 32) (s : State), (s.lane l).feHeld = true ∧ s.lneState (l / 8) ≠ lneDisabled ∧ s.lneState (l / 8) ≠ lneTest) :=
  ⟨⟨31, 0x3#32, wTestPort, by decide +kernel⟩,
   ⟨31, 0x3#32, wUp, by decide +kernel⟩,
   ⟨49, (wUp.wr (LNE_LANE_PRBS_ERR 49) 7), by decide +kernel⟩,
   ⟨31, (wTestPort.wr (LNE_LANE_PRBS_CTRL 31) 3).wr (LNE_LANE_LOOP 31) 1, by decide +kernel⟩,
   ⟨31, wTestPort.wr (LNE_LANE_PRBS_ERR 31) 9, by decide +kernel⟩,
   ⟨31, wTestPort, by decide +kernel⟩,
   ⟨31, ctlBlock (wBytes [0x78, 3, 1]), (wUp.wr (LNE_PORT_CTRL 3) 0x1809).wr (LNE_PORT_STATUS 3) 1, by decide +kernel⟩,
   ⟨31, { (wUp.wr (LNE_PORT_STATUS 3) 4) with lne := { Lne.init with lanes := [(31, { Lane.init with feHeld := true })] } }, by decide +kernel⟩⟩
end LaneTestCommands

/-! Witnesses for PortPowerCommands. -/
namespace PortPowerCommands
def wRoles : State := wRun [(0x07, 0, List.replicate (16 + 264 * 3) 0#8 ++ wBytes [1, 8, 0, 2] ++ List.replicate 260 0#8)]
def wPow (v : Nat) (x : PortSt) : State := { ((wRoles.wr (LNE_PORT_STATUS 3) v).wr (LNK_PORT_STATUS 3) 3) with lne := { Lne.init with ports := [(3, x)] } }

theorem witnesses_1 :
    (∃ (p : Fin 4) (s : State), s.mayRest p 1 = true ∧ s.txPower p = 0 ∧ (s.portSt p).txEntry = 0 ∧ s.txIdle p = true) ∧
    (∃ (p : Fin 4) (s : State), s.mayRest p 2 = true ∧ s.txPower p = 1 ∧ (s.portSt p).txEntry = 0) ∧
    (∃ (p : Fin 4) (s : State), s.portActive p = true ∧ s.txPower p = 1 ∧ (s.portSt p).txEntry = 0) ∧
    (∃ (p : Fin 4) (s : State), s.portActive p = true ∧ s.txPower p = 2 ∧ (s.portSt p).txEntry = 0 ∧ (s.portSt p).resident = true) ∧
    (∃ (p : Fin 4) (s : State), s.portActive p = true ∧ (s.portSt p).txEntry = 2) ∧
    (∃ (p : Fin 4) (s : State), s.portActive p = true) ∧
    (∃ (p : Fin 4) (s : State), s.portActive p = true ∧ s.txPower p = 2) ∧
    (∃ (p : Fin 4) (s : State), s.portActive p = true ∧ s.txPower p = 2) :=
  ⟨⟨3, wPow 6 PortSt.init, by decide +kernel⟩,
   ⟨3, wPow 0x10006 PortSt.init, by decide +kernel⟩,
   ⟨3, wPow 0x10006 PortSt.init, by decide +kernel⟩,
   ⟨3, wPow 0x20006 { PortSt.init with resident := true }, by decide +kernel⟩,
   ⟨3, wPow 6 { PortSt.init with txEntry := 2 }, by decide +kernel⟩,
   ⟨3, wPow 6 PortSt.init, by decide +kernel⟩,
   ⟨3, wPow 0x20006 { PortSt.init with wakePend := true }, by decide +kernel⟩,
   ⟨3, wPow 0x20006 PortSt.init, by decide +kernel⟩⟩
theorem witnesses_2 :
    (∃ (p : Fin 4) (s : State), s.portActive p = true ∧ (s.portSt p).waking = true) ∧
    (∃ (p : Fin 4) (s : State), s.portActive p = true ∧ s.rxPower p = 2) ∧
    (∃ (p : Fin 4) (s : State), s.portActive p = true ∧ s.rxPower p = 2 ∧ s.quiet = true) :=
  ⟨⟨3, wPow 0x20006 { PortSt.init with waking := true }, by decide +kernel⟩,
   ⟨3, wPow 0x80006 PortSt.init, by decide +kernel⟩,
   ⟨3, wPow 0x80006 PortSt.init, by decide +kernel, by decide +kernel, rfl⟩⟩
end PortPowerCommands

/-! Witnesses for PanelLaneCommands. -/
namespace PanelLaneCommands
def wPl (m v : Nat) (x : PanelLane) : State := { (wUp.wr (LNE_PL_STATUS m) v) with lne := { Lne.init with panels := [(m, x)] } }

theorem witnesses :
    (∃ (m : Fin 18) (s : State), s.plMayTrain m = true ∧ (s.panelLane m).testing = false ∧ plDetect ≤ s.plState m ∧ s.plState m < plActive) ∧
    (∃ (m : Fin 18) (s : State), m.val < 16 ∧ s.plState m = plActive ∧ (s.panelLane m).await = true ∧ s.quiet = true) ∧
    (∃ (m : Fin 18) (s : State), 16 ≤ m.val ∧ plDetect ≤ s.plState m ∧ s.plState m < plActive ∧ s.quiet = true) ∧
    (∃ (m : Fin 16) (j : Fin 16) (r : Fin 2) (s : State), 3 ≤ (s.panelLane m).polls ∧ s.laneMap j = m.val ∧ s.retMap j = r.val ∧ s.plState (16 + r.val) = plActive ∧ s.plState m = plActive ∧ s.quiet = true) ∧
    (∃ (m : Fin 18) (s : State), s.plState m = plRetry ∧ (s.panelLane m).testing = false ∧ s.plMayTrain m = true) ∧
    (∃ (m : Fin 18) (s : State), s.shut .service (LNE_PL_CTRL m.val) = false ∧ s.plState m = plActive) ∧
    (∃ (m : Fin 18) (s : State), s.shut .service (LNE_PL_CTRL m.val) = false ∧ plDetect ≤ s.plState m ∧ s.plState m < plActive ∧ s.plMayTrain m = true) :=
  ⟨⟨17, wPl 17 4 { PanelLane.init with fails := 3 }, by decide +kernel⟩,
   ⟨15, wPl 15 5 { PanelLane.init with await := true, fails := 2 }, by decide +kernel⟩,
   ⟨17, wPl 17 1 PanelLane.init, by decide +kernel⟩,
   ⟨15, 15, 1, ((wPl 15 5 { PanelLane.init with polls := 3 }).wr (LNE_PL_STATUS 17) 5), by decide +kernel⟩,
   ⟨16, wPl 16 6 PanelLane.init, by decide +kernel⟩,
   ⟨15, wPl 15 5 PanelLane.init, by decide +kernel⟩,
   ⟨15, wPl 15 3 PanelLane.init, by decide +kernel⟩⟩
end PanelLaneCommands

/-! Witnesses for FlitCommands. -/
namespace FlitCommands
def wLnk (x : LinkPort) : State := { ((wUp.wr (LNE_PORT_STATUS 3) 6).wr (LNK_PORT_STATUS 3) 4) with lnk := { Lnk.init with ports := [(3, x)] } }
def wStep : LinkPort := { LinkPort.init with inStep := true, rxNext := 4095 }
def wFlit (seq : Nat) : Bytes := flitBytes seq 3 0 0 false false 20 0xFF [0, 0, 0, 0] (List.replicate 20 7#8)
def wMsgData (n : Nat) : Bytes := toLe 2 1 ++ toLe 2 9 ++ toLe 2 n ++ wBytes [0x11, 1, 255, 0, 1, 2, 3, 4, 0, 0] ++ List.replicate 40 5#8

theorem witnesses_1 :
    (∃ (p : Fin 4) (f : Bytes) (bad : Bool) (s : State), s.portActive p = true ∧ (s.lnkPort p).inStep = true ∧ ((bad = true ∨ f.length ≠ 256 ∨ crc32c (f.take 252) ≠ leAt f 252 4))) ∧
    (∃ (p : Fin 4) (f : Bytes) (s : State), s.portActive p = true ∧ (s.lnkPort p).inStep = true ∧ f.length = 256 ∧ crc32c (f.take 252) = leAt f 252 4 ∧ fld (leAt f 0 2) 15 14 = 0 ∧ bit (leAt f 2 2) 12 = 0 ∧ bit (leAt f 2 2) 13 = 0 ∧ leAt f 0 2 % 4096 = (s.lnkPort p).rxNext ∧ 0 < byteAt f 4 ∧ sget none (s.lnkPort p).rx (fld (leAt f 0 2) 13 12) = none) ∧
    (∃ (p : Fin 4) (f : Bytes) (s : State), s.portActive p = true ∧ (s.lnkPort p).inStep = true ∧ f.length = 256 ∧ crc32c (f.take 252) = leAt f 252 4 ∧ fld (leAt f 0 2) 15 14 = 0 ∧ bit (leAt f 2 2) 12 = 0 ∧ leAt f 0 2 % 4096 ≠ (s.lnkPort p).rxNext ∧ later 12 (leAt f 0 2 % 4096) (s.lnkPort p).rxNext = false) ∧
    (∃ (p : Fin 4) (s : State), s.portActive p = true) ∧
    (∃ (p : Fin 4) (s : State), s.portActive p = true ∧ (s.lnkPort p).nakOut = true) ∧
    (∃ (p : Fin 4) (s : State), s.portActive p = true ∧ ((0 < (s.lnkPort p).ackOwed ∨ (s.lnkPort p).freeOwed = true))) ∧
    (∃ (p : Fin 4) (s : State), s.txMsg p = true ∧ (s.lnkPort p).retry ≠ []) ∧
    (∃ (p : Fin 4) (v : Fin 4) (s : State), sget none (s.lnkPort p).rx v = none ∧ v.val ∉ (s.lnkPort p).resync ∧ 16 ≤ ((s.lnkPort p).unread v).length ∧ ((leAt ((s.lnkPort p).unread v) 4 2 < 16 ∨ 4608 < leAt ((s.lnkPort p).unread v) 4 2))) :=
  ⟨⟨3, [], false, wLnk wStep, by decide +kernel⟩,
   ⟨3, wFlit 4095, wLnk wStep, by decide +kernel⟩,
   ⟨3, wFlit 4094, wLnk wStep, by decide +kernel⟩,
   ⟨3, wLnk LinkPort.init, by decide +kernel⟩,
   ⟨3, wLnk { wStep with nakOut := true }, by decide +kernel⟩,
   ⟨3, wLnk { wStep with freeOwed := true }, by decide +kernel⟩,
   ⟨3, wLnk { wStep with retry := [⟨5, 1, false, 0xFF, [1#8]⟩], noProgress := 16 }, by decide +kernel⟩,
   ⟨3, 1, wLnk { wStep with slots := [⟨1, wMsgData 15, 0, 0, [], none⟩] }, by decide +kernel⟩⟩
theorem witnesses_2 :
    (∃ (p : Fin 4) (v : Fin 4) (s : State), sget none (s.lnkPort p).rx v = none ∧ v.val ∉ (s.lnkPort p).resync ∧ 48 ≤ ((s.lnkPort p).unread v).length ∧ ((s.lnkPort p).unread v).length < leAt ((s.lnkPort p).unread v) 4 2 ∧ leAt ((s.lnkPort p).unread v) 4 2 ≤ 4608 ∧ msgHeaderOk v ((s.lnkPort p).unread v) = true ∧ msgLocal ((s.lnkPort p).unread v) = true ∧ (stagedAt v ((s.lnkPort p).unread v).length (s.lnkPort p).slots).any (fun r => s.rangePoisoned r.1 r.2) = false) ∧
    (∃ (p : Fin 4) (v : Fin 4) (m : RxMsg) (s : State), sget none (s.lnkPort p).rx v = some m ∧ m.started = false ∧ m.route ≠ [] ∧ min 48 m.len ≤ m.data.length) :=
  ⟨⟨3, 1, wLnk { wStep with slots := [⟨1, wMsgData 4608, 0, 0, [], none⟩] }, by decide +kernel⟩,
   ⟨3, 1, ⟨7, 56, [0], false, false, wMsgData 56⟩, wLnk { wStep with rx := [(1, some ⟨7, 56, [0], false, false, wMsgData 56⟩)] }, by decide +kernel⟩⟩
end FlitCommands

/-! Witnesses for CreditCommands. -/
namespace CreditCommands
def wLnk (x : LinkPort) : State := { ((wUp.wr (LNE_PORT_STATUS 3) 6).wr (LNK_PORT_STATUS 3) 4) with lnk := { Lnk.init with ports := [(3, x)] } }
def wSync (id rst next : Nat) : Bytes := toLe 1 2 ++ toLe 1 id ++ toLe 1 rst ++ toLe 1 0 ++ toLe 2 next ++ toLe 2 64 ++ toLe 2 256 ++ toLe 2 16 ++ toLe 2 16 ++ toLe 2 63 ++ toLe 2 256 ++ toLe 2 16 ++ toLe 2 16 ++ List.replicate 14 0#8
def wRetry : LinkPort := { LinkPort.init with inStep := true, txSeq := 6, retry := [⟨5, 1, false, 0xFF, [1#8]⟩], syncing := true, syncId := 200 }

theorem witnesses_1 :
    (∃ (p : Fin 4) (b : Bytes) (s : State), s.portActive p = true ∧ s.syncRepeats p b = true) ∧
    (∃ (p : Fin 4) (b : Bytes) (s : State), s.portActive p = true ∧ s.syncRepeats p b = false ∧ bit (byteAt b 2) 0 = 1) ∧
    (∃ (p : Fin 4) (b : Bytes) (s : State), s.portActive p = true ∧ s.syncRepeats p b = false ∧ bit (byteAt b 2) 0 = 0 ∧ (s.lnkPort p).invalid (leAt b 4 2 % 4096) = false) ∧
    (∃ (p : Fin 4) (b : Bytes) (s : State), s.portActive p = true ∧ s.syncRepeats p b = false ∧ bit (byteAt b 2) 0 = 0 ∧ (s.lnkPort p).invalid (leAt b 4 2 % 4096) = true) ∧
    (∃ (p : Fin 4) (i : Byte) (s : State), s.portActive p = true ∧ (s.lnkPort p).syncing = true ∧ (s.lnkPort p).syncId = i.toNat) ∧
    (∃ (p : Fin 4) (s : State), s.portActive p = true ∧ (s.lnkPort p).syncing = true) ∧
    (∃ (p : Fin 4) (s : State), s.portActive p = true ∧ (s.lnkPort p).syncing = true) ∧
    (∃ (p : Fin 4) (s : State), s.shut .service (LNK_PORT_CTRL p.val) = false ∧ s.portActive p = true) :=
  ⟨⟨3, wSync 9 0 5, wLnk { wRetry with peerSync := some 9 }, by decide +kernel⟩,
   ⟨3, wSync 9 1 5, wLnk wRetry, by decide +kernel⟩,
   ⟨3, wSync 9 0 5, wLnk wRetry, by decide +kernel⟩,
   ⟨3, wSync 9 0 7, wLnk wRetry, by decide +kernel⟩,
   ⟨3, 200#8, wLnk { wRetry with applied := true }, by decide +kernel⟩,
   ⟨3, wLnk wRetry, by decide +kernel⟩,
   ⟨3, wLnk wRetry, by decide +kernel⟩,
   ⟨3, wLnk { wRetry with syncId := 255 }, by decide +kernel⟩⟩
theorem witnesses_2 : ∃ (p : Fin 4) (a : Word) (b : Word) (s : State), s.shut .service (LNK_PORT_ALLOC01 p.val) = false := ⟨3, 0x0FE00010#32, 0x00000010#32, wUp, by decide +kernel⟩
end CreditCommands

/-! Witnesses for TreeCommands. -/
namespace TreeCommands
def wTree (l : Lnk) : State := { ((wUp.wr (LNE_PORT_STATUS 1) 6).wr (LNE_PORT_STATUS 2) 6) with lnk := l }
def wCand : State := { wTree Lnk.init with fpl := { wUp.fpl with plan := some (wPlan [(0x07, 0, wBytes [1, 9] ++ List.replicate 1070 0#8)]) } }
def wBc : Beacon := ⟨3, 0x1122334455667788, 7, 2, 1⟩
def wDisc (base last hops : Nat) : Bytes := List.replicate 16 0#8 ++ wBytes [1, 3, 7, 0] ++ toLe 8 0x1122334455667788 ++ toLe 2 base ++ toLe 2 last ++ toLe 2 0x10 ++ toLe 1 hops ++ List.replicate 13 0#8
def wOff (acc : Bool) (n : Nat) : Offer := ⟨1, 5, acc, n⟩
def wOffer (acc : Bool) (n : Nat) : State := wTree { Lnk.init with best := some { wBc with port := 2 }, offer := some (wOff acc n), newAddr := some 4, nextAddr := 5 }
def wReq (src : Nat) : MgmtReq := ⟨src, 7, wBytes [2, 1, 1, 0, 0x10, 0, 0, 0, 0, 0, 0, 0, 0, 0, 0, 0, 1, 2, 3, 4]⟩
def wMgmt (dst op : Nat) : Bytes := toLe 2 dst ++ toLe 2 9 ++ toLe 2 36 ++ wBytes [0x11, 0, 255, 0, 1, 2, 3, 4, 0, 0, op, 0, 1, 0]

theorem witnesses_1 :
    (∃ (s : State), s.rootCand = false) ∧
    (∃ (s : State), s.rootCand = true ∧ ((s.lnk.best = none ∨ ∃ b, s.lnk.best = some b ∧ b.port ≠ 4 ∧ (b.prio < s.rootPrio ∨ (b.prio = s.rootPrio ∧ fusedId < b.root))))) ∧
    (∃ (s : State), s.rootCand = true ∧ s.isRoot = true) ∧
    (∃ (p : Fin 4) (m : Bytes) (b : Beacon) (s : State), b = ⟨byteAt m 17, leAt m 20 8, leAt m 18 2, byteAt m 34, p⟩ ∧ ((s.lnk.best = none ∨ ∃ c, s.lnk.best = some c ∧ b.better s c = true ∧ (b.root ≠ c.root ∨ b.epoch ≠ c.epoch)))) ∧
    (∃ (p : Fin 4) (m : Bytes) (c : Beacon) (s : State), s.lnk.best = some c ∧ Beacon.better s ⟨byteAt m 17, leAt m 20 8, leAt m 18 2, byteAt m 34, p⟩ c = false) ∧
    (∃ (s : State), s.isRoot = true ∧ s.lnk.newAddr = none) ∧
    (∃ (p : Fin 4) (m : Bytes) (s : State), s.lnk.best.map (·.port) ≠ some p.val) ∧
    (∃ (p : Fin 4) (m : Bytes) (s : State), 0xFFEF < leAt m 28 2 ∧ s.quiet = true) :=
  ⟨⟨wUp, by decide +kernel⟩,
   ⟨wCand, by decide +kernel, Or.inl rfl⟩,
   ⟨{ wCand with lnk := { Lnk.init with best := some { wBc with port := 4 } } }, by decide +kernel⟩,
   ⟨1, wDisc 0 0 2, wBc, wTree Lnk.init, by decide +kernel, Or.inl rfl⟩,
   ⟨2, wDisc 0 0 2, wBc, wTree { Lnk.init with best := some wBc }, by decide +kernel⟩,
   ⟨wTree { Lnk.init with best := some { wBc with port := 4 } }, by decide +kernel⟩,
   ⟨2, wDisc 4 0 2, wTree { Lnk.init with best := some wBc }, by decide +kernel⟩,
   ⟨1, wDisc 0xFFF0 0 2, wTree { Lnk.init with best := some wBc }, by decide +kernel⟩⟩
theorem witnesses_2 :
    (∃ (p : Fin 4) (m : Bytes) (s : State), s.lnk.best.map (·.port) = some p.val ∧ leAt m 28 2 ≤ 0xFFEF ∧ s.lnk.newAddr ≠ some (leAt m 28 2)) ∧
    (∃ (p : Fin 4) (m : Bytes) (o : Offer) (s : State), s.lnk.offer = some o ∧ o.port = p ∧ leAt m 28 2 = o.base) ∧
    (∃ (p : Fin 4) (o : Offer) (s : State), s.lnk.offer = some o ∧ o.port = p) ∧
    (∃ (p : Fin 4) (m : Bytes) (o : Offer) (s : State), s.lnk.offer = some o ∧ o.port = p ∧ o.accepted = true) ∧
    (∃ (s : State), s.shut .service LNK_CTRL = false ∧ s.isRoot = true) ∧
    (∃ (b : Beacon) (s : State), s.shut .service LNK_CTRL = false ∧ s.lnk.best = some b ∧ b.port < 4 ∧ s.portActive b.port = true) ∧
    (∃ (s : State), s.shut .service LNK_CTRL = false ∧ s.lnk.best = none) ∧
    (∃ (o : Offer) (s : State), s.lnk.offer = some o ∧ o.accepted = false ∧ o.tries < 3) :=
  ⟨⟨1, wDisc 0xFFEF 0 2, wTree { Lnk.init with best := some wBc }, by decide +kernel⟩,
   ⟨1, wDisc 5 0 2, wOff false 1, wOffer false 1, by decide +kernel⟩,
   ⟨1, wOff false 1, wOffer false 1, by decide +kernel⟩,
   ⟨1, wDisc 0 9 2, wOff true 1, wOffer true 1, by decide +kernel⟩,
   ⟨wTree { Lnk.init with best := some { wBc with port := 4, epoch := 65535 } }, by decide +kernel⟩,
   ⟨wBc, wTree { Lnk.init with best := some wBc }, by decide +kernel⟩,
   ⟨wTree Lnk.init, by decide +kernel⟩,
   ⟨wOff false 2, wOffer false 2, by decide +kernel⟩⟩
theorem witnesses_3 :
    (∃ (o : Offer) (s : State), s.lnk.offer = some o ∧ o.accepted = false ∧ 3 ≤ o.tries ∧ s.quiet = true) ∧
    (∃ (o : Offer) (s : State), s.lnk.offer = some o ∧ o.accepted = true ∧ o.tries < 3) ∧
    (∃ (o : Offer) (s : State), s.lnk.offer = some o ∧ o.accepted = true ∧ 3 ≤ o.tries ∧ s.quiet = true) ∧
    (∃ (m : Bytes) (s : State), leAt m 0 2 ≠ 0xFFFF ∧ s.lnk.mgmt.length < 16) ∧
    (∃ (m : Bytes) (s : State), leAt m 0 2 ≠ 0xFFFF ∧ 16 ≤ s.lnk.mgmt.length) ∧
    (∃ (m : Bytes) (s : State), leAt m 0 2 = 0xFFFF ∧ mgmtBroadcastOk m = false ∧ s.quiet = true ∧ s.lnk.said.contains (Ev.LNK_MSG_INVALID, 4) = false) ∧
    (∃ (m : Bytes) (s : State), leAt m 0 2 = 0xFFFF ∧ mgmtBroadcastOk m = false ∧ s.lnk.said.contains (Ev.LNK_MSG_INVALID, 4) = true) ∧
    (∃ (q : MgmtReq) (l : List MgmtReq) (s : State), s.lnk.mgmt = q :: l ∧ s.deaf = false ∧ 2 ≤ s.stageNow ∧ byteAt q.body 0 = 2 ∧ bit (byteAt q.body 1) 0 = 1 ∧ leAt q.body 2 2 = 1 ∧ leAt q.body 4 5 < 2 ^ 32 ∧ leAt q.body 4 5 % 4 = 0 ∧ 20 ≤ q.body.length ∧ ((0xFFF0 ≤ q.src ∧ q.src ≤ 0xFFFE ∨ s.rdF LNK_CTRL 1 1 = 1))) :=
  ⟨⟨wOff false 3, wOffer false 3, by decide +kernel⟩,
   ⟨wOff true 2, wOffer true 2, by decide +kernel⟩,
   ⟨wOff true 3, wOffer true 3, by decide +kernel⟩,
   ⟨wMgmt 1 1, wUp, by decide +kernel⟩,
   ⟨wMgmt 1 1, { wUp with lnk := { Lnk.init with mgmt := List.replicate 16 ⟨1, 2, []⟩ } }, by decide +kernel⟩,
   ⟨wMgmt 0xFFFF 1, wUp, by decide +kernel⟩,
   ⟨wMgmt 0xFFFF 1, { wUp with lnk := { Lnk.init with said := [(Ev.LNK_MSG_INVALID, 4)] } }, by decide +kernel⟩,
   ⟨wReq 0xFFF0, [], { (wUp.wr GBL_STATE 2) with lnk := { Lnk.init with mgmt := [wReq 0xFFF0] } }, by decide +kernel⟩⟩
theorem witnesses_4 : ∃ (q : MgmtReq) (l : List MgmtReq) (s : State), s.lnk.mgmt = q :: l ∧ s.deaf = false ∧ 2 ≤ s.stageNow ∧ byteAt q.body 0 = 2 ∧ leAt q.body 2 2 = 1 ∧ leAt q.body 4 5 % 4 = 0 ∧ 20 ≤ q.body.length ∧ q.src < 0xFFF0 ∧ s.rdF LNK_CTRL 1 1 = 0 ∧ s.quiet = true := ⟨wReq 0xFFEF, [], { (wUp.wr GBL_STATE 2) with lnk := { Lnk.init with mgmt := [wReq 0xFFEF] } }, by decide +kernel, by decide +kernel, by decide +kernel, by decide +kernel, by decide +kernel, by decide +kernel, by decide +kernel, by decide +kernel, by decide +kernel, rfl⟩
end TreeCommands

/-! Witnesses for TickMasterCommands. -/
namespace TickMasterCommands
def wTick (id rank : Nat) : Bytes := wHead ++ tickBody 9 2 rank 0 13333333 100 id
theorem wOther : leAt (wTick 0 0) 36 8 ≠ fusedId ∨ leAt (wTick 1 0) 36 8 ≠ fusedId := by
  have h0 : leAt (wTick 0 0) 36 8 = 0 := by decide +kernel
  have h1 : leAt (wTick 1 0) 36 8 = 1 := by decide +kernel
  omega
def wFollow : State := let s := (wRun []).wr GBL_STATE 5; { s with fpl := { s.fpl with src := 0, frame := 8 }, now := 500000 }
def wCand (w : Wal) : State := let s := wFollow.wr FPL_TICK_SRC 0x102; { s with wal := w }
def wGen (w : Wal) : State := let s := wFollow.wr FPL_TICK_SRC 0x101; { s with wal := w }

def w2_p : Fin 4 := 2
def w2_m : Bytes := wTick 1 0
def w2_s : State := { wFollow with fpl := { wFollow.fpl with frame := 9 } }
def w3_p : Fin 4 := 2
def w3_m : Bytes := wTick 1 0
def w3_s : State := wFollow
def w4_p : Fin 4 := 2
def w4_m : Bytes := wTick 1 0
def w4_s : State := wFollow.wr WAL_STATUS 0x102
theorem witnesses_1 :
    (∃ (p : Fin 4) (m : Bytes) (s : State), ((s.alone = true ∨ leAt m 36 8 = fusedId))) ∧
    (∃ (p : Fin 4) (m : Bytes) (s : State), s.wal.seenTick.any (fun e => e.1 == leAt m 36 8 && e.2.1 == leAt m 16 6) = true) ∧
    (∃ (p : Fin 4) (m : Bytes) (s : State), s.alone = false ∧ leAt m 36 8 ≠ fusedId ∧ s.wal.seenTick.any (fun e => e.1 == leAt m 36 8 && e.2.1 == leAt m 16 6) = false ∧ s.isMaster = false ∧ s.isCommitRoot = false ∧ ((s.wal.master = none ∨ s.wal.master = some (byteAt m 23, leAt m 36 8))) ∧ leAt m 16 6 = s.fpl.frame) ∧
    (∃ (p : Fin 4) (m : Bytes) (s : State), s.alone = false ∧ leAt m 36 8 ≠ fusedId ∧ s.wal.seenTick.any (fun e => e.1 == leAt m 36 8 && e.2.1 == leAt m 16 6) = false ∧ s.isMaster = false ∧ s.isCommitRoot = false ∧ ((s.wal.master = none ∨ s.wal.master = some (byteAt m 23, leAt m 36 8))) ∧ leAt m 16 6 = s.fpl.frame + 1) ∧
    (∃ (p : Fin 4) (m : Bytes) (s : State), s.alone = false ∧ leAt m 36 8 ≠ fusedId ∧ s.wal.seenTick.any (fun e => e.1 == leAt m 36 8 && e.2.1 == leAt m 16 6) = false ∧ s.isMaster = true ∧ byteAt m 23 < s.rdF WAL_STATUS 9 8 ∧ s.quiet = true) ∧
    (∃ (k : Nat) (r : Nat) (s : State), s.masterRank = some (k, r) ∧ s.stageNow = 5 ∧ s.isMaster = false ∧ s.alone = false ∧ s.wal.used = false ∧ s.wal.early = none ∧ 3 * max 1 k ≤ s.wal.heardAge ∧ s.quiet = true) ∧
    (∃ (s : State), ((s.masterRank = none ∨ s.wal.used = true))) ∧
    (∃ (s : State), s.tracksGenlock = false) :=
  ⟨⟨2, wTick 1 0, wUp, by decide +kernel⟩,
   ⟨2, wTick 1 0, { wFollow with wal := { Wal.init with seenTick := [(1, 9, 3)] } }, by decide +kernel⟩,
   by
  rcases wOther with h | h
  · exact ⟨w2_p, wTick 0 0, w2_s, by decide +kernel, h, by decide +kernel, by decide +kernel, by decide +kernel, by decide +kernel, by decide +kernel⟩
  · exact ⟨w2_p, wTick 1 0, w2_s, by decide +kernel, h, by decide +kernel, by decide +kernel, by decide +kernel, by decide +kernel, by decide +kernel⟩,
   by
  rcases wOther with h | h
  · exact ⟨w3_p, wTick 0 0, w3_s, by decide +kernel, h, by decide +kernel, by decide +kernel, by decide +kernel, by decide +kernel, by decide +kernel⟩
  · exact ⟨w3_p, wTick 1 0, w3_s, by decide +kernel, h, by decide +kernel, by decide +kernel, by decide +kernel, by decide +kernel, by decide +kernel⟩,
   by
  rcases wOther with h | h
  · exact ⟨w4_p, wTick 0 0, w4_s, by decide +kernel, h, by decide +kernel, by decide +kernel, by decide +kernel, by decide +kernel⟩
  · exact ⟨w4_p, wTick 1 0, w4_s, by decide +kernel, h, by decide +kernel, by decide +kernel, by decide +kernel, by decide +kernel⟩,
   ⟨0, 2, wCand { Wal.init with heardAge := 3 }, by decide +kernel⟩,
   ⟨{ wUp with wal := { Wal.init with used := true } }, by decide +kernel⟩,
   ⟨wUp, by decide +kernel⟩⟩
theorem witnesses_2 :
    (∃ (s : State), s.tracksGenlock = true ∧ s.wal.edge = none) ∧
    (∃ (v : Nat) (s : State), s.tracksGenlock = true ∧ s.wal.edge = some v ∧ s.edgeFits v = true) ∧
    (∃ (v : Nat) (s : State), s.tracksGenlock = true ∧ s.wal.edge = some v ∧ s.edgeFits v = false ∧ s.wal.lastEdge = some v) ∧
    (∃ (v : Nat) (x : Nat) (s : State), s.tracksGenlock = true ∧ s.wal.edge = some v ∧ s.edgeFits v = false ∧ s.wal.lastEdge = some x ∧ x ≠ v ∧ s.edgeFits x = true) ∧
    (∃ (s : State), s.tracksGenlock = true) :=
  ⟨⟨wGen { Wal.init with next := 13833333 }, by decide +kernel⟩,
   ⟨500000, { wGen { Wal.init with edge := some 500000, lastEdge := some 500000, goodEdges := 15 } with now := 500000 + (wGen Wal.init).genlockDiv * (wGen Wal.init).nomTick }, by decide +kernel⟩,
   ⟨500000, { wGen { Wal.init with edge := some 500000, lastEdge := some 500000, badEdges := 2 } with now := 500100 }, by decide +kernel⟩,
   ⟨500000, 600000, { wGen { Wal.init with edge := some 500000, lastEdge := some 600000, badEdges := 1 } with now := 600000 + (wGen Wal.init).genlockDiv * (wGen Wal.init).nomTick }, by decide +kernel⟩,
   ⟨(wGen { Wal.init with badEdges := 2 }).wr WAL_STATUS 2, by decide +kernel⟩⟩
end TickMasterCommands

/-! Witnesses for CommitCommands. -/
namespace CommitCommands
def wFol : State := let s := (wRun []).wr GBL_STATE 5; { s with fpl := { s.fpl with src := 0, frame := 8 }, now := 500000 }
def wDec (frame : Nat) : Bytes := wHead ++ Decision.body ⟨frame, 1, 0, 9, 3, 0, 0xFFFF, 0, 2, 77, 0⟩
def wVoteMsg (frame : Nat) : Bytes := wHead ++ Vote.body ⟨true, false, true, 9, 9, 1, 0, 0xFFFF⟩ frame 77
def wMem (st : Nat) : Bytes := wHead ++ toLe 1 st ++ toLe 31 0
def wCom : State := { wFol with fpl := { wFol.fpl with committed := true } }
def wSec (v : Nat) : Bytes := (List.replicate 1 0#8 ++ [1#8] ++ List.replicate 78 0#8) ++ toLe 8 v
def wRoot (w : Wal) : State := let s := (wRun [(0x0D, 0, wSec fusedId)]).wr GBL_STATE 5; { s with fpl := { s.fpl with src := 0, frame := 8 }, wal := w }
theorem wLe_toLe (n v : Nat) : le (toLe n v) = v % 256 ^ n := by
  induction n generalizing v with
  | zero => rw [toLe, le, Nat.pow_zero, Nat.mod_one]
  | succ n ih => rw [toLe, le, ih, BitVec.toNat_ofNat, show 256 ^ (n + 1) = 256 * 256 ^ n from Nat.pow_succ', Nat.mod_mul]
theorem wSec_id (v : Nat) (h : v < 2 ^ 64) : leAt (wSec v) 80 8 = v := by
  have hl : (List.replicate 1 0#8 ++ [1#8] ++ List.replicate 78 0#8).length = 80 := by decide
  rw [leAt, sub, wSec, ← hl, List.drop_left, List.take_of_length_le (by rfl), wLe_toLe]
  exact Nat.mod_eq_of_lt h
theorem wRoot_rank (w : Wal) : (wRoot w).rootRank = some 0 := by
  have e : (wRoot w).commitSec = wSec fusedId := rfl
  have b : min 4 (byteAt (wSec fusedId) 1) = 1 := rfl
  rw [State.rootRank, e]
  simp only [b]
  simp [List.range, List.range.loop, wSec_id fusedId Config.fusedId.isLt]

theorem witnesses_1 :
    (∃ (p : Fin 4) (m : Bytes) (s : State), s.alone = true) ∧
    (∃ (p : Fin 4) (m : Bytes) (s : State), s.alone = false ∧ s.fpl.frame < leAt m 16 6 ∧ s.wal.decision = none ∧ s.wal.seenDec.any (fun e => e.1 == leAt m 36 8 && e.2.1 == leAt m 16 6) = false) ∧
    (∃ (p : Fin 4) (m : Bytes) (s : State), s.alone = false ∧ leAt m 16 6 = s.fpl.frame ∧ s.wal.seenDec.any (fun e => e.1 == leAt m 36 8 && e.2.1 == leAt m 16 6) = false ∧ s.quiet = true) ∧
    (∃ (p : Fin 4) (m : Bytes) (s : State), s.alone = false ∧ (if s.fpl.committed then s.wal.votePort else s.commitParent) ≠ some p.val ∧ s.wal.closed = false ∧ leAt m 16 6 = s.fpl.frame + 1 ∧ ((∀ e ∈ s.wal.children, e.1 = p.val → e.2.addr ≠ leAt m 2 2))) ∧
    (∃ (p : Fin 4) (m : Bytes) (s : State), s.alone = false ∧ (if s.fpl.committed then s.wal.votePort else s.commitParent) ≠ some p.val ∧ ((s.wal.closed = true ∨ leAt m 16 6 ≤ s.fpl.frame)) ∧ ((∀ e ∈ s.wal.children, e.1 = p.val → e.2.addr ≠ leAt m 2 2))) ∧
    (∃ (m : Bytes) (s : State), s.alone = false ∧ byteAt m 16 = 2 ∧ s.rdF WAL_CTRL 1 1 = 0) ∧
    (∃ (m : Bytes) (s : State), s.alone = false ∧ byteAt m 16 = 1) ∧
    (∃ (s : State), s.alone = false ∧ s.fpl.committed = true ∧ s.wal.closed = false) :=
  ⟨⟨2, wDec 9, wUp, by decide +kernel⟩,
   ⟨2, wDec 9, wFol, by decide +kernel⟩,
   ⟨2, wDec 8, wFol, by decide +kernel⟩,
   ⟨2, wVoteMsg 9, wFol, by decide +kernel⟩,
   ⟨2, wVoteMsg 8, wFol, by decide +kernel⟩,
   ⟨wMem 2, wFol, by decide +kernel⟩,
   ⟨wMem 1, wFol, by decide +kernel⟩,
   ⟨{ wCom with wal := { Wal.init with vote := some ⟨true, false, true, 9, 9, 1, 0, 0xFFFF⟩, votePort := some 1 } }, by decide +kernel⟩⟩
theorem witnesses_2 :
    (∃ (s : State), s.isCommitRoot = true ∧ s.wal.decides = true ∧ s.fpl.committed = true ∧ s.wal.voted = false ∧ s.alone = false ∧ s.wal.decision = none) ∧
    (∃ (k : Nat) (s : State), s.rootRank = some k ∧ s.stageNow = 5 ∧ s.isCommitRoot = false ∧ s.alone = false ∧ s.wal.decision = none ∧ 2 * max 1 k ≤ s.wal.missed ∧ s.quiet = true) ∧
    (∃ (s : State), ((s.rootRank = none ∨ s.wal.decision.isSome = true))) :=
  ⟨⟨{ wCom.wr WAL_STATUS 4 with wal := { wCom.wal with decides := true } }, by decide +kernel⟩,
   ⟨0, wRoot { Wal.init with missed := 2 }, wRoot_rank _, by decide +kernel, by decide +kernel, by decide +kernel, by decide +kernel, by decide +kernel, by decide +kernel⟩,
   ⟨wUp, by decide +kernel⟩⟩
end CommitCommands

/-! Witnesses for BurinRingWrites. -/
namespace BurinRingWrites
theorem witnesses_1 :
    (∃ (v : Word) (s : State), s.shut .service BUR_TAIL = false ∧ s.burRestart.burSize ≤ v.toNat) ∧
    (∃ (v : Word) (s : State), s.shut .service BUR_TAIL = false ∧ v.toNat < s.burRestart.burSize) ∧
    (∃ (s : State), s.bur.held = []) ∧
    (∃ (v : Word) (w : Word) (s : State), s.shut .service BUR_TAIL = false ∧ s.bur.held = [.size w.toNat] ∧ s.rdF BUR_CTRL 0 0 = 0 ∧ pow2In w.toNat 16 4096 = true ∧ v.toNat < w.toNat) ∧
    (∃ (v : Word) (s : State), s.shut .service BUR_RING_SIZE = false ∧ s.burStopped = false ∧ s.rdF BUR_CTRL 0 0 = 0 ∧ pow2In v.toNat 16 4096 = false) ∧
    (∃ (v : Word) (s : State), s.shut .service BUR_RING_SIZE = false ∧ s.burStopped = false ∧ s.rdF BUR_CTRL 0 0 = 0 ∧ pow2In v.toNat 16 4096 = true) ∧
    (∃ (n : Nat) (s : State), s.bur.run = none ∧ s.rdF BUR_STATUS 2 2 = 1) ∧
    (∃ (who : Requester) (a : BitVec 32) (v : Word) (s : State), s.burStopped = false ∧ s.rdF BUR_CTRL 0 0 = 1 ∧ a.toNat ∈ [BUR_RING_LO, BUR_RING_HI, BUR_RING_SIZE, BUR_STAT_LO, BUR_STAT_HI]) :=
  ⟨⟨16, wUp, by decide +kernel⟩,
   ⟨15, wUp, by decide +kernel⟩,
   ⟨wUp.wr BUR_STATUS 8, by decide +kernel⟩,
   ⟨5, 32, { wUp.wr BUR_STATUS 8 with bur := { wUp.bur with held := [.size 32] } }, by decide +kernel⟩,
   ⟨24, wUp, by decide +kernel⟩,
   ⟨4096, wUp.wr BUR_STATUS 4, by decide +kernel⟩,
   ⟨3, wUp.wr BUR_STATUS 4, by decide +kernel⟩,
   ⟨.fabric 5, BitVec.ofNat 32 BUR_STAT_LO, 64, wUp.wr BUR_CTRL 1, by decide +kernel⟩⟩
theorem witnesses_2 :
    (∃ (v : Word) (s : State), s.shut .service BUR_RING_SIZE = false ∧ s.shut .service BUR_RING_LO = false ∧ s.burStopped = false ∧ s.rdF BUR_CTRL 0 0 = 1) ∧
    (∃ (v : Word) (s : State), s.shut .service BUR_RING_SIZE = false ∧ s.shut .service BUR_RING_LO = false ∧ s.burStopped = true) ∧
    (∃ (v : Word) (s : State), s.shut .service BUR_RING_LO = false ∧ s.burStopped = false ∧ s.rdF BUR_CTRL 0 0 = 0) :=
  ⟨⟨5, wUp.wr BUR_CTRL 1, by decide +kernel⟩,
   ⟨5, wUp.wr BUR_STATUS 8, by decide +kernel⟩,
   ⟨0x1040, wUp.wr BUR_HEAD 3, by decide +kernel⟩⟩
end BurinRingWrites

/-! Witnesses for BurinCommands. -/
namespace BurinCommands
def wBurDram : State := (((((wUp.wr DMC_CONFIG 0x0801).wr DMC_STATUS 1).wr DMC_OP 0x302).wr BUR_RING_LO 0xFF000000).wr BUR_RING_HI 0x11).wr BUR_STAT_LO 0xFF002000 |>.wr BUR_STAT_HI 0x11
-- a command with an 8 by 2 rectangle of C8 pixels at 0x11_FF00_4000, a source at 0x11_FF00_8000
def wBurCmd (op src : Nat) : Bytes :=
  toLe 8 (op + 2 * 2 ^ 12 + src * 2 ^ 16 + 7 * 2 ^ 24 + 1 * 2 ^ 38) ++ toLe 8 (0x11FF004000 / 64) ++
    toLe 8 (if op = 1 then 0xAB else 0x11FF008000 / 64) ++ toLe 8 0
def wBurAt (b : Bytes) : State := ((wBurDram.wr BUR_CTRL 1).wr BUR_TAIL 2).memSet 0x11FF000000 b
def wBurRun (b : Bytes) (n : Nat) : State := { wBurDram with bur := { Bur.init with run := some ⟨0, b, n⟩ } }

theorem witnesses_1 :
    (∃ (s : State), s.burFetchOk = true ∧ (burCmd s.burNext).op = 0 ∧ (burCmd s.burNext).invalid = false) ∧
    (∃ (s : State), s.burFetchOk = true ∧ 3 < (burCmd s.burNext).op) ∧
    (∃ (c : Instr) (s : State), s.burFetchOk = true ∧ ((c = .burFill 0 ∧ (burCmd s.burNext).op = 1 ∨ c = .burCopy 0 ∧ (burCmd s.burNext).op = 2 ∨ c = .burStipple 0 ∧ (burCmd s.burNext).op = 3))) ∧
    (∃ (r : BurRun) (y : Nat) (x0 : Nat) (x1 : Nat) (s : State), s.bur.run = some r ∧ r.seg + 1 < (burCmd r.cmd).segments ∧ (burCmd r.cmd).segment r.seg = (y, x0, x1) ∧ ((∀ q ∈ (burCmd r.cmd).reads y x0 x1, s.rangeMay clBurin q.1 q.2 = true ∧ s.rangePoisoned q.1 q.2 = false)) ∧ s.rangeMay clBurin ((burCmd r.cmd).writes y x0 x1).1 ((burCmd r.cmd).writes y x0 x1).2 = true) ∧
    (∃ (r : BurRun) (s : State), s.bur.run = some r ∧ (burCmd r.cmd).op = 1 ∧ (burCmd r.cmd).segments ≤ r.seg) ∧
    (∃ (n : Nat) (s : State), s.bur.run = none ∧ s.rdF BUR_STATUS 1 1 = 1) ∧
    (∃ (s : State), s.shut .service BUR_CTRL = false ∧ s.burStopped = false) ∧
    (∃ (r : BurRun) (s : State), s.shut .service BUR_CTRL = false ∧ s.burStopped = false ∧ s.bur.run = some r ∧ r.slot < 4096) :=
  ⟨⟨wBurAt (toLe 8 0 ++ toLe 24 0), by decide +kernel⟩,
   ⟨wBurAt (toLe 8 9 ++ toLe 24 0), by decide +kernel⟩,
   ⟨.burFill 0, wBurAt (wBurCmd 1 0), by decide +kernel⟩,
   ⟨⟨0, wBurCmd 1 0, 0⟩, 0, 0, 8, wBurRun (wBurCmd 1 0) 0, by decide +kernel⟩,
   ⟨⟨0, wBurCmd 1 0, 2⟩, wBurRun (wBurCmd 1 0) 2, by decide +kernel⟩,
   ⟨3, wUp.wr BUR_STATUS 2, by decide +kernel⟩,
   ⟨wUp, by decide +kernel⟩,
   ⟨⟨5, wBurCmd 2 2, 1⟩, { wBurDram with bur := { Bur.init with run := some ⟨5, wBurCmd 2 2, 1⟩ } }, by decide +kernel⟩⟩
theorem witnesses_2 :
    (∃ (s : State), s.shut .service BUR_CTRL = false ∧ s.burStopped = false ∧ s.bur.run = none) ∧
    (∃ (s : State), s.shut .service BUR_CTRL = false ∧ s.burStopped = false) ∧
    (∃ (s : State), s.shut .service BUR_CTRL = false ∧ s.burStopped = false) ∧
    (∃ (en : Bool) (s : State), s.shut .service BUR_CTRL = false ∧ s.burStopped = true) ∧
    (∃ (s : State), s.burReady = true ∧ s.burFetchOk = false) :=
  ⟨⟨wUp, by decide +kernel⟩,
   ⟨wUp, by decide +kernel⟩,
   ⟨wBurRun (wBurCmd 1 0) 1, by decide +kernel⟩,
   ⟨true, wUp.wr BUR_STATUS 8, by decide +kernel⟩,
   ⟨(wBurAt (wBurCmd 1 0)).wr BUR_RING_HI 0x13, by decide +kernel⟩⟩
end BurinCommands

/-! Witnesses for HostAccess. -/
namespace HostAccess
def wAns : State := wUp.wr GBL_STATE 2
def wDramH : State := (((wUp.wr DMC_CONFIG 0x0801).wr DMC_STATUS 1).wr DMC_OP 0x302).wr GBL_STATE 3

theorem witnesses_1 :
    (∃ (who : Requester) (a : BitVec 32) (v : Word) (st : Nat) (s : State), s.deaf = false ∧ ((who = .service ∨ 2 ≤ s.stageNow)) ∧ s.regGate a.toNat = some st) ∧
    (∃ (who : Requester) (a : BitVec 32) (v : Word) (s : State), s.deaf = true) ∧
    (∃ (who : Requester) (a : BitVec 32) (v : Word) (r : Nat) (m : Nat) (s : State), s.deaf = false ∧ ((who = .service ∨ 2 ≤ s.stageNow)) ∧ a.toNat ∈ [GBL_IRQ_MASK, GBL_EVT_CTRL, GBL_EVT_DEST] ∧ regInfo a.toNat = some ⟨.rw, r, m⟩) ∧
    (∃ (a : BitVec 32) (w : Word) (ws : List Word) (cut : Bool) (st : Nat) (s : State), s.deaf = false ∧ s.regGate a.toNat = some st) ∧
    (∃ (w : Word) (x : Word) (cut : Bool) (s : State), s.deaf = false) ∧
    (∃ (a : BitVec 32) (n : Nat) (cut : Bool) (st : Nat) (s : State), s.deaf = false ∧ s.regGate a.toNat = some st ∧ 0 < n) ∧
    (∃ (cut : Bool) (s : State), s.deaf = false) ∧
    (∃ (a : BitVec 40) (ws : List Word) (n : Nat) (cut : Bool) (late : Option Nat) (s : State), s.deaf = false ∧ a.toNat % 4 ≠ 0) :=
  ⟨⟨.service, 0x100000#32, 7#32, 1, wAns, by decide +kernel⟩,
   ⟨.fabric 3#16, 0x20#32, 7#32, State.reset, by decide +kernel⟩,
   ⟨.fabric 3#16, 0x28#32, 7#32, 0, 0xFFFFFFFF, wAns, by decide +kernel⟩,
   ⟨0x100000#32, 5#32, [6#32, 7#32], true, 1, wAns, by decide +kernel⟩,
   ⟨5#32, 6#32, true, wAns, by decide +kernel⟩,
   ⟨0x100000#32, 3, true, 1, wAns, by decide +kernel⟩,
   ⟨true, wAns, by decide +kernel⟩,
   ⟨0x1000000002#40, [1#32], 3, true, some 1, wAns, by decide +kernel⟩⟩
theorem witnesses_2 :
    (∃ (a : BitVec 40) (w : Word) (s : State), s.deaf = false ∧ a.toNat % 4 = 0 ∧ inGranary a.toNat = false ∧ 3 ≤ s.stageNow ∧ s.mapped a.toNat = true ∧ s.inRing a.toNat = false) ∧
    (∃ (a : BitVec 40) (w : Word) (s : State), s.deaf = false ∧ a.toNat % 4 = 0 ∧ inGranary a.toNat = false ∧ s.stageNow < 3) ∧
    (∃ (s : State), s.deaf = false) ∧
    (∃ (s : State), s.deaf = false) ∧
    (∃ (c : Instr) (who : Requester) (a : Nat) (s : State), gateOf c = some (who, a) ∧ s.shut who a = true) ∧
    (∃ (a : BitVec 32) (n : Nat) (m : List Bool), m.length = 64 + 32 * n) ∧
    (∃ (a : BitVec 40) (n : Nat) (m : List Bool), m.length = 256 + 32 * n) :=
  ⟨⟨0x11FF000040#40, 0x12345678#32, wDramH, by decide +kernel⟩,
   ⟨0x11FF000040#40, 5#32, wAns, by decide +kernel⟩,
   ⟨wAns, by decide +kernel⟩,
   ⟨wAns, by decide +kernel⟩,
   ⟨.burTailWrite 5, .service, BUR_TAIL, State.reset, by decide +kernel⟩,
   ⟨0x20#32, 1, List.replicate 96 false, by decide +kernel⟩,
   ⟨0x11FF000040#40, 1, List.replicate 288 false, by decide +kernel⟩⟩
end HostAccess

/-! Witnesses for GlobalCommands. -/
namespace GlobalCommands
def wGst (n : Nat) : State := wUp.wr GBL_STATE n

theorem witnesses_1 :
    (∃ (n : Fin 16) (v : Word) (s : State), s.shut .service (GBL_GPIO_OWN n.val) = false ∧ v.toNat % 2 ^ 16 = fnSoftware ∧ ((s.mayClaim 1 n fnSoftware = true ∨ s.outbids 1 n fnSoftware = true)) ∧ s.claimsOk = true) ∧
    (∃ (n : Fin 16) (v : Word) (s : State), s.shut .service (GBL_GPIO_OWN n.val) = false ∧ v.toNat % 2 ^ 16 = fnSoftware ∧ s.mayClaim 1 n fnSoftware = false ∧ s.outbids 1 n fnSoftware = false) ∧
    (∃ (n : Fin 16) (v : Word) (s : State), s.shut .service (GBL_GPIO_OWN n.val) = false ∧ v.toNat % 2 ^ 16 = 0) ∧
    (∃ (n : Fin 16) (v : Word) (s : State), s.shut .service (GBL_GPIO_OWN n.val) = false ∧ v.toNat % 2 ^ 16 ≠ fnSoftware ∧ v.toNat % 2 ^ 16 ≠ 0) ∧
    (∃ (v : Word) (s : State), s.shut .service GBL_EVQ_RD = false ∧ s.evPresent (v.toNat % ringSize) = true) ∧
    (∃ (v : Word) (s : State), s.shut .service GBL_EVQ_RD = false ∧ s.evPresent (v.toNat % ringSize) = false) ∧
    (∃ (s : State), s.shut .service GBL_EVQ_LOST = false) ∧
    (∃ (s : State), (s.rdF GBL_EVT_CTRL 0 0 = 0 ∨ s.stageNow < 2)) :=
  ⟨⟨3, 0x30100#32, wUp, by decide +kernel⟩,
   ⟨3, 0x100#32, { wUp with fpl := { wUp.fpl with claims := [⟨1, 3, 0x101⟩] } }, by decide +kernel⟩,
   ⟨3, 0x10000#32, { wUp with fpl := { wUp.fpl with claims := [⟨1, 3, 0x100⟩, ⟨2, 3, 5⟩] } }, by decide +kernel⟩,
   ⟨3, 0x101#32, wUp, by decide +kernel⟩,
   ⟨4#32, { (wUp.wr GBL_EVQ_WR 5) with ev := { wUp.ev with present := 1 } }, by decide +kernel⟩,
   ⟨3#32, { (wUp.wr GBL_EVQ_WR 5) with ev := { wUp.ev with present := 1 } }, by decide +kernel⟩,
   ⟨wUp.wr GBL_EVQ_LOST 5, by decide +kernel⟩,
   ⟨wUp, by decide +kernel⟩⟩
theorem witnesses_2 :
    (∃ (s : State), s.rdF GBL_EVT_CTRL 0 0 = 1 ∧ s.rdF GBL_EVT_CTRL 1 1 = 0 ∧ 2 ≤ s.stageNow ∧ s.rdF LNK_STATUS 16 16 = 0 ∧ s.ev.sndUnread ≠ 0) ∧
    (∃ (f : Bool) (s : State), s.stageNow < 2) ∧
    (∃ (x : LogItem) (l : List LogItem) (s : State), s.ev.flashPend = x :: l ∧ 2 ≤ s.stageNow) :=
  ⟨⟨{ ((wGst 2).wr GBL_EVT_CTRL 0x14201) with ev := { wUp.ev with sndUnread := 3, sndLost := 4, sndOverflow := true } }, by decide +kernel⟩,
   ⟨false, wGst 1, by decide +kernel⟩,
   ⟨.boot 1 2 3, [.dramRetire 4 5], { (wGst 2) with ev := { wUp.ev with flashPend := [.boot 1 2 3, .dramRetire 4 5] } }, by decide +kernel⟩⟩
end GlobalCommands

/-! Witnesses for MailboxOwner. -/
namespace MailboxOwner
def wHeld (o : Option Requester) : State := { (wUp.wr GBL_STATE 2) with hst := { wUp.hst with owner := o } }

theorem witnesses :
    (∃ (who : Requester) (s : State), s.shut who UPD_MBX_OWNER = false ∧ s.hst.owner = none) ∧
    (∃ (who : Requester) (s : State), s.shut who UPD_MBX_OWNER = false ∧ s.hst.owner ≠ none) ∧
    (∃ (who : Requester) (s : State), s.shut who UPD_MBX_OWNER = false ∧ s.hst.owner = some who) ∧
    (∃ (who : Requester) (s : State), s.shut who UPD_MBX_OWNER = false ∧ s.hst.owner ≠ some who) ∧
    (∃ (who : Requester) (a : BitVec 32) (v : Word) (s : State), s.mbxDenied who = true ∧ s.deaf = false ∧ ((who = .service ∨ 2 ≤ s.stageNow)) ∧ a.toNat % 4 = 0 ∧ ((a.toNat = UPD_MBX_CMD ∨ UPD_MBX_ARG 0 ≤ a.toNat ∧ a.toNat ≤ UPD_MBX_ARG 7 ∨ UPD_MBX_BUF ≤ a.toNat ∧ a.toNat < UPD_MBX_BUF + 3840))) ∧
    (∃ (who : Requester) (a : BitVec 32) (v : Word) (s : State), s.mbxDenied who = false ∧ s.deaf = false ∧ ((who = .service ∨ 2 ≤ s.stageNow)) ∧ a.toNat % 4 = 0 ∧ UPD_MBX_BUF ≤ a.toNat ∧ a.toNat < UPD_MBX_BUF + 3840) :=
  ⟨⟨.fabric 3#16, wUp, by decide +kernel⟩,
   ⟨.fabric 3#16, wHeld (some .service), by decide +kernel⟩,
   ⟨.fabric 3#16, wHeld (some (.fabric 3#16)), by decide +kernel⟩,
   ⟨.fabric 3#16, wHeld (some (.fabric 4#16)), by decide +kernel⟩,
   ⟨.fabric 3#16, 0xF0FFC#32, 9#32, wHeld (some .service), by decide +kernel⟩,
   ⟨.fabric 3#16, 0xF0FFC#32, 9#32, wHeld (some (.fabric 3#16)), by decide +kernel⟩⟩
end MailboxOwner

/-! Witnesses for MailboxCommands. -/
namespace MailboxCommands
def wMbx (st : Nat) (l : List Nat) : State :=
  (List.range 8).foldl (fun s i => s.wr (UPD_MBX_ARG i) (l.getD i 0)) { (wUp.wr GBL_STATE st) with sbk := { Sbk.init with ready := true } }

theorem witnesses_1 :
    (∃ (who : Requester) (c : Instr) (irq : Bool) (f : Bool) (s : State), c ∈ [.mbxIdentify who irq, .mbxShutdown who irq, .mbxStore who irq, .mbxFlashRead who irq, .mbxPlanWrite who irq f, .mbxPlanSelect who irq, .mbxFeatureEnable who irq, .mbxFeatureDisable who irq, .mbxThrJob who irq, .mbxSelftest who irq, .mbxLogRead who irq, .mbxLogExport who irq, .mbxDiagCapture who irq, .mbxCalWrite who irq f, .mbxClearLog who irq] ∧ s.shut who UPD_MBX_CMD = false ∧ (s.mbxDenied who = true ∨ s.hst.running.isSome = true)) ∧
    (∃ (who : Requester) (irq : Bool) (s : State), s.shut who UPD_MBX_CMD = false ∧ s.mbxReady who 0x01 2 = true) ∧
    (∃ (who : Requester) (irq : Bool) (s : State), s.shut who UPD_MBX_CMD = false ∧ s.mbxReady who 0x02 2 = true ∧ s.mbxArg 0 ≠ 0x7440) ∧
    (∃ (who : Requester) (irq : Bool) (s : State), s.shut who UPD_MBX_CMD = false ∧ s.mbxReady who 0x02 2 = true ∧ s.mbxArg 0 = 0x7440 ∧ s.sbk.final = false ∧ s.supState = supOn ∧ s.etc.seq ≠ .pfail) ∧
    (∃ (who : Requester) (irq : Bool) (s : State), s.shut who UPD_MBX_CMD = false ∧ s.mbxReady who 0x03 2 = true ∧ s.sramRefused = false ∧ s.sbk.tripped = false) ∧
    (∃ (who : Requester) (irq : Bool) (s : State), s.shut who UPD_MBX_CMD = false ∧ s.mbxReady who 0x03 2 = true ∧ s.sbk.final = true) ∧
    (∃ (who : Requester) (irq : Bool) (s : State), s.shut who UPD_MBX_CMD = false ∧ s.mbxReady who 0x04 2 = true ∧ s.mbxArg 0 ≤ 1 ∧ 4 ≤ s.mbxArg 2 ∧ s.mbxArg 2 ≤ 3840 ∧ s.mbxArg 2 % 4 = 0 ∧ s.mbxArg 1 + s.mbxArg 2 ≤ flashSize ∧ ((s.mbxArg 0 = 0 → s.mbxArg 1 + s.mbxArg 2 ≤ flashReservedAt))) ∧
    (∃ (who : Requester) (irq : Bool) (s : State), s.shut who UPD_MBX_CMD = false ∧ s.mbxReady who 0x04 2 = true ∧ ((1 < s.mbxArg 0 ∨ s.mbxArg 2 < 4 ∨ 3840 < s.mbxArg 2 ∨ s.mbxArg 2 % 4 ≠ 0))) :=
  ⟨⟨.service, .mbxStore .service true, true, false, { (wMbx 2 []) with hst := { wUp.hst with owner := some (.fabric 3#16) } }, by decide +kernel⟩,
   ⟨.service, true, wMbx 2 [], by decide +kernel⟩,
   ⟨.service, true, wMbx 2 [0x7441], by decide +kernel⟩,
   ⟨.service, true, (wMbx 2 [0x7440]).wrF ETC_SUPPLY_STATUS 2 0 2, by decide +kernel⟩,
   ⟨.service, true, wMbx 2 [], by decide +kernel⟩,
   ⟨.service, true, { (wMbx 2 []) with sbk := { Sbk.init with ready := true, final := true } }, by decide +kernel⟩,
   ⟨.fabric 3#16, true, wMbx 2 [0, flashReservedAt - 8, 8], by decide +kernel⟩,
   ⟨.fabric 3#16, true, wMbx 2 [1, 0, 3844], by decide +kernel⟩⟩
theorem witnesses_2 :
    (∃ (who : Requester) (irq : Bool) (s : State), s.shut who UPD_MBX_CMD = false ∧ s.mbxReady who 0x05 3 = true ∧ s.mbxArg 0 ≤ 7 ∧ s.mbxArg 3 % 64 = 0 ∧ s.mbxArg 3 ≤ 4194304 ∧ inGranary (s.mbxArg 1 + s.mbxArg 2 % 256 * 2 ^ 32) = false) ∧
    (∃ (who : Requester) (irq : Bool) (s : State), s.shut who UPD_MBX_CMD = false ∧ s.mbxReady who 0x06 2 = true ∧ ((s.mbxArg 0 ≤ 7 ∨ s.mbxArg 0 = 0xFF)) ∧ s.sramFree = true ∧ s.sbk.tripped = false) ∧
    (∃ (who : Requester) (irq : Bool) (s : State), s.shut who UPD_MBX_CMD = false ∧ s.mbxReady who 0x06 2 = true ∧ 7 < s.mbxArg 0 ∧ s.mbxArg 0 ≠ 0xFF) ∧
    (∃ (who : Requester) (irq : Bool) (s : State), s.shut who UPD_MBX_CMD = false ∧ s.mbxReady who 0x07 2 = true ∧ s.claimsOk = true ∧ claimArgOk (fld (s.mbxArg 1) 7 0) (fld (s.mbxArg 1) 15 8) = true ∧ s.mbxArg 0 ≠ 0 ∧ s.mbxArg 0 < 2 ^ 16 ∧ ¬(fld (s.mbxArg 1) 7 0 = 1 ∧ 0x106 ≤ s.mbxArg 0 ∧ s.mbxArg 0 ≤ 0x1FF)) ∧
    (∃ (who : Requester) (irq : Bool) (s : State), s.shut who UPD_MBX_CMD = false ∧ s.mbxReady who 0x08 2 = true ∧ s.mbxArg 0 ≠ 0 ∧ claimArgOk (fld (s.mbxArg 1) 7 0) (fld (s.mbxArg 1) 15 8) = true) ∧
    (∃ (who : Requester) (irq : Bool) (s : State), s.shut who UPD_MBX_CMD = false ∧ s.mbxReady who 0x09 3 = true ∧ s.mbxArg 0 ≠ 0 ∧ s.mbxArg 0 < 2 ^ 16 ∧ ringSizeOk s.jobRingSize = true ∧ (s.rdF THR_JOB_TAIL 9 0 + 1) % s.jobRingSize ≠ s.rd THR_JOB_HEAD ∧ s.rangeMay 0x0B (s.jobRing + 64 * s.rdF THR_JOB_TAIL 9 0) 64 = true) ∧
    (∃ (who : Requester) (irq : Bool) (s : State), s.shut who UPD_MBX_CMD = false ∧ s.mbxReady who 0x09 3 = true ∧ s.mbxArg 0 ≠ 0 ∧ s.mbxArg 0 < 2 ^ 16 ∧ ((ringSizeOk s.jobRingSize = false ∨ (s.rdF THR_JOB_TAIL 9 0 + 1) % s.jobRingSize = s.rd THR_JOB_HEAD ∨ s.rangeMay 0x0B (s.jobRing + 64 * s.rdF THR_JOB_TAIL 9 0) 64 = false))) ∧
    (∃ (who : Requester) (irq : Bool) (s : State), s.shut who UPD_MBX_CMD = false ∧ s.mbxReady who 0x09 3 = true ∧ ((s.mbxArg 0 = 0 ∨ 2 ^ 16 ≤ s.mbxArg 0))) :=
  ⟨⟨.service, true, ((((wMbx 3 [7, 0xFF000040, 0x11, 128]).wr DMC_CONFIG 0x0801).wr DMC_STATUS 1).wr DMC_OP 0x302), by decide +kernel⟩,
   ⟨.service, true, wMbx 2 [0xFF], by decide +kernel⟩,
   ⟨.service, true, wMbx 2 [8], by decide +kernel⟩,
   ⟨.service, true, wMbx 2 [0x101, 0x0F01], by decide +kernel⟩,
   ⟨.service, true, { (wMbx 2 [0x101, 0x0F01]) with fpl := { wUp.fpl with claims := [⟨1, 15, 0x101⟩] } }, by decide +kernel⟩,
   ⟨.service, true, (((((((wMbx 3 [5]).wr DMC_CONFIG 0x0801).wr DMC_STATUS 1).wr DMC_OP 0x302).wr THR_JOB_RING_SIZE 8).wr THR_JOB_RING_LO 0xFF000000).wr THR_JOB_RING_HI 0x11).wr THR_JOB_TAIL 7 |>.wr THR_JOB_HEAD 3, by decide +kernel⟩,
   ⟨.service, true, (wMbx 3 [5]).wr THR_JOB_RING_SIZE 9, by decide +kernel⟩,
   ⟨.service, true, wMbx 3 [0x10000], by decide +kernel⟩⟩
theorem witnesses_3 :
    (∃ (who : Requester) (irq : Bool) (s : State), s.shut who UPD_MBX_CMD = false ∧ s.mbxReady who 0x0A 3 = true ∧ s.tests = [] ∧ ((s.mbxArg 0 = 1 ∧ s.mbxArg 1 < 16384 ∨ s.mbxArg 0 = 3 ∧ s.mbxArg 1 < 50 ∨ s.mbxArg 0 = 4 ∧ s.mbxArg 1 < 216 ∨ s.mbxArg 0 = 5 ∧ s.mbxArg 1 < 24 ∨ s.mbxArg 0 = 2 ∧ s.mbxArg 1 < 2 ^ 25 ∧ fld (s.mbxArg 1) 24 8 < s.dramRows))) ∧
    (∃ (who : Requester) (irq : Bool) (s : State), s.shut who UPD_MBX_CMD = false ∧ s.mbxReady who 0x0A 3 = true ∧ ((s.mbxArg 0 = 0 ∨ 5 < s.mbxArg 0))) ∧
    (∃ (who : Requester) (irq : Bool) (s : State), s.shut who UPD_MBX_CMD = false ∧ s.mbxReady who 0x0B 2 = true ∧ s.mbxArg 0 = 0 ∧ s.mbxArg 2 ≤ 32 ∧ s.mbxArg 1 + s.mbxArg 2 ≤ 32 ∧ s.sbk.ready = true) ∧
    (∃ (who : Requester) (irq : Bool) (s : State), s.shut who UPD_MBX_CMD = false ∧ s.mbxReady who 0x0B 2 = true ∧ s.mbxArg 0 = 0 ∧ s.mbxArg 2 ≤ 32 ∧ s.mbxArg 1 + s.mbxArg 2 ≤ 32 ∧ s.sbk.ready = false) ∧
    (∃ (who : Requester) (irq : Bool) (s : State), s.shut who UPD_MBX_CMD = false ∧ s.mbxReady who 0x0B 2 = true ∧ s.mbxArg 0 = 1 ∧ s.mbxArg 2 ≤ 60) ∧
    (∃ (who : Requester) (irq : Bool) (s : State), s.shut who UPD_MBX_CMD = false ∧ s.mbxReady who 0x0C 3 = true) ∧
    (∃ (who : Requester) (irq : Bool) (s : State), s.shut who UPD_MBX_CMD = false ∧ s.mbxReady who 0x0D 5 = true ∧ s.plateRec (s.mbxArg 0) = none) ∧
    (∃ (who : Requester) (irq : Bool) (r : PlateRec) (s : State), s.shut who UPD_MBX_CMD = false ∧ s.mbxReady who 0x0D 5 = true ∧ s.plateRec (s.mbxArg 0) = some r) :=
  ⟨⟨.service, true, wMbx 3 [4, 215], by decide +kernel⟩,
   ⟨.service, true, wMbx 3 [6, 1], by decide +kernel⟩,
   ⟨.service, true, wMbx 2 [0, 30, 2], by decide +kernel⟩,
   ⟨.service, true, { (wMbx 2 [0, 30, 2]) with sbk := { Sbk.init with ready := false } }, by decide +kernel⟩,
   ⟨.service, true, wMbx 2 [1, 0, 60], by decide +kernel⟩,
   ⟨.service, true, wMbx 3 [5, 6], by decide +kernel⟩,
   ⟨.service, true, wMbx 5 [3], by decide +kernel⟩,
   ⟨.service, true, wRec, { (wMbx 5 [0, 0, 0x11, 4096]) with fpl := wRunPlate.fpl }, by decide +kernel⟩⟩
theorem witnesses_4 :
    (∃ (who : Requester) (irq : Bool) (s : State), s.shut who UPD_MBX_CMD = false ∧ s.mbxReady who 0x0E 3 = true ∧ ((1 < s.mbxArg 0 ∨ inGranary (s.mbxArg 1 + s.mbxArg 2 % 256 * 2 ^ 32) = true))) ∧
    (∃ (who : Requester) (irq : Bool) (s : State), s.shut who UPD_MBX_CMD = false ∧ s.mbxReady who 0x0E 3 = true ∧ s.mbxArg 0 = 1 ∧ s.mode ≠ modeTest ∧ inGranary (s.mbxArg 1 + s.mbxArg 2 % 256 * 2 ^ 32) = false) ∧
    (∃ (who : Requester) (irq : Bool) (k : Nat) (s : State), s.shut who UPD_MBX_CMD = false ∧ s.mbxReady who 0x0E 3 = true ∧ ((s.mbxArg 0 = 0 ∧ k = kindCurrent ∨ s.mbxArg 0 = 1 ∧ s.mode = modeTest ∧ k = kindFactory)) ∧ inGranary (s.mbxArg 1 + s.mbxArg 2 % 256 * 2 ^ 32) = false) ∧
    (∃ (who : Requester) (irq : Bool) (s : State), s.shut who UPD_MBX_CMD = false ∧ s.mbxReady who 0x0F 2 = true ∧ s.writeOpen = false) ∧
    (∃ (who : Requester) (irq : Bool) (s : State), s.shut who UPD_MBX_CMD = false ∧ s.mbxReady who 0x0F 2 = true ∧ s.writeOpen = true ∧ s.sramFree = true) :=
  ⟨⟨.service, true, wMbx 3 [2], by decide +kernel⟩,
   ⟨.service, true, wMbx 3 [1, 0, 0x11], by decide +kernel⟩,
   ⟨.service, true, kindCurrent, wMbx 3 [0, 0, 0x11], by decide +kernel⟩,
   ⟨.service, true, { (wMbx 2 []) with sbk := { Sbk.init with ready := true, sram := [(0x88, 1#8)] } }, by decide +kernel⟩,
   ⟨.service, true, wMbx 2 [], by decide +kernel⟩⟩
end MailboxCommands

/-! Witnesses for RetiredAccess. -/
namespace RetiredAccess
theorem witnesses : ∃ (req : GrnReq) (p : Fin 16384) (l : Fin 64) (o : Fin 64) (n : Nat) (d : Option Bytes) (w : Bool) (e : GrnErr) (rivals : List GrnReq) (s : State), s.grnOpen = true ∧ (s.plot p).state = 3 := ⟨.mgmt, 5, 3, 8, 8, some [1#8], true, .clean, [], wPlot ⟨3, 31, 0, 31⟩, by decide +kernel⟩
end RetiredAccess

/-! Witnesses for StaleSensor. -/
namespace StaleSensor
theorem witnesses :
    (∃ (n : Fin 24) (s : State), s.stageNow = 5 ∧ (s.sensor n).stale = false) ∧
    (∃ (n : Fin 24) (s : State), (s.sensor n).stale = true) ∧
    (∃ (n : Fin 24) (v : Int) (s : State), (s.sensor n).failed = false ∧ -40 * 256 ≤ v ∧ v ≤ 150 * 256 ∧ (((s.sensor n).has = false ∨ (v - (s.sensor n).temp) * (cyclesPerMs : Int) ≤ (20 * 256 : Int) * ((max cyclesPerMs (s.now - (s.sensor n).time) : Nat) : Int)))) :=
  ⟨⟨7, wUp.wr GBL_STATE 5, by decide +kernel⟩,
   ⟨7, { wUp with thm := { wUp.thm with sensors := [(7, { Sensor.init with stale := true })] } }, by decide +kernel⟩,
   ⟨7, 100 * 256, wUp, by decide +kernel⟩⟩
end StaleSensor

end Sys2Proof.Tests
end

section
/-! SUPPORT. What a record that enters the event ring leaves at the writer's index (R452), and what becomes of the one event of a
core cycle. -/
namespace Sys2Proof.Machine

variable {s t : State}

/-! ### The record at the writer's index -/

theorem State.setSticky_ev (s : State) (code : Nat) : (s.setSticky code).ev = s.ev := by
  unfold State.setSticky
  split
  · rfl
  · split
    · rfl
    · split <;> rfl

theorem State.setSticky_rd {a : Nat} (ha : a ∉ stickyRegs) (s : State) (code : Nat) : (s.setSticky code).rd a = s.rd a := by
  have hor : ∀ c ∈ stickyRegs, ∀ m, (s.orR c m).rd a = s.rd a := fun c hc m =>
    State.rd_wr_ne s _ (fun e => ha (e ▸ hc))
  unfold State.setSticky
  split
  · exact hor _ (by decide) _
  · split
    · exact hor _ (by decide) _
    · split
      · exact hor _ (eventStatusReg_sticky _) _
      · rfl

/-- R452: a record put into the ring stands at the writer's index, which moves on by one; of the other records only the one at the
new index may change. -/
theorem State.putRec_ring (r : EvRec) (h : s.ev.ringOn = true) :
    (s.putRec r).ev.ringOn = true ∧ (s.putRec r).rd GBL_EVQ_WR = (s.rd GBL_EVQ_WR + 1) % ringSize ∧
      ∃ fl, ∀ i, i ≠ (s.rd GBL_EVQ_WR + 1) % ringSize →
        (s.putRec r).evRec i = if i = s.rd GBL_EVQ_WR then { r with flags := fl } else s.evRec i := by
  have hw : (s.wr GBL_EVQ_SEQ (r.seq + 1)).rd GBL_EVQ_WR = s.rd GBL_EVQ_WR := State.rd_wr_ne s _ (by decide)
  have hlt : (s.rd GBL_EVQ_WR + 1) % ringSize < 4294967296 := (Nat.mod_lt _ (by decide)).trans (by decide)
  obtain ⟨fl, hfl⟩ : ∃ fl, (if (s.wr GBL_EVQ_SEQ (r.seq + 1)).ev.pendOverflow = true then
      { r with flags := r.flags ||| 8 } else r) = { r with flags := fl } := by
    split
    · exact ⟨_, rfl⟩
    · exact ⟨r.flags, rfl⟩
  unfold State.putRec
  simp only [hfl]
  simp only [hw, State.wr_ev, h, Bool.not_true, Bool.false_and, Bool.false_eq_true, if_false]
  by_cases hover : ringSize ≤ s.ev.hostUnread
  · refine ⟨by simp [hover, State.bump], ?_, fl, fun i hi => ?_⟩
    · simp [hover, State.bump, State.bumpBy, State.rd_wr, hlt]
    · simp [hover, State.evRec, State.bump, sget_smod_of_ne _ _ _ hi, sget_sset]
  · refine ⟨by simp [hover], by simp [hover, hlt], fl, fun i _ => ?_⟩
    simp [hover, State.evRec, sget_sset]

/-- The open ring holds `r` at index `w`, but for its flags, and the writer's index is at least one and at most `n` records past
it. -/
def State.RingHolds (w : Nat) (r : EvRec) (n : Nat) (s : State) : Prop :=
  s.ev.ringOn = true ∧ (∃ k, 1 ≤ k ∧ k ≤ n ∧ s.rd GBL_EVQ_WR = (w + k) % ringSize) ∧ ∃ fl, s.evRec w = { r with flags := fl }

namespace State.RingHolds

variable {w n : Nat} {r : EvRec}

theorem mono {m : Nat} (h : s.RingHolds w r n) (hm : n ≤ m) : s.RingHolds w r m := by
  obtain ⟨hon, ⟨k, h1, hk, hw⟩, hr⟩ := h
  exact ⟨hon, ⟨k, h1, hk.trans hm, hw⟩, hr⟩

theorem put (r : EvRec) (h : s.ev.ringOn = true) : (s.putRec r).RingHolds (s.rd GBL_EVQ_WR) r 1 := by
  obtain ⟨hon, hw, fl, hrec⟩ := State.putRec_ring r h
  refine ⟨hon, ⟨1, le_rfl, le_rfl, hw⟩, fl, ?_⟩
  have hne : s.rd GBL_EVQ_WR ≠ (s.rd GBL_EVQ_WR + 1) % ringSize := by unfold ringSize; omega
  rw [hrec _ hne, if_pos rfl]

/-- Another record put after it leaves it, short of a whole round of the ring. -/
theorem put_later (q : EvRec) (hn : n + 1 < ringSize) (h : s.RingHolds w r n) : (s.putRec q).RingHolds w r (n + 1) := by
  obtain ⟨hon, ⟨k, h1, hk, hw⟩, fl, hfl⟩ := h
  obtain ⟨hon', hw', fl', hrec⟩ := State.putRec_ring q hon
  have hself : w ≠ s.rd GBL_EVQ_WR := by rw [hw]; unfold ringSize at *; omega
  have hnext : w ≠ (s.rd GBL_EVQ_WR + 1) % ringSize := by rw [hw]; unfold ringSize at *; omega
  refine ⟨hon', ⟨k + 1, by omega, by omega, ?_⟩, fl, ?_⟩
  · rw [hw', hw, Nat.mod_add_mod, Nat.add_assoc]
  · rw [hrec _ hnext, if_neg hself, hfl]

theorem setSticky (code : Nat) (h : s.RingHolds w r n) : (s.setSticky code).RingHolds w r n := by
  obtain ⟨hon, hw, hr⟩ := h
  exact ⟨by rwa [State.setSticky_ev], by rwa [State.setSticky_rd (by decide)], by rwa [State.evRec, State.setSticky_ev]⟩

/-- A state with the same ring and the same writer's index holds it too. -/
theorem congr (h : s.RingHolds w r n) (hon : t.ev.ringOn = s.ev.ringOn) (hring : t.ev.ring = s.ev.ring) (hregs : t.regs = s.regs) :
    t.RingHolds w r n := by
  unfold State.RingHolds State.evRec State.rd at *
  rwa [hon, hring, hregs]

/-- An overrun recorded behind it, by a state `y` that has the ring of `s`, or none. -/
theorem overrun {y : State} (c : Bool) (q : EvRec) (h : s.RingHolds w r n) (hn : n + 1 < ringSize)
    (hon : y.ev.ringOn = s.ev.ringOn) (hring : y.ev.ring = s.ev.ring) (hregs : y.regs = s.regs) :
    (if c = true then (y.setSticky Ev.GBL_EVQ_OVERRUN).putRec q else s).RingHolds w r (n + 1) := by
  split
  · exact ((h.congr hon hring hregs).setSticky _).put_later q hn
  · exact h.mono (Nat.le_succ n)

end State.RingHolds

/-- R452: with the ring open, a record entered stands at the index that the writer had, but for its flags and its number. At most two
overruns are recorded behind it. -/
theorem State.emitRec_ringHolds (s : State) (r : EvRec) (h : s.ev.ringOn = true) :
    (s.emitRec r).RingHolds (s.rd GBL_EVQ_WR) { r with seq := s.rd GBL_EVQ_SEQ } 3 := by
  have hput := State.RingHolds.put (s := s.setSticky r.code) { r with seq := s.rd GBL_EVQ_SEQ } (by rwa [State.setSticky_ev])
  rw [State.setSticky_rd (by decide)] at hput
  unfold State.emitRec
  dsimp only
  generalize (s.setSticky r.code).putRec { r with seq := s.rd GBL_EVQ_SEQ } = x at hput ⊢
  refine State.RingHolds.overrun _ _ ?_ (by decide) rfl rfl rfl
  exact State.RingHolds.overrun _ _ hput (by decide) rfl rfl rfl

/-! ### The one event of a core cycle -/

theorem State.mkRec_flags (s : State) {code : Nat} (cls : Nat) (args : List Nat) (h : isCritical code cls = false) :
    (s.mkRec code cls args).flags % 2 = 0 := by
  change (b2n (isCritical code cls) + cls % 4 * 2 + b2n (!s.fpl.ticked) * 16) % 2 = 0
  rw [h, show b2n false = 0 from rfl]
  omega

/-- An event that is not critical is entered, and no more (R455). -/
theorem State.report_eq_emitRec (hq : s.quiet = true) {code : Nat} (args : List Nat) (h : isCritical code 0 = false) :
    s.report code args = s.emitRec (s.mkRec code 0 args) := by
  have hc : s.ev.cycle = none := by simpa [State.quiet] using hq
  have hf : ¬ (s.mkRec code 0 args).flags % 2 = 1 := by rw [s.mkRec_flags 0 args h]; decide
  unfold State.report State.reportC State.reportAs State.reportRec
  simp only [hc, if_neg hf]
  rfl

theorem State.report_evRec (hq : s.quiet = true) (hon : s.ev.ringOn = true) {code : Nat} (args : List Nat)
    (h : isCritical code 0 = false) :
    ∃ fl, (s.report code args).evRec (s.rd GBL_EVQ_WR) = { s.mkRec code 0 args with flags := fl } := by
  rw [State.report_eq_emitRec hq args h]
  obtain ⟨-, -, hrec⟩ := s.emitRec_ringHolds (s.mkRec code 0 args) hon
  exact hrec

theorem State.oneCycle_congr {f g : State → State} (h : f s.opened = g s.opened) : s.oneCycle f = s.oneCycle g := by
  unfold State.oneCycle
  unfold State.opened at h
  split
  · next hc => simpa only [hc] using h
  · next hc =>
    simp only [hc] at h
    rw [h]

/-- The state in which no core cycle is under way. -/
def State.closed (s : State) : State := { s with ev := { s.ev with cycle := none } }

/-- R452: an event that is alone in its core cycle is reported when the cycle ends, after the cycle's other effect. -/
theorem State.oneCycle_report {f : State → State} (hq : s.quiet = true) (ht : t.ev.cycle = some []) (code : Nat) (args : List Nat)
    (status : Nat) (bs : Bytes) (hf : f s.opened = (t.report code args).resultBytes status bs) :
    s.oneCycle f = (t.closed.resultBytes status bs).report code args := by
  have hc : s.ev.cycle = none := by simpa [State.quiet] using hq
  unfold State.opened at hf
  simp only [hc] at hf
  unfold State.oneCycle
  simp only [hc, hf, State.report, State.reportC, State.reportAs, ht]
  rfl

end Sys2Proof.Machine
end

section
/-! SUPPORT. A bank's cycles change nothing outside the Granary, and no plot's entry in it; what an access to a RETIRED plot is
answered with (R84). -/
namespace Sys2Proof.Machine

variable {s : State}

/-! ### What a bank's cycles leave as it is (R73 to R75) -/

theorem State.arbCycle_plots (s : State) (b : Nat) (act : List (Nat × Nat)) : (s.arbCycle b act).1.grn.plots = s.grn.plots := by
  unfold State.arbCycle
  dsimp only
  split <;> rfl

theorem State.wordBack_plots (s : State) (b : Nat) : (s.wordBack b).grn.plots = s.grn.plots := by
  unfold State.wordBack
  split <;> rfl

theorem State.countGrant_plots (s : State) (c : Nat) : (s.countGrant c).grn.plots = s.grn.plots := rfl

theorem State.arbitrate_plots (req : GrnReq) (rivals : List GrnReq) (b fuel : Nat) :
    ∀ (i : Nat) (s : State), (State.arbitrate req rivals b fuel i s).grn.plots = s.grn.plots := by
  induction fuel with
  | zero => exact fun _ _ => rfl
  | succ fuel ih =>
    intro i s
    unfold State.arbitrate
    dsimp only
    split
    · rfl
    · split
      · exact ih _ _
      · split
        · rw [ih, State.wordBack_plots]
        · split
          · exact State.arbCycle_plots ..
          · split
            · rw [State.countGrant_plots, State.arbCycle_plots]
            · rw [ih, State.countGrant_plots, State.arbCycle_plots]

theorem State.grnCycle_plots (s : State) (req : GrnReq) (rivals : List GrnReq) (b : Nat) :
    (s.grnCycle req rivals b).1.grn.plots = s.grn.plots := by
  unfold State.grnCycle
  split
  · rfl
  · exact State.arbitrate_plots ..

theorem State.grnCycle_same (s : State) (req : GrnReq) (rivals : List GrnReq) (b : Nat) (p : Block)
    (hp : (0x200 : Nat).testBit p.idx = false) : p.same s (s.grnCycle req rivals b).1 :=
  (State.grnCycle_keeps req rivals b (Sub.refl _) (Keeps.refl _ s)).same p hp

theorem State.grnCycle_rd (s : State) (req : GrnReq) (rivals : List GrnReq) (b a : Nat) :
    (s.grnCycle req rivals b).1.rd a = s.rd a :=
  s.grnCycle_same req rivals b (.reg (regGroup a)) (by generalize regGroup a = g; cases g <;> decide) a rfl

theorem State.grnCycle_plot (s : State) (req : GrnReq) (rivals : List GrnReq) (b n : Nat) :
    (s.grnCycle req rivals b).1.plot n = s.plot n := by
  rw [State.plot, State.grnCycle_plots, State.plot]

theorem State.grnOpen_congr {t : State} (hstatus : t.rd GRN_STATUS = s.rd GRN_STATUS) (hstage : t.rd GBL_STATE = s.rd GBL_STATE) :
    t.grnOpen = s.grnOpen := by
  unfold State.grnOpen State.grnReady State.stageNow State.rdF
  rw [hstatus, hstage]

theorem State.grnCycle_grnOpen (s : State) (req : GrnReq) (rivals : List GrnReq) (b : Nat) :
    (s.grnCycle req rivals b).1.grnOpen = s.grnOpen :=
  State.grnOpen_congr (s.grnCycle_rd req rivals b _) (s.grnCycle_rd req rivals b _)

theorem State.grnCycle_served (s : State) (req : GrnReq) (rivals : List GrnReq) (b : Nat) :
    (s.grnCycle req rivals b).2 = s.bankServes req b := by
  cases req <;> rfl

/-! ### The start of a core cycle -/

theorem State.opened_plot (s : State) (n : Nat) : s.opened.plot n = s.plot n := by simp [State.plot]

theorem State.opened_physOf (s : State) (n : Nat) : s.opened.physOf n = s.physOf n := by simp [State.physOf]

theorem State.opened_grnOpen (s : State) : s.opened.grnOpen = s.grnOpen := State.grnOpen_congr (s.opened_rd _) (s.opened_rd _)

theorem State.opened_bankServes (s : State) (req : GrnReq) (b : Nat) : s.opened.bankServes req b = s.bankServes req b := by
  unfold State.opened
  split <;> rfl

theorem State.opened_ringOn (s : State) : s.opened.ev.ringOn = s.ev.ringOn := by
  unfold State.opened
  split <;> rfl

theorem State.opened_cycle (hq : s.quiet = true) : s.opened.ev.cycle = some [] := by
  have hc : s.ev.cycle = none := by simpa [State.quiet] using hq
  simp [State.opened, hc]

/-! ### The access -/

theorem State.grnAccess_retired (req : GrnReq) {n : Nat} (line off len : Nat) (write : Option Bytes) (poisonIn : Bool) (err : GrnErr)
    (ho : s.grnOpen = true) (hr : (s.plot n).state = 3) :
    s.grnAccess req n line off len write poisonIn err = (s.report Ev.GRN_RETIRED_ACCESS [reqClient req]).resultBytes 1 [] := by
  simp [State.grnAccess, State.grnCheck, ho, hr]

/-- What an access to a RETIRED plot of bank `b` comes to: the report and ADDR_ERROR, once the bank serves the requester; an engine
that it never serves gets the status of an access that has not ended. -/
def State.retiredAnswer (s : State) (req : GrnReq) (rivals : List GrnReq) (b : Nat) : State :=
  if s.bankServes req b = true then
    ((s.grnCycle req rivals b).1.report Ev.GRN_RETIRED_ACCESS [reqClient req]).resultBytes 1 []
  else (s.grnCycle req rivals b).1.resultBytes 5 []

/-- R84: an access to a RETIRED plot takes the bank's cycles and is answered, whatever the access is. -/
theorem exec_granaryAccess_retired (req : GrnReq) (p : Fin 16384) (l o : Fin 64) (n : Nat) (d : Option Bytes) (w : Bool)
    (e : GrnErr) (rivals : List GrnReq) (ho : s.grnOpen = true) (hr : (s.plot p).state = 3) :
    exec (.granaryAccess req p l o n d w e rivals) s =
      .next (s.oneCycle fun u => u.retiredAnswer req rivals (s.physOf p % 32)) := by
  change execGranaryAccess req p l o n d w e rivals s = _
  unfold execGranaryAccess
  refine congrArg _ (State.oneCycle_congr ?_)
  have hopen := s.opened_grnOpen.trans ho
  have hopen' := (s.opened.grnCycle_grnOpen req rivals (s.physOf p % 32)).trans hopen
  have hret : ((s.opened.grnCycle req rivals (s.physOf p % 32)).1.plot p).state = 3 := by
    rw [State.grnCycle_plot, State.opened_plot, hr]
  have hserved := s.opened.grnCycle_served req rivals (s.physOf p % 32)
  simp only [hopen, State.opened_physOf, State.retiredAnswer, Bool.not_true, Bool.false_eq_true, if_false, ← hserved]
  generalize s.opened.grnCycle req rivals (s.physOf p % 32) = c at hopen' hret ⊢
  obtain ⟨u, served⟩ := c
  cases served
  · rfl
  · exact State.grnAccess_retired req _ _ _ _ _ _ hopen' hret

theorem State.retiredAnswer_same (s : State) (req : GrnReq) (rivals : List GrnReq) (b : Nat) :
    (s.retiredAnswer req rivals b).mem = s.mem ∧ (s.retiredAnswer req rivals b).poison = s.poison ∧
      (s.retiredAnswer req rivals b).grn.plots = s.grn.plots ∧ (s.retiredAnswer req rivals b).accBytes = [] := by
  have hmem : (s.grnCycle req rivals b).1.mem = s.mem := s.grnCycle_same req rivals b .mem rfl
  have hpoison : (s.grnCycle req rivals b).1.poison = s.poison := s.grnCycle_same req rivals b .poison rfl
  unfold State.retiredAnswer
  split <;> simp [hmem, hpoison, State.grnCycle_plots, State.resultBytes]

theorem State.retiredAnswer_status (s : State) (req : GrnReq) (rivals : List GrnReq) (b : Nat) :
    (s.retiredAnswer req rivals b).acc.1 = if s.bankServes req b = true then 1 else 5 := by
  unfold State.retiredAnswer
  split <;> rfl

/-- CLIENT fits an argument of a record. -/
theorem reqClient_lt (req : GrnReq) : reqClient req < 2 ^ 32 := by
  cases req with
  | engine e => revert e; decide
  | linkRx p => revert p; decide
  | linkFwd p => revert p; decide
  | thrEnc i => revert i; decide
  | _ => decide

/-- Outside a core cycle's effect, the answer's report is made when its core cycle ends. -/
theorem State.oneCycle_retiredAnswer (hq : s.quiet = true) {req : GrnReq} {b : Nat} (rivals : List GrnReq)
    (hb : s.bankServes req b = true) :
    s.oneCycle (fun u => u.retiredAnswer req rivals b) =
      ((s.opened.grnCycle req rivals b).1.closed.resultBytes 1 []).report Ev.GRN_RETIRED_ACCESS [reqClient req] := by
  have hev : (s.opened.grnCycle req rivals b).1.ev = s.opened.ev := s.opened.grnCycle_same req rivals b .ev rfl
  refine State.oneCycle_report hq (hev ▸ State.opened_cycle hq) _ _ _ _ ?_
  rw [State.retiredAnswer, if_pos (s.opened_bankServes req b ▸ hb)]

/-- R84: the access is reported with its requester: the sticky bit, and the record at the writer's index of the open ring. -/
theorem State.oneCycle_retiredAnswer_reported (hq : s.quiet = true) {req : GrnReq} {b : Nat} (rivals : List GrnReq)
    (hb : s.bankServes req b = true) :
    let t := s.oneCycle fun u => u.retiredAnswer req rivals b
    t.saw Ev.GRN_RETIRED_ACCESS = true ∧ (s.ev.ringOn = true →
      (t.evRec (s.rd GBL_EVQ_WR)).code = Ev.GRN_RETIRED_ACCESS ∧ (t.evRec (s.rd GBL_EVQ_WR)).arg0 = reqClient req) := by
  rw [State.oneCycle_retiredAnswer hq rivals hb]
  have hev : (s.opened.grnCycle req rivals b).1.ev = s.opened.ev := s.opened.grnCycle_same req rivals b .ev rfl
  have hwr : ((s.opened.grnCycle req rivals b).1.closed.resultBytes 1 []).rd GBL_EVQ_WR = s.rd GBL_EVQ_WR :=
    (s.opened.grnCycle_rd req rivals b _).trans (s.opened_rd _)
  refine ⟨State.saw_report rfl _, fun hon => ?_⟩
  have hring : ((s.opened.grnCycle req rivals b).1.closed.resultBytes 1 []).ev.ringOn = true :=
    (congrArg (·.ringOn) hev).trans (s.opened_ringOn.trans hon)
  obtain ⟨fl, hrec⟩ := State.report_evRec rfl hring [reqClient req] (code := Ev.GRN_RETIRED_ACCESS) (by decide)
  rw [← hwr, hrec]
  exact ⟨rfl, Nat.mod_eq_of_lt (reqClient_lt req)⟩

end Sys2Proof.Machine
end

section
open Sys2Proof Sys2Proof.Machine

/-- Settles O59 (R84). The status of an access that its bank never serves is the model's choice (log entry 243). -/
theorem retiredAccess : Obligations.RetiredAccess := by
  unfold Obligations.RetiredAccess
  intro req p l o n d w e rivals s ho hr
  refine ⟨_, exec_granaryAccess_retired req p l o n d w e rivals ho hr, ?_⟩
  obtain ⟨hmem, hpoison, hplots, hbytes⟩ := s.opened.retiredAnswer_same req rivals (s.physOf p % 32)
  have hstatus := s.opened.retiredAnswer_status req rivals (s.physOf p % 32)
  rw [State.opened_bankServes] at hstatus
  refine ⟨?_, by simp [hbytes], by simp [hmem], by simp [hpoison], fun m => by simp [State.plot, hplots],
    fun hb => ⟨?_, fun hq => ?_⟩⟩
  · rw [State.oneCycle_acc, hstatus]
    split <;> decide
  · rw [State.oneCycle_acc, hstatus, if_pos hb]
  · exact State.oneCycle_retiredAnswer_reported hq rivals hb

end

section
/-! SUPPORT. The Burin's ring: what a write of its doorbell and of its ring and status registers does, at once, held (R24), or when
the doorbell restarts the domain (R346, R350, R357). -/
namespace Sys2Proof.Machine

variable {s : State}

/-! ### A core cycle without an event -/

theorem State.opened_of_some {l : List (Bool × EvRec)} (hc : s.ev.cycle = some l) : s.opened = s := by
  simp only [State.opened, hc]

theorem State.opened_of_none (hc : s.ev.cycle = none) : s.opened = { s with ev := { s.ev with cycle := some [] } } := by
  simp only [State.opened, hc]

/-- Within a core cycle that is under way, the effect is all. -/
theorem State.oneCycle_of_some {l : List (Bool × EvRec)} (hc : s.ev.cycle = some l) (f : State → State) : s.oneCycle f = f s := by
  simp only [State.oneCycle, hc]

theorem State.oneCycle_of_none (hc : s.ev.cycle = none) (f : State → State) :
    s.oneCycle f = (cycleOrder ((f s.opened).ev.cycle.getD [])).foldl State.reportRec (f s.opened).closed := by
  simp only [State.oneCycle, State.opened_of_none hc, hc, State.closed]

/-- A core cycle of its own whose effect records no event ends as the effect left the state. -/
theorem State.oneCycle_of_ev (hc : s.ev.cycle = none) {f : State → State} (h : (f s.opened).ev = s.opened.ev) :
    s.oneCycle f = (f s.opened).closed := by
  have hempty : (f s.opened).ev.cycle = some [] := by rw [h, State.opened_of_none hc]
  rw [State.oneCycle_of_none hc, hempty]
  rfl

theorem State.closed_opened (hc : s.ev.cycle = none) : s.opened.closed = s := by
  rw [State.opened_of_none hc, State.closed, ← hc]

/-- A core cycle whose effect records no event ends with the registers that the effect left. -/
theorem State.oneCycle_regs_of_ev {f : State → State} (h : (f s.opened).ev = s.opened.ev) :
    (s.oneCycle f).regs = (f s.opened).regs := by
  cases hc : s.ev.cycle with
  | none =>
    rw [State.oneCycle_of_ev hc h]
    rfl
  | some l => rw [State.oneCycle_of_some hc, State.opened_of_some hc]

/-- A core cycle whose effect is a status alone. -/
theorem State.oneCycle_regs_bur_of_acc {f : State → State} (h : ∃ x, f s.opened = { s.opened with acc := x }) :
    (s.oneCycle f).regs = s.regs ∧ (s.oneCycle f).bur = s.bur := by
  obtain ⟨x, hx⟩ := h
  constructor
  · rw [State.oneCycle_regs_of_ev (by rw [hx]), hx]
    exact s.opened_regs
  · rw [State.oneCycle_bur, hx]
    exact s.opened_bur

/-- A core cycle in which nothing happens leaves the whole state. -/
theorem State.oneCycle_eq_self {f : State → State} (h : f s.opened = s.opened) : s.oneCycle f = s := by
  cases hc : s.ev.cycle with
  | none => rw [State.oneCycle_of_ev hc (by rw [h]), h, State.closed_opened hc]
  | some l =>
    rw [State.opened_of_some hc] at h
    rw [State.oneCycle_of_some hc, h]

/-! ### The engine going fallow -/

theorem State.burFallow_rd {a : Nat} (ha : a ≠ BUR_STATUS) (s : State) : s.burFallow.rd a = s.rd a := by
  unfold State.burFallow
  split
  · rfl
  · exact s.rd_wrF_ne 3 3 1 ha

/-- Going fallow touches FALLOW alone of BUR_STATUS. -/
theorem State.burFallow_rdF_status {hi : Nat} (h : hi < 3) (lo : Nat) (s : State) :
    s.burFallow.rdF BUR_STATUS hi lo = s.rdF BUR_STATUS hi lo := by
  unfold State.burFallow
  split
  · rfl
  · exact s.rdF_wrF_disjoint BUR_STATUS 1 (le_refl 3) (by decide) (.inl h)

theorem State.burFallow_ev (s : State) : s.burFallow.ev = s.ev := by
  unfold State.burFallow
  split <;> rfl

theorem State.burFallow_held (s : State) : s.burFallow.bur.held = s.bur.held := by
  unfold State.burFallow
  split <;> rfl

theorem State.burFallow_burSize (s : State) : s.burFallow.burSize = s.burSize := by
  rw [State.burSize, State.rdF, State.burFallow_rd (by decide), ← State.rdF, ← State.burSize]

theorem State.burFallow_saw {code : Nat} (h : eventStatusReg (code / 256) ≠ BUR_STATUS) (s : State) :
    s.burFallow.saw code = s.saw code := by
  unfold State.saw
  split
  · rw [State.burFallow_rd h]
  · rfl

/-! ### RING_BAD (R350) -/

theorem State.ringBad_rd {a : Nat} (ha : a ≠ BUR_STATUS) (hg : regGroup a ≠ .events) (s : State) : s.ringBad.rd a = s.rd a := by
  rw [State.ringBad, State.report_rd _ _ _ hg, State.rd_wrF_ne _ _ _ _ ha]

theorem State.ringBad_status (s : State) : s.ringBad.rdF BUR_STATUS 2 2 = 1 := by
  rw [State.ringBad, State.rdF, State.report_rd _ _ _ (by decide), ← State.rdF]
  exact s.rdF_wrF_self BUR_STATUS 1 (le_refl 2) (by decide)

theorem State.ringBad_saw (hq : s.quiet = true) : s.ringBad.saw Ev.BUR_RING_BAD = true :=
  State.saw_report (s := s.wrF BUR_STATUS 2 2 1) hq []

/-- While RING_BAD is set and no command is in progress, nothing is fetched. -/
theorem State.burFetch_of_ringBad (hr : s.bur.run = none) (hb : s.rdF BUR_STATUS 2 2 = 1) (ops : Nat → Bool) (n : Nat) :
    s.burFetch ops n = s := by
  have hne : s.rdF BUR_STATUS 2 1 ≠ 0 := by
    simp only [State.rdF, fld] at hb ⊢
    omega
  have hready : s.burReady = false := by simp [State.burReady, hne]
  simp [State.burFetch, hr, hready]

theorem State.oneCycle_burFetch_of_ringBad (hr : s.bur.run = none) (hb : s.rdF BUR_STATUS 2 2 = 1) (ops : Nat → Bool) (n : Nat) :
    s.oneCycle (fun u => u.burFetch ops n) = s :=
  State.oneCycle_eq_self (State.burFetch_of_ringBad (by simpa using hr) (by simpa using hb) ops n)

/-! ### BUR_RING_SIZE (R350) -/

theorem le_of_pow2In {n lo hi : Nat} (h : pow2In n lo hi = true) : n ≤ hi := by
  simp only [pow2In, Bool.and_eq_true, decide_eq_true_eq] at h
  obtain ⟨⟨-, hhi⟩, -⟩ := h
  exact hhi

theorem State.burSizeWrite_of_invalid (hen : s.rdF BUR_CTRL 0 0 = 0) {n : Nat} (hn : pow2In n 16 4096 = false) :
    s.burSizeWrite n = s.ringBad := by
  simp [State.burSizeWrite, hen, hn]

theorem State.burSizeWrite_of_valid (hen : s.rdF BUR_CTRL 0 0 = 0) {n : Nat} (hn : pow2In n 16 4096 = true) :
    s.burSizeWrite n = (s.wr BUR_RING_SIZE n).wrF BUR_STATUS 2 2 0 := by
  simp [State.burSizeWrite, hen, hn]

theorem State.burSizeWrite_rd_of_valid (hen : s.rdF BUR_CTRL 0 0 = 0) {n : Nat} (hn : pow2In n 16 4096 = true) :
    (s.burSizeWrite n).rd BUR_RING_SIZE = n := by
  have hle := le_of_pow2In hn
  rw [State.burSizeWrite_of_valid hen hn, State.rd_wrF_ne _ _ _ _ (by decide), State.rd_wr_self, Nat.mod_eq_of_lt (by omega)]

theorem State.burSizeWrite_status_of_valid (hen : s.rdF BUR_CTRL 0 0 = 0) {n : Nat} (hn : pow2In n 16 4096 = true) :
    (s.burSizeWrite n).rdF BUR_STATUS 2 2 = 0 := by
  rw [State.burSizeWrite_of_valid hen hn]
  exact State.rdF_wrF_self _ BUR_STATUS 0 (le_refl 2) (by decide)

theorem State.burSizeWrite_bur_of_valid (hen : s.rdF BUR_CTRL 0 0 = 0) {n : Nat} (hn : pow2In n 16 4096 = true) :
    (s.burSizeWrite n).bur = s.bur := by
  rw [State.burSizeWrite_of_valid hen hn]
  rfl

/-! ### BUR_RING_LO (R350) -/

/-- A write of BUR_RING_LO with EN at 0 replaces the base's bits [31:6] and empties the ring. -/
theorem State.burRingWrite_ringLo (hen : s.rdF BUR_CTRL 0 0 = 0) (v : Nat) :
    s.burRingWrite BUR_RING_LO v =
      ((s.wr BUR_RING_LO (s.rd BUR_RING_LO &&& 0x3F ||| v &&& 0xFFFFFFC0)).wr BUR_HEAD 0).wr BUR_TAIL 0 := by
  unfold State.burRingWrite
  rw [if_neg (by omega)]
  rfl

/-- Bits [31:6] of a word written under BUR_RING_LO's mask are those of the value written. -/
theorem fld_ringLo_mask (x : Nat) {v : Nat} (hv : v < 2 ^ 32) : fld (x &&& 0x3F ||| v &&& 0xFFFFFFC0) 31 6 = v / 64 := by
  have hold : (x &&& 0x3F) / 2 ^ 6 = 0 := by rw [Nat.and_div_two_pow]; simp
  have hnew : (v &&& 0xFFFFFFC0) / 2 ^ 6 = v / 64 := by
    rw [Nat.and_div_two_pow, show 0xFFFFFFC0 / 2 ^ 6 = 2 ^ 26 - 1 by decide, Nat.and_two_pow_sub_one_eq_mod]
    omega
  rw [fld, Nat.or_div_two_pow, hold, hnew, Nat.zero_or]
  omega

theorem State.burRingWrite_ringLo_burRing (hen : s.rdF BUR_CTRL 0 0 = 0) {v : Nat} (hv : v < 2 ^ 32) :
    (s.burRingWrite BUR_RING_LO v).burRing = v / 64 * 64 + s.rdF BUR_RING_HI 7 0 * 2 ^ 32 := by
  have hlt : s.rd BUR_RING_LO &&& 0x3F ||| v &&& 0xFFFFFFC0 < 2 ^ 32 :=
    Nat.or_lt_two_pow (Nat.and_lt_two_pow _ (by decide)) (Nat.and_lt_two_pow _ (by decide))
  rw [State.burRingWrite_ringLo hen]
  simp only [State.burRing, State.rdF, State.rd_wr, BUR_RING_LO, BUR_RING_HI, BUR_HEAD, BUR_TAIL, Nat.reduceEqDiff, if_true, if_false]
  rw [Nat.mod_eq_of_lt hlt, fld_ringLo_mask _ hv]

/-! ### Ring and status registers while EN is 1, and while the domain is stopped (R24, R350) -/

/-- A write of a ring or status register, which takes effect only while EN is 0. -/
def BurWrite.ofRing : BurWrite → Bool
  | .size _ | .ringLo _ | .ringHi _ | .statLo _ | .statHi _ => true
  | .resume | .abort | .enable _ => false

theorem State.burTake_of_enabled (hen : s.rdF BUR_CTRL 0 0 = 1) {w : BurWrite} (hw : w.ofRing = true) : s.burTake w = s := by
  cases w with
  | resume | abort | enable => exact absurd hw (by simp [BurWrite.ofRing])
  | size => simp [State.burTake, State.burSizeWrite, hen]
  | ringLo | ringHi | statLo | statHi => simp [State.burTake, State.burRingWrite, hen]

theorem State.burControl_of_running (hs : s.burStopped = false) (w : BurWrite) : s.burControl w = s.burTake w := by
  simp [State.burControl, hs]

theorem State.burControl_of_stopped (hs : s.burStopped = true) (w : BurWrite) :
    s.burControl w = { s with bur := { s.bur with held := s.bur.held ++ [w] } } := by
  simp [State.burControl, hs]

theorem State.burControl_of_enabled (hs : s.burStopped = false) (hen : s.rdF BUR_CTRL 0 0 = 1) {w : BurWrite} (hw : w.ofRing = true) :
    s.burControl w = s := by
  rw [State.burControl_of_running hs, State.burTake_of_enabled hen hw]

/-- A host's write of a ring or status register goes to the engine as a control write. -/
theorem State.writeReg_burRing (who : Requester) {a : Nat} (v : Nat)
    (ha : a ∈ [BUR_RING_LO, BUR_RING_HI, BUR_RING_SIZE, BUR_STAT_LO, BUR_STAT_HI]) :
    ∃ w : BurWrite, w.ofRing = true ∧ s.writeReg who a v = (s.result 0 0).burControl w := by
  simp only [List.mem_cons, List.not_mem_nil, or_false] at ha
  obtain rfl | rfl | rfl | rfl | rfl := ha
  · exact ⟨.ringLo v, rfl, rfl⟩
  · exact ⟨.ringHi v, rfl, rfl⟩
  · exact ⟨.size v, rfl, rfl⟩
  · exact ⟨.statLo v, rfl, rfl⟩
  · exact ⟨.statHi v, rfl, rfl⟩

/-- With EN at 1 a host's write of a ring or status register leaves nothing but its status. -/
theorem State.regPut_burRing_of_enabled (who : Requester) {a : Nat} (v : Nat) (hs : s.burStopped = false)
    (hen : s.rdF BUR_CTRL 0 0 = 1) (ha : a ∈ [BUR_RING_LO, BUR_RING_HI, BUR_RING_SIZE, BUR_STAT_LO, BUR_STAT_HI]) :
    ∃ st, s.regPut who a v = s.result st 0 := by
  unfold State.regPut
  split
  · next st _ =>
    have hin : ∀ b ∈ [BUR_RING_LO, BUR_RING_HI, BUR_RING_SIZE, BUR_STAT_LO, BUR_STAT_HI], ¬ 0xFFFFF < b := by decide
    exact ⟨st, by rw [State.regOutside, if_neg (hin a ha)]⟩
  · obtain ⟨w, hw, he⟩ := State.writeReg_burRing (s := s) who v ha
    exact ⟨0, he.trans (State.burControl_of_enabled (s := s.result 0 0) hs hen hw)⟩

theorem exec_registerWrite_burRing_of_enabled (who : Requester) {a : BitVec 32} (v : Word) (hs : s.burStopped = false)
    (hen : s.rdF BUR_CTRL 0 0 = 1) (ha : a.toNat ∈ [BUR_RING_LO, BUR_RING_HI, BUR_RING_SIZE, BUR_STAT_LO, BUR_STAT_HI]) :
    ∃ t, exec (.registerWrite who a v) s = .next t ∧ t.regs = s.regs ∧ t.bur = s.bur := by
  refine ⟨_, rfl, State.oneCycle_regs_bur_of_acc ?_⟩
  split
  · exact ⟨s.opened.acc, rfl⟩
  · have hs' : s.opened.burStopped = false := by simpa [State.burStopped] using hs
    obtain ⟨st, he⟩ := State.regPut_burRing_of_enabled who v.toNat hs' (by simpa using hen) ha
    exact ⟨_, he⟩

/-! ### The doorbell restarting the domain (R24, R357) -/

/-- The state in which the restarted domain takes the writes that it held. -/
def State.burWoken (s : State) : State := { s.wr BUR_BYTES_LAST s.bur.last with bur := { s.bur with held := [] } }

theorem State.burRestart_eq (s : State) : s.burRestart = (s.bur.held.foldl State.burTake s.burWoken).wrF BUR_STATUS 3 3 0 := rfl

theorem State.burWoken_rd {a : Nat} (ha : a ≠ BUR_BYTES_LAST) (s : State) : s.burWoken.rd a = s.rd a := s.rd_wr_ne _ ha

theorem State.burRestart_burStopped (s : State) : s.burRestart.burStopped = false := by
  have h : s.burRestart.rdF BUR_STATUS 3 3 = 0 := State.rdF_wrF_self _ BUR_STATUS 0 (le_refl 3) (by decide)
  simp [State.burStopped, h]

theorem State.burRestart_quiet (hq : s.quiet = true) : s.burRestart.quiet = true := by
  have hc := (State.burRestart_keeps (Sub.refl _) (Keeps.refl _ s)).cycle (by simpa [State.quiet] using hq)
  simp [State.quiet, hc]

/-- With no write held, the restart changes BUR_BYTES_LAST and FALLOW alone of the registers. -/
theorem State.burRestart_of_held_nil (h : s.bur.held = []) : s.burRestart = s.burWoken.wrF BUR_STATUS 3 3 0 := by
  rw [State.burRestart_eq, h, List.foldl_nil]

/-- A valid size held while the domain was stopped takes effect at the restart. -/
theorem State.burRestart_of_held_size {n : Nat} (h : s.bur.held = [.size n]) (hen : s.rdF BUR_CTRL 0 0 = 0)
    (hn : pow2In n 16 4096 = true) : s.burRestart.burSize = n ∧ s.burRestart.bur.held = [] := by
  have hen' : s.burWoken.rdF BUR_CTRL 0 0 = 0 := by rw [State.rdF, s.burWoken_rd (by decide), ← State.rdF, hen]
  have he : s.burRestart = (s.burWoken.burSizeWrite n).wrF BUR_STATUS 3 3 0 := by rw [State.burRestart_eq, h]; rfl
  have hle := le_of_pow2In hn
  constructor
  · rw [he, State.burSize, State.rdF_wrF_ne _ _ _ _ _ _ (by decide), State.rdF, State.burSizeWrite_rd_of_valid hen' hn, fld]
    omega
  · rw [he, State.wrF_bur, State.burSizeWrite_bur_of_valid hen' hn]
    rfl

/-! ### The doorbell's value (R346, R350) -/

theorem State.burTail_of_size_le {v : Nat} (h : s.burRestart.burSize ≤ v) : s.burTail v = s.burRestart.ringBad.burFallow := by
  simp [State.burTail, h]

theorem State.burTail_of_lt_size {v : Nat} (h : v < s.burRestart.burSize) :
    s.burTail v = (s.burRestart.wr BUR_TAIL v).burFallow := by
  simp [State.burTail, Nat.not_le.mpr h]

theorem State.burTail_rd_tail {v : Nat} (h : v < s.burRestart.burSize) (hv : v < 2 ^ 32) : (s.burTail v).rd BUR_TAIL = v := by
  rw [State.burTail_of_lt_size h, State.burFallow_rd (by decide), State.rd_wr_self, Nat.mod_eq_of_lt hv]

/-! ### The commands, when their window answers -/

theorem exec_burTailWrite (h : s.shut .service BUR_TAIL = false) (v : Word) :
    exec (.burTailWrite v) s = .next (s.burTail v.toNat) := by
  change execBurTailWrite v s = _
  simp [execBurTailWrite, h]

theorem exec_burRingSizeWrite (h : s.shut .service BUR_RING_SIZE = false) (v : Word) :
    exec (.burRingSizeWrite v) s = .next (s.burControl (.size v.toNat)) := by
  change execBurRingSizeWrite v s = _
  simp [execBurRingSizeWrite, h]

theorem exec_burRingLoWrite (h : s.shut .service BUR_RING_LO = false) (v : Word) :
    exec (.burRingLoWrite v) s = .next (s.burControl (.ringLo v.toNat)) := by
  change execBurRingLoWrite v s = _
  simp [execBurRingLoWrite, h]

/-- R350: a doorbell value at or above BUR_RING_SIZE is ignored, sets RING_BAD and is reported. -/
theorem State.burTail_rejected {v : Nat} (h : s.burRestart.burSize ≤ v) :
    (s.burTail v).rd BUR_TAIL = s.burRestart.rd BUR_TAIL ∧ (s.burTail v).rdF BUR_STATUS 2 2 = 1 ∧
      (s.quiet = true → (s.burTail v).saw Ev.BUR_RING_BAD = true) := by
  rw [State.burTail_of_size_le h]
  refine ⟨?_, ?_, fun hq => ?_⟩
  · rw [State.burFallow_rd (by decide), State.ringBad_rd (by decide) (by decide)]
  · rw [State.burFallow_rdF_status (by decide), State.ringBad_status]
  · rw [State.burFallow_saw (by decide), State.ringBad_saw (State.burRestart_quiet hq)]

/-- R346: a doorbell value below BUR_RING_SIZE is taken, with no event and no change of RING_BAD and HALTED. -/
theorem State.burTail_accepted {v : Nat} (h : v < s.burRestart.burSize) (hv : v < 2 ^ 32) :
    (s.burTail v).rd BUR_TAIL = v ∧ (s.burTail v).ev = s.burRestart.ev ∧
      (s.burTail v).rdF BUR_STATUS 2 1 = s.burRestart.rdF BUR_STATUS 2 1 := by
  refine ⟨State.burTail_rd_tail h hv, ?_, ?_⟩ <;> rw [State.burTail_of_lt_size h]
  · rw [State.burFallow_ev, State.wr_ev]
  · rw [State.burFallow_rdF_status (by decide), State.rdF, State.rd_wr_ne _ _ (by decide), ← State.rdF]

/-- With no write held, the restart leaves the ring's size, the doorbell and RING_BAD and HALTED. -/
theorem State.burRestart_same_of_held_nil (h : s.bur.held = []) :
    s.burRestart.burSize = s.burSize ∧ s.burRestart.rd BUR_TAIL = s.rd BUR_TAIL ∧
      s.burRestart.rdF BUR_STATUS 2 1 = s.rdF BUR_STATUS 2 1 := by
  rw [State.burRestart_of_held_nil h]
  refine ⟨?_, ?_, ?_⟩
  · rw [State.burSize, State.rdF_wrF_ne _ _ _ _ _ _ (by decide), State.rdF, State.burWoken_rd (by decide)]
    rfl
  · rw [State.rd_wrF_ne _ _ _ _ (by decide), State.burWoken_rd (by decide)]
  · rw [State.rdF_wrF_disjoint _ _ _ (le_refl 3) (by decide) (.inl (by decide)), State.rdF, State.burWoken_rd (by decide)]
    rfl

/-- R24: a valid size held while the domain was stopped is the one that the doorbell's value is compared with. -/
theorem State.burTail_of_held_size {v n : Nat} (hh : s.bur.held = [.size n]) (hen : s.rdF BUR_CTRL 0 0 = 0)
    (hn : pow2In n 16 4096 = true) (hv : v < n) :
    (s.burTail v).bur.held = [] ∧ (s.burTail v).burSize = n ∧ (s.burTail v).rd BUR_TAIL = v := by
  obtain ⟨hsize, hheld⟩ := State.burRestart_of_held_size hh hen hn
  have hlt : v < s.burRestart.burSize := hsize ▸ hv
  have hle := le_of_pow2In hn
  refine ⟨?_, ?_, State.burTail_rd_tail hlt (by omega)⟩ <;> rw [State.burTail_of_lt_size hlt]
  · rw [State.burFallow_held, State.wr_bur, hheld]
  · rw [State.burFallow_burSize, State.burSize, State.rdF, State.rd_wr_ne _ _ (by decide), ← State.rdF, ← State.burSize, hsize]

end Sys2Proof.Machine
end

section
open Sys2Proof Sys2Proof.Machine

/-- Settles O53 (R24, R346, R350, R357). That an invalid size written while EN is 1 is ignored without RING_BAD, and that a doorbell and
a size are taken as the whole word written, are the model's choices (log entry 167). -/
theorem burinRingWrites : Obligations.BurinRingWrites := by
  unfold Obligations.BurinRingWrites
  refine ⟨?doorbellRejected, ?doorbellAccepted, ?restart, ?heldSize, ?sizeRejected, ?sizeAccepted, ?nothingFetched, ?ringWriteIgnored,
    ?commandIgnored, ?commandHeld, ?ringEmptied⟩
  case doorbellRejected =>
    intro v s hopen hv
    exact ⟨_, exec_burTailWrite hopen v, State.burTail_rejected hv⟩
  case doorbellAccepted =>
    intro v s hopen hv
    exact ⟨_, exec_burTailWrite hopen v, State.burTail_accepted hv v.isLt⟩
  case restart =>
    intro s hheld
    exact ⟨s.burRestart_burStopped, State.burRestart_same_of_held_nil hheld⟩
  case heldSize =>
    intro v w s hopen hheld hen hw hv
    exact ⟨_, exec_burTailWrite hopen v, State.burTail_of_held_size hheld hen hw hv⟩
  case sizeRejected =>
    intro v s hopen hrun hen hv
    refine ⟨_, exec_burRingSizeWrite hopen v, ?_⟩
    rw [State.burControl_of_running hrun, State.burTake, State.burSizeWrite_of_invalid hen hv]
    exact ⟨State.ringBad_rd (by decide) (by decide) s, s.ringBad_status, State.ringBad_saw⟩
  case sizeAccepted =>
    intro v s hopen hrun hen hv
    refine ⟨_, exec_burRingSizeWrite hopen v, ?_⟩
    rw [State.burControl_of_running hrun, State.burTake]
    exact ⟨State.burSizeWrite_rd_of_valid hen hv, State.burSizeWrite_status_of_valid hen hv⟩
  case nothingFetched =>
    intro n s hidle hbad
    have hnone := State.oneCycle_burFetch_of_ringBad hidle hbad
    exact ⟨s, congrArg _ (hnone _ 0), congrArg _ (hnone _ n), congrArg _ (hnone _ n), congrArg _ (hnone _ n), rfl, rfl, rfl⟩
  case ringWriteIgnored =>
    intro who a v s hrun hen ha
    exact exec_registerWrite_burRing_of_enabled who v hrun hen ha
  case commandIgnored =>
    intro v s hsize hlo hrun hen
    rw [exec_burRingSizeWrite hsize, exec_burRingLoWrite hlo, State.burControl_of_enabled hrun hen rfl,
      State.burControl_of_enabled hrun hen rfl]
    exact ⟨rfl, rfl⟩
  case commandHeld =>
    intro v s hsize hlo hstop
    rw [exec_burRingSizeWrite hsize, exec_burRingLoWrite hlo, State.burControl_of_stopped hstop, State.burControl_of_stopped hstop]
    exact ⟨rfl, rfl⟩
  case ringEmptied =>
    intro v s hopen hrun hen
    refine ⟨_, exec_burRingLoWrite hopen v, ?_⟩
    rw [State.burControl_of_running hrun, State.burTake]
    refine ⟨?_, ?_, State.burRingWrite_ringLo_burRing hen v.isLt⟩ <;> rw [State.burRingWrite_ringLo hen]
    · rw [State.rd_wr_ne _ _ (by decide), State.rd_wr_self, Nat.zero_mod]
    · rw [State.rd_wr_self, Nat.zero_mod]

end
